-- ==== Sys2Proof/Word.lean ====
section
/-!
DEFINITION. The plainest types of the model: bytes, byte strings, and a sparse table keyed by numbers.
-/
namespace Sys2Proof

/-- One byte as the spec's structures hold it (R6, R7). -/
abbrev Byte := BitVec 8

/-- A run of bytes, first byte first. -/
abbrev Bytes := List Byte

/-- A sparse table: entries by number, keys strictly rising; a key that is not listed holds the table's
default, which each reader names (its reset value). -/
abbrev Tab (α : Type) := List (Nat × α)

end Sys2Proof
end

