-- ==== Sys2Proof/Syntax.lean ====
section
/-!
DEFINITION. The commands the block takes: one constructor of `Instr` for each row of the opcode table, in the table's order,
and the types of their operands.
-/
namespace Sys2Proof

/-- A transport session (R37): a PCIe queue pair of a page, the SPI target, the USB command function, or a trunk's
management channel. -/
inductive Session where
  | pcie (vi qp : Nat)
  | spi
  | usb
  | trunk (n : Fin 4)
  deriving DecidableEq, Repr

/-- A command packet: the header of Table 02.1 (less OPCODE, which the constructor fixes) and its parameters, with the
session it arrived on. -/
structure Packet where
  /-- The session it arrived on -/
  sess : Session
  /-- VERSION -/
  version : BitVec 8
  /-- FLAGS (Table 02.2) -/
  flags : BitVec 8
  /-- TAG -/
  tag : BitVec 32
  /-- PLEN -/
  plen : BitVec 32
  /-- INSTANCE, as received (R28) -/
  inst : BitVec 8
  /-- RSVD byte 13, as received (R27) -/
  rsvd13 : BitVec 8
  /-- EVQ -/
  evq : BitVec 16
  /-- PADDR -/
  paddr : BitVec 64
  /-- CHECK -/
  check : BitVec 32
  /-- The parameter bytes -/
  params : Bytes
  deriving DecidableEq, Repr

/-- A cell: the header fields of Table 05.2 and the payload. -/
structure Cell where
  /-- TID, 0 to 1023 -/
  tid : Nat
  /-- CTYPE (Table 05.3) -/
  ctype : Nat := 1
  /-- F -/
  f : Bool := false
  /-- L -/
  l : Bool := false
  /-- P -/
  p : Bool := false
  /-- SEQ, 16 bits -/
  seq : Nat := 0
  /-- LEN, 6 bits -/
  len : Nat := 56
  /-- AUX, 8 bits -/
  aux : Nat := 0
  /-- XTAG, 16 bits -/
  xtag : Nat := 0
  /-- The 56 payload bytes -/
  payload : Bytes := []
  deriving DecidableEq, Repr

/-- An event queue other than the management event log (R58). -/
inductive QueueRef where
  /-- event queue `q` of instance `vi` -/
  | vi (vi q : Nat)
  /-- the USB interrupt endpoint -/
  | usb
  /-- a trunk's management channel -/
  | trunk (n : Fin 4)
  deriving DecidableEq, Repr

/-- A debug access port operation (R487, R516). -/
inductive DebugOp where
  /-- read `len` bytes -/
  | read (len : Nat)
  /-- write bytes -/
  | write (data : Bytes)
  /-- start a halted task core at the address -/
  | execute
  deriving DecidableEq, Repr

/-- The pins that the kettle samples when a reset begins (R73): ROLE[1:0], BOOTSRC[1:0], and whether TAMPER_L is asserted. -/
structure Straps where
  role : BitVec 2
  boot : BitVec 2
  tamper : Bool := false
  deriving DecidableEq, Repr

/-- What the match counters read at one slip position (R106): true and inverted hits over 64 blocks, then over 1,024 blocks the true
hits, the valid LANE bytes, the changes of LANE, and the LANE read. -/
structure SlipProbe where
  true64 : Nat
  inv64 : Nat
  true1024 : Nat := 0
  valid1024 : Nat := 0
  changes : Nat := 0
  laneId : Nat := 0
  deriving DecidableEq, Repr

/-- The local measurements with which a training step's own work ends (Sequence 04.1). -/
inductive StepWork where
  /-- step 2: duty of the clock lane in percent, and whether the DLL is locked (R104) -/
  | clock (duty : Nat) (locked : Bool)
  /-- step 3: figure of merit per physical lane at each CTLE setting 0 to 15 -/
  | gain (foms : List (List Nat))
  /-- step 4: per physical lane, the probes of slip positions from 0 -/
  | slip (probes : List (List SlipProbe))
  /-- step 5: arrival time per physical lane, in symbols -/
  | deskew (arrivals : List Nat)
  /-- steps 6 and 7: nothing further is measured -/
  | check
  /-- step 9: first DFE tap per physical lane -/
  | precode (dfe : List Int)
  deriving DecidableEq, Repr

/-- Eye measurements of one physical receive lane (R108). -/
structure EyeReading where
  /-- the smallest vertical opening, in microvolts (DESIGN CHOICE, log entry 47: the resolution at which the fraction of R108 is held) -/
  ehUv : Nat
  ewSteps : Nat
  dfe1 : Int := 0
  deriving DecidableEq, Repr

/-- What reading a cell's stockpot line finds (R216, R217): the line's index, the error pattern over its 72 bytes (empty: none), and
whether its descriptor is uncorrectable. -/
structure LineRead where
  line : Nat := 0
  err : Bytes := []
  descBad : Bool := false
  deriving DecidableEq, Repr

/-- The ONFI parameter page of one NAND target, as read at start-up (R329): where the target sits, and the fields that describe geometry, cell
type and timing. -/
structure OnfiPage where
  channel : Nat
  target : Nat
  luns : Nat
  blocksPerLun : Nat
  pagesPerBlock : Nat
  pageBytes : Nat
  /-- true TLC, false SLC -/
  tlc : Bool
  timing : Nat
  peRated : Nat
  /-- read-retry levels the device declares -/
  retryLevels : Nat
  crcOk : Bool
  deriving DecidableEq, Repr

/-- How a NAND page read decoded (R331, R342). -/
inductive NandRead where
  /-- hard read, corrections at most half the code's limit -/
  | good
  /-- hard read with more corrections -/
  | marginal
  /-- at a read-retry level -/
  | retry (level : Nat)
  /-- through die parity -/
  | rebuilt
  /-- not recoverable -/
  | lost
  deriving DecidableEq, Repr

/-- What a DisplayPort sink answers to one AUX request (R315). -/
inductive AuxAnswer where
  | ack (data : Bytes)
  | nack
  | defer
  /-- no answer -/
  | silent
  deriving DecidableEq, Repr

/-- The message intervals of a PTP port (R267). -/
inductive PtpInterval where
  | sync | announce | delay
  deriving DecidableEq, Repr

/-- Endpoints of the hub and of the functions (R359, Table 15.1): the hub's status-change endpoint, the command function's, an NCM
notification endpoint, and the bulk data endpoints of the other functions. -/
inductive UsbEp where
  | hubStatus | cmdOut | reply | event
  | pipeOut (i : Fin 2) | pipeIn (i : Fin 2)
  | notify | dataOut | dataIn
  deriving DecidableEq, Repr

/-- A TLP on an instance's legacy aperture (R386): the instance's page, the aperture offset, the bytes, and the transaction tag of a
non-posted one. -/
structure ApAccess where
  vi : Fin 64
  off : Nat
  len : Nat
  tag : Nat := 0
  deriving DecidableEq, Repr

/-- A VMEbus slave cycle (R397). -/
inductive SlaveCycle where
  | read (len : Nat)
  | write (data : Bytes)
  deriving DecidableEq, Repr

/-- What the sensors read in a second (Table 21.2): hottest junction temperature in °C, deviation of VDD_CORE in mV, total power in W, and
whether the temperature is above the grade's maximum (Table 00.1). -/
structure TickReading where
  tj : Int
  coreMv : Int
  watts : Nat
  hot : Bool
  deriving DecidableEq, Repr

/-- The host errors of Table 11.11 that no completion carries: a posted write with EP set, an ECRC mismatch, a malformed TLP, an AtomicOp
outside a legacy aperture, an access that R271 refuses (a read or a write), and an uncorrectable error in HOST island memory with the
instances that it affects. -/
inductive TlpError where
  | poisonedWrite | ecrc | malformed | atomic
  | badAccess (read : Bool)
  | internal (vis : BitVec 64)
  deriving DecidableEq, Repr


/-- The commands, one constructor per row of the opcode table. -/
inductive Instr where
  /-- POWER_ON_RESET (R76): PORST_L held low past its filter starts a power-on reset: all state not preserved returns to reset values and the part enters BOOT with reason POWER_ON. -/
  | powerOnReset (lowNs : Nat) (straps : Straps)
  /-- VDD_AON_BROWNOUT (R503): VDD_AON below 0.70 V for 1 µs causes a power-on reset, released 1 ms after it recovers above 0.74 V. -/
  | vddAonBrownout (straps : Straps)
  /-- WARM_RESET (R76): A warm reset begins: straps and fuses are read again and the Table 03.4 warm column applies. -/
  | warmReset (straps : Straps)
  /-- COMMAND_RESET (R76): A command reset restarts the control complex and its transports; open handles complete aborted and traffic continues. -/
  | commandReset
  /-- CC_WATCHDOG_EXPIRY (R75): After 2 s without a firmware heartbeat the control-complex watchdog causes a command reset, or a warm reset within 60 s of a command reset. -/
  | ccWatchdogExpiry (straps : Straps)
  /-- KETTLE_WATCHDOG_EXPIRY (R67): Expiry of the kettle's own watchdog causes a warm reset with MODE_CHANGED reason WATCHDOG. -/
  | kettleWatchdogExpiry (straps : Straps)
  /-- ISLAND_START_STEP (R82): Once the previous step's supply currents have settled and 20 µs have passed, the kettle starts the next island of Table 03.7. -/
  | islandStartStep (pages : List OnfiPage) (lostVols : List Nat)
  /-- ISLAND_SETTLE_TIMEOUT (R83): An island not settled 2 ms after its step began is powered down and the part enters RECOVERY with reason ISLAND_SETTLE. -/
  | islandSettleTimeout
  /-- SEC_SELFTEST_DONE (R83): The SEC power-up self-tests complete; a failure enters LOCKDOWN with reason SELF_TEST, a pass lets step 3 proceed. -/
  | secSelftestDone (pass : Bool)
  /-- MODE_TRANSITION_DONE (R68): A mode transition completes, MODE_CHANGED is posted, and any waiting trigger is re-evaluated and carried out or dropped. -/
  | modeTransitionDone
  /-- FIRMWARE_REHASH (R81): Every 10 s the kettle re-hashes loaded task-core and SEC code; a mismatch enters LOCKDOWN with reason INTEGRITY. -/
  | firmwareRehash (same : Bool)
  /-- TAMPER_ASSERT (R71): TAMPER_L asserted zeroizes all keys and persisted blobs and enters LOCKDOWN with reason TAMPER. -/
  | tamperAssert
  /-- ZEROIZE_L_ASSERT (R463): ZEROIZE_L low for 1 µs causes ALL_PERSIST zeroization and blocks key creation while held. -/
  | zeroizeLAssert
  /-- ZEROIZE_L_RELEASE (R463): ZEROIZE_L released ends the refusal of generate, derive, load and import. -/
  | zeroizeLRelease
  /-- HELLO (R38): Negotiates the session's command interface version and reports the issuer's level and code. -/
  | hello (p : Packet)
  /-- GET_IDENTITY (R3): Returns family, part, stepping, role, mode, firmware version, lifecycle and serial. -/
  | getIdentity (p : Packet)
  /-- ECHO (R31): Returns its parameters unchanged as response data. -/
  | echo (p : Packet)
  /-- QUERY_HANDLE (R53): Returns the state and final status of a handle and optionally releases a complete record. -/
  | queryHandle (p : Packet)
  /-- CANCEL (R56): Records a cancellation of a handle or reports it committed or already complete. -/
  | cancel (p : Packet)
  /-- READ_EVENT_LOG (R58): Returns up to COUNT records of the management event log from FROM_SEQ, flagging a gap. -/
  | readEventLog (p : Packet)
  /-- SET_REMOTE_POLICY (R64): Sets a trunk's 18-bit remote policy mask for commands received after the reply. -/
  | setRemotePolicy (p : Packet)
  /-- SET_MANAGER_TRANSPORT (R65): Moves the manager role to another transport after the reply and posts MANAGER_MOVED. -/
  | setManagerTransport (p : Packet)
  /-- GET_CMD_COUNTERS (R31): Returns per-transport counters of commands received, rejected, discarded and events lost. -/
  | getCmdCounters (p : Packet)
  /-- QUEUE_OVERFLOW (R60): When a slot frees in a queue that dropped events, the next record written is QUEUE_OVERFLOW with the lost count. -/
  | queueOverflow (q : QueueRef)
  /-- WRITE_FRAME (R42): SPI instruction delivering a command frame, accepted only with CHECKED and exact length, otherwise discarded with FRAME_ERROR. -/
  | writeFrame (bytes : Bytes)
  /-- READ_STATUS (R42): SPI instruction returning the status byte, clearing FRAME_ERROR when read. -/
  | readStatus (n : Nat)
  /-- READ_FRAME (R43): SPI instruction returning the reply; a read of at least 16 bytes clears REPLY_READY. -/
  | readFrame (n : Nat)
  /-- READ_EVENT (R58): SPI instruction returning the oldest unread management event log record and marking it read. -/
  | readEvent
  /-- GET_MODE (R66): Returns mode, role mode, straps, role lock, boot slot, last reset, cause, fuse count and boot flags. -/
  | getMode (p : Packet)
  /-- ENTER_QUIET (R70): Starts the transition to QUIET with the chosen wake sources, degrading trunks and self-refreshing heads. -/
  | enterQuiet (p : Packet)
  /-- EXIT_QUIET (R68): Starts the return from QUIET to the preceding role mode. -/
  | exitQuiet (p : Packet)
  /-- RESET_DEVICE (R89): Requests a warm or command reset, begun 1 ms after the reply unless a commit or shift is open without FORCE. -/
  | resetDevice (p : Packet)
  /-- ENTER_RECOVERY (R68): Starts the transition to RECOVERY, replying once the transition begins or is dropped. -/
  | enterRecovery (p : Packet)
  /-- IMAGE_WRITE (R86): Writes a contiguous piece of a firmware image into the staging slot; offset 0 erases and opens staging. -/
  | imageWrite (p : Packet)
  /-- IMAGE_COMMIT (R87): Starts verification of the staged image and the directory write making its slot ACTIVE. -/
  | imageCommit (p : Packet)
  /-- IMAGE_COMMIT_DONE (R87): The commit's checks and directory write finish and its handle completes within 3 s. -/
  | imageCommitDone (mediaOk : Bool)
  /-- COMMIT_ROLLBACK (R88): Starts blowing rollback fuse bits until the counter equals the running image's SVN. -/
  | commitRollback (p : Packet)
  /-- COMMIT_ROLLBACK_DONE (R88): The fuse blowing completes and the handle posts its completion. -/
  | commitRollbackDone (readBackOk : Bool)
  /-- GET_MEASUREMENTS (R85): Returns measurement registers M0–M7. -/
  | getMeasurements (p : Packet)
  /-- EXTEND_M7 (R85): Extends M7 with a 48-byte digest. -/
  | extendM7 (p : Packet)
  /-- LOCK_ROLE (R74): Blows the role-lock fuse field once, effective at the next power-on or warm reset. -/
  | lockRole (p : Packet)
  /-- TRAINING_ATTEMPT_START (R101): A trunk that is ADMIN_UP, meets R24 and is in a role mode or QUIET begins a training attempt at step 1. -/
  | trainingAttemptStart (n : Fin 4)
  /-- TRAIN_RETRY_TIMER (R101): The 10 ms wait after a failed attempt or BACKOFF_MS after three failures expires and training tries again. -/
  | trainRetryTimer (n : Fin 4)
  /-- TRAIN_STEP_RX (R99): A TRAIN_STEP from the peer is received; a step ends when both ends have exchanged STATE 1, and a waiting trunk joins a step 1 attempt. -/
  | trainStepRx (n : Fin 4) (step st depth rxset precode : Nat)
  /-- TRAIN_STEP_REPEAT (R99): Every 2 ms a TRAIN_STEP is repeated until the peer's matching STEP and STATE arrive. -/
  | trainStepRepeat (n : Fin 4)
  /-- TRAIN_STEP_LOCAL_DONE (R99): This end finishes its local work of a training step (clock polarity, bit-slip search, deskew, equalisation, flight) and sends STATE 1. -/
  | trainStepLocalDone (n : Fin 4) (w : StepWork)
  /-- STEP_TIMEOUT (R100): A training step not ended by its window fails the attempt with reason STEP_TIMEOUT. -/
  | stepTimeout (n : Fin 4)
  /-- TRAIN_FAIL_RX (R100): A peer's TRAIN_FAIL ends the attempt at this end, recorded with reason PEER_FAIL. -/
  | trainFailRx (n : Fin 4) (step reason : Nat)
  /-- TXEQ_REQ_RX (R110): A TXEQ_REQ is applied within 100 µs, clipped at tap limits, and answered with TXEQ_ACK. -/
  | txeqReqRx (n : Fin 4) (seq mode : Nat) (lanes : Bytes)
  /-- TXEQ_ACK_RX (R110): A TXEQ_ACK arrives and the receiver's equalisation search measures FoM and continues or undoes. -/
  | txeqAckRx (n : Fin 4) (seq : Nat) (coef : Bytes) (limit : Nat) (foms : List Nat)
  /-- FLIGHT_STAMP_RX (R116): A FLIGHT_STAMP is received and used to compute flight; mismatched results rerun or fail the step. -/
  | flightStampRx (n : Fin 4) (index txBlock txPs rxBlock rxPs : Nat) (arrivedPs peerMean : Nat)
  /-- LINK_CAPS_RX (R149): The peer's LINK_CAPS fixes revision, widest width, cable class and features for the attempt. -/
  | linkCapsRx (n : Fin 4) (body : Bytes)
  /-- LINK_CAPS_REPEAT (R149): LINK_CAPS is repeated every 2 ms in step 1 until the peer's arrives. -/
  | linkCapsRepeat (n : Fin 4)
  /-- FOM_REFRESH (R108): At least once per millisecond every receive lane's figure of merit is recomputed from the error sampler. -/
  | fomRefresh (n : Fin 4) (eyes : List EyeReading)
  /-- LANE_FOM_LOW (R114): An active lane below FOM_DEGRADE for 10 ms in DATA is posted LANE_FOM_LOW and reported to framing as failing. -/
  | laneFomLow (n : Fin 4) (lane : Fin 4)
  /-- CLOCK_LANE_LOSS (R114): The clock lane DLL loses lock and the trunk leaves DATA within 100 ns with LINK_DOWN reason NO_CLOCK. -/
  | clockLaneLoss (n : Fin 4)
  /-- ADAPT_LIVE_TIMER (R111): With ADAPT_LIVE, every 100 ms a lane below FOM_MIN may send one delta TXEQ_REQ in DATA. -/
  | adaptLiveTimer (n : Fin 4) (lane : Fin 4) (up post : Bool)
  /-- LOOP_REQ_RX (R119): A LOOP_REQ is accepted or denied with LOOP_ACK; MODE 0 ends a far-end loop. -/
  | loopReqRx (n : Fin 4) (mode lanes : Nat)
  /-- LOOP_ACK_RX (R119): A LOOP_ACK completes TRUNK_LOOP as running or denied. -/
  | loopAckRx (n : Fin 4) (result reason : Nat)
  /-- LOOP_ACK_TIMEOUT (R119): No LOOP_ACK within 100 ms completes a far-end TRUNK_LOOP with STATUS_TIMEOUT. -/
  | loopAckTimeout (n : Fin 4)
  /-- LOOP_REQ_REPEAT (R119): The requesting end repeats LOOP_REQ every 500 ms. -/
  | loopReqRepeat (n : Fin 4)
  /-- LOOP_EXPIRY (R119): The looping end ends the loop 2 s after the last LOOP_REQ and posts LOOP_ENDED. -/
  | loopExpiry (n : Fin 4)
  /-- TRUNK_LANE_CTRL (R120): Sets a trunk's admin state, width, revision, FoM limits, clock source and flags. -/
  | trunkLaneCtrl (p : Packet)
  /-- GET_LANE_STATUS (R101): Returns a trunk's lane state, revision, width, flight, skew and per-lane records. -/
  | getLaneStatus (p : Packet)
  /-- TRUNK_RETRAIN (R103): Takes a trunk down and starts a training attempt, completing at LINK_UP or failure. -/
  | trunkRetrain (p : Packet)
  /-- TRUNK_LOOP (R118): Enters or ends a near-end or far-end test loop on an ADMIN_DOWN trunk. -/
  | trunkLoop (p : Packet)
  /-- EYE_SCAN (R108): Starts an eye scan of an active lane in DATA or LOOP. -/
  | eyeScan (p : Packet)
  /-- EYE_SCAN_DONE (R108): An eye scan completes within 200 ms and its handle completes. -/
  | eyeScanDone (n : Fin 4) (grid : List Nat)
  /-- GET_EYE (R108): Returns the last completed eye scan grid of a lane. -/
  | getEye (p : Packet)
  /-- GET_LANE_COUNTERS (R121): Returns the trunk and lane counters, optionally clearing them. -/
  | getLaneCounters (p : Packet)
  /-- CODEWORD_RX (R123): A data codeword is received and decoded; up to 8 symbol errors are corrected, otherwise it is flagged uncorrectable and NAKed. -/
  | codewordRx (n : Fin 4) (rx : List (List Nat))
  /-- MARKER_RX (R130): A spoke marker is received and validated, and its NAK, ACK, RESOLVED, credit, width, shift, sealing and time fields are used. -/
  | markerRx (n : Fin 4) (rx : List (List Nat)) (arrivedPs : Nat)
  /-- MARKER_LOCK_LOST (R131): Four consecutive lost markers drop marker lock, take the trunk out of DATA with MARKER_LOSS and restart training. -/
  | markerLockLost (n : Fin 4)
  /-- MARKER_TX (R126): At each spoke boundary the transmitter sends a marker carrying turn, stamp, gear and shift state, NAKs, ACK, credits, width change, sealing, management segment and flags. -/
  | markerTx (n : Fin 4)
  /-- TOOTH_PICK (R153): At a codeword's pick point the chainring engine fills its five teeth with contracted, replay or freewheel cells or IDLE. -/
  | toothPick (n : Fin 4) (reads : List LineRead)
  /-- REPLAY_COPY_EXPIRY (R136): A V cell's replay copy is released six spokes after its tooth. -/
  | replayCopyExpiry (n : Fin 4) (cwsn slot : Nat)
  /-- REPLAY_WINDOW_END (R138): At the end of a NAK's replay window unsent cells are abandoned, RESOLVED advances and promises are suspended REPLAY_EXHAUSTED. -/
  | replayWindowEnd (n : Fin 4)
  /-- HOLD_TIMEOUT (R141): A NAK outstanding six spokes is given up; held cells are released with gaps and promises suspended. -/
  | holdTimeout (n : Fin 4)
  /-- MGMT_RESEND (R132): With segments outstanding and no MACK advance for three spokes, the sender resends from the oldest. -/
  | mgmtResend (n : Fin 4)
  /-- DEGRADE_TRIGGER (R143): DEGRADE_RUN consecutive uncorrectable codewords or a failing lane start a fast FoM reading. -/
  | degradeTrigger (n : Fin 4)
  /-- FAST_FOM_DONE (R143): The fast FoM reading completes and a degrade request is made to the widest usable width or the link goes down. -/
  | fastFomDone (n : Fin 4) (foms : List Nat)
  /-- WIDTH_CHANGE_TARGET (R144): At a width change's target boundary both directions switch width and the limp variant's tooth table applies. -/
  | widthChangeTarget (n : Fin 4)
  /-- UPGRADE_PROPOSE (R146): After UPGRADE_HOLD seconds of usable wider lane sets an end proposes an upgrade. -/
  | upgradePropose (n : Fin 4)
  /-- GET_FRAMING_STATUS (R134): Returns framing state, marker format, width, replay state and sequence positions of a trunk. -/
  | getFramingStatus (p : Packet)
  /-- GET_FRAMING_COUNTERS (R121): Returns the 24 framing counters, optionally clearing them. -/
  | getFramingCounters (p : Packet)
  /-- TRUNK_WIDTH (R150): Requests a degrade or proposes an upgrade to a given width. -/
  | trunkWidth (p : Packet)
  /-- SET_FRAMING_CTRL (R146): Sets UPGRADE_AUTO, DEGRADE_RUN and UPGRADE_HOLD of a trunk. -/
  | setFramingCtrl (p : Packet)
  /-- CELL_PRESENT (R214): An endpoint presents a cell at its fabric input; it is written to the stockpot and linked, or left at the source. -/
  | cellPresent (port : Fin 11) (tid : Nat)
  /-- BACKLOG_LINK (R214): A trunk cell waiting in an output's link backlog is linked into its queue when the output has a free link slot. -/
  | backlogLink (port : Fin 11)
  /-- FABRIC_SPOKE_START (R159): A new fabric spoke begins and every output's contracted budget count restarts. -/
  | fabricSpokeStart
  /-- ENDPOINT_TAKE (R232): An endpoint at F4–F10 takes the next cell from its output, contracted first, otherwise by freewheel decision. -/
  | endpointTake (port : Fin 11) (r : LineRead)
  /-- PROMISE_RESTORE (R167): At the second turn boundary after the last cause, with conditions restored, a suspended promise is restored. -/
  | promiseRestore (tid : Nat)
  /-- GET_PROMISE (R156): Returns a tunnel's promise state, cause, variant and certified bound. -/
  | getPromise (p : Packet)
  /-- GET_CHAINRING_COUNTERS (R121): Returns the eight chainring counters of a fabric port. -/
  | getChainringCounters (p : Packet)
  /-- GEAR_STAGE (R197): Places gear image bytes in the staging buffer in sequence. -/
  | gearStage (p : Packet)
  /-- GEAR_VERIFY (R184): Starts the derailleur's check of a staged or inline image for a gear slot. -/
  | gearVerify (p : Packet)
  /-- DERAILLEUR_PASS_DONE (R184): The derailleur's linear pass ends, refusing the image or copying it into its slot as READY. -/
  | derailleurPassDone (slot : Fin 4)
  /-- GEAR_CLEAR (R171): Empties a gear slot and removes its persisted copy. -/
  | gearClear (p : Packet)
  /-- SHIFT (R186): Opens a shift to a READY slot or NONE at target turn T and makes the slot TARGET. -/
  | shift (p : Packet)
  /-- SHIFT_DECIDE (R188): At boundary T − 16 the shift commits if every trunk in DATA is matched and confirmed, otherwise aborts. -/
  | shiftDecide
  /-- SHIFT_APPLY (R190): At boundary T a committed shift replaces every table, swaps slots, posts SHIFT_DONE and completes the handle. -/
  | shiftApply
  /-- GET_GEAR_SLOTS (R170): Returns the four slot records and the shift record. -/
  | getGearSlots (p : Packet)
  /-- GEAR_RESTORE (R198): Once the CROCK island has started, persisted gear images are re-verified into their slots and GEAR_RESTORED posted. -/
  | gearRestore
  /-- BOOT_SHIFT_ISSUE (R198): As soon as R186 allows, the part issues itself a SHIFT to the accepted BOOT image. -/
  | bootShiftIssue
  /-- OPEN_CELL_RX (R205): An OPEN control cell is checked in Table 08.6 order and forwarded, accepted at the destination, or refused. -/
  | openCellRx (n : Fin 4) (cell : Cell)
  /-- OPEN_ACK_RX (R208): An OPEN_ACK moves contexts to OPEN or QUARANTINE and completes TUNNEL_OPEN at device 0. -/
  | openAckRx (n : Fin 4) (cell : Cell)
  /-- CLOSE_CELL_RX (R209): A DRAIN or ABORT CLOSE is forwarded and moves the context to CLOSING or QUARANTINE. -/
  | closeCellRx (n : Fin 4) (cell : Cell)
  /-- CLOSE_ACK_RX (R210): A CLOSE_ACK completes the close handle at the originator. -/
  | closeAckRx (n : Fin 4) (cell : Cell)
  /-- FLOW_CELL_RX (R203): A FLOW cell updates the source's credit limit for a flow-controlled tunnel. -/
  | flowCellRx (n : Fin 4) (cell : Cell)
  /-- OPEN_TIMEOUT (R208): No OPEN_ACK within 100 ms makes device 0 send ABORT CLOSE and complete TUNNEL_OPEN with STATUS_TIMEOUT. -/
  | openTimeout (tid : Nat)
  /-- OPENING_TIMEOUT (R519): A non-source context in OPENING for 100 ms originates an ABORT CLOSE with cause OPEN_TIMEOUT. -/
  | openingTimeout (tid : Nat)
  /-- DRAIN_TURNS_EXPIRY (R209): DRAIN_TURNS boundaries after a CLOSE, remaining cells are discarded and the context quarantined with DRAIN_TIMEOUT. -/
  | drainTurnsExpiry (tid : Nat)
  /-- CLOSE_TIMEOUT (R210): A close handle without its CLOSE_ACKs in time completes with STATUS_TIMEOUT and frees contexts. -/
  | closeTimeout (handle : Nat)
  /-- QUARANTINE_END (R202): After 16 turn boundaries a quarantined context becomes FREE. -/
  | quarantineEnd (tid : Nat)
  /-- SF_TIMEOUT (R225): A store-and-forward message whose L cell is not linked within SF_TIMEOUT is discarded whole. -/
  | sfTimeout (port : Fin 11) (tid : Nat)
  /-- SIEVE_AUDIT (R226): Every AUDIT_MS the sieve reads every descriptor, flags and reclaims leaked cells and posts SIEVE_LEAK. -/
  | sieveAudit
  /-- TUNNEL_OPEN (R205): Starts opening a tunnel from device 0 along its route. -/
  | tunnelOpen (p : Packet)
  /-- TUNNEL_CLOSE (R230): Starts a DRAIN or ABORT close of a tunnel. -/
  | tunnelClose (p : Packet)
  /-- GET_TUNNEL (R230): Returns a tunnel's context. -/
  | getTunnel (p : Packet)
  /-- LIST_TUNNELS (R230): Returns entries for non-free contexts from FROM_TID. -/
  | listTunnels (p : Packet)
  /-- SET_FORWARDING (R224): Sets cut-through or store-and-forward per class at an output port. -/
  | setForwarding (p : Packet)
  /-- GET_STOCKPOT (R219): Returns stockpot pool sizes, usage and error counters. -/
  | getStockpot (p : Packet)
  /-- SIEVE_CTRL (R227): Sets the sieve's audit period and RECLAIM flag. -/
  | sieveCtrl (p : Packet)
  /-- FW_QUEUE_SET (R237): Sets a class B queue's weight and shaper. -/
  | fwQueueSet (p : Packet)
  /-- FW_PORT_SET (R237): Sets an output's overhead, demote weight, port shaper and credit limits. -/
  | fwPortSet (p : Packet)
  /-- POLICER_SET (R240): Sets a contracted tunnel's policer mode. -/
  | policerSet (p : Packet)
  /-- FW_QUEUE_GET (R245): Returns a queue's state and counters and clears its high-water marks. -/
  | fwQueueGet (p : Packet)
  /-- FW_PORT_GET (R245): Returns a port's freewheel state and counters and clears its high-water marks. -/
  | fwPortGet (p : Packet)
  /-- LADLE_FILTER_SET (R246): Configures a ladle filter. -/
  | ladleFilterSet (p : Packet)
  /-- LADLE_RING_SET (R249): Configures a ladle ring's mode, size, owner and addresses. -/
  | ladleRingSet (p : Packet)
  /-- LADLE_READ (R251): Returns records of internal ring 0 from FROM_RSEQ. -/
  | ladleRead (p : Packet)
  /-- LADLE_CONSUME (R250): Advances a ring's consumer RSEQ, releasing records. -/
  | ladleConsume (p : Packet)
  /-- LADLE_RECORD_WRITE (R249): Queued ladle records are written to their ring and the producer index written back. -/
  | ladleRecordWrite
  /-- TIME_GET (R253): Returns the local time, state, source, offsets and PPS stamp. -/
  | timeGet (p : Packet)
  /-- TIME_SET (R269): Decides an absolute or relative step, or sets frequency when no source is selected. -/
  | timeSet (p : Packet)
  /-- TIME_CONFIG (R269): Sets time sources, step threshold, policy and servo parameters. -/
  | timeConfig (p : Packet)
  /-- PTP_PORT_SET (R267): Configures PTP on an Ethernet port. -/
  | ptpPortSet (p : Packet)
  /-- PPS_SET (R268): Configures PPS_OUT and PPS_IN. -/
  | ppsSet (p : Packet)
  /-- TIME_STEP_APPLY (R259): At boundary B the clock jumps by Δq, the adjusted turn begins and TIME_STEPPED is posted, unless B is deferred. -/
  | timeStepApply
  /-- CLOCK_INFO_TX (R265): Once per turn each end sends CLOCK_INFO on TID 1. -/
  | clockInfoTx (n : Fin 4)
  /-- CLOCK_INFO_RX (R265): A peer's CLOCK_INFO presents its dataset to source selection. -/
  | clockInfoRx (n : Fin 4) (cell : Cell)
  /-- STEP_NOTICE_RX (R261): A peer's STEP_NOTICE tells the receiver how its adjusted turn's markers will run. -/
  | stepNoticeRx (n : Fin 4) (cell : Cell)
  /-- PTP_MESSAGE_RX (R266): A received PTP event or general message is stamped and handed to the PTP engine and servo. -/
  | ptpMessageRx (port : Fin 4)
  /-- PTP_INTERVAL_TIMER (R267): A PTP message interval expires and the engine sends its Sync, Announce or delay message. -/
  | ptpIntervalTimer (port : Fin 4) (kind : PtpInterval)
  /-- PTP_ANNOUNCE_TIMEOUT (R256): A PTP source without Announce for ANNOUNCE_TIMEOUT intervals is lost. -/
  | ptpAnnounceTimeout (port : Fin 4)
  /-- HOLDOVER_EXPIRY (R255): After HOLDOVER_S in HOLDOVER the time unit goes to FREERUN. -/
  | holdoverExpiry
  /-- JUMP_CONFIRM (R257): Under AFTER_CONFIRM a refused offset held for CONFIRM_S is applied with JUMP_CONFIRMED. -/
  | jumpConfirm
  /-- JUMP_REFUSED_REPOST (R257): While a refusal lasts TIME_JUMP_REFUSED is posted again after 60 s. -/
  | jumpRefusedRepost
  /-- PPS_IN_EDGE (R268): A rising edge on PPS_IN is stamped and may correct phase. -/
  | ppsInEdge
  /-- PPS_OUT_EDGE (R268): PPS_OUT rises at each second boundary plus offset and falls after its width. -/
  | ppsOutEdge
  /-- SQ_TAIL_DOORBELL (R274): A submission doorbell write makes commands fetchable or stops an overrun queue pair. -/
  | sqTailDoorbell (vi : Fin 64) (qp : Fin 64) (value : BitVec 32)
  /-- CQ_HEAD_DOORBELL (R275): A completion head doorbell frees completion and reply ring space. -/
  | cqHeadDoorbell (vi : Fin 64) (qp : Fin 64) (value : BitVec 32)
  /-- EVQ_HEAD_DOORBELL (R276): An event queue head doorbell frees event slots. -/
  | evqHeadDoorbell (vi : Fin 64) (e : Fin 32) (value : BitVec 32)
  /-- RING_PRODUCER_DOORBELL (R274): A data ring producer doorbell hands descriptors to the device. -/
  | ringProducerDoorbell (vi : Fin 64) (ring : Fin 256) (value : BitVec 32)
  /-- QCTL0_WRITE (R272): A QCTL0 write with ENABLE creates or deletes the bootstrap queue pair and event queue. -/
  | qctl0Write (vi : Fin 64) (value : BitVec 32)
  /-- IRQ_CAUSE_WRITE (R294): A W1C write to IRQ_CAUSE clears bits without losing bits set in the same cycle. -/
  | irqCauseWrite (value : BitVec 32)
  /-- TURN_LATCH_READ (R294): A 4-byte read of TURN at 0x3008 latches the upper half for the following read. -/
  | turnLatchRead (upper : Bool)
  /-- REGISTER_WRITE (R271): A write to a register without its own row sets the field or is ignored and counted. -/
  | registerWrite (off : BitVec 23) (len : Nat) (value : BitVec 64)
  /-- HEARTBEAT_TICK (R293): Every 10 ms the control complex increments HEARTBEAT. -/
  | heartbeatTick
  /-- HEARTBEAT_STOPPED (R294): HEARTBEAT not advancing for 2 s sets IRQ_CAUSE.HEARTBEAT_STOPPED. -/
  | heartbeatStopped
  /-- HELD_REPLY_WRITE (R277): A reply held for a full completion ring is written once CQ_HEAD frees an entry. -/
  | heldReplyWrite (vi : Fin 64) (qp : Fin 64)
  /-- COALESCE_TIMER (R277): The coalescing time since a vector's last message passes and a pending MSI-X message is raised. -/
  | coalesceTimer (v : Fin 2048)
  /-- MSIX_VECTOR_UNMASK (R277): Unmasking an MSI-X vector sends its pending message. -/
  | msixVectorUnmask (v : Fin 2048)
  /-- HOST_READ_COMPLETION (R278): A DMA read completion arrives and its bytes are packed into cells, parameters or fetch buffers. -/
  | hostReadCompletion (tag : Nat) (data : Bytes) (poisoned : Bool)
  /-- DMA_COMPLETION_TIMEOUT (R291): A DMA read without completion in time ends its message poisoned or fails its fetch and posts DMA_ERROR. -/
  | dmaCompletionTimeout (tag : Nat)
  /-- TLP_ERROR (R291): A poisoned, ECRC-failed or malformed TLP is discarded or marked and reported through AER. -/
  | tlpError (e : TlpError)
  /-- HOST_LINK_DOWN (R289): The PCIe data link goes down without PE_PERST_L and every instance is quiesced with LINK_LOSS. -/
  | hostLinkDown
  /-- HOST_LINK_UP (R285): The PCIe link trains and HOST_LINK is posted with width and rate. -/
  | hostLinkUp (width : Fin 4) (rate : Fin 5)
  /-- PE_PERST_ASSERT (R290): PE_PERST_L asserted resets the host attachment and destroys every instance. -/
  | pePerstAssert
  /-- PE_PERST_RELEASE (R82): PE_PERST_L released starts the HOST island in DOCK and RELAY with step 4 inrush. -/
  | pePerstRelease
  /-- INSTANCE_CREATE (R282): Creates a virtual instance and takes its grants from the pools. -/
  | instanceCreate (p : Packet)
  /-- INSTANCE_DESTROY (R282): Destroys a quiesced instance and returns its grants. -/
  | instanceDestroy (p : Packet)
  /-- QUIESCE_INSTANCE (R287): Stops an instance issuing work and settles its engines' work. -/
  | quiesceInstance (p : Packet)
  /-- QUIESCE_DONE (R287): Every engine has retired or aborted the instance's work; it becomes QUIESCED and the handle completes. -/
  | quiesceDone (vi : Fin 64)
  /-- QUIESCE_TIMEOUT (R287): QUIESCE_MS passes first and the quiesce handle completes with STATUS_TIMEOUT. -/
  | quiesceTimeout (vi : Fin 64)
  /-- RESET_INSTANCE (R288): Closes a quiesced instance's tunnels, deletes its queues, zeroizes its keys and returns it to ACTIVE. -/
  | resetInstance (p : Packet)
  /-- FORCE_RESET (R288): Resets an instance from any state, aborting engine work without waiting. -/
  | forceReset (p : Packet)
  /-- GET_INSTANCE (R282): Returns an instance's state, grants, usage and counters. -/
  | getInstance (p : Packet)
  /-- QUEUE_CREATE (R273): Creates a queue pair or event queue of an instance. -/
  | queueCreate (p : Packet)
  /-- QUEUE_DELETE (R292): Deletes a queue pair or event queue, ending its session. -/
  | queueDelete (p : Packet)
  /-- RING_BIND (R292): Binds or unbinds a data ring to a tunnel ending at F4. -/
  | ringBind (p : Packet)
  /-- HEAD_MODE_SET (R309): Checks a timing mode against teeth and burst and writes it to the head's shadow for the next latch. -/
  | headModeSet (p : Packet)
  /-- LAYER_SET (R296): Writes a layer's format, geometry, addresses and flags to the shadow. -/
  | layerSet (p : Packet)
  /-- LAYER_FLIP (R311): Writes a layer's new addresses to the shadow for the next latch. -/
  | layerFlip (p : Packet)
  /-- HEAD_CTRL (R315): Sets a head's enable, freeze threshold and layer owners. -/
  | headCtrl (p : Packet)
  /-- SELF_REFRESH (R312): Enters or leaves self-refresh of a hub head. -/
  | selfRefresh (p : Packet)
  /-- DOCK_OUTPUT_SET (R305): Selects a dock head's output kind, lanes, rate, delay and flags. -/
  | dockOutputSet (p : Packet)
  /-- DP_AUX (R315): Performs a native or I2C-over-AUX transaction with defer and retry rules. -/
  | dpAux (p : Packet) (sink : List AuxAnswer)
  /-- GET_HEAD (R303): Returns a head's state, lock, link, frame and counters. -/
  | getHead (p : Packet)
  /-- HUB_LINE_START (R297): A hub head's line start marks fetch deadlines, composition, frame records and mode-change and self-refresh completions. -/
  | hubLineStart (head : Fin 4)
  /-- VBLANK_LATCH (R311): At vertical blank the shadow mode, layers and flips are latched and FLIP_DONE posted. -/
  | vblankLatch (head : Fin 4)
  /-- RASTER_CELL_EMIT (R301): At its emission instant the head presents the next cell of the composed line, or skips lines when teeth fall short. -/
  | rasterCellEmit (head : Fin 4)
  /-- REPORT_RX (R314): A dock REPORT is compared with the hub's CRC and E2E_MISMATCH posted after FREEZE_N mismatches. -/
  | reportRx (head : Fin 4)
  /-- DOCK_LINE_READ (R303): The dock timing generator reads a line from the buffer or shows background. -/
  | dockLineRead (head : Fin 4)
  /-- DOCK_FRAME_START (R304): A dock frame begins; phase is corrected and the previous frame's REPORT is sent. -/
  | dockFrameStart (head : Fin 4) (trained : Bool)
  /-- NO_RASTER_TIMEOUT (R308): No FRAME record for two frame periods shows background and posts DOCK_OUTPUT_FAULT NO_RASTER. -/
  | noRasterTimeout (head : Fin 4)
  /-- HPD_RISE (R307): A rise of HPD reads sink capabilities and trains the DisplayPort link. -/
  | hpdRise (head : Fin 4) (lanes rate : Nat) (psr trained : Bool)
  /-- HPD_FALL (R307): HPD low for over 2 ms stops the main link and posts HPD_CHANGED. -/
  | hpdFall (head : Fin 4)
  /-- IRQ_HPD (R307): An IRQ_HPD pulse reads link status and retrains a failed link. -/
  | irqHpd (head : Fin 4) (linkOk trained : Bool)
  /-- ETH_PORT_SET (R328): Sets an Ethernet port's mode, flags, loop, miss action and maximum frame. -/
  | ethPortSet (p : Packet)
  /-- ETH_CLASS_WRITE (R321): Replaces a classification entry atomically, optionally checking GEN. -/
  | ethClassWrite (p : Packet)
  /-- ETH_CLASS_READ (R328): Returns classification entries with their GEN. -/
  | ethClassRead (p : Packet)
  /-- ETH_PORT_STATUS (R317): Returns an Ethernet port's state, mode and flags. -/
  | ethPortStatus (p : Packet)
  /-- ETH_COUNTERS (R121): Returns the sixteen Ethernet counters, optionally clearing them. -/
  | ethCounters (p : Packet)
  /-- ETH_FRAME_RX (R320): A received frame is checked, sent to PTP, dropped or classified and cut into cells for its tunnel. -/
  | ethFrameRx (port : Fin 4) (frame : Bytes) (fcsOk : Bool) (corrected : Nat) (uncorrectable : Nat)
  /-- ETH_LOCK_CHANGE (R317): A port gains or loses lock and ETH_LINK_CHANGED is posted. -/
  | ethLockChange (port : Fin 4) (lock : Bool) (an : Bool) (rs : Bool)
  /-- ETH_AUTO_POL_TIMER (R318): Without lock the receiver inverts its polarity every 20 ms. -/
  | ethAutoPolTimer (port : Fin 4)
  /-- ETH_FRAME_TX (R325): An egress port starts sending the next ready frame, ending bad frames with inverted FCS. -/
  | ethFrameTx (port : Fin 4) (starved : Bool)
  /-- CENSUS_DONE (R344): The start-up census completes, CENSUS_DONE is posted and volumes become ONLINE. -/
  | censusDone
  /-- NAND_READ_DONE (R331): A NAND page read completes and is decoded, retried or rebuilt, and data or a lost block is sent. -/
  | nandReadDone (op : Nat) (r : NandRead)
  /-- NAND_PROGRAM_DONE (R345): A NAND program completes; blocks commit and write responses are sent, or a failure retires the block. -/
  | nandProgramDone (op : Nat) (good : Bool)
  /-- NAND_ERASE_DONE (R336): An erase completes or fails and the block is retired as grown bad. -/
  | nandEraseDone (op : Nat) (good : Bool)
  /-- BACKGROUND_MAINTENANCE (R340): Outside Crock windows the Crock runs refresh, relocation and static wear levelling within REFRESH_SHARE. -/
  | backgroundMaintenance
  /-- RETENTION_AGE_EXPIRY (R341): A block whose powered age exceeds RETENTION_DAYS is queued for refresh. -/
  | retentionAgeExpiry (eb : Nat)
  /-- CROCK_GET_INFO (R335): Returns the Crock's state, media, capacity, spare, hold-up and wear figures. -/
  | crockGetInfo (p : Packet)
  /-- CROCK_FORMAT (R353): Starts rebuilding the data area and spare pool, keeping system records. -/
  | crockFormat (p : Packet)
  /-- CROCK_FORMAT_DONE (R353): The format finishes and its handle completes. -/
  | crockFormatDone (bad : List Nat) (good : Bool)
  /-- VOLUME_CREATE (R335): Creates a volume with owner, flags and size. -/
  | volumeCreate (p : Packet)
  /-- VOLUME_DELETE (R353): Deletes a volume and trims all its blocks. -/
  | volumeDelete (p : Packet)
  /-- VOLUME_SET (R346): Sets a volume's cache mode and flags. -/
  | volumeSet (p : Packet)
  /-- VOLUME_GET (R344): Returns a volume's state, reason, size, lost blocks and counters. -/
  | volumeGet (p : Packet)
  /-- CROCK_FLUSH (R345): Starts programming every staged block of a volume. -/
  | crockFlush (p : Packet)
  /-- CENSUS_GET (R342): Returns the last census's timing and counts. -/
  | censusGet (p : Packet)
  /-- CROCK_CTRL (R346): Sets hold-up time and refresh share, returning WRITE_BACK volumes to WRITE_THROUGH when hold-up falls short. -/
  | crockCtrl (p : Packet)
  /-- VBUS_VALID (R355): U_VBUS at or above 4.0 V for 10 ms with ADMIN set connects the pull-up and terminations. -/
  | vbusValid
  /-- VBUS_LOST (R355): U_VBUS below 3.5 V for 2 ms is a detach that ends the command session. -/
  | vbusLost
  /-- SS_TRAINING_FAIL (R354): SuperSpeed training fails and the port connects on USB 2.0. -/
  | ssTrainingFail (hs : Bool)
  /-- USB_BUS_RESET (R374): A bus, hot or warm reset aborts control transfers, ends the command session and unconfigures functions. -/
  | usbBusReset (hs : Bool) (aborted : Bool) (partialCmd : Bool)
  /-- USB_SUSPEND (R372): After 3 ms of bus idle or entry to U3 the port is suspended. -/
  | usbSuspend
  /-- USB_RESUME (R373): A host resume or U3 exit wakes the port and satisfies any pending remote wake. -/
  | usbResume (collision : Bool)
  /-- USB_REMOTE_WAKE (R372): A suspended function with cells or events to deliver signals remote wake when allowed. -/
  | usbRemoteWake (fn : Fin 8)
  /-- USB_SET_ADDRESS (R374): SET_ADDRESS takes effect at its status stage. -/
  | usbSetAddress (fn : Fin 8) (addr : Fin 128)
  /-- USB_SET_CONFIGURATION (R362): SET_CONFIGURATION at its status stage configures a function and starts F8 taking its cells. -/
  | usbSetConfiguration (fn : Fin 8) (value : Nat)
  /-- USB_SET_INTERFACE (R362): SET_INTERFACE selects an NCM data alternate setting. -/
  | usbSetInterface (fn : Fin 8) (iface : Nat) (alt : Nat)
  /-- USB_SET_HALT (R371): SET_FEATURE(ENDPOINT_HALT) halts an endpoint. -/
  | usbSetHalt (fn : Fin 8) (ep : UsbEp)
  /-- USB_CLEAR_HALT (R371): CLEAR_FEATURE(ENDPOINT_HALT) resets the toggle or sequence number and keeps queued IN data. -/
  | usbClearHalt (fn : Fin 8) (ep : UsbEp)
  /-- HUB_PORT_RESET (R357): A hub PORT_RESET request starts a 10 ms reset of a virtual port. -/
  | hubPortReset (port : Fin 8)
  /-- HUB_PORT_RESET_DONE (R357): 10 ms after the request the port reset completes and C_PORT_RESET is set. -/
  | hubPortResetDone (port : Fin 8)
  /-- HUB_CLEAR_C_CONNECTION (R358): The host clears C_PORT_CONNECTION, letting a new function connect on the port. -/
  | hubClearCConnection (port : Fin 8) (reset : Bool)
  /-- HUB_PORT_POWER (R357): SET or CLEAR of PORT_POWER is accepted with no effect. -/
  | hubPortPower (port : Fin 8) (on : Bool)
  /-- HUB_TT_REQUEST (R357): Transaction translator requests complete with no effect. -/
  | hubTtRequest
  /-- USB_CMD_TRANSFER (R363): A bulk OUT command transfer is taken as one command, replied to with a length error, or discarded. -/
  | usbCmdTransfer (data : Bytes)
  /-- USB_TUNNEL_OUT (R365): A bulk OUT tunnel message with its prefix is cut into cells or ended poisoned. -/
  | usbTunnelOut (fn : Fin 8) (ep : UsbEp) (data : Bytes)
  /-- NCM_NTB_OUT (R366): An NCM transfer block's datagrams become FRAME messages or are discarded. -/
  | ncmNtbOut (fn : Fin 8) (ntb : Bytes)
  /-- MSC_CBW (R367): A mass-storage command block is served or refused and turned into BLOCK requests. -/
  | mscCbw (fn : Fin 8) (cbw : Bytes) (data : Bytes)
  /-- MSC_RESET (R368): A Bulk-Only Mass Storage Reset NAKs its status stage until outstanding requests finish. -/
  | mscReset (fn : Fin 8)
  /-- MSC_RESET_TIMEOUT (R368): After 5 s the mass-storage reset's wait ends. -/
  | mscResetTimeout (fn : Fin 8)
  /-- USB_OUT_DATA_PACKET (R370): A bulk OUT data packet is answered ACK, NYET or NAK, or granted NumP at SuperSpeed. -/
  | usbOutDataPacket (fn : Fin 8) (ep : UsbEp) (len : Nat) (drained : Nat)
  /-- USB_PING (R370): A high-speed PING is answered ACK or NAK by free buffer space. -/
  | usbPing (fn : Fin 8) (ep : UsbEp)
  /-- USB_LGO_U1U2 (R369): An LGO_U1 or LGO_U2 request is accepted or rejected. -/
  | usbLgoU1u2
  /-- DOCK_PORT_SET (R376): Sets the dock port's admin state, speed and flags. -/
  | dockPortSet (p : Packet)
  /-- DOCK_FN_SET (R376): Places a function on a virtual port. -/
  | dockFnSet (p : Packet)
  /-- DOCK_PORT_STATUS (R376): Returns the dock port's state, speed, ports and counters. -/
  | dockPortStatus (p : Packet)
  /-- APERTURE_WRITE (R390): A posted write to an instance's legacy aperture takes a tag or is discarded. -/
  | apertureWrite (a : ApAccess) (data : Bytes)
  /-- APERTURE_READ (R386): A read of an instance's legacy aperture takes a tag or completes Unsupported Request. -/
  | apertureRead (a : ApAccess)
  /-- APERTURE_ATOMIC (R400): A PCIe AtomicOp to the aperture is emulated under its window's trivet. -/
  | apertureAtomic (a : ApAccess) (op : Fin 3) (operand : Bytes)
  /-- LEGACY_TAG_GRANTED (R387): A waiting request takes a freed tag. -/
  | legacyTagGranted
  /-- BUS_GRANT (R379): The bridge gains the VMEbus and starts the next request's bus cycles. -/
  | busGrant (level : Fin 4)
  /-- BUS_CYCLE_DONE (R389): A bus cycle ends with DTACK or BERR; the next cycle runs, or the request completes, fails or poisons its window. -/
  | busCycleDone (good : Bool) (data : Bytes)
  /-- BUS_TIMER_EXPIRY (R381): A cycle reaches BUS_TIMER_US without acknowledge and is recorded BUS_TIMEOUT, asserting BERR as system controller. -/
  | busTimerExpiry
  /-- READY_TIMEOUT (R383): A strobe cycle without SRDY for READY_TIMEOUT_US ends as a bus failure. -/
  | readyTimeout
  /-- INBOUND_CYCLE (R397): A VME slave cycle decoded by an inbound window is checked and forwarded, answered, or denied with BERR. -/
  | inboundCycle (am : BitVec 6) (addr : BitVec 32) (x : SlaveCycle) (rmw : Bool)
  /-- INBOUND_RESPONSE (R397): An inbound read's response arrives and VME_DTACK_L is given. -/
  | inboundResponse
  /-- INBOUND_TIMEOUT (R397): An inbound read without response for INBOUND_TIMEOUT_US is answered with BERR. -/
  | inboundTimeout
  /-- VME_SYSRESET (R382): VME_SYSRESET_L seen asserted ends the cycle, fails tagged reads, discards writes and posts BUS_SIGNAL. -/
  | vmeSysreset (asserted : Bool)
  /-- VME_SYSFAIL_ACFAIL (R382): A change on VME_SYSFAIL_L or VME_ACFAIL_L posts BUS_SIGNAL. -/
  | vmeSysfailAcfail (sysfail : Bool) (acfail : Bool)
  /-- IRQ_POLL (R402): Every POLL_US the bridge samples IRQ levels, runs an IACK cycle for the highest and posts LEGACY_IRQ. -/
  | irqPoll (levels : BitVec 8) (id : BitVec 32) (good : Bool)
  /-- PREFETCH_EXPIRY (R394): A prefetch line older than PREFETCH_LIFE_US is discarded and counted. -/
  | prefetchExpiry (line : Nat)
  /-- TRIVET_HOLD_EXPIRY (R399): A trivet held past TRIVET_HOLD_MS is released and TRIVET_EXPIRED posted. -/
  | trivetHoldExpiry (n : Fin 8)
  /-- TRIVET_WAIT_TIMEOUT (R400): An atomic waiting 1 ms for another owner's trivet fails TRIVET_HELD. -/
  | trivetWaitTimeout
  /-- LEGACY_CONFIG (R407): Sets bus mode, system-controller, arbitration, timers, interrupts and strobe timing. -/
  | legacyConfig (p : Packet)
  /-- WINDOW_SET (R385): Replaces an outbound window entry atomically and raises its GEN. -/
  | windowSet (p : Packet)
  /-- INBOUND_SET (R397): Configures an inbound window. -/
  | inboundSet (p : Packet)
  /-- WINDOW_SLIDE (R386): Changes an aperture window's SLIDE. -/
  | windowSlide (p : Packet)
  /-- CLEAR_WINDOW_ERROR (R392): Returns and clears a poisoned window's error record and DISCARDED count. -/
  | clearWindowError (p : Packet)
  /-- LEGACY_GRANT (R403): Sets the window grant mask of a LEGACY request tunnel. -/
  | legacyGrant (p : Packet)
  /-- IRQ_REARM (R402): Unmasks an interrupt level for the next poll. -/
  | irqRearm (p : Packet)
  /-- TRIVET (R399): Takes, releases or force-releases a trivet. -/
  | trivet (p : Packet)
  /-- LEGACY_STATUS (R407): Returns bridge mode, tags, poisoned windows, GENs, trivet owners and counters. -/
  | legacyStatus (p : Packet)
  /-- IN_LIMIT_CHANGE (R413): IN_LIMIT set starts the fault timer and withdraws power-good; cleared stops and clears it. -/
  | inLimitChange (ch : Fin 14) (set : Bool)
  /-- FAULT_TIMER_EXPIRY (R413): The fault timer reaches FAULT_US, or START_FAULT_US in START, and the channel trips TIMER. -/
  | faultTimerExpiry (ch : Fin 14) (severe : Bool)
  /-- SEVERE_TRIP (R414): SEVERE drives the gate low within 200 ns and trips the channel SEVERE. -/
  | severeTrip (ch : Fin 14)
  /-- VSNS_PG_REACHED (R412): Pn_VSNS reaching PG_MV ends START, enters ON and sets the limit to LIMIT_MA. -/
  | vsnsPgReached (ch : Fin 14)
  /-- POWER_GOOD_ASSERT (R415): IN_LIMIT clear and VSNS at PG_MV for PG_DELAY_MS assert power-good. -/
  | powerGoodAssert (ch : Fin 14)
  /-- VSNS_SAG (R415): Pn_VSNS falling below PG_MV withdraws power-good without starting the timer. -/
  | vsnsSag (ch : Fin 14)
  /-- GATE_RISE_TIMEOUT (R417): GATE_GOOD not set within GATE_US after START marks the channel DAMAGED. -/
  | gateRiseTimeout (ch : Fin 14)
  /-- SHORT_DETECT (R417): Current above 5 % of LIMIT_MA for 10 ms with the gate low marks the channel DAMAGED. -/
  | shortDetect (ch : Fin 14)
  /-- RETRY_TIMER (R416): RETRY_MS expires and the channel starts or waits in ABSENT or STANDBY. -/
  | retryTimer (ch : Fin 14)
  /-- FAULT_COUNT_CLEAR (R416): Power-good held for 60 s clears the channel's fault count. -/
  | faultCountClear (ch : Fin 14)
  /-- SLOT_INSERT (R418): Sn_PRSNT_L low for PRESENCE_MS makes the board present and may start the channel. -/
  | slotInsert (slot : Fin 8)
  /-- SLOT_REMOVE (R418): Sn_PRSNT_L high for 1 ms removes the board and drops the gate. -/
  | slotRemove (slot : Fin 8) (expired : Bool)
  /-- SLOT_REMOVE_LONG (R419): A removal lasting 1 s clears the fault count and moves a latched or waiting channel to ABSENT. -/
  | slotRemoveLong (slot : Fin 8)
  /-- STAGGER_TIMER (R420): STAGGER_MS after one slot channel's start the next waiting channel enters START. -/
  | staggerTimer
  /-- FEED_VALID_TIMER (R421): A candidate within its window for VALID_MS becomes a valid feed and selection runs. -/
  | feedValidTimer (feed : Fin 6)
  /-- FEED_INVALID (R422): The selected feed leaves its window; its gate drops when another candidate is valid, else FEEDS_LOST. -/
  | feedInvalid (feed : Fin 6)
  /-- FEED_DEAD_TIME_END (R422): After DEAD_US the best valid candidate is selected, its gate raised and FEED_SWITCH posted. -/
  | feedDeadTimeEnd
  /-- FEED_RESTORE_TIMER (R422): With REVERT, a higher-priority candidate valid for RESTORE_MS takes over break-before-make. -/
  | feedRestoreTimer (feed : Fin 6)
  /-- PWRFAIL_ASSERT (R424): PWRFAIL_L low for 2 µs sheds slot channels, starts the Crock flush, saves lifetime records and posts POWER_FAIL. -/
  | pwrfailAssert
  /-- PWRFAIL_RELEASE (R424): PWRFAIL_L high for 10 ms restarts shed channels in order and posts POWER_FAIL released. -/
  | pwrfailRelease
  /-- ADC_FRAME (R410): Each 16 µs frame converts every channel's current and one channel's voltage and gate. -/
  | adcFrame (isns : List Nat) (vsns gate : Nat)
  /-- PWR_CHANNEL_SET (R426): Configures a power channel's scales, limits, timers and flags. -/
  | pwrChannelSet (p : Packet)
  /-- PWR_CHANNEL_CTRL (R426): Turns a channel off or on, or clears its faults. -/
  | pwrChannelCtrl (p : Packet)
  /-- PWR_FEED_SET (R426): Sets feed priorities and timing and selects again. -/
  | pwrFeedSet (p : Packet)
  /-- PWR_STATUS (R426): Returns the feed header and fourteen channel records. -/
  | pwrStatus (p : Packet)
  /-- ATTACH_DETECTED (R431): ATTACHED seen for ATTACH_MS makes a biasing end source and starts the safe rail. -/
  | attachDetected (n : Fin 4)
  /-- SIDEBAND_DETACH (R434): ATTACHED absent for 5 µs drops the trunk gate, ends the contract and reports detach to the lanes. -/
  | sidebandDetach (n : Fin 4)
  /-- GET_CAPS_TIMER (R432): A biasing end seeing HIGH, or two terminating ends, send GET_CAPS every 100 ms. -/
  | getCapsTimer (n : Fin 4)
  /-- CAPS_TX_TIMER (R435): The source sends CAPS every 100 ms, then every 1 s after 2 s without REQUEST. -/
  | capsTxTimer (n : Fin 4)
  /-- SB_CAPS_RX (R432): A CAPS frame decides roles between biasing ends or leads the sink to choose and send REQUEST. -/
  | sbCapsRx (n : Fin 4) (body : Bytes)
  /-- SB_GET_CAPS_RX (R435): A GET_CAPS frame is answered with CAPS. -/
  | sbGetCapsRx (n : Fin 4) (id : Nat)
  /-- SB_REQUEST_RX (R435): A REQUEST is answered ACCEPT, REJECT or WAIT, and an accepted one starts the voltage transition. -/
  | sbRequestRx (n : Fin 4) (id : Nat) (body : Bytes)
  /-- SB_ACCEPT_RX (R436): An ACCEPT proceeds the answered exchange and sets the trunk channels. -/
  | sbAcceptRx (n : Fin 4) (body : Bytes)
  /-- SB_REJECT_RX (R447): A REJECT ends the exchange and completes an open TRUNK_POWER_OP aborted. -/
  | sbRejectRx (n : Fin 4) (body : Bytes)
  /-- SB_WAIT_RX (R438): A WAIT defers the exchange by DELAY_MS. -/
  | sbWaitRx (n : Fin 4) (body : Bytes)
  /-- SB_READY_RX (R436): A READY makes the contract effective and the sink channel a feed candidate. -/
  | sbReadyRx (n : Fin 4) (body : Bytes)
  /-- SB_SWAP_ROLE_RX (R442): A SWAP_ROLE is accepted or rejected and an accepted swap proceeds. -/
  | sbSwapRoleRx (n : Fin 4) (id : Nat)
  /-- SB_FAST_SWAP_ARM_RX (R445): A FAST_SWAP_ARM is accepted or rejected, arming both ends. -/
  | sbFastSwapArmRx (n : Fin 4) (id : Nat) (body : Bytes)
  /-- SB_FAST_SWAP_RX (R446): A FAST_SWAP changes the ends' sideband states to their new roles. -/
  | sbFastSwapRx (n : Fin 4) (us : Nat)
  /-- SB_SOFT_RESET_RX (R438): A SOFT_RESET clears message state and returns both ends to contract step 1. -/
  | sbSoftResetRx (n : Fin 4) (id : Nat)
  /-- SB_HARD_RESET_RX (R443): A HARD_RESET aborts every sequence, turns the channel off and ends the contract. -/
  | sbHardResetRx (n : Fin 4)
  /-- SB_CABLE_QUERY_RX (R440): A cable marker answers CABLE_QUERY with CABLE_INFO. -/
  | sbCableQueryRx (n : Fin 4) (prole : Nat) (known : Bool) (info : Bytes)
  /-- SB_CABLE_INFO_RX (R441): CABLE_INFO fixes the cable class and contract limits. -/
  | sbCableInfoRx (n : Fin 4) (body : Bytes)
  /-- SIDEBAND_FRAME_BAD (R429): A frame with bad CRC, excess LEN or reserved type is discarded and counted. -/
  | sidebandFrameBad (n : Fin 4)
  /-- SIDEBAND_COLLISION (R429): A sender seeing a difference stops, counts a collision and backs off. -/
  | sidebandCollision (n : Fin 4)
  /-- SIDEBAND_RETRY_TIMER (R430): An unanswered frame is sent again every 2 ms, three times, then fails NO_RESPONSE. -/
  | sidebandRetryTimer (n : Fin 4) (cable : Bool)
  /-- CABLE_QUERY_TIMER (R441): 10 ms after the safe rail is up, an end sends CABLE_QUERY. -/
  | cableQueryTimer (n : Fin 4)
  /-- VOLTAGE_SETTLED (R435): The line reaches ±5 % of the new voltage and the source sends READY. -/
  | voltageSettled (n : Fin 4)
  /-- TRANSITION_TIMEOUT (R435): A voltage or swap step missing its time causes HARD_RESET TRANSITION_TIMEOUT or OVERSHOOT. -/
  | transitionTimeout (n : Fin 4) (overshoot : Bool)
  /-- TRUNK_TRIP_CONFIRM (R437): A trunk channel trip seen for 1 ms without detach is recorded and HARD_RESET CHANNEL_TRIP sent. -/
  | trunkTripConfirm (n : Fin 4)
  /-- HARD_RESET_RECOVERY (R443): 200 ms after HARD_RESET both ends return to default roles, or the trunk enters FAULTED. -/
  | hardResetRecovery (n : Fin 4)
  /-- REQUEST_WAIT_TIMEOUT (R447): No REQUEST within 500 ms of changed offers returns the line to the safe rail. -/
  | requestWaitTimeout (n : Fin 4)
  /-- FAST_SWAP_DETECT (R446): The line below 90 % for 10 µs while armed drops the source gate. -/
  | fastSwapDetect (n : Fin 4)
  /-- FAST_SWAP_TAKEOVER (R446): 20 µs after detection the sink raises its gate as source and sends FAST_SWAP. -/
  | fastSwapTakeover (n : Fin 4) (us : Nat)
  /-- TRUNK_POWER_SET (R447): Sets a trunk's source and sink enables, precedence, offers and sink needs. -/
  | trunkPowerSet (p : Packet)
  /-- TRUNK_POWER_OP (R447): Starts a request, swap, soft or hard reset, arm, disarm or clear on a trunk. -/
  | trunkPowerOp (p : Packet)
  /-- TRUNK_POWER_STATUS (R447): Returns a trunk's power state, contract, peer offers and counters. -/
  | trunkPowerStatus (p : Packet)
  /-- CABLE_GET (R441): Returns the last CABLE_INFO, optionally querying again. -/
  | cableGet (p : Packet)
  /-- KEY_STATUS (R456): Returns a slot's attributes or the key-store summary. -/
  | keyStatus (p : Packet)
  /-- KEY_GENERATE (R474): Generates a key into an empty slot. -/
  | keyGenerate (p : Packet)
  /-- KEY_DERIVE (R457): Derives a key into an empty slot by the SP 800-108 KDF. -/
  | keyDerive (p : Packet)
  /-- KEY_LOAD_CLEAR (R459): Loads clear-text key material into an empty slot where the transport allows. -/
  | keyLoadClear (p : Packet)
  /-- KEY_IMPORT (R460): Unwraps an export blob into an empty slot. -/
  | keyImport (p : Packet)
  /-- KEY_EXPORT (R460): Wraps an unlocked slot as an export blob. -/
  | keyExport (p : Packet)
  /-- KEY_ZEROIZE (R463): Zeroizes a slot, an owner's slots, all keys or all keys and blobs. -/
  | keyZeroize (p : Packet)
  /-- KEY_SET_ATTR (R461): Sets LOCKED or PERSIST of a slot, storing persisted slots as blobs. -/
  | keySetAttr (p : Packet)
  /-- KEY_CHALLENGE (R450): Returns a fresh login nonce for the session. -/
  | keyChallenge (p : Packet)
  /-- KEY_LOGIN (R450): Authenticates the session's role by HMAC over the nonce. -/
  | keyLogin (p : Packet)
  /-- LOGIN_LOCKOUT_END (R450): 60 s after eight failures the login lockout of an issuer ends. -/
  | loginLockoutEnd (iss : Nat)
  /-- KEY_LIFECYCLE (R453): Advances the lifecycle fuses or changes the approved-mode flag. -/
  | keyLifecycle (p : Packet)
  /-- KEY_LIFECYCLE_DONE (R454): The lifecycle operation's zeroization and fuse blow finish and the handle completes. -/
  | keyLifecycleDone
  /-- IDCERT_WRITE (R455): Writes the identity certificate chain store in sequence. -/
  | idcertWrite (p : Packet)
  /-- ANCHOR_SET (R467): Sets a trust anchor hash. -/
  | anchorSet (p : Packet)
  /-- SEAL_SET (R473): Sets a trunk's sealing mode, authentication flags, tag-fail limit and anchors. -/
  | sealSet (p : Packet)
  /-- REKEY (R471): Announces an epoch change, or a fresh handshake, on a sealed trunk. -/
  | rekey (p : Packet)
  /-- KEY_SELFTEST (R452): Runs the cryptographic algorithm self-tests. -/
  | keySelftest (p : Packet)
  /-- SELFTEST_DONE (R452): A commanded or periodic self-test run completes or fails into LOCKDOWN. -/
  | selftestDone (pass : Bool)
  /-- SELFTEST_PERIODIC (R452): Every 24 h of powered time the algorithm self-tests run. -/
  | selftestPeriodic
  /-- CRYPTO_OP (R474): Queues a cryptographic operation on a slot, refused when outputs are full. -/
  | cryptoOp (p : Packet)
  /-- CRYPTO_OP_DONE (R475): A cryptographic operation completes and keeps its output with the handle record. -/
  | cryptoOpDone
  /-- CRYPTO_RESULT (R475): Reads a completed CRYPTO_OP's output and optionally releases it. -/
  | cryptoResult (p : Packet)
  /-- KEY_RESTORE (R462): After the volume table is read, persisted slots are restored in GEN order and KEY_RESTORED posted. -/
  | keyRestore
  /-- KX_TIMEOUT (R466): A handshake not complete 500 ms after LINK_UP sends KX_ALERT KX_TIMEOUT. -/
  | kxTimeout (n : Fin 4)
  /-- KX_RETRY_TIMER (R466): Every 10 s a failed handshake is repeated while the trunk stays in DATA. -/
  | kxRetryTimer (n : Fin 4)
  /-- EPOCH_CHANGE (R471): At CHANGE_TURN or an adjusted turn a trunk direction moves to the next sealing epoch. -/
  | epochChange (n : Fin 4) (katPass : Bool)
  /-- GK_SET (R478): Writes a region entry to a gatekeeper's shadow. -/
  | gkSet (p : Packet)
  /-- GK_MODE (R481): Writes a gatekeeper's straddle mode and default rule to the shadow. -/
  | gkMode (p : Packet)
  /-- GK_SYNC (R482): Checks the shadow for overlaps and starts switching the gatekeeper to it. -/
  | gkSync (p : Packet)
  /-- GK_SYNC_DONE (R482): Every access checked under the old set has finished and the GK_SYNC completes. -/
  | gkSyncDone (g : Fin 5)
  /-- GK_GET (R481): Returns a gatekeeper's header, violation record and region entries. -/
  | gkGet (p : Packet)
  /-- GK_CLEAR (R486): Returns and clears a gatekeeper's violation record and OVERFLOW. -/
  | gkClear (p : Packet)
  /-- DEBUG_ACCESS (R487): A debug access port operation is checked by the CTRL gatekeeper and performed or refused. -/
  | debugAccess (addr : Nat) (d : DebugOp)
  /-- TAP_RESET (R516): TRST_L low for 1 µs resets the TAP. -/
  | tapReset
  /-- LIFETIME_TICK (R488): Each powered second increments POWERED_S and samples the per-second histograms. -/
  | lifetimeTick (r : TickReading)
  /-- LIFETIME_PERIODIC_SAVE (R492): Every 900 s of POWERED_S the kettle snapshots and saves the lifetime record. -/
  | lifetimePeriodicSave
  /-- LIFETIME_SAVE_DONE (R492): A journal save completes, possibly followed by a pending power-fail save, or LIFETIME_SAVE_FAILED is posted. -/
  | lifetimeSaveDone (flash : Bool) (crock : Bool)
  /-- LIFETIME_CROCK_RESTORE (R493): Once the Crock starts, a newer Crock copy of the lifetime record replaces the restored values. -/
  | lifetimeCrockRestore
  /-- LIFETIME_GET (R489): Returns the live lifetime snapshot. -/
  | lifetimeGet (p : Packet)
  /-- LIFETIME_EXPORT (R494): Returns a signed live snapshot with the requester's nonce. -/
  | lifetimeExport (p : Packet)
  /-- LIFETIME_SAVE (R492): Requests an immediate lifetime save. -/
  | lifetimeSave (p : Packet)
  /-- THERM_TRIP (R509): Junction temperature reaching 120 °C asserts THERM_TRIP_L until the next power-on reset. -/
  | thermTrip
  /-- REFCLK_FAIL (R507): A reference clock out by 500 ppm or without edges for 10 µs is failed and its links go down. -/
  | refclkFail (ref : Fin 3)
  /-- REFCLK_RESTORE (R507): A failed reference within 200 ppm for 1 ms is restored. -/
  | refclkRestore (ref : Fin 3)
  /-- SUPPLY_EXCURSION (R499): A supply outside its recommended range for 1 µs is counted in SUPPLY_UV or SUPPLY_OV. -/
  | supplyExcursion (low : Bool)
  /-- PCIE_CONFIG_WRITE (R281): A host write to configuration space changes Bus Master Enable, PASID Enable, MSI-X control or the D0/D3hot power state, starting or stopping the part's DMA. -/
  | pcieConfigWrite (busMaster : Bool) (pasidEnable : Bool) (msixEnable : Bool) (msixMask : Bool) (d3hot : Bool)
  /-- USB_IN_TOKEN (R364): The host's IN token or SuperSpeed ACK on a bulk, interrupt or hub status-change endpoint takes a packet of replies, events or tunnel data from the endpoint buffer and frees room for further cells from F8. -/
  | usbInToken (fn : Fin 8) (ep : UsbEp)
  /-- DEVICE_REMOTE_WAKEUP (R372): The host's SET_FEATURE or CLEAR_FEATURE of DEVICE_REMOTE_WAKEUP, or of function remote wake, enables or disables remote wake. -/
  | deviceRemoteWakeup (fn : Fin 8) (enable : Bool)
  /-- VME_ARBITRATION (R379): A change on another master's VME_BRQ_L or on VME_BCLR_L makes the bridge, as system-controller arbiter, grant the bus, or makes it release the bus in ROR mode. -/
  | vmeArbitration (brq : BitVec 4) (bclr : Bool) (bbsy : Bool)
  /-- INBOUND_CYCLE_END (R398): VME_AS_L of an inbound slave cycle rises, so the outbound side that backed off may assert its bus request again. -/
  | inboundCycleEnd
  /-- SOURCE_SEEN (R435): A powered terminating end sees the ATTACHED band for a source and begins talking with GET_CAPS. -/
  | sourceSeen (n : Fin 4)
  /-- WAIT_DELAY_EXPIRY (R438): The DELAY_MS of a received WAIT expires and the end retries its REQUEST, SWAP_ROLE or other request. -/
  | waitDelayExpiry (n : Fin 4)
  /-- LINE_DISCHARGED (R442): During a role swap the trunk line falls below 5 V, and the source sends READY with VOLT 0 and changes to sink termination. -/
  | lineDischarged (n : Fin 4)
  /-- VOLUME_DELETE_DONE (R353): The trimming of every block of a deleted volume finishes and the VOLUME_DELETE handle completes. -/
  | volumeDeleteDone (volume : Nat)
  /-- ENTROPY_HEALTH_FAIL (R452): The continuous SP 800-90B health tests of the entropy source, or the DRBG health tests, fail, and the part enters LOCKDOWN with reason SELF_TEST. -/
  | entropyHealthFail
  /-- FW_RUNNING (R293): After a command reset the control complex finishes restarting, sets FW_RUNNING and opens its transports. -/
  | fwRunning
  deriving DecidableEq, Repr

end Sys2Proof
end

