-- ==== Sys2Proof/Machine/Table.lean ====
section
/-!
DEFINITION. Reading and writing the sparse tables of `Sys2Proof.Tab`, the byte-order and bit-field
helpers, saturating counters and the CRC the spec uses.
-/
namespace Sys2Proof

/-- The entry at key `k`, or `d` when the key is not listed. -/
def Tab.get {α : Type} (d : α) : Tab α → Nat → α
  | [], _ => d
  | (k', v) :: r, k => if k' = k then v else Tab.get d r k

/-- The entry at key `k`, when one is listed. -/
def Tab.find {α : Type} : Tab α → Nat → Option α
  | [], _ => none
  | (k', v) :: r, k => if k' = k then some v else Tab.find r k

/-- Replace or insert the entry at key `k`, keeping keys rising. -/
def Tab.set {α : Type} : Tab α → Nat → α → Tab α
  | [], k, v => [(k, v)]
  | (k', v') :: r, k, v =>
    if k' = k then (k, v) :: r
    else if k < k' then (k, v) :: (k', v') :: r
    else (k', v') :: Tab.set r k v

/-- Remove the entry at key `k`, so that it reads as the default again. -/
def Tab.erase {α : Type} : Tab α → Nat → Tab α
  | [], _ => []
  | (k', v') :: r, k => if k' = k then Tab.erase r k else (k', v') :: Tab.erase r k

/-- Change the entry at key `k` by `f`. -/
def Tab.upd {α : Type} (d : α) (t : Tab α) (k : Nat) (f : α → α) : Tab α :=
  Tab.set t k (f (Tab.get d t k))

/-- Change every listed entry. -/
def Tab.mapAll {α : Type} (t : Tab α) (f : Nat → α → α) : Tab α :=
  t.map fun e => (e.1, f e.1 e.2)

/-- The keys whose entries satisfy `p`, in rising order. -/
def Tab.keysWhere {α : Type} (t : Tab α) (p : Nat → α → Bool) : List Nat :=
  (t.filter fun e => p e.1 e.2).map Prod.fst

/-- Keys strictly rise. -/
def Tab.rising {α : Type} : Tab α → Bool
  | [] => true
  | [_] => true
  | a :: b :: r => decide (a.1 < b.1) && Tab.rising (b :: r)

/-! ### Bits and bytes (R6, R7) -/

/-- Bits `[lo + n - 1 : lo]` of `x` (R6). -/
def bitsOf (x lo n : Nat) : Nat := (x / 2 ^ lo) % 2 ^ n

/-- Bit `i` of `x` (R6). -/
def bitOf (x i : Nat) : Bool := (x / 2 ^ i) % 2 == 1

/-- 1 for true. -/
def b2n (b : Bool) : Nat := if b then 1 else 0

/-- `x` with bit `i` set to `v`. -/
def setBit (x i : Nat) (v : Bool) : Nat :=
  if bitOf x i == v then x else if v then x + 2 ^ i else x - 2 ^ i

/-- The number a little-endian byte string spells (R7). -/
def leNat : Bytes → Nat
  | [] => 0
  | b :: r => b.toNat + 256 * leNat r

/-- The `n` bytes that spell `x`, little-endian (R7). -/
def le : Nat → Nat → Bytes
  | 0, _ => []
  | n + 1, x => BitVec.ofNat 8 (x % 256) :: le n (x / 256)

/-- The number a big-endian byte string spells. -/
def beNat (b : Bytes) : Nat := leNat b.reverse

/-- The `n` bytes that spell `x`, most significant first. -/
def be (n x : Nat) : Bytes := (le n x).reverse

/-- `n` bytes of `b` from offset `o`; bytes beyond the end read zero. -/
def sliceB (b : Bytes) (o n : Nat) : Bytes :=
  let r := (b.drop o).take n
  r ++ List.replicate (n - r.length) 0

/-- The `n`-byte little-endian field at offset `o`. -/
def fld (b : Bytes) (o n : Nat) : Nat := leNat (sliceB b o n)

/-- The signed value of an `n`-bit two's complement number. -/
def signed (n x : Nat) : Int := if bitOf x (n - 1) then (x : Int) - (2 ^ n : Nat) else (x : Int)

/-- The signed `n`-byte little-endian field at offset `o`. -/
def sfld (b : Bytes) (o n : Nat) : Int := signed (8 * n) (fld b o n)

/-- `x` modulo 2^n, as a number of n bits in two's complement. -/
def unsigned (n : Nat) (x : Int) : Nat := (x % (2 ^ n : Nat)).toNat

/-- `n` zero bytes. -/
def zeros (n : Nat) : Bytes := List.replicate n 0

/-- True when every byte is zero. -/
def allZero (b : Bytes) : Bool := b.all (· == 0)

/-- True when the reserved bytes `[o, o+n)` of a command's parameters are all zero (R10). -/
def rsvd (b : Bytes) (o n : Nat) : Bool := allZero (sliceB b o n)

/-- Replace the bytes of `b` from offset `o` by `d` (growing `b` with zeros when it is shorter). -/
def patch (b : Bytes) (o : Nat) (d : Bytes) : Bytes :=
  sliceB b 0 o ++ d ++ b.drop (o + d.length)

/-- A counter that saturates at `top`. -/
def satAdd (top x d : Nat) : Nat := if x + d ≤ top then x + d else top

/-- A 32-bit counter that saturates at 0xFFFF_FFFF. -/
def sat32 (x d : Nat) : Nat := satAdd 0xFFFFFFFF x d

/-- A 64-bit counter that saturates at 2^64 - 1. -/
def sat64 (x d : Nat) : Nat := satAdd 0xFFFFFFFFFFFFFFFF x d

/-- A 16-bit counter that saturates. -/
def sat16 (x d : Nat) : Nat := satAdd 0xFFFF x d

/-- One bit step of a reflected CRC with polynomial `poly`. -/
def crcBit (poly x : Nat) : Nat := if x % 2 = 1 then (x / 2) ^^^ poly else x / 2

/-- One byte of a reflected CRC. -/
def crcByte (poly x : Nat) (b : Byte) : Nat :=
  let f := crcBit poly
  f (f (f (f (f (f (f (f (x ^^^ b.toNat))))))))

/-- CRC-32C (Castagnoli, reflected, initial and final value all ones), as the CHECK fields use it. -/
def crc32c (b : Bytes) : Nat :=
  (b.foldl (crcByte 0x82F63B78) 0xFFFFFFFF) ^^^ 0xFFFFFFFF

/-- Insert `x` into a list kept in rising order, once. -/
def insertSorted (x : Nat) : List Nat → List Nat
  | [] => [x]
  | y :: r => if x = y then y :: r else if x < y then x :: y :: r else y :: insertSorted x r

/-- The largest of a list, 0 for none. -/
def maxOf (l : List Nat) : Nat := l.foldl Nat.max 0

/-- `l` with element `i` changed by `f` (no change past the end). -/
def updAt {α : Type} (f : α → α) : List α → Nat → List α
  | [], _ => []
  | a :: r, 0 => f a :: r
  | a :: r, i + 1 => a :: updAt f r i

/-- Element `i` of `l`, or `d`. -/
def nth {α : Type} (d : α) : List α → Nat → α
  | [], _ => d
  | a :: _, 0 => a
  | _ :: r, i + 1 => nth d r i

/-! ### Byte memory in one canonical form -/

/-- The byte at address `a`; an unlisted address reads `d`. -/
def memRead (d : Byte) : List (Nat × Byte) → Nat → Byte
  | [], _ => d
  | (k, v) :: r, a => if k = a then v else memRead d r a

/-- Write one byte, keeping addresses rising and listing no byte equal to `d`. -/
def memWrite (d : Byte) : List (Nat × Byte) → Nat → Byte → List (Nat × Byte)
  | [], a, v => if v = d then [] else [(a, v)]
  | (k, w) :: r, a, v =>
    if k = a then (if v = d then r else (a, v) :: r)
    else if a < k then (if v = d then (k, w) :: r else (a, v) :: (k, w) :: r)
    else (k, w) :: memWrite d r a v

/-- Write bytes at rising addresses from `a`. -/
def memWriteBytes (d : Byte) (m : List (Nat × Byte)) (a : Nat) : Bytes → List (Nat × Byte)
  | [] => m
  | b :: r => memWriteBytes d (memWrite d m a b) (a + 1) r

/-- Read `n` bytes from address `a`. -/
def memReadBytes (d : Byte) (m : List (Nat × Byte)) (a n : Nat) : Bytes :=
  (List.range n).map fun i => memRead d m (a + i)

/-- The canonical form: addresses strictly rise and no listed byte equals `d`. -/
def memWf (d : Byte) (m : List (Nat × Byte)) : Bool :=
  Tab.rising m && m.all (fun e => e.2 != d)

/-- The canonical form of the CTRL SRAM, whose unlisted bytes read as zero (DESIGN CHOICE, log entry 9). -/
abbrev Memory.wf (m : List (Nat × Byte)) : Bool := memWf 0 m

end Sys2Proof
end

