-- ==== Sys2Proof/Machine/Operands.lean ====
section
/-!
DEFINITION. The opcode tables of the chapters: opcode, allowed issuers, transports, parameter lengths, completion.
-/
namespace Sys2Proof.Machine

/-- One row of an opcode table. -/
structure OpInfo where
  /-- Opcode -/
  code : Nat
  /-- Allowed issuers: 1 L1, 2 L2, 4 L3, added -/
  levels : Nat
  /-- Transports: 1 PCIe, 2 SPI, 4 USB, 8 TRUNK, added -/
  transports : Nat
  /-- Least and greatest PLEN -/
  lo : Nat
  hi : Nat
  /-- True when the completion is by handle -/
  long : Bool
  /-- First interface version that has it -/
  minVer : Nat
  /-- True when L3 may issue it on a trunk only -/
  l3Trunk : Bool
  deriving DecidableEq, Repr

/-- Opcodes of range 0x00xx, from the chapter's opcode table. -/
def opRange00 : List OpInfo := [
  ⟨0x0001, 7, 15, 4, 4, false, 1, false⟩,
  ⟨0x0002, 7, 15, 0, 0, false, 1, false⟩,
  ⟨0x0003, 7, 15, 0, 4096, false, 1, false⟩,
  ⟨0x0004, 7, 15, 8, 8, false, 1, false⟩,
  ⟨0x0005, 7, 15, 4, 4, false, 2, false⟩,
  ⟨0x0006, 1, 7, 8, 8, false, 1, false⟩,
  ⟨0x0007, 1, 7, 8, 8, false, 1, false⟩,
  ⟨0x0008, 1, 7, 4, 4, false, 1, false⟩,
  ⟨0x0009, 1, 7, 0, 0, false, 1, false⟩]

/-- Opcodes of range 0x01xx, from the chapter's opcode table. -/
def opRange01 : List OpInfo := [
  ⟨0x0101, 7, 15, 0, 0, false, 1, false⟩,
  ⟨0x0102, 1, 7, 4, 4, true, 1, false⟩,
  ⟨0x0103, 1, 7, 0, 0, true, 1, false⟩,
  ⟨0x0104, 1, 7, 4, 4, false, 1, false⟩,
  ⟨0x0105, 1, 7, 0, 0, false, 1, false⟩,
  ⟨0x0106, 1, 7, 9, 1048576, false, 1, false⟩,
  ⟨0x0107, 1, 7, 4, 4, true, 1, false⟩,
  ⟨0x0108, 1, 7, 0, 0, true, 1, false⟩,
  ⟨0x0109, 7, 15, 0, 0, false, 1, false⟩,
  ⟨0x010A, 1, 7, 48, 48, false, 1, false⟩,
  ⟨0x010B, 1, 7, 4, 4, false, 1, false⟩]

/-- Opcodes of range 0x02xx, from the chapter's opcode table. -/
def opRange02 : List OpInfo := [
  ⟨0x0201, 7, 15, 64, 64, true, 1, true⟩,
  ⟨0x0202, 7, 15, 4, 4, true, 1, true⟩,
  ⟨0x0203, 7, 15, 4, 4, false, 1, false⟩,
  ⟨0x0204, 5, 15, 4, 4, false, 1, false⟩,
  ⟨0x0205, 1, 7, 4, 4, false, 1, false⟩,
  ⟨0x0206, 7, 15, 0, 0, false, 1, false⟩,
  ⟨0x0207, 1, 7, 4, 4, false, 1, false⟩,
  ⟨0x0220, 1, 7, 24, 24, false, 1, false⟩,
  ⟨0x0221, 1, 7, 32, 32, false, 1, false⟩,
  ⟨0x0222, 1, 7, 4, 4, false, 1, false⟩,
  ⟨0x0223, 7, 15, 4, 4, false, 1, false⟩,
  ⟨0x0224, 7, 15, 4, 4, false, 1, false⟩,
  ⟨0x0225, 1, 7, 32, 32, false, 1, false⟩,
  ⟨0x0226, 1, 7, 24, 24, false, 1, false⟩,
  ⟨0x0227, 1, 7, 8, 8, false, 1, false⟩,
  ⟨0x0228, 1, 7, 8, 8, false, 1, false⟩]

/-- Opcodes of range 0x03xx, from the chapter's opcode table. -/
def opRange03 : List OpInfo := [
  ⟨0x0301, 5, 15, 9, 1048576, false, 1, true⟩,
  ⟨0x0302, 5, 15, 8, 1048576, true, 1, true⟩,
  ⟨0x0303, 1, 7, 4, 4, false, 1, false⟩,
  ⟨0x0304, 5, 15, 8, 8, true, 1, true⟩,
  ⟨0x0305, 7, 15, 0, 0, false, 1, false⟩,
  ⟨0x03F0, 7, 15, 4, 4, false, 1, false⟩,
  ⟨0x03F1, 7, 15, 4, 4, false, 1, false⟩]

/-- Opcodes of range 0x04xx, from the chapter's opcode table. -/
def opRange04 : List OpInfo := [
  ⟨0x0401, 1, 7, 16, 16, false, 1, false⟩,
  ⟨0x0402, 7, 15, 4, 4, false, 1, false⟩,
  ⟨0x0403, 1, 7, 4, 4, true, 1, false⟩,
  ⟨0x0404, 1, 7, 8, 8, true, 1, false⟩,
  ⟨0x0405, 1, 7, 4, 4, true, 1, false⟩,
  ⟨0x0406, 3, 7, 4, 4, false, 1, false⟩,
  ⟨0x0407, 7, 15, 4, 4, false, 1, false⟩,
  ⟨0x0410, 7, 15, 4, 4, false, 1, false⟩,
  ⟨0x0411, 7, 15, 4, 4, false, 1, false⟩,
  ⟨0x0412, 1, 7, 4, 4, true, 1, false⟩,
  ⟨0x0413, 1, 7, 8, 8, false, 1, false⟩]

/-- Opcodes of range 0x05xx, from the chapter's opcode table. -/
def opRange05 : List OpInfo := [
  ⟨0x0501, 7, 15, 0, 0, false, 1, false⟩,
  ⟨0x0502, 1, 7, 24, 24, false, 1, false⟩,
  ⟨0x0503, 1, 7, 32, 32, false, 1, false⟩,
  ⟨0x0504, 1, 7, 32, 32, false, 1, false⟩,
  ⟨0x0505, 1, 7, 16, 16, false, 1, false⟩]

/-- Opcodes of range 0x06xx, from the chapter's opcode table. -/
def opRange06 : List OpInfo := [
  ⟨0x0601, 1, 7, 48, 48, false, 1, false⟩,
  ⟨0x0602, 1, 7, 4, 4, false, 1, false⟩,
  ⟨0x0603, 1, 7, 4, 4, true, 1, false⟩,
  ⟨0x0604, 1, 7, 4, 4, true, 1, false⟩,
  ⟨0x0605, 1, 7, 4, 4, true, 1, false⟩,
  ⟨0x0606, 3, 7, 4, 4, false, 1, false⟩,
  ⟨0x0607, 3, 1, 48, 48, false, 1, false⟩,
  ⟨0x0608, 3, 1, 4, 4, false, 1, false⟩,
  ⟨0x0609, 3, 1, 32, 32, false, 1, false⟩]

/-- Opcodes of range 0x07xx, from the chapter's opcode table. -/
def opRange07 : List OpInfo := [
  ⟨0x0701, 1, 7, 32, 32, true, 1, false⟩,
  ⟨0x0702, 3, 7, 64, 64, false, 1, false⟩,
  ⟨0x0703, 3, 1, 24, 24, false, 1, false⟩,
  ⟨0x0704, 1, 7, 16, 16, false, 1, false⟩,
  ⟨0x0705, 1, 7, 4, 4, true, 1, false⟩,
  ⟨0x0706, 5, 15, 16, 16, false, 1, true⟩,
  ⟨0x0707, 5, 15, 24, 24, false, 1, true⟩,
  ⟨0x0708, 7, 15, 4, 4, false, 1, false⟩]

/-- Opcodes of range 0x08xx, from the chapter's opcode table. -/
def opRange08 : List OpInfo := [
  ⟨0x0801, 7, 15, 0, 0, false, 1, false⟩,
  ⟨0x0802, 1, 7, 8, 8, true, 1, false⟩,
  ⟨0x0803, 3, 7, 16, 16, false, 1, false⟩,
  ⟨0x0804, 3, 7, 4, 4, true, 1, false⟩,
  ⟨0x0805, 3, 7, 8, 8, false, 1, false⟩,
  ⟨0x0806, 7, 15, 4, 4, false, 1, false⟩,
  ⟨0x0807, 3, 7, 4, 4, true, 1, false⟩,
  ⟨0x0808, 5, 15, 0, 0, false, 1, false⟩,
  ⟨0x0809, 1, 7, 8, 8, false, 1, false⟩]

/-- Opcodes of range 0x09xx, from the chapter's opcode table. -/
def opRange09 : List OpInfo := [
  ⟨0x0901, 1, 7, 16, 16, false, 1, false⟩,
  ⟨0x0902, 1, 7, 40, 40, false, 1, false⟩,
  ⟨0x0903, 5, 15, 4, 4, false, 1, false⟩,
  ⟨0x0904, 7, 15, 4, 4, false, 1, false⟩,
  ⟨0x0905, 7, 15, 4, 4, false, 1, false⟩]

/-- Opcodes of range 0x0Axx, from the chapter's opcode table. -/
def opRange0A : List OpInfo := [
  ⟨0x0A01, 1, 7, 4, 4, false, 1, false⟩,
  ⟨0x0A02, 5, 15, 16, 16, false, 1, true⟩,
  ⟨0x0A03, 7, 15, 0, 0, false, 1, false⟩]

/-- Opcodes of range 0x0Bxx, from the chapter's opcode table. -/
def opRange0B : List OpInfo := [
  ⟨0x0B01, 1, 7, 48, 48, false, 1, false⟩,
  ⟨0x0B02, 1, 7, 32, 32, false, 1, false⟩,
  ⟨0x0B03, 1, 7, 32, 32, false, 1, false⟩,
  ⟨0x0B04, 3, 7, 8, 8, false, 1, false⟩,
  ⟨0x0B05, 3, 7, 4, 4, false, 1, false⟩,
  ⟨0x0B06, 1, 7, 8, 8, false, 1, false⟩,
  ⟨0x0B07, 3, 7, 4, 4, false, 1, false⟩,
  ⟨0x0B08, 3, 7, 4, 4, false, 1, false⟩,
  ⟨0x0B09, 7, 15, 0, 0, false, 1, false⟩]

/-- Opcodes of range 0x0Cxx, from the chapter's opcode table. -/
def opRange0C : List OpInfo := [
  ⟨0x0C01, 1, 7, 48, 48, false, 1, false⟩,
  ⟨0x0C02, 1, 7, 4, 4, false, 1, false⟩,
  ⟨0x0C03, 1, 7, 16, 16, false, 1, false⟩,
  ⟨0x0C04, 7, 15, 0, 0, false, 1, false⟩]

/-- Opcodes of range 0x0Dxx, from the chapter's opcode table. -/
def opRange0D : List OpInfo := [
  ⟨0x0D01, 1, 7, 40, 40, false, 1, false⟩,
  ⟨0x0D02, 1, 7, 8, 8, true, 1, false⟩,
  ⟨0x0D03, 7, 15, 4, 4, false, 1, false⟩,
  ⟨0x0D04, 7, 15, 4, 4, false, 1, false⟩]

/-- Opcodes of range 0x0Exx, from the chapter's opcode table. -/
def opRange0E : List OpInfo := [
  ⟨0x0E01, 7, 15, 4, 4, false, 1, false⟩,
  ⟨0x0E02, 3, 7, 24, 24, false, 1, false⟩,
  ⟨0x0E03, 3, 7, 24, 24, false, 1, false⟩,
  ⟨0x0E04, 3, 7, 56, 121, false, 1, false⟩,
  ⟨0x0E05, 3, 7, 184, 184, false, 1, false⟩,
  ⟨0x0E06, 3, 7, 4, 4, false, 1, false⟩,
  ⟨0x0E07, 3, 7, 4, 4, false, 1, false⟩,
  ⟨0x0E08, 3, 7, 8, 8, false, 1, false⟩,
  ⟨0x0E09, 3, 7, 0, 0, false, 1, false⟩,
  ⟨0x0E0A, 3, 7, 48, 48, false, 1, false⟩,
  ⟨0x0E0B, 1, 3, 8, 8, true, 1, false⟩,
  ⟨0x0E0C, 1, 7, 9, 65544, false, 1, false⟩,
  ⟨0x0E0D, 1, 7, 52, 52, false, 1, false⟩,
  ⟨0x0E0E, 1, 7, 8, 8, false, 1, false⟩,
  ⟨0x0E0F, 1, 7, 4, 4, true, 1, false⟩,
  ⟨0x0E10, 1, 7, 0, 0, true, 1, false⟩,
  ⟨0x0E11, 3, 7, 24, 1048576, true, 1, false⟩,
  ⟨0x0E12, 3, 7, 12, 12, false, 1, false⟩]

/-- Opcodes of range 0x0Fxx, from the chapter's opcode table. -/
def opRange0F : List OpInfo := [
  ⟨0x0F01, 1, 7, 40, 40, false, 1, false⟩,
  ⟨0x0F02, 1, 7, 8, 8, false, 1, false⟩,
  ⟨0x0F03, 1, 7, 4, 4, true, 1, false⟩,
  ⟨0x0F04, 1, 7, 4, 4, false, 1, false⟩,
  ⟨0x0F05, 1, 7, 4, 4, false, 1, false⟩]

/-- Opcodes of range 0x10xx, from the chapter's opcode table. -/
def opRange10 : List OpInfo := [
  ⟨0x1001, 7, 15, 0, 0, false, 1, false⟩,
  ⟨0x1002, 5, 15, 32, 32, false, 1, true⟩,
  ⟨0x1003, 1, 7, 0, 0, true, 1, false⟩]

/-- The opcode tables of all chapters (R63: any other opcode is not defined). -/
def opTable : List OpInfo :=
  opRange00 ++ opRange01 ++ opRange02 ++ opRange03 ++ opRange04 ++ opRange05 ++ opRange06 ++ opRange07 ++ opRange08 ++ opRange09 ++ opRange0A ++ opRange0B ++ opRange0C ++ opRange0D ++ opRange0E ++ opRange0F ++ opRange10

/-- The row of an opcode, if it is defined. -/
def opInfo (code : Nat) : Option OpInfo := opTable.find? fun o => o.code == code

end Sys2Proof.Machine
end

