-- ==== Sys2Proof/Config.lean ====
section
/-!
DEFINITION. What an implementation fixes and the spec leaves to a standard it cites or leaves open: uninterpreted constants
(no body, so no proof can see a value) and the widths the spec gives them.
-/
namespace Sys2Proof

/-- SHA-384 (a cited standard; used by R79, R85, R180, R468 and others). -/
opaque Config.sha384 : Bytes → Bytes
/-- ECDSA P-384 verification with SHA-384: key, message, signature. -/
opaque Config.ecdsaVerify : Bytes → Bytes → Bytes → Bool
/-- ECDSA P-384 signature over a message with a key and a fresh nonce number. -/
opaque Config.ecdsaSign : Bytes → Bytes → Nat → Bytes
/-- HMAC-SHA-384 of a message under a key (R450, R457). -/
opaque Config.hmac384 : Bytes → Bytes → Bytes
/-- AES-256-KW (SP 800-38F): wrap of 128 bytes under a key. -/
opaque Config.kwWrap : Bytes → Bytes → Bytes
/-- AES-256-KW unwrap: none when the integrity check fails. -/
opaque Config.kwUnwrap : Bytes → Bytes → Option Bytes
/-- AES-256-GCM ciphertext of a plaintext: key, IV, plaintext. Decryption is the same function (counter mode). -/
opaque Config.gcmCrypt : Bytes → Bytes → Bytes → Bytes
/-- AES-256-GCM tag: key, IV, additional data, ciphertext. -/
opaque Config.gcmTag : Bytes → Bytes → Bytes → Bytes → Bytes
/-- ECDH P-384 shared secret: private and public key. -/
opaque Config.ecdh : Bytes → Bytes → Bytes
/-- P-384 public key of a private key. -/
opaque Config.p384Pub : Bytes → Bytes
/-- The pairwise consistency test of a fresh key pair (R452). -/
opaque Config.pairwisePass : Nat → Bool
/-- A DER certificate chain verifies under ECDSA P-384 with SHA-384 (R467). -/
opaque Config.chainVerifies : Bytes → Bool
/-- SubjectPublicKeyInfo of a chain's root certificate. -/
opaque Config.chainRoot : Bytes → Bytes
/-- Public key of a chain's leaf certificate. -/
opaque Config.chainLeaf : Bytes → Bytes
/-- The validity periods of a chain hold at a time in seconds. -/
opaque Config.chainValidAt : Bytes → Nat → Bool
/-- The 256-bit root secret in fuses (R448). -/
opaque Config.rootSecret : Bytes
/-- Whether the host is late with posted-write credit for a cell that F4 delivers (R285: 500 ns): the spec's rows carry no host credit. -/
opaque Config.hostCreditLate : Nat → Bool
/-- Which bits of the role-lock field read back as blown after LOCK_ROLE blew them (R74, Table 03.12). -/
opaque Config.fuseBlown : Nat → BitVec 3
/-- The free choice of R498: whether a PORST_L pulse between 0.98 µs and 1.02 µs resets the part. -/
opaque Config.porstMiddle : Nat → Bool
/-- A fresh value of a stated number of bytes that the spec leaves open (entropy, undefined contents). -/
opaque Config.freeBytes : Nat → Nat → Bytes
/-- A fresh number that the spec leaves open. -/
opaque Config.freeNat : Nat → Nat
/-- The bytes of the boot-flash CONFIG block (its layout is not in the spec), as a function of a digest of what it stores. -/
opaque Config.configBlock : Nat → Bytes
/-- The part's own clock dataset by field (0 clockIdentity, 1 QUALITY, 2 UTC_OFFSET, 3 TIME_SOURCE), which the spec leaves to IEEE 1588. -/
opaque Config.ownClock : Nat → Nat
/-- The MAC address of an Ethernet port's PTP engine and its IPv4 address, which the spec does not give. -/
opaque Config.ptpMac : Nat → Bytes
opaque Config.ptpIp : Nat → Bytes
/-- Fields of the IPv4 header of a PTP message that IEEE 1588 leaves to the sender: 0 type of service, 1 identification, 2 flags and fragment
offset, 3 time to live of other than peer delay messages. -/
opaque Config.ptpIpField : Nat → Nat
/-- The TLVs that IEEE 802.1AS-2020 adds to a message of a type (cited standard). -/
opaque Config.ptpTlv : Nat → Bytes
/-- Bytes 8 to 35 of a mass-storage unit's INQUIRY data (names that the spec does not give). -/
opaque Config.inquiryText : Bytes
/-- Blocks of a volume at another device, as a mass-storage unit reports them (R367; no message of the spec carries them): tunnel and turn of
its open. -/
opaque Config.remoteBlocks : Nat → Nat → Nat
/-- HOLDUP_NEED_US for the fitted media (R346), as a function of their LUNs and timing mode; the spec gives no figure. -/
opaque Config.holdupNeed : Nat → Nat → Nat
/-- Base address of the gear staging buffer in CTRL SRAM (Table 20.2 names it and gives no address). -/
opaque Config.gearStagingBase : Nat
/-- Base address of ladle ring 0 in CTRL SRAM (Table 20.2 names it and gives no address). -/
opaque Config.ladleRing0Base : Nat

end Sys2Proof
end

