-- ==== Sys2Proof/Machine/TypesBase.lean ====
section
/-!
DEFINITION. The state of chapters 01 to 03: clock, modes, straps, fuses, boot flash, command sessions, handles,
events and the management SPI target. Each field's docstring names the rule that gives it; its default is its
value after a power-on reset.
-/
namespace Sys2Proof.Machine

/-- The clocks (10 R252, 03 R76). -/
structure Clock where
  /-- Local clock in picoseconds. R252: zero at reset -/
  localPs : Nat := 0
  /-- Powered time since the last reset of any kind, ps. 03 Table 03.10 UP_S -/
  upPs : Nat := 0
  /-- Powered time since power-on, ps, for rules that compare times (R75, R416, R444, R492) -/
  powerPs : Nat := 0
  /-- R254 the DCO's adjustment in force, in 2^-32 ns per ns, and what is left of its last change below one unit -/
  dco : Int := 0
  dcoRest : Nat := 0
  /-- what is left below 1 ps of the last slew (R257), and of the powered time -/
  slewRest : Nat := 0
  refRest : Nat := 0
  /-- R259 the adjusted turn in progress: the number it bears, and its start and end on the new scale, ps -/
  adj : Option (Nat × Nat × Nat) := none
  /-- The model's own counter that tells one free value from the next. DESIGN CHOICE 0 -/
  fresh : Nat := 0
  deriving DecidableEq, Repr

/-- The operating modes of Table 03.1 (R66). -/
inductive Mode where
  | boot | recovery | hub | dock | relay | quiet | keepalive | lockdown
  deriving DecidableEq, Repr

/-- The roles of Table 01.1. -/
inductive Role where
  | hub | dock | relay
  deriving DecidableEq, Repr

/-- A mode transition in progress or waiting (R67, R68). -/
structure Trans where
  /-- Mode that the transition reaches -/
  target : Mode
  /-- Reason code MODE_CHANGED carries -/
  reason : Nat
  /-- The handle that completes with it (ENTER_QUIET, EXIT_QUIET), 0 for none -/
  handle : Nat := 0
  /-- The ENTER_RECOVERY command whose reply waits for it, with its session and tag (R68) -/
  reply : Option (Session × Nat) := none
  /-- True for a trigger that is a condition and must still hold when evaluated (R68) -/
  condition : Bool := false
  deriving DecidableEq, Repr

/-- Modes, straps, boot and start-up (chapter 03). -/
structure Dev where
  /-- R66 MODE -/
  mode : Mode := .boot
  /-- R13 the role held; none when an unlocked 0b11 strap left the part without one (R73) -/
  role : Option Role := some .hub
  /-- R73 ROLE[1:0] as sampled -/
  strapRole : BitVec 2 := 0
  /-- R73 BOOTSRC[1:0] as sampled -/
  strapBoot : BitVec 2 := 0
  /-- Table 03.10 BOOT_SLOT: 0 A, 1 B, 0xFF none -/
  bootSlot : Nat := 0xFF
  /-- Table 03.10 RUN_SVN, 0xFF none -/
  runSvn : Nat := 0xFF
  /-- Table 02.16 FW_VERSION -/
  fwVersion : Nat := 0
  /-- Table 02.16 FW_BUILD -/
  fwBuild : Nat := 0
  /-- Table 03.10 RESET_KIND: 0 power-on, 1 warm, 2 command -/
  resetKind : Nat := 0
  /-- Table 03.10 CAUSE: reason code of the last mode change (POWER_ON) -/
  cause : Nat := 0x0115
  /-- BFLAGS[0] FALLBACK -/
  fallback : Bool := false
  /-- BFLAGS[1] ROLE_MISMATCH (R74) -/
  roleMismatch : Bool := false
  /-- BFLAGS[2] CONFIG_DEFAULT (R78) -/
  configDefault : Bool := false
  /-- BFLAGS[3] TAMPER_SEEN -/
  tamperSeen : Bool := false
  /-- R85 measurement registers M0 to M7, 48 bytes each -/
  meas : List Bytes := List.replicate 8 (List.replicate 48 0)
  /-- R67 the transition in progress -/
  trans : Option Trans := none
  /-- R68 triggers that wait for it -/
  waiting : List Trans := []
  /-- Table 03.11 WAKE mask of the last ENTER_QUIET -/
  wake : Nat := 0
  /-- The role mode that QUIET returns to (Table 03.10 ROLE_MODE) -/
  quietFrom : Mode := .hub
  /-- R89 a reset requested and not yet begun: 1 warm, 2 command, 0 none -/
  resetReq : Nat := 0
  /-- R75 powered time of the last command reset -/
  lastCmdReset : Option Nat := none
  /-- R82 islands started: numbers of the steps of Table 03.7 -/
  islands : List Nat := []
  /-- R82 the step begun last, whose currents may not have settled; 0 none -/
  islandStep : Nat := 0
  /-- R82 the start is in progress -/
  starting : Bool := false
  /-- R83 the SEC power-up self-tests have passed -/
  selftestOk : Bool := false
  /-- R86 the session that holds image staging -/
  stagingOwner : Option Session := none
  /-- R86 bytes staged so far -/
  staged : Nat := 0
  /-- R87 an IMAGE_COMMIT is open: its handle, and its IMAGE_LEN -/
  commit : Option (Nat × Nat) := none
  /-- R88 a COMMIT_ROLLBACK is open: its handle -/
  rollback : Option Nat := none
  /-- R293 FW_RUNNING: the control complex runs and its transports are open -/
  fwRunning : Bool := false
  /-- R509 THERM_TRIP_L asserted -/
  thermTrip : Bool := false
  /-- R71 TAMPER_L asserted -/
  tamperL : Bool := false
  /-- R507 references failed: [0] REFCLK_TRK, [1] REFCLK_ETH, [2] PE_REFCLK -/
  refFailed : List Nat := []
  /-- R516 the TAP's instruction register has been reset -/
  tapReset : Bool := true
  deriving DecidableEq, Repr

/-- One copy of the boot-flash directory (R77). -/
structure Dir where
  /-- GENERATION -/
  gen : Nat := 0
  /-- ACTIVE: 0 slot A, 1 slot B -/
  active : Nat := 0
  /-- The CRC-32C is valid -/
  crcOk : Bool := false
  deriving DecidableEq, Repr

/-- One-time fuses (R74, R79, R80, R453). -/
structure Fuses where
  /-- R74 role-lock field: [2] locked, [1:0] role. DESIGN CHOICE unblown -/
  roleLock : BitVec 3 := 0
  /-- R80 rollback counter, 0 to 64. DESIGN CHOICE 0 -/
  rollback : Nat := 0
  /-- R79 hashes of the two signer keys. DESIGN CHOICE none fused -/
  signer : List Bytes := []
  /-- R79 revocation fuses of the two hashes. DESIGN CHOICE none -/
  revoked : List Bool := [false, false]
  /-- R453 LIFECYCLE: 0 BLANK, 1 PROVISIONED, 2 DEPLOYED, 3 RMA. DESIGN CHOICE BLANK -/
  lifecycle : Nat := 0
  /-- Table 02.16 SERIAL, 12 bytes. DESIGN CHOICE zeros -/
  serialNo : Bytes := List.replicate 12 0
  deriving DecidableEq, Repr

/-- An event record (Table 02.8). -/
structure EventRec where
  code : Nat
  status : Nat := 0
  handle : Nat := 0
  turn : Nat := 0
  eflags : Nat := 0
  seq : Nat := 0
  reason : Nat := 0
  detail : Nat := 0
  deriving DecidableEq, Repr

/-- A status reply (Table 02.3) and the session it goes to. -/
structure Reply where
  sess : Session
  status : Nat
  reason : Nat := 0
  tag : Nat := 0
  result : Nat := 0
  /-- RFLAGS: [0] HANDLE, [1] GAP -/
  rflags : Nat := 0
  data : Bytes := []
  deriving DecidableEq, Repr

/-- A transport session (R37). -/
structure SessState where
  /-- R38 negotiated version, 0 for none -/
  version : Nat := 0
  deriving DecidableEq, Repr

/-- A handle record (R51 to R57). -/
structure HandleRec where
  /-- [31:24] issuer code, [23:0] serial -/
  handle : Nat
  opcode : Nat
  sess : Session
  tag : Nat
  evq : Nat
  logcopy : Bool
  /-- Version of the command, for REASON in replies -/
  complete : Bool := false
  status : Nat := 0
  reason : Nat := 0
  result : Nat := 0
  progress : Nat := 0
  /-- R56 a CANCEL has been recorded -/
  cancelled : Bool := false
  /-- R56 past the commit point -/
  committed : Bool := false
  /-- R53 order of completion -/
  doneSeq : Nat := 0
  /-- R198 it has no issuing session: its COMPLETION goes to the log only -/
  logOnly : Bool := false
  deriving DecidableEq, Repr

/-- An event queue other than the management event log (R58, R60). -/
structure EventQ where
  /-- Records written and not yet taken by the reader, oldest first -/
  recs : List EventRec := []
  /-- SEQ of the next record written -/
  seq : Nat := 0
  /-- R60 events not written since the queue filled -/
  lost : Nat := 0
  deriving DecidableEq, Repr

/-- The four counters of one transport (GET_CMD_COUNTERS). -/
structure CmdCounters where
  received : Nat := 0
  rejLength : Nat := 0
  discarded : Nat := 0
  evLost : Nat := 0
  deriving DecidableEq, Repr

/-- Transports that can hold the manager role (R49). -/
inductive Holder where
  | pcie | spi | usb
  deriving DecidableEq, Repr

/-- Commands, handles and events (chapter 02). -/
structure Cmd where
  /-- R49 holder of the manager role -/
  holder : Holder := .pcie
  /-- R37 sessions by key -/
  sessions : Tab SessState := []
  /-- R53 handle records, in order of acceptance -/
  handles : List HandleRec := []
  /-- R51 the last serial issued per issuer code -/
  serial : Tab Nat := []
  /-- R53 completions so far, for the order of release -/
  doneSeq : Nat := 0
  /-- R58 management event log, oldest first, at most 4,096 records -/
  log : List EventRec := []
  /-- SEQ of the next record of the log -/
  logSeq : Nat := 0
  /-- R42 EVENT_PENDING: number of log records READ_EVENT has not yet marked read -/
  unread : Nat := 0
  /-- R58 event queues other than the log, by key -/
  queues : Tab EventQ := []
  /-- GET_CMD_COUNTERS: PCIe 0, SPI 1, USB 2, trunk 3; they clear at power-on reset only -/
  counters : Tab CmdCounters := []
  /-- R46 remote policy masks by trunk -/
  policy : Tab Nat := []
  /-- Packets received whole and not yet executed, with their opcodes, in order of arrival (R41) -/
  inbox : List (Nat × Packet) := []
  /-- R33 replies posted on USB and trunks and not yet taken -/
  replies : List Reply := []
  /-- R59 handles that have completed while their STATUS_ACCEPTED reply still waits for a completion entry (R277); their COMPLETION events
  follow that reply -/
  owed : List HandleRec := []
  deriving DecidableEq, Repr

/-- The management SPI target (R42 to R44). -/
structure Spi where
  /-- READ_STATUS[3] FRAME_ERROR -/
  frameError : Bool := false
  /-- READ_STATUS[0] BUSY -/
  busy : Bool := false
  /-- The reply that READ_FRAME returns; READ_STATUS[1] REPLY_READY when present -/
  reply : Option Reply := none
  deriving DecidableEq, Repr

end Sys2Proof.Machine
end

