-- ==== Sys2Proof/Machine/TypesCrock.lean ====
section
/-!
DEFINITION. The state of chapter 14: the fitted media and what they hold, and the Crock. Each field's default is its value after a power-on
reset, and for the media (non-volatile) the DESIGN CHOICE of none.
-/
namespace Sys2Proof.Machine

/-- CSTATE (Table 14.6). -/
inductive CrockState where
  | noMedia | unformatted | census | ready | failed
  deriving DecidableEq, Repr

/-- STATE of a volume (VOLUME_GET). -/
inductive VolState where
  | online | census | readOnly | offline
  deriving DecidableEq, Repr

/-- A volume (R335). Its settings and state survive every reset (R353). -/
structure Volume where
  owner : Nat
  /-- VFLAGS: [0] REMOTE, [1] SHARED -/
  vflags : Nat := 0
  /-- CACHE: WRITE_BACK -/
  back : Bool := false
  blocks : Nat := 0
  state : VolState := .online
  reason : Nat := 0
  /-- VOLUME_DELETE is open: its handle -/
  deleting : Option Nat := none
  /-- R346 WRITE_BACK ends once the volume is flushed -/
  unback : Bool := false
  windowOverrun : Nat := 0
  discarded : Nat := 0
  deriving DecidableEq, Repr

/-- A logical block that has been written (R331, R333). -/
structure LBlock where
  /-- erase block that holds it; none in the power-loss area (R347) -/
  eb : Option Nat := none
  data : Bytes := []
  lost : Bool := false
  /-- write sequence, and powered seconds at programming (R331) -/
  seq : Nat := 0
  at' : Nat := 0
  deriving DecidableEq, Repr

/-- An erase block. -/
structure EBlock where
  cycles : Nat := 0
  /-- R339 page reads since its last erase -/
  reads : Nat := 0
  /-- pages programmed since its last erase -/
  used : Nat := 0
  /-- powered seconds at the first programming -/
  at' : Nat := 0
  deriving DecidableEq, Repr

/-- What a format fixed (R334, R336, R337). -/
structure CrockFormat where
  slc : Bool := false
  /-- erase blocks below this number are the system area -/
  sysTop : Nat := 0
  /-- bad blocks found at format -/
  bad : List Nat := []
  /-- the spare pool -/
  spare : List Nat := []
  spareFormat : Nat := 0
  /-- R337 SPARE_LOW has been posted -/
  lowPosted : Bool := false
  /-- LOGICAL_BLOCKS -/
  logical : Nat := 0
  deriving DecidableEq, Repr

/-- What the NAND holds, kept across every reset. -/
structure Nand where
  fmt : Option CrockFormat := none
  /-- R353 a format has erased and not finished -/
  formatting : Bool := false
  /-- blocks retired since format -/
  grown : List Nat := []
  eb : Tab EBlock := []
  /-- logical blocks by 2^48 * volume + LBA -/
  map : Tab LBlock := []
  /-- the volume table -/
  vols : Tab Volume := []
  /-- R331 write sequence -/
  seq : Nat := 0
  /-- R342 a census has begun and not completed -/
  censusOpen : Bool := false
  deriving DecidableEq, Repr

/-- A BLOCK request that waits or is served (R350, R351). -/
structure BlkReq where
  tag : Nat
  /-- OP: 1 READ, 2 WRITE, 3 FLUSH, 4 TRIM -/
  op : Nat
  fua : Bool := false
  count : Nat := 0
  lba : Nat := 0
  /-- READ: blocks sent; WRITE: blocks staged -/
  next : Nat := 0
  /-- WRITE: blocks programmed -/
  done : Nat := 0
  /-- READ: the first lost block's LBA -/
  lostAt : Option Nat := none
  /-- FLUSH, and WRITE under write-back: staged blocks up to this number matter -/
  mark : Nat := 0
  /-- WRITE: ended by a failure: status, reason -/
  fail : Option (Nat × Nat) := none
  deriving DecidableEq, Repr

/-- A request tunnel's end at F7. -/
structure BlkTunnel where
  vol : Nat
  rw : Bool
  /-- staging blocks reserved (R349) -/
  reserve : Nat := 0
  /-- requests outstanding, in order of arrival -/
  reqs : List BlkReq := []
  /-- the WRITE whose data messages arrive: tag, messages still to come, whether they are discarded -/
  rx : Option (Nat × Nat × Bool) := none
  /-- bytes of the data message in progress -/
  buf : Bytes := []
  /-- SEQ expected next -/
  nextSeq : Option Nat := none
  /-- SEQ after the last cell taken -/
  taken : Nat := 0
  deriving DecidableEq, Repr

/-- A block in staging (R345). -/
structure Staged where
  id : Nat
  vol : Nat
  lba : Nat
  data : Bytes
  /-- request tunnel and tag it came by; none for a block that is moved -/
  by' : Option (Nat × Nat) := none
  /-- a program is under way -/
  running : Bool := false
  deriving DecidableEq, Repr

/-- What a NAND operation is for. -/
inductive NandFor where
  /-- a READ request's block: tunnel, tag -/
  | request (tid tag vol lba : Nat)
  /-- the census's read of an erase block's first page -/
  | census (eb : Nat)
  /-- a page of an erase block that the census found LOST -/
  | censusUnit (vol lba : Nat)
  /-- a block that maintenance moves -/
  | move (vol lba : Nat)
  /-- programs a staged block -/
  | program (id eb : Nat)
  /-- programs a stripe's parity page -/
  | parity (eb : Nat)
  /-- erases an erase block -/
  | erase (eb : Nat)
  deriving DecidableEq, Repr

/-- Counts of a census (CENSUS_GET). -/
structure Census where
  startTurn : Nat := 0
  /-- powered time at its start, ps -/
  startAt : Nat := 0
  durationUs : Nat := 0
  checked : Nat := 0
  good : Nat := 0
  refresh : Nat := 0
  rebuilt : Nat := 0
  lostEb : Nat := 0
  lostBlocks : Nat := 0
  interrupted : Bool := false
  deriving DecidableEq, Repr

/-- The Crock (chapter 14). -/
structure Crock where
  state : CrockState := .noMedia
  /-- REASON of the last CSTATE change -/
  reason : Nat := 0x0801
  /-- what the parameter pages gave -/
  media : Option OnfiPage := none
  channels : Nat := 0
  targets : Nat := 0
  /-- LUNs in all -/
  lunCount : Nat := 0
  /-- HOLDUP_US. DESIGN CHOICE 0 -/
  holdup : Nat := 0
  refreshShare : Nat := 10
  /-- request tunnels that end at F7, by TID -/
  tun : Tab BlkTunnel := []
  staged : List Staged := []
  /-- NAND operations under way, by number -/
  ops : Tab NandFor := []
  nextOp : Nat := 0
  /-- the erase block being filled -/
  openEb : Option Nat := none
  /-- R343 erase blocks erased since the start -/
  erased : List Nat := []
  /-- data pages since the last parity page (R332) -/
  stripe : Nat := 0
  /-- erase blocks the census has still to read -/
  censusLeft : List Nat := []
  census : Census := {}
  /-- lost blocks found in a LOST erase block so far, by volume: count, first LBA -/
  lostRun : Tab (Nat × Nat) := []
  /-- queues of R340: REBUILT first, then the others -/
  rebuiltQ : List Nat := []
  refreshQ : List Nat := []
  /-- the erase block that maintenance empties -/
  moving : Option Nat := none
  /-- CROCK_FORMAT: handle, SPARE_PCT, CELLMODE -/
  format : Option (Nat × Nat × Bool) := none
  /-- open CROCK_FLUSH handles with their volume and the last staged block that matters -/
  flushes : List (Nat × Nat × Nat) := []
  /-- R347 no write cells are taken -/
  halted : Bool := false
  deriving DecidableEq, Repr

end Sys2Proof.Machine
end

