-- ==== Sys2Proof/Machine/TypesDisplay.lean ====
section
/-!
DEFINITION. The state of chapter 12: display heads in HUB and in DOCK. Each field's default is its value after a power-on or warm reset; settings
without a reset value in the spec are off (DESIGN CHOICE).
-/
namespace Sys2Proof.Machine

/-- A timing mode (R295, Table 12.4). -/
structure HeadMode where
  /-- SYNC -/
  sync : Nat := 0
  /-- RFORMAT: 0 RGB888, 1 RGB101010 -/
  rformat : Nat := 0
  /-- pixel clock in kHz -/
  pclk : Nat := 25000
  hactive : Nat := 64
  hfp : Nat := 0
  hsync : Nat := 0
  hbp : Nat := 0
  vactive : Nat := 64
  vfp : Nat := 0
  vsync : Nat := 0
  vbp : Nat := 0
  /-- BG, 30 bits -/
  bg : Nat := 0
  deriving DecidableEq, Repr

/-- A layer's settings (LAYER_SET). -/
structure LayerCfg where
  enable : Bool := false
  premult : Bool := false
  replicate : Bool := false
  c709 : Bool := false
  full : Bool := false
  format : Nat := 0
  srcW : Nat := 0
  srcH : Nat := 0
  dstX : Nat := 0
  dstY : Nat := 0
  alpha : Nat := 0
  seq : Nat := 0
  stride0 : Nat := 0
  stride1 : Nat := 0
  addr0 : Nat := 0
  addr1 : Nat := 0
  deriving DecidableEq, Repr

/-- A source row in a layer's fetch buffer (R297): none while its read is in flight. -/
structure FetchRow where
  layer : Nat
  plane : Nat
  row : Nat
  data : Option Bytes := none
  deriving DecidableEq, Repr

/-- The line being emitted (R301): line, its bytes, the next cell. -/
structure EmitLine where
  line : Nat
  frame : Nat
  bytes : Bytes
  idx : Nat := 0
  deriving DecidableEq, Repr

/-- A head in HUB. -/
structure HubHead where
  mode : Option HeadMode := none
  /-- MODE_GEN -/
  gen : Nat := 0
  /-- raster tunnel -/
  tid : Nat := 0
  /-- R309 the shadow mode: mode, TID, handle -/
  pend : Option (HeadMode × Nat × Nat) := none
  /-- R309 the handle of a latched mode, until line 0 -/
  opened : Option Nat := none
  /-- the next FRAME record carries FIRST -/
  first : Bool := false
  enable : Bool := false
  freezeN : Nat := 4
  /-- OWNER of L0 to L3, and a change that waits for the latch -/
  owner : List Nat := [0xFF, 0xFF, 0xFF, 0xFF]
  ownerNext : Option (List Nat) := none
  /-- R315 layers whose owner has changed and has not set them since -/
  waitOwner : List Nat := []
  /-- issuers of the LAYER_SETs recorded since the last latch, by layer -/
  setBy : Tab Nat := []
  layers : Tab LayerCfg := []
  shadow : Tab LayerCfg := []
  /-- R311 flips recorded since the last latch, by layer -/
  flips : Tab Nat := []
  /-- R312 in self-refresh; a request with its handle (0 none), true to enter; the handle of an exit, until line 0 -/
  sr : Bool := false
  srReq : Option (Bool × Nat) := none
  srExit : Option Nat := none
  frameNo : Nat := 0
  /-- the line in progress; 0 is the first active line -/
  line : Nat := 0
  /-- vertical blank has begun and VBLANK_LATCH is due -/
  latchDue : Bool := false
  /-- the frame in progress is composed and emitted -/
  live : Bool := false
  /-- R298 layers switched off until the end of the frame; UNDERRUN has been posted -/
  off : List Nat := []
  underPosted : Bool := false
  under : Tab Nat := []
  skipped : Nat := 0
  /-- R302 the accumulator that spreads skipped lines -/
  skipAcc : Nat := 0
  fetch : List FetchRow := []
  /-- next output line whose rows are fetched -/
  fetchNext : Nat := 0
  next : Option (Nat × Bytes) := none
  cur : Option EmitLine := none
  /-- R313 running CRC register of the frame -/
  crc : Nat := 0xFFFFFFFF
  /-- R314 the CRCs of the last 16 frames, newest first -/
  crcs : List (Nat × Nat) := []
  crcRun : Nat := 0
  /-- frames since a CONTENT_SEQ changed, and the last frame's -/
  sinceSeq : Nat := 1000
  seqs : List (Option Nat) := []
  freezePosted : Bool := false
  freeze : Nat := 0
  /-- R314 reports taken and not yet compared -/
  reports : List Cell := []
  lossy : Nat := 0
  mismatch : Nat := 0
  misRun : Nat := 0
  misPosted : Bool := false
  flipReplaced : Nat := 0
  discards : Nat := 0
  deriving DecidableEq, Repr

/-- A slot of a dock head's 32-line buffer (R303). -/
structure LineSlot where
  line : Nat
  frame : Nat
  bytes : Bytes
  cells : Nat
  nextSeq : Nat
  gap : Bool
  poison : Bool
  deriving DecidableEq, Repr

/-- A FRAME record that waits for its frame. -/
structure FrameRec where
  mode : HeadMode
  gen : Nat
  frameNo : Nat
  /-- R304 target of D_0, local ps -/
  target : Nat
  marker : Bool
  first : Bool
  deriving DecidableEq, Repr

/-- What a sink says it is capable of: lanes, rate, PSR. -/
structure Sink where
  lanes : Nat
  rate : Nat
  psr : Bool
  deriving DecidableEq, Repr

/-- What the main link carries. -/
inductive MainLink where
  /-- transmitter stopped -/
  | off
  /-- idle pattern with video muted -/
  | idle
  | video
  /-- the panel holds the picture -/
  | psr
  deriving DecidableEq, Repr

/-- A head in DOCK. -/
structure DockHead where
  /-- DOCK_OUTPUT_SET -/
  kind : Nat := 0
  maxLanes : Nat := 4
  maxRate : Nat := 3
  delay : Nat := 16
  oflags : Nat := 0
  /-- timing in use, its MODE_GEN, and a timing that applies from the next frame (R310) -/
  mode : Option HeadMode := none
  gen : Nat := 0
  next : Option (HeadMode × Nat) := none
  rec_ : Option FrameRec := none
  /-- an SR_ENTER record has come -/
  srPending : Bool := false
  sr : Bool := false
  frameNo : Nat := 0
  /-- the frame in progress shows background: a new mode or a resync -/
  bgFrame : Bool := false
  resync : Bool := false
  noRaster : Bool := false
  /-- lock: 0 none, 1 MARKER, 2 ARRIVAL -/
  lock : Nat := 0
  /-- start of the frame in progress, local ps -/
  startAt : Option Nat := none
  slots : Tab LineSlot := []
  /-- lines of the frame begun so far -/
  read : Nat := 0
  crc : Nat := 0xFFFFFFFF
  lastCrc : Nat := 0
  frameBg : Nat := 0
  /-- a frame has been output -/
  active : Bool := false
  hpd : Bool := false
  sink : Option Sink := none
  /-- lanes and rate that the main link is trained at -/
  link : Option (Nat × Nat) := none
  main : MainLink := .off
  /-- R307 DOCK_OUTPUT_SET has changed the output: the link is trained at the next frame -/
  trainDue : Bool := false
  /-- R305 the delay condition fails, and that has been posted -/
  delayBad : Bool := false
  linesBg : Nat := 0
  late : Nat := 0
  discards : Nat := 0
  resyncs : Nat := 0
  deriving DecidableEq, Repr

/-- The display heads. -/
structure Display where
  hub : Tab HubHead := []
  dock : Tab DockHead := []
  deriving DecidableEq, Repr

end Sys2Proof.Machine
end

