-- ==== Sys2Proof/Machine/TypesEth.lean ====
section
/-!
DEFINITION. The state of chapter 13: the Ethernet ports, the classification table and egress reassembly. Each field's default is its value
after a power-on reset.
-/
namespace Sys2Proof.Machine

/-- ETH_PORT_SET's settings (Table 13.4). -/
structure EthCfg where
  admin : Bool := false
  mode : Nat := 0
  /-- [0] TX_INVERT, [1] RX_INVERT, [2] AUTO_POL, [3] AN37, [4] INGRESS_CT, [5] EGRESS_CT, [6] UDP_IPV4, [7] PERSIST -/
  pflags : Nat := 0
  loop : Nat := 0
  miss : Nat := 0
  missTid : Nat := 0
  maxFrame : Nat := 1522
  deriving DecidableEq, Repr

/-- A frame in an egress buffer (R325). -/
structure EthFrame where
  tid : Nat
  bytes : Bytes := []
  cells : Nat := 0
  /-- MAX_FRAME and EGRESS_CT when its first cell was taken (R328) -/
  maxFrame : Nat
  ct : Bool
  /-- its L cell has arrived -/
  done : Bool := false
  ready : Bool := false
  /-- it is being transmitted -/
  started : Bool := false
  deriving DecidableEq, Repr

/-- An Ethernet port. -/
structure EthPort where
  cfg : EthCfg := {}
  /-- the lock of Table 13.1 -/
  lock : Bool := false
  /-- Clause 37 negotiation has completed -/
  an : Bool := false
  /-- RS-FEC codewords are aligned -/
  rsAligned : Bool := false
  /-- R318 AUTO_POL has inverted the receiver -/
  flipped : Bool := false
  /-- R317 -/
  up : Bool := false
  /-- transitions to UP -/
  ups : Nat := 0
  /-- the sixteen counters of R328, by place from 1 -/
  cnt : Tab Nat := []
  /-- the egress buffer: frames ready stand in the order in which they became ready -/
  frames : List EthFrame := []
  deriving DecidableEq, Repr

/-- The end of a FRAME tunnel at F6: the SEQ expected next, and whether cells are dropped until the next F cell. -/
structure EthEnd where
  nextSeq : Option Nat := none
  skip : Bool := false
  deriving DecidableEq, Repr

/-- A PTP message received on a port, from its header, with the local time at which it came, ps (R266, R320). -/
structure PtpIn where
  port : Nat
  at' : Nat
  msg : Bytes
  deriving DecidableEq, Repr

/-- The Ethernet block. -/
structure Eth where
  ports : Tab EthPort := []
  /-- the classification table: entries of Table 13.2 with GEN in place, by index -/
  cls : Tab Bytes := []
  ends : Tab EthEnd := []
  /-- messages that the PTP engine has not taken, oldest first -/
  ptpIn : List PtpIn := []
  deriving DecidableEq, Repr

end Sys2Proof.Machine
end

