-- ==== Sys2Proof/Machine/TypesFabric.lean ====
section
/-!
DEFINITION. The state of chapters 06 to 09: gears, promises, tunnels, fabric queues, the stockpot, freewheel service and the ladle. Each
field's default is its value after a power-on reset.
-/
namespace Sys2Proof.Machine

/-! ### Gears (chapter 07) -/

/-- A run entry of a tooth table (Table 07.5). -/
structure Run where
  len : Nat
  kind : Nat
  tid : Nat
  deriving DecidableEq, Repr

/-- A TEETH section (Table 07.4), with its offset in the image. -/
structure TeethSec where
  trunk : Nat
  geom : Nat
  period : Nat
  runs : List Run
  off : Nat := 0
  deriving DecidableEq, Repr

/-- A window entry (Table 07.6), with its offset. -/
structure Window where
  engine : Nat
  unit : Nat
  tid : Nat
  spokes : Nat
  start : Nat
  len : Nat
  off : Nat := 0
  deriving DecidableEq, Repr

/-- A variant of a certificate record. -/
structure Variant where
  teeth : Nat := 0
  maxWait : Nat := 0
  bound : Nat := 0
  deriving DecidableEq, Repr

/-- A certificate record (Table 07.7), with its offset. -/
structure CertRec where
  tid : Nat
  ty : Nat
  cls : Nat
  cflags : Nat := 0
  hops : Nat := 0
  hop : Nat := 0
  prot : Nat := 0
  inPort : Nat := 0
  outPort : Nat := 0
  inRate : Nat := 0
  burst : Nat := 0
  reserve : Nat := 0
  eIn : Nat := 0
  eOut : Nat := 0
  otherNs : Nat := 0
  flightAllow : Nat := 0
  policeRate : Nat := 0
  policeDepth : Nat := 0
  var4 : Variant := {}
  var2 : Variant := {}
  var1 : Variant := {}
  off : Nat := 0
  deriving DecidableEq, Repr

/-- An accepted gear image, as its sections say. -/
structure GearImg where
  format : Nat
  gearId : Nat
  setId : Nat
  hashLow : Nat
  teeth : List TeethSec
  /-- budgets of F0 to F10 -/
  budget : List Nat
  windows : List Window
  /-- RESERVE TOTAL -/
  total : Nat
  recs : List CertRec
  /-- PEER entries: EXPECT_HASH and PEER_ROLE by trunk -/
  peers : List (Nat × Nat) := []
  deriving DecidableEq, Repr

/-- A gear slot (R170, R171). -/
structure GearSlot where
  /-- the image accepted last -/
  img : Option GearImg := none
  /-- SINCE_TURN -/
  since : Nat := 0
  persist : Bool := false
  boot : Bool := false
  /-- VERIFYING: the handle (0 for a restoration), the image's bytes and VFLAGS -/
  verifying : Option (Nat × Bytes × Nat) := none
  deriving DecidableEq, Repr

/-- An open shift (R186 to R189). -/
structure ShiftRec where
  /-- 0 to 3, or 4 for NONE -/
  slot : Nat
  target : Nat
  handle : Nat
  /-- R188 committed -/
  committed : Bool := false
  /-- R187 trunks matched -/
  matched : Nat := 0
  /-- trunks whose peer carries SHIFT_STATE 2 -/
  peerConf : Nat := 0
  deriving DecidableEq, Repr

/-- The gears of the device (chapter 07). -/
structure Gears where
  slots : Tab GearSlot := []
  /-- the ACTIVE slot, none for the NONE gear -/
  active : Option Nat := none
  shift : Option ShiftRec := none
  /-- R188 an aborted shift whose SHIFT_STATE 3 is still announced: slot, T and SHIFT_HASH -/
  aborting : Option (Nat × Nat × Nat) := none
  /-- slot, TARGET_TURN and LAST_REASON of the last shift -/
  lastSlot : Nat := 0
  lastTarget : Nat := 0
  lastReason : Nat := 0
  /-- R197 staging: session, bytes -/
  stageOwner : Option Session := none
  staged : Bytes := []
  /-- R198 the BOOT image has been accepted and its SHIFT not yet issued: the slot -/
  bootShift : Option Nat := none
  /-- R189 late aborts counted -/
  lateAborts : Nat := 0
  /-- R194 trunks whose peer's GEAR_HASH is not the one expected -/
  mismatch : List Nat := []
  /-- R194 trunks whose peer's GEAR_HASH is compared at the next marker received -/
  checkDue : List Nat := []
  deriving DecidableEq, Repr

/-! ### Tunnels (chapter 08) -/

/-- Context states (Table 08.3). -/
inductive TState where
  | free | opening | open | closing | quarantine
  deriving DecidableEq, Repr

/-- The promise of a contracted tunnel (R165 to R169). -/
structure Promise where
  suspended : Bool := false
  /-- CAUSE, the last one; 0 for none -/
  cause : Nat := 0
  /-- PORT of that cause -/
  port : Nat := 0xFF
  /-- SINCE_TURN -/
  since : Nat := 0
  suspensions : Nat := 0
  causes : Nat := 0
  /-- R167 the turn of the last cause, or in which a condition came to hold again -/
  lastTurn : Nat := 0
  /-- R167 every condition held when last looked at -/
  held : Bool := true
  deriving DecidableEq, Repr

/-- A tunnel context (R202, Table 08.11). -/
structure Tun where
  state : TState := .free
  ty : Nat := 0
  cls : Nat := 2
  minVer : Nat := 1
  maxVer : Nat := 1
  version : Nat := 0
  hops : Nat := 0
  index : Nat := 0
  inPort : Nat := 0
  outPort : Nat := 0
  owner : Nat := 0xFF
  oflags : Nat := 0
  partner : Nat := 0
  /-- session and event queue of the opener at device 0 -/
  sess : Option Session := none
  evq : Nat := 0
  /-- ALPHA -/
  alpha : Int := 0
  nextSeq : Nat := 0
  window : Nat := 0
  guarantee : Nat := 0
  openTurn : Nat := 0
  drainTurns : Nat := 8
  cellsOut : Nat := 0
  discarded : Nat := 0
  gaps : Nat := 0
  route : List Nat := []
  typeParams : Bytes := []
  openId : Nat := 0
  /-- device 0: the open TUNNEL_OPEN -/
  openHandle : Option Nat := none
  /-- LAST_SEQ of the DRAIN -/
  lastSeq : Nat := 0
  /-- cause of the closure -/
  closeCause : Nat := 0
  /-- SEQ after the last cell forwarded or delivered here -/
  outNext : Nat := 0
  /-- R225 device 0: SEQ after the last cell linked at OUT_PORT -/
  linkNext : Nat := 0
  /-- device 0: the last cell presented was not the last of its message -/
  unitOpen : Bool := false
  /-- R209 device 0: a DRAIN waits for the unit in progress to be finished; its CLOSE has not been sent -/
  draining : Bool := false
  /-- the TYPE_PARAMS that the destination answered, at device 0 -/
  answer : Bytes := []
  /-- R210 this device originated an ABORT close -/
  aborter : Bool := false
  /-- FLOW_CTL at the source: CREDIT_SEQ received -/
  creditSeq : Option Nat := none
  /-- FLOW_CTL at the destination: CREDIT_SEQ sent -/
  creditSent : Nat := 0
  promise : Promise := {}
  /-- R239 the policer: tokens in 2^-16 cell, powered time of the last update, mode -/
  tokens : Nat := 0
  tokensFrac : Nat := 0
  tokensAt : Nat := 0
  polMode : Nat := 0
  deriving DecidableEq, Repr

/-- An open close (R209, R210): its handle, the ends whose CLOSE_ACK is awaited, [0] downstream, [1] upstream, and the downstream output
when the path goes on there. -/
structure CloseRec where
  tid : Nat
  handle : Nat
  acks : Nat
  drain : Bool
  out : Option Nat := none
  deriving DecidableEq, Repr

/-! ### Queues and the stockpot (chapter 08) -/

/-- The pool a stored cell's space comes from (Table 08.7). -/
inductive Pool where
  | reserve | system | guaranteed | shared
  deriving DecidableEq, Repr

/-- A stored cell. -/
structure QCell where
  cell : Cell
  pool : Pool := .shared
  /-- R215 demoted -/
  demoted : Bool := false
  /-- R222 the trunk input and credit group whose credit it holds -/
  credit : Option (Nat × Nat) := none
  /-- powered time at which it was linked -/
  linkAt : Nat := 0
  /-- R224 the forwarding start that applied when its message's first cell was linked is store-and-forward -/
  sf : Bool := false
  deriving DecidableEq, Repr

/-- A token-bucket shaper (R236, R237). -/
structure Shaper where
  on : Bool := false
  rate : Nat := 0
  burst : Nat := 0
  /-- tokens in 2^-16 byte -/
  tokens : Nat := 0
  /-- rest of the accrual below 2^-16 byte, and powered time of the last accrual -/
  frac : Nat := 0
  at' : Nat := 0
  /-- R237 a write waits for the first decision: on, rate, burst, TOKENS_FULL -/
  write : Option (Bool × Nat × Nat × Bool) := none
  deriving DecidableEq, Repr

/-- The freewheel state of a queue (R231 to R237, R245). -/
structure FwQueue where
  weight : Nat := 1
  s : Nat := 0
  f : Nat := 0
  fLast : Nat := 0
  /-- was eligible after the last decision at its output -/
  eligible : Bool := false
  /-- R225 cells are discarded until the next F cell -/
  sfSkip : Bool := false
  shaper : Shaper := {}
  depthHwm : Nat := 0
  sojournHwm : Nat := 0
  cellsOut : Nat := 0
  accBytes : Nat := 0
  /-- R240 policed cells conforming, demoted, dropped -/
  conform : Nat := 0
  demoted : Nat := 0
  dropped : Nat := 0
  deriving DecidableEq, Repr

/-- A queue of a new tunnel (R235, Table 09.6): it starts afresh, with the counters that only power-on and warm reset clear. -/
def FwQueue.fresh (f : FwQueue) : FwQueue :=
  { cellsOut := f.cellsOut, accBytes := f.accBytes, conform := f.conform, demoted := f.demoted, dropped := f.dropped }

/-- What FW_PORT_SET stores with PERSIST (Table 09.5). -/
structure FwPortCfg where
  overhead : Int
  demoteWeight : Nat
  on : Bool
  rate : Nat
  burst : Nat
  limits : List Nat
  deriving DecidableEq, Repr

/-- An output port of the fabric. -/
structure OutPort where
  /-- R235 virtual time -/
  v : Nat := 0
  /-- R234 OVERHEAD -/
  overhead : Int := 0
  /-- R231 DEMOTE_WEIGHT -/
  demoteWeight : Nat := 1
  shaper : Shaper := {}
  depthHwm : Nat := 0
  sojournHwm : Nat := 0
  fwCells : Nat := 0
  creditBlocked : Nat := 0
  /-- R244 CREDIT_LIMIT of the trunk input -/
  limits : List Nat := [16384, 4096, 4096, 4096]
  /-- R159 contracted cells linked in this fabric spoke -/
  spent : Nat := 0
  /-- the eight chainring counters -/
  cnt : Tab Nat := []
  /-- R224 forwarding start: [0] C, [1] V, [2] B is SF; SF_TIMEOUT in 10 µs -/
  fwd : Nat := 0
  sfTimeout : Nat := 100
  /-- R214 the input served last in each round robin -/
  rrTrunk : Nat := 0
  deriving DecidableEq, Repr

/-- Lines of a list that was lost with its descriptor (R217, R226): the owner code that their descriptors hold (LINKED, with the key of the
queue; REPLAY, with 16,384 and the trunk), their number, and the audits that have flagged them. No allocation reaches them, so their
generations stay. -/
structure LostList where
  owner : Nat
  lines : Nat
  audits : Nat := 0
  deriving DecidableEq, Repr

/-- The stockpot's counters and settings (R216 to R227, Table 08.12). -/
structure Stockpot where
  /-- R218 corrections by line -/
  corrections : Tab Nat := []
  /-- R218 retired lines -/
  retired : List Nat := []
  worn : Bool := false
  auditMs : Nat := 10
  reclaim : Bool := false
  svPersist : Bool := false
  corrected : Nat := 0
  poisoned : Nat := 0
  evicted : Nat := 0
  leaked : Nat := 0
  reclaimed : Nat := 0
  accounting : Nat := 0
  descLost : Nat := 0
  creditOverrun : Nat := 0
  sfIncomplete : Nat := 0
  systemDrops : Nat := 0
  /-- Table 21.2: peak of the shared pool since the last second -/
  peakShared : Nat := 0
  /-- R217 the lists lost with a descriptor, whose lines are not yet recovered -/
  lost : List LostList := []
  deriving DecidableEq, Repr

/-! ### The ladle (chapter 09) -/

/-- A ladle filter (LADLE_FILTER_SET). -/
structure LadleFilter where
  enable : Bool := false
  ring : Nat := 0
  points : Nat := 0
  ports : Nat := 0
  classes : Nat := 0
  fflags : Nat := 0
  ctypes : Nat := 0
  tidLo : Nat := 0
  tidHi : Nat := 0
  sampleN : Nat := 0
  limit : Nat := 0
  /-- matches so far, captures so far -/
  matched : Nat := 0
  captured : Nat := 0
  deriving DecidableEq, Repr

/-- A captured record that waits to be written (R247). -/
structure LadleRec where
  ring : Nat
  /-- Table 09.2 bytes with RFLAGS.GAP and RSEQ zero -/
  bytes : Bytes
  deriving DecidableEq, Repr

/-- A MESSAGE capture that gathers its first 64 payload bytes (R248). -/
structure LadleMsg where
  filter : Nat
  tid : Nat
  port : Nat
  point : Nat
  /-- the record's first 32 bytes -/
  head : Bytes
  content : Bytes
  /-- powered time at which it began to wait -/
  at' : Nat := 0
  deriving DecidableEq, Repr

/-- A ladle ring (R249, R250). -/
structure LadleRing where
  mode : Nat := 0
  log2 : Nat := 6
  owner : Nat := 0
  base : Nat := 0
  piAddr : Nat := 0
  rseq : Nat := 0
  consumer : Nat := 0
  lost : Nat := 0
  gap : Bool := false
  /-- LADLE_RING_FULL has been posted for this filling -/
  fullPosted : Bool := false
  /-- ring 0: records held by RSEQ, oldest first -/
  recs : List (Nat × Bytes) := []
  deriving DecidableEq, Repr

/-- The ladle. -/
structure Ladle where
  filters : Tab LadleFilter := []
  rings : Tab LadleRing := []
  queue : List LadleRec := []
  msgs : List LadleMsg := []
  deriving DecidableEq, Repr

/-- The fabric (chapters 06, 08, 09). -/
structure Fabric where
  /-- contexts by TID -/
  tun : Tab Tun := []
  /-- closes begun here and not complete -/
  closes : List CloseRec := []
  /-- OPEN_ACK cells discarded for contexts in QUARANTINE or FREE (R519) -/
  strayAcks : Nat := 0
  /-- queues by 1024 * output + TID, oldest cell first -/
  q : Tab (List QCell) := []
  /-- freewheel state by 1024 * output + TID -/
  fw : Tab FwQueue := []
  /-- R214 trunk cells written and not yet linked, by 16 * output + input, oldest first -/
  backlog : Tab (List QCell) := []
  ports : Tab OutPort := []
  /-- cells that wait in the endpoints' sources, by port 4 to 10, oldest first -/
  src : Tab (List Cell) := []
  pot : Stockpot := {}
  ladle : Ladle := {}
  /-- R219 control and TIME cells that wait for stockpot space, by trunk, oldest first -/
  ctlWait : Tab (List Cell) := []
  /-- cells delivered to firmware at F10 and not yet acted on, with their trunk, oldest first -/
  f10 : List (Nat × Cell) := []
  deriving DecidableEq, Repr

end Sys2Proof.Machine
end

