-- ==== Sys2Proof/Machine/TypesGuard.lean ====
section
/-!
DEFINITION. The state of chapters 20 and 21: the gatekeepers' rule sets and violation records, and the lifetime record.
-/
namespace Sys2Proof.Machine

/-- A region entry (Table 20.3). -/
structure Region where
  /-- BASE, 64 bits -/
  base : Nat := 0
  /-- LIMIT, 64 bits -/
  limit : Nat := 0
  /-- PERM (Table 20.4) -/
  perm : Nat := 0
  deriving DecidableEq, Repr

/-- One set of rules: regions, default rule and straddle mode (R481). -/
structure RuleSet where
  /-- Region entries by index, 0 to 127 -/
  regions : Tab Region := []
  /-- Default rule, in PERM format -/
  dflt : Nat := 0
  /-- STRADDLE: 0 FIRSTBYTE, 1 EACHPART -/
  straddle : Nat := 1
  deriving DecidableEq, Repr

/-- The gatekeepers' rule sets, by gatekeeper of Table 20.1. -/
structure Guard where
  /-- R481 active sets. Table 20.5 -/
  active : Tab RuleSet := []
  /-- R481 shadow sets; equal to the active sets after a reset -/
  shadow : Tab RuleSet := []
  /-- R483 sets stored in the boot-flash CONFIG -/
  stored : Tab RuleSet := []
  deriving DecidableEq, Repr

/-- A gatekeeper's violation record (Table 20.6) and counts. -/
structure Violation where
  /-- VFLAGS[0] VALID -/
  valid : Bool := false
  addr : Nat := 0
  size : Nat := 0
  kind : Nat := 0
  level : Nat := 0
  master : Nat := 0
  id : Nat := 0
  am : Nat := 0
  region : Nat := 0
  /-- VFLAGS[1] PARTIAL -/
  part : Bool := false
  /-- VFLAGS[2] STRADDLE -/
  straddle : Bool := false
  turn : Nat := 0
  /-- OVERFLOW, saturating -/
  overflow : Nat := 0
  deriving DecidableEq, Repr

/-- What a gatekeeper counts and records (R486, R482). -/
structure GkLog where
  /-- First violation -/
  first : Violation := {}
  /-- GK_GET SYNCS, saturating -/
  syncs : Nat := 0
  /-- Table 20.2 UNMAPPED accesses -/
  unmapped : Nat := 0
  /-- R482 the open GK_SYNC's handle and its PERSIST flag -/
  sync : Option (Nat × Bool) := none
  deriving DecidableEq, Repr

/-- A saved lifetime record (Table 21.3). -/
structure LifeRec where
  /-- COUNTERS by index of Table 21.1 -/
  counters : Tab Nat := []
  /-- HISTOGRAMS by 16 * histogram + bin -/
  hist : Tab Nat := []
  /-- SAVE_SEQ -/
  seq : Nat := 0
  /-- RFLAGS -/
  rflags : Nat := 0
  fwVersion : Nat := 0
  /-- SAVE_TIME, 16 bytes -/
  time : Bytes := []
  mode : Nat := 0
  role : Nat := 0
  lifecycle : Nat := 0
  deriving DecidableEq, Repr

/-- A save under way (R492): its record and the LIFETIME_SAVE handle it completes, 0 for none. -/
structure LifeSave where
  record : LifeRec
  handle : Nat := 0
  deriving DecidableEq, Repr

/-- The lifetime recorder (chapter 21). -/
structure Life where
  /-- R489 the 48 counters, 64 bits, by index. R493: zero when no valid record exists -/
  counters : Tab Nat := []
  /-- R490 the 12 histograms' bins, 32 bits, by 16 * histogram + bin -/
  hist : Tab Nat := []
  /-- SAVE_SEQ of the last save -/
  saveSeq : Nat := 0
  /-- R491 the journal in BOOTLOG, by slot 0 to 511, of records whose CHECK holds. DESIGN CHOICE none -/
  journal : Tab LifeRec := []
  /-- R491 next journal slot -/
  slot : Nat := 0
  /-- R491 the copy in the Crock system area -/
  crockCopy : Option LifeRec := none
  /-- R492 the save in progress -/
  saving : Option LifeSave := none
  /-- R492 the saves that follow it, with their RFLAGS and handles -/
  next : List LifeSave := []
  /-- R493 the record restored at power-on -/
  restored : Option LifeRec := none
  /-- R492 powerPs of the last PWRFAIL save -/
  lastFail : Option Nat := none
  /-- R488 POWERED_S at the last periodic save -/
  lastPeriodic : Nat := 0
  /-- R490 trunk totals at the last tick: corrected symbols and uncorrectable codewords by trunk -/
  lastCorr : Tab Nat := []
  lastUncorr : Tab Nat := []
  deriving DecidableEq, Repr

end Sys2Proof.Machine
end

