-- ==== Sys2Proof/Machine/TypesKeys.lean ====
section
/-!
DEFINITION. The state of chapter 19: key slots, logins, self-tests, crypto operations, and the sealing of each trunk; and the Crock system
area, which keeps wrapped keys and gear images. Each field's default is its value after a power-on reset.
-/
namespace Sys2Proof.Machine

/-- A key slot that is not EMPTY (R456). -/
structure KeySlot where
  /-- Table 19.5 attribute word, 32 bits -/
  attr : Nat := 0
  key : Bytes := []
  /-- LABEL, 16 bytes -/
  label : Bytes := []
  /-- PARENT: slot, or 0xFFFF ROOT -/
  parent : Nat := 0xFFFF
  /-- GEN of its stored blob -/
  gen : Nat := 0
  deriving DecidableEq, Repr

/-- A queued crypto operation (CRYPTO_OP). -/
structure CryptoJob where
  handle : Nat
  op : Nat
  slot : Nat
  aadLen : Nat
  iv : Bytes
  input : Bytes
  /-- OP 8: bytes wanted -/
  want : Nat := 0
  deriving DecidableEq, Repr

/-- The key store (R448 to R463, R474, R475). -/
structure Keys where
  /-- KS0 to KS255; an unlisted slot is EMPTY -/
  slots : Tab KeySlot := []
  /-- R451 approved mode in force -/
  approved : Bool := false
  /-- R463 ZEROIZE_L is held low -/
  zeroizeL : Bool := false
  /-- R450 nonces by session key -/
  nonces : Tab Bytes := []
  /-- R449 sessions logged in, by session key -/
  logged : List Nat := []
  /-- R450 consecutive failures by issuer code -/
  fails : Tab Nat := []
  /-- R450 issuer codes locked out -/
  lockout : List Nat := []
  /-- IDCERT_WRITE: the session that holds the staging, and the bytes written -/
  certOwner : Option Session := none
  certStaged : Nat := 0
  /-- R467 trust anchors by index 0 to 7 -/
  anchors : Tab Bytes := []
  /-- R452 a self-test run is in progress: its handle, 0 for a periodic one -/
  selftest : Option Nat := none
  /-- SELFTEST_TURN -/
  selftestTurn : Nat := 0
  /-- R462 restoration has ended in this boot -/
  restored : Bool := false
  /-- R452 a pairwise test of an ephemeral key has failed -/
  pairFailed : Bool := false
  /-- queued crypto operations, oldest first -/
  jobs : List CryptoJob := []
  /-- R475 outputs by handle -/
  outputs : Tab Bytes := []
  /-- GEN of the last blob written -/
  gen : Nat := 0
  /-- KEY_LIFECYCLE open: handle and OP -/
  lifeOp : Option (Nat × Nat) := none
  deriving DecidableEq, Repr

/-- SEAL_SET's settings of a trunk (R473). DESIGN: MODE off, AUTH 1, TAG_FAIL_MAX 4, ANCHORS 0xFF. -/
structure SealCfg where
  mode : Nat := 0
  auth : Bool := true
  anonOk : Bool := false
  requireTime : Bool := false
  tagFailMax : Nat := 4
  anchors : Nat := 0xFF
  deriving DecidableEq, Repr

/-- Link keys of one epoch (R468), as this end uses them. -/
structure LinkKeys where
  epoch : Nat
  kTx : Bytes
  kRx : Bytes
  chain : Bytes
  deriving DecidableEq, Repr

/-- The contents of a turn under seal (R470): its number, key, additional data and payloads so far. -/
structure SealTurn where
  turn : Nat
  epoch : Nat
  key : Bytes
  aad : Bytes := []
  data : Bytes := []
  /-- R472 a codeword of it was uncorrectable, or a marker lost -/
  bad : Bool := false
  /-- receive: VERIFY_FIRST cells held, in order of arrival -/
  held : List Cell := []
  /-- receive: tunnels whose cells were delivered -/
  delivered : List Nat := []
  /-- receive: management packets of the turn: MTYPE and bytes -/
  packets : List (Nat × Bytes) := []
  deriving DecidableEq, Repr

/-- The phase of a handshake (R466). -/
inductive KxPhase where
  | idle | hello | cert | proof | done | refused
  deriving DecidableEq, Repr

/-- One trunk's authentication and sealing (R464 to R473). -/
structure Seal where
  cfg : SealCfg := {}
  phase : KxPhase := .idle
  /-- this handshake was started by REKEY with FRESH while the trunk is sealed -/
  fresh : Bool := false
  myHello : Bytes := []
  peerHello : Bytes := []
  myCert : Bytes := []
  peerCert : Bytes := []
  /-- EPH private key, zeroized once Z is formed -/
  eph : Bytes := []
  initiator : Bool := false
  /-- keys of the handshake, before the first sealed turn -/
  fin : Bytes := []
  newKeys : Option LinkKeys := none
  /-- the peer's SEAL_WANTED -/
  peerWants : Bool := false
  /-- R467 the peer is authenticated (R45) -/
  authentic : Bool := false
  /-- R467 accepted without an anchor, for sealing only -/
  anonymous : Bool := false
  /-- PEER: the anchor index matched, 0xFF none -/
  peer : Nat := 0xFF
  /-- REASON -/
  reason : Nat := 0
  /-- both ends have completed the handshake -/
  complete : Bool := false
  /-- R469 keys in use, when sealing has begun or is announced -/
  keys : Option LinkKeys := none
  /-- R469 own first sealed turn S -/
  txFirst : Option Nat := none
  /-- R469 the peer's first sealed turn -/
  rxFirst : Option Nat := none
  /-- R471 keys of the next epoch, and the turn it begins -/
  next : Option (LinkKeys × Nat) := none
  /-- R471 the keys before the present ones, and the first turn under the present ones -/
  prev : Option (LinkKeys × Nat) := none
  /-- R466 the handshake's transcript hash through both KX_HELLO messages -/
  helloHash : Bytes := []
  /-- R465 sealing has begun in this DATA period -/
  sealedOn : Bool := false
  /-- REKEY handle -/
  rekey : Option Nat := none
  /-- R471 turns sealed under the present key -/
  turnsUsed : Nat := 0
  /-- R471 the last turn sealed -/
  lastSealed : Nat := 0
  /-- the turn being transmitted, and the tag of the one before -/
  tx : Option SealTurn := none
  txTag : Option Bytes := none
  /-- the turn being received -/
  rx : Option SealTurn := none
  /-- R472 consecutive failed turns -/
  failRun : Nat := 0
  /-- TAG_FAILS, UNVERIFIED -/
  tagFails : Nat := 0
  unverified : Nat := 0
  deriving DecidableEq, Repr

/-- The Crock system area (R334): non-volatile. DESIGN CHOICE: empty. -/
structure CrockSys where
  /-- R461 key blobs by slot, 176 bytes each -/
  blobs : Tab Bytes := []
  /-- R461 WRAP_SALT -/
  salt : Option Bytes := none
  /-- R198 gear images by slot, with BOOT -/
  gears : Tab (Bytes × Bool) := []
  /-- what the NAND holds (chapter 14) -/
  nand : Nand := {}
  deriving DecidableEq, Repr

end Sys2Proof.Machine
end

