-- ==== Sys2Proof/Machine/TypesLegacy.lean ====
section
/-!
DEFINITION. The state of chapter 16: the legacy bridge's settings, windows, tags, bus, trivets, prefetch lines and inbound accesses. Each
field's default is its value after a power-on reset.
-/
namespace Sys2Proof.Machine

/-- LEGACY_CONFIG's settings (Table 16.6). -/
structure LegCfg where
  /-- 0 off, 1 VME, 2 STROBE -/
  mode : Nat := 0
  /-- [0] SYSCON, [1] PRI, [2] SYSCLK -/
  sysflags : Nat := 0
  brLevel : Nat := 3
  /-- 0 RWD, 1 ROR. DESIGN CHOICE 0 -/
  release : Nat := 0
  busTimer : Nat := 64
  inTimeout : Nat := 50
  poll : Nat := 10
  irqEnable : Nat := 0
  iackWidth : Nat := 0
  /-- owners of levels 1 to 7. DESIGN CHOICE manager only -/
  irqOwner : List Nat := List.replicate 7 0xFF
  strobeT : List Nat := List.replicate 4 0
  ready : Nat := 0
  /-- DESIGN CHOICE 1 -/
  readyTimeout : Nat := 1
  prefetchLife : Nat := 20
  trivetHold : Nat := 100
  deriving DecidableEq, Repr

/-- An outbound window's entry (R384 to R386). -/
structure LegWin where
  enable : Bool := false
  posted : Bool := false
  prefetch : Bool := false
  rmw : Bool := false
  aperture : Bool := false
  width : Nat := 0
  am : Nat := 0
  owner : Nat := 0
  trivet : Nat := 0
  size : Nat := 0
  base : Nat := 0
  slide : Nat := 0
  gen : Nat := 0
  deriving DecidableEq, Repr

/-- A poisoned window's record (R391). -/
structure LegErr where
  addr : Nat := 0
  tag : Nat := 0
  /-- 1 BERR, 2 BUS_TIMEOUT, 3 READY_TIMEOUT, 4 BUS_RESET -/
  cause : Nat := 0
  turn : Nat := 0
  deriving DecidableEq, Repr

/-- Poisoning and counts of an outbound window (R391, R392). -/
structure LegHealth where
  poisoned : Option LegErr := none
  discarded : Nat := 0
  readErrors : Nat := 0
  deriving DecidableEq, Repr

/-- An inbound window (R397). -/
structure LegIn where
  enable : Bool := false
  /-- KIND TRIVET, else HOST -/
  trivet : Bool := false
  amsel : Nat := 0
  tid : Nat := 0
  base : Nat := 0
  size : Nat := 0
  target : Nat := 0
  deriving DecidableEq, Repr

/-- One bus cycle: address modifier, bus address, bytes. -/
structure LegCycle where
  am : Nat
  addr : Nat
  n : Nat
  deriving DecidableEq, Repr

/-- A request: one that holds a tag, or an aperture access that waits for one (R387). -/
structure LegReq where
  tag : Nat := 0
  /-- TID of its request tunnel, or 0x1000 + VI for an aperture -/
  client : Nat
  /-- the message's XTAG, or the TLP's transaction tag -/
  xtag : Nat
  /-- 1 READ, 2 WRITE, 3 ATOMIC, 4 TAKE, 5 RELEASE -/
  op : Nat
  posted : Bool := false
  /-- window, or trivet for TAKE and RELEASE -/
  idx : Nat
  /-- the entry as resolved at arrival (R385) -/
  win : LegWin
  off : Nat
  len : Nat
  /-- WRITE data; ATOMIC operand -/
  data : Bytes := []
  /-- 0 FETCHADD, 1 SWAP, 2 CAS -/
  atop : Nat := 0
  /-- offsets and lengths of the parts that a gatekeeper allowed, from the request's start -/
  parts : List (Nat × Nat)
  /-- cycles not yet run -/
  cycles : List LegCycle := []
  /-- a cycle of it has begun -/
  started : Bool := false
  /-- an atomic's write part runs -/
  writing : Bool := false
  /-- an atomic has its trivet, and whether it took it -/
  hasTrivet : Bool := false
  tookTrivet : Bool := false
  /-- bytes for the requester -/
  buf : Bytes := []
  /-- requested bytes completed -/
  done : Nat := 0
  /-- prefetched bytes by bus address, and a prefetch has failed (R395) -/
  pre : List (Nat × Byte) := []
  preStop : Bool := false
  /-- its window was POISONED while it waited (R392) -/
  dead : Bool := false
  /-- its reply is discarded (R405, Table 11.10) -/
  drop : Bool := false
  deriving DecidableEq, Repr

/-- A prefetch line (R394): the window, and the bytes not yet requested by bus address. -/
structure LegLine where
  win : Nat
  /-- address space of the window's modifier: 16, 24 or 32 -/
  space : Nat
  /-- the block's bus address -/
  addr : Nat
  bytes : List (Nat × Byte)
  deriving DecidableEq, Repr

/-- A message that its cells assemble at F9 or F4. -/
structure LegMsg where
  xtag : Nat
  bytes : Bytes := []
  bad : Bool := false
  /-- the window's entry at the first cell (R385) -/
  win : LegWin := {}
  deriving DecidableEq, Repr

/-- The slave cycle in progress that a HOST window decoded (R397). -/
structure LegSlave where
  win : Nat
  tid : Nat
  len : Nat
  /-- a write's parts that wait for room: I/O virtual address and data -/
  waiting : List (Nat × Bytes) := []
  /-- a read's requests not yet answered: XTAG, offset, length -/
  reads : List (Nat × Nat × Nat) := []
  isRead : Bool := false
  buf : Bytes := []
  failed : Bool := false
  deriving DecidableEq, Repr

/-- Directions and enables of the transceivers (R378): address, data, control; a direction of true is toward the bus. -/
structure LegVx where
  dir : List Bool := [false, false, false]
  oe : List Bool := [false, false, false]
  deriving DecidableEq, Repr

/-- The legacy bridge. -/
structure Legacy where
  cfg : LegCfg := {}
  wins : Tab LegWin := []
  health : Tab LegHealth := []
  ins : Tab LegIn := []
  /-- R403 grant masks by TID -/
  grants : Tab Nat := []
  /-- requests holding tags, in the order in which they took them -/
  q : List LegReq := []
  /-- aperture accesses that wait in the HOST island -/
  apWait : List LegReq := []
  /-- the bridge owns the VMEbus -/
  owned : Bool := false
  /-- VME_BRQ_L is asserted -/
  requesting : Bool := false
  /-- R398 the outbound side waits for VME_AS_L to rise -/
  backedOff : Bool := false
  /-- a cycle of the first request is on the bus -/
  running : Bool := false
  /-- other masters' requests by level, VME_BCLR_L, VME_BBSY_L of another master, and the level granted last -/
  brqOthers : Nat := 0
  bclr : Bool := false
  bbsy : Bool := false
  grantedTo : Option Nat := none
  /-- R382 VME_SYSRESET_L is seen asserted; the bridge drives it -/
  sysreset : Bool := false
  sysresetDrive : Bool := false
  sysfail : Bool := false
  acfail : Bool := false
  irqMasked : Nat := 0
  lines : List LegLine := []
  /-- R394 bus addresses of the last 16 discarded lines, most recent first -/
  ring : List Nat := []
  /-- R399 owners of held trivets -/
  trivets : Tab Nat := []
  /-- messages in assembly at F9 and F4, by TID -/
  asm : Tab LegMsg := []
  slave : Option LegSlave := none
  /-- XTAG of the next inbound request -/
  nextTag : Nat := 0
  vx : LegVx := {}
  /-- bus errors, bus timeouts, writes discarded, read errors, prefetch lines discarded, back-offs, inbound denied, responses dropped -/
  cnt : Tab Nat := []
  /-- R401 writes to trivet registers ignored -/
  trivetWrites : Nat := 0
  deriving DecidableEq, Repr

end Sys2Proof.Machine
end

