-- ==== Sys2Proof/Machine/Rs.lean ====
section
/-!
DEFINITION. The Reed–Solomon codes: RS(272,256) over GF(2^10) of trunk codewords (R122, R123) and the byte code of stockpot lines (R216).
-/
namespace Sys2Proof

/-- A field GF(2^m) by its polynomial, with x^m as bit m, and the code's parity count. -/
structure RsCode where
  /-- field bits -/
  m : Nat
  /-- field polynomial -/
  poly : Nat
  /-- parity symbols; the generator's roots are α^0 to α^(par-1) -/
  par : Nat
  deriving DecidableEq, Repr

/-- Trunk codewords: p(x) = x^10 + x^3 + 1, 16 parity symbols (R122). -/
def rsTrunk : RsCode := ⟨10, 0x409, 16⟩

/-- Stockpot lines: x^8 + x^4 + x^3 + x^2 + 1, 8 check bytes (R216). -/
def rsLine : RsCode := ⟨8, 0x11D, 8⟩

/-- Multiply by α. -/
def RsCode.xtime (r : RsCode) (a : Nat) : Nat := if a * 2 ≥ 2 ^ r.m then (a * 2) ^^^ r.poly else a * 2

/-- Sum over the bits of `b` of `a` shifted, `fuel` bits. -/
def RsCode.mulAux (r : RsCode) : Nat → Nat → Nat → Nat → Nat
  | 0, _, _, acc => acc
  | k + 1, a, b, acc => r.mulAux k (r.xtime a) (b / 2) (if b % 2 = 1 then acc ^^^ a else acc)

/-- Product in the field. -/
def RsCode.mul (r : RsCode) (a b : Nat) : Nat := if a = 0 || b = 0 then 0 else r.mulAux r.m a b 0

/-- a^(2^k - 1) times `acc` squared along: the chain that gives a^(2^m - 2). -/
def RsCode.invAux (r : RsCode) : Nat → Nat → Nat → Nat
  | 0, _, acc => acc
  | k + 1, a, acc => let s := r.mul a a; r.invAux k s (r.mul acc s)

/-- Inverse, a^(2^m - 2). -/
def RsCode.inv (r : RsCode) (a : Nat) : Nat := r.invAux (r.m - 1) a 1

/-- α^n. -/
def RsCode.alpha (r : RsCode) : Nat → Nat
  | 0 => 1
  | n + 1 => r.xtime (r.alpha n)

/-- Value at `x` of the polynomial whose coefficients are listed highest first. -/
def RsCode.evalHigh (r : RsCode) (x : Nat) (p : List Nat) : Nat := p.foldl (fun acc s => r.mul acc x ^^^ s) 0

/-- Value at `x` of the polynomial whose coefficients are listed lowest first. -/
def RsCode.evalLow (r : RsCode) (x : Nat) : List Nat → Nat
  | [] => 0
  | a :: t => a ^^^ r.mul x (r.evalLow x t)

/-- The first `n` powers of α. -/
def RsCode.powers (r : RsCode) : Nat → Nat → List Nat
  | 0, _ => []
  | n + 1, a => a :: r.powers n (r.xtime a)

/-- Syndromes of a received word, symbols in order of transmission. -/
def RsCode.syndromes (r : RsCode) (w : List Nat) : List Nat := (r.powers r.par 1).map fun x => r.evalHigh x w

/-- Generator polynomial less its leading 1, highest coefficient first. -/
def RsCode.gen (r : RsCode) : List Nat :=
  ((r.powers r.par 1).foldl (fun g a => (List.zip (g ++ [0]) (0 :: g)).map fun e => e.1 ^^^ r.mul a e.2) [1]).drop 1

/-- One step of the division by the generator. -/
def RsCode.encStep (r : RsCode) (g reg : List Nat) (d : Nat) : List Nat :=
  let fb := d ^^^ reg.headD 0
  (List.zip (reg.drop 1 ++ [0]) g).map fun e => e.1 ^^^ r.mul fb e.2

/-- Parity symbols of data symbols (R122). -/
def RsCode.parity (r : RsCode) (d : List Nat) : List Nat := d.foldl (r.encStep r.gen) (List.replicate r.par 0)

/-- The systematic codeword of data symbols (R122). -/
def RsCode.encode (r : RsCode) (d : List Nat) : List Nat := d ++ r.parity d

/-- Working state of the search for the error locator. -/
structure BmState where
  c : List Nat
  b : List Nat
  l : Nat
  m : Nat
  bb : Nat

/-- Add two polynomials, lowest first. -/
def polyAdd : List Nat → List Nat → List Nat
  | [], q => q
  | p, [] => p
  | a :: p, b :: q => (a ^^^ b) :: polyAdd p q

/-- One step of Berlekamp–Massey at syndrome `n`. -/
def RsCode.bmStep (r : RsCode) (s : List Nat) (st : BmState) (n : Nat) : BmState :=
  let d := (List.range (st.l + 1)).foldl (fun acc i => acc ^^^ r.mul (nth 0 st.c i) (if i ≤ n then nth 0 s (n - i) else 0)) 0
  if d = 0 then { st with m := st.m + 1 }
  else
    let k := r.mul d (r.inv st.bb)
    let c := polyAdd st.c (List.replicate st.m 0 ++ st.b.map (r.mul k))
    if 2 * st.l ≤ n then { c, b := st.c, l := n + 1 - st.l, m := 1, bb := d } else { st with c, m := st.m + 1 }

/-- Error locator polynomial and its length. -/
def RsCode.locator (r : RsCode) (s : List Nat) : List Nat × Nat :=
  let st := (List.range r.par).foldl (r.bmStep s) { c := [1], b := [1], l := 0, m := 1, bb := 1 }
  (st.c, st.l)

/-- Product of two polynomials, lowest first, truncated to `n` coefficients. -/
def RsCode.polyMul (r : RsCode) (p q : List Nat) (n : Nat) : List Nat :=
  (List.range n).map fun k => (List.range (k + 1)).foldl (fun acc i => acc ^^^ r.mul (nth 0 p i) (nth 0 q (k - i))) 0

/-- Decode a received word: the corrected word and the positions corrected, or none when it cannot be resolved within par/2
corrections (R123, R216). -/
def RsCode.decode (r : RsCode) (w : List Nat) : Option (List Nat × List Nat) :=
  let s := r.syndromes w
  if s.all (· == 0) then some (w, [])
  else
    let lc := r.locator s
    if lc.2 > r.par / 2 then none
    else
      let n := w.length
      let om := r.polyMul s lc.1 r.par
      let der := lc.1.zipIdx.map fun e => if e.2 % 2 = 1 then e.1 else 0
      let pos := (List.zip (List.range n).reverse (r.powers n 1)).filterMap fun e =>
        let xi := r.inv e.2
        if r.evalLow xi lc.1 = 0 then
          let dv := r.mul (r.evalLow xi der) (r.inv xi)
          some (e.1, r.mul e.2 (r.mul (r.evalLow xi om) (r.inv dv)))
        else none
      if pos.length ≠ lc.2 then none
      else
        let w' := pos.foldl (fun (a : List Nat) e => updAt (fun x => x ^^^ e.2) a e.1) w
        if (r.syndromes w').all (· == 0) then some (w', pos.map Prod.fst) else none

/-- The bits of a byte, most significant first. -/
def byteBits (b : Byte) : List Bool := (List.range 8).map fun i => bitOf b.toNat (7 - i)

/-- The number that bits spell, most significant first. -/
def bitsNat (l : List Bool) : Nat := l.foldl (fun a b => 2 * a + b2n b) 0

/-- Cut a list into pieces of `k`, at most `n` of them. -/
def pieces {α : Type} (k : Nat) : Nat → List α → List (List α)
  | 0, _ => []
  | n + 1, l => l.take k :: pieces k n (l.drop k)

/-- The 256 data symbols of 320 data bytes (R124). -/
def dataSymbols (d : Bytes) : List Nat := (pieces 10 256 (d.map byteBits).flatten).map bitsNat

/-- The 320 data bytes of 256 data symbols (R124). -/
def symbolBytes (s : List Nat) : Bytes :=
  (pieces 8 320 ((s.map fun x => (List.range 10).map fun i => bitOf x (9 - i)).flatten)).map fun l => BitVec.ofNat 8 (bitsNat l)

end Sys2Proof
end

