-- ==== Sys2Proof/Machine/LineCode.lean ====
section
/-!
DEFINITION. The wire forms below codewords and frames: PAM4 levels and precoding (R90, R91), training blocks (R97), and the sideband's
frame with its Manchester code (R428).
-/
namespace Sys2Proof

/-- The bits of a 10-bit symbol, bit 9 first (R125). -/
def symbolBits (x : Nat) : List Bool := (List.range 10).map fun i => bitOf x (9 - i)

/-- The PAM4 level index of a pair of bits, first and second on the wire (Table 04.3). -/
def grayLevel (a b : Bool) : Nat := if a then (if b then 2 else 3) else b2n b

/-- The pair of bits of a level index (Table 04.3). -/
def grayBits (l : Nat) : List Bool := [decide (l % 4 ≥ 2), l % 4 == 1 || l % 4 == 2]

/-- The levels of a bit stream of even length (R90). -/
def pamLevels : List Bool → List Nat
  | a :: b :: r => grayLevel a b :: pamLevels r
  | _ => []

/-- Precode levels after the level `p` (R91): p(k) = (g(k) - p(k-1)) mod 4. -/
def precode (p : Nat) : List Nat → List Nat
  | [] => []
  | g :: r => let x := (g + 4 - p % 4) % 4; x :: precode x r

/-- Undo the precoding after the level `p` (R91): g(k) = (p(k) + p(k-1)) mod 4. -/
def unprecode (p : Nat) : List Nat → List Nat
  | [] => []
  | x :: r => (x + p) % 4 :: unprecode x r

/-- What a bit stream is on a lane: PAM4 levels on Unxus 2, bits on Unxus 1 (Table 04.2). -/
def lineUnits (rev : Nat) (b : List Bool) : List Nat := if rev = 2 then pamLevels b else b.map b2n

/-- The bits of received units after polarity correction: an inverted lane swaps level L for 3 - L, or bit b for 1 - b (R90). -/
def unitBits (rev : Nat) (u : List Nat) : List Bool := if rev = 2 then (u.map grayBits).flatten else u.map fun x => x % 2 == 1

/-- Correct the polarity of a received unit (R90, R91). -/
def flipUnit (rev : Nat) (inv : Bool) (x : Nat) : Nat := if rev = 2 then (if inv then 3 - x % 4 else x % 4) else if inv then 1 - x % 2 else x % 2

/-- The next `k` bits of PRBS31 (x^31 + x^28 + 1, Table 04.5) after the 31 bits held, newest lowest, and the 31 bits then held. -/
def prbs31 : Nat → Nat → List Bool × Nat
  | 0, x => ([], x)
  | k + 1, x =>
    let b := bitOf x 30 != bitOf x 27
    let r := prbs31 k ((2 * x + b2n b) % 2 ^ 31)
    (b :: r.1, r.2)

/-- A phase of PRBS31 that a free number names: any 31 bits but zeros. -/
def prbsSeed (x : Nat) : Nat := x % (2 ^ 31 - 1) + 1

/-- A training block of one lane, bit 679 first (Table 04.5): ALIGN, LANE, BLOCK and the 616 bits of FILL. -/
def trainingBlock (lane block : Nat) (fill : List Bool) : List Bool :=
  ((be 5 0x3EC81B5A96 ++ be 1 (lane % 16 + 16 * (15 - lane % 16)) ++ be 2 (block % 65536)).map byteBits).flatten ++ fill

/-- `k` training blocks of one lane from block `block` on, FILL running on from `x`, and where it then stands (R97). -/
def trainingBlocks (lane block : Nat) : Nat → Nat → List Bool × Nat
  | 0, x => ([], x)
  | k + 1, x =>
    let f := prbs31 616 x
    let r := trainingBlocks lane (block + 1) k f.2
    (trainingBlock lane block f.1 ++ r.1, r.2)

/-- One bit of the sideband's CRC-16, most significant bit first (R428). -/
def crc16Bit (x : Nat) (b : Bool) : Nat :=
  let y := (2 * x) % 65536
  if bitOf x 15 != b then y ^^^ 0x1021 else y

/-- CRC-16 with polynomial 0x1021 and initial value 0xFFFF (Table 18.2). -/
def crc16 (d : Bytes) : Nat := (d.map byteBits).flatten.foldl crc16Bit 0xFFFF

/-- The bytes of a sideband frame (Table 18.2); the CRC covers ADDR to the end of BODY and is sent most significant bit first. -/
def sbBytes (src dst type id : Nat) (body : Bytes) : Bytes :=
  let m := be 1 (16 * src + dst) ++ be 1 type ++ be 1 id ++ be 1 body.length ++ body
  be 2 0x5555 ++ be 1 0x9E ++ m ++ be 2 (crc16 m)

/-- Half-bit levels of SB_P - SB_N: a 1 rises at mid-bit and a 0 falls; one bit time without a transition ends the frame (R428). -/
def manchester (b : List Bool) : List Bool :=
  (b.map fun x => [!x, x]).flatten ++ (match b.getLast? with | some x => [x, x] | none => [])

/-- What a sideband frame is on the pair (R428). -/
def sbLevels (src dst type id : Nat) (body : Bytes) : List Bool := manchester ((sbBytes src dst type id body).map byteBits).flatten

end Sys2Proof
end

