-- ==== Sys2Proof/Machine/TypesHost.lean ====
section
/-!
DEFINITION. The state of chapter 11: the PCIe link, instances, queues, data rings, vectors and device registers. Each field's
default is its value after a power-on reset.
-/
namespace Sys2Proof.Machine

/-- A queue pair (R273 to R277). -/
structure QueuePair where
  /-- QUEUE_CREATE LOG2_A: submission entries 2^n -/
  sqLog2 : Nat := 7
  /-- LOG2_B: completion entries 2^n -/
  cqLog2 : Nat := 7
  /-- RB_LOG2: reply ring bytes 2^n -/
  rbLog2 : Nat := 12
  /-- BASE_A -/
  sqBase : Nat := 0
  /-- BASE_B -/
  cqBase : Nat := 0
  /-- BASE_C -/
  rbBase : Nat := 0
  /-- VECTOR, relative to the instance's range; 0xFFFF none -/
  vector : Nat := 0xFFFF
  /-- COALESCE_US -/
  coalesceUs : Nat := 0
  /-- R274 SQ_TAIL, modulo 2^16 -/
  sqTail : Nat := 0
  /-- Table 11.6 SQ_HEAD: submission entries consumed, modulo 2^16 -/
  sqHead : Nat := 0
  /-- R274 CQ_HEAD, modulo 2^16 -/
  cqHead : Nat := 0
  /-- Completion entries written so far, modulo 2^16 -/
  cqTail : Nat := 0
  /-- R275 next RB_OFFSET -/
  rbNext : Nat := 0
  /-- R275 reply ring bytes each completion entry not yet freed holds, oldest first -/
  rbHeld : List Nat := []
  /-- R277 replies held for a full completion ring, oldest first -/
  held : List Reply := []
  /-- R274 stopped by RING_OVERRUN -/
  stopped : Bool := false
  /-- Bytes of a command's entries fetched so far, while more entries are awaited -/
  partialCmd : Bytes := []
  /-- Entries for which a fetch has been issued, modulo 2^16 -/
  fetched : Nat := 0
  deriving DecidableEq, Repr

/-- A PCIe event queue (R276). -/
structure EventRing where
  /-- Event entries 2^n -/
  log2 : Nat := 6
  /-- Ring base -/
  base : Nat := 0
  /-- PI_ADDR -/
  piAddr : Nat := 0
  /-- VECTOR, 0xFFFF none -/
  vector : Nat := 0xFFFF
  /-- COALESCE_US -/
  coalesceUs : Nat := 0
  /-- EVQ_HEAD, modulo 2^16 -/
  head : Nat := 0
  /-- R274 stopped by RING_OVERRUN -/
  stopped : Bool := false
  deriving DecidableEq, Repr

/-- A data ring (R278 to R280, R292). -/
structure DataRing where
  /-- Owning VI -/
  vi : Nat := 0
  /-- Tunnel -/
  tid : Nat := 0
  /-- DIR: 0 transmit, 1 receive -/
  dir : Nat := 0
  /-- Descriptors 2^n -/
  log2 : Nat := 4
  /-- Ring address -/
  base : Nat := 0
  /-- VECTOR, 0xFFFF none -/
  vector : Nat := 0xFFFF
  /-- COALESCE_US -/
  coalesceUs : Nat := 0
  /-- PRODUCER, modulo 2^16 -/
  producer : Nat := 0
  /-- Descriptors taken so far, modulo 2^16 -/
  consumed : Nat := 0
  /-- R274 stopped by RING_OVERRUN -/
  stopped : Bool := false
  /-- Descriptors fetched and not yet finished, oldest first: index and 32 bytes each -/
  descs : List (Nat × Bytes) := []
  /-- R278 descriptors of the message in progress so far -/
  msgDescs : Nat := 0
  /-- A message is in progress (its first cell has been made) -/
  inMsg : Bool := false
  /-- Bytes of the message read and not yet packed into a cell -/
  carry : Bytes := []
  /-- R291 the bytes read carry poison -/
  carryPoison : Bool := false
  /-- XTAG and AUX of the message in progress -/
  xtag : Nat := 0
  aux : Nat := 0
  /-- Receive: bytes used of the current buffer -/
  used : Nat := 0
  /-- Receive: the current buffer is open: START, POISON, GAP, CUT flags, XTAG, AUX, SEQ of its first cell -/
  rxOpen : Bool := false
  rxStart : Bool := false
  rxPoison : Bool := false
  rxGap : Bool := false
  rxXtag : Nat := 0
  rxAux : Nat := 0
  rxSeq : Nat := 0
  /-- Receive: SEQ expected next, none before the first cell -/
  nextSeq : Option Nat := none
  /-- R280 the next buffer written has GAP set -/
  gapNext : Bool := false
  /-- R285 powered time at which buffers were last posted after none were -/
  refilledAt : Nat := 0
  deriving DecidableEq, Repr

/-- Instance states (Table 11.4). -/
inductive InstState where
  | absent | active | quiescing | quiesced
  deriving DecidableEq, Repr

/-- A virtual instance (R282 to R290). -/
structure Inst where
  /-- INST_STATUS STATE -/
  state : InstState := .absent
  /-- INST_STATUS LINK_LOSS -/
  linkLoss : Bool := false
  /-- LATCHED, 32 bits, saturating -/
  latched : Nat := 0
  /-- CFLAGS PASID_VALID -/
  pasidValid : Bool := false
  /-- PASID, 20 bits -/
  pasid : Nat := 0
  /-- Table 11.8 grants: tunnels -/
  tunnels : Nat := 0
  /-- key slots granted -/
  keySlots : Nat := 0
  /-- MSIX_BASE -/
  msixBase : Nat := 0
  /-- MSIX_COUNT -/
  msixCount : Nat := 0
  /-- QUEUE_ENTRIES granted -/
  queueEntries : Nat := 0
  /-- STOCKPOT_SHARE -/
  share : Nat := 0
  /-- VOLUMES -/
  volumes : Nat := 0
  /-- MAX_QP -/
  maxQp : Nat := 1
  /-- MAX_EVQ -/
  maxEvq : Nat := 1
  /-- QUIESCE_MS -/
  quiesceMs : Nat := 100
  /-- Open quiesce or reset handle, 0 none -/
  qhandle : Nat := 0
  /-- The open handle is a RESET_INSTANCE or FORCE_RESET -/
  resetting : Bool := false
  /-- HOST_QUIESCED cells, saturating -/
  quiesceDiscards : Nat := 0
  /-- R285 HOST_STALL, saturating -/
  hostStall : Nat := 0
  /-- Table 11.3 SQ0_BASE, CQ0_BASE, RB0_BASE, EVQ0_BASE, EVQ0_PI_ADDR -/
  sq0Base : Nat := 0
  cq0Base : Nat := 0
  rb0Base : Nat := 0
  evq0Base : Nat := 0
  evq0Pi : Nat := 0
  /-- Table 11.5 QCTL0; reset SQ_LOG2 7, CQ_LOG2 7, RB_LOG2 12, EVQ_LOG2 6 -/
  qctl0 : Nat := 0x07763000
  /-- INST_STATUS QP0_UP -/
  qp0Up : Bool := false
  deriving DecidableEq, Repr

/-- An MSI-X vector (R277). -/
structure Vec where
  /-- Table entry address and data -/
  addr : Nat := 0
  data : Nat := 0
  /-- Vector Control mask -/
  masked : Bool := true
  /-- Pending-bit array -/
  pend : Bool := false
  /-- R277 a message waits for its coalescing time -/
  coalescing : Bool := false
  /-- powerPs of the last message -/
  last : Option Nat := none
  deriving DecidableEq, Repr

/-- What an outstanding DMA read was issued for. -/
inductive ReadFor where
  /-- submission entries of a queue pair: VI, pair, entries -/
  | sq (vi qp n : Nat)
  /-- parameters of an INDIRECT command -/
  | params (op : Nat) (p : Packet)
  /-- descriptors of a ring: ring, first index, count -/
  | desc (ring first n : Nat)
  /-- the buffer of a transmit descriptor: ring, last of the message, IRQ, descriptor index -/
  | txData (ring idx : Nat)
  /-- display fetch: head, layer, line -/
  | layer (head layer line plane : Nat)
  /-- an inbound VME read of host memory at F4: request tunnel, XTAG, bytes -/
  | inbound (tid xtag len : Nat)
  deriving DecidableEq, Repr

/-- The host attachment (chapter 11). -/
structure HostPort where
  /-- R270 the data link is up -/
  linkUp : Bool := false
  /-- width and rate in GT/s -/
  width : Nat := 0
  rate : Nat := 0
  /-- R290 PE_PERST_L asserted -/
  perst : Bool := true
  /-- R281 Bus Master Enable -/
  busMaster : Bool := false
  /-- R281 PASID Enable -/
  pasidEnable : Bool := false
  /-- MSI-X Enable and Function Mask -/
  msixEnable : Bool := false
  msixMask : Bool := false
  /-- D3hot (Table 11.1) -/
  d3hot : Bool := false
  /-- Instances by VI; VI 0 holds the fixed amounts of Table 11.8 -/
  inst : Tab Inst := []
  /-- Queue pairs by 64 * VI + index -/
  qps : Tab QueuePair := []
  /-- Event queues by 32 * VI + index -/
  evqs : Tab EventRing := []
  /-- Data rings by 256 * VI + ring index (DESIGN CHOICE: indices count per instance, as the pages lay them out) -/
  rings : Tab DataRing := []
  /-- MSI-X vectors by number -/
  vecs : Tab Vec := []
  /-- Table 11.1 the largest read request the host allows; DESIGN CHOICE 4,096, the part's own limit: no row tells the host's setting -/
  maxRead : Nat := 4096
  /-- DMA reads outstanding, by tag -/
  reads : Tab (ReadFor × Nat × Nat) := []
  /-- Tag of the next DMA read -/
  nextTag : Nat := 0
  /-- R293 HEARTBEAT, 32 bits -/
  heartbeat : Nat := 0
  /-- R294 IRQ_CAUSE -/
  irqCause : Nat := 0
  /-- R294 IRQ_ENABLE -/
  irqEnable : Nat := 0
  /-- R294 latched upper half of TURN -/
  turnLatch : Nat := 0
  /-- R271 writes ignored at reserved offsets, counted -/
  ignoredWrites : Nat := 0
  /-- R291 AER errors recorded: code and count -/
  aer : Tab Nat := []
  /-- Rings stopped: RING_OVERRUN count -/
  ringOverrun : Nat := 0
  deriving DecidableEq, Repr

end Sys2Proof.Machine
end

