-- ==== Sys2Proof/Machine/TypesOut.lean ====
section
/-!
DEFINITION. What the block sends outwards, kept in an outbox, newest last (DESIGN CHOICE: the spec's pins and wires, as data).
-/
namespace Sys2Proof.Machine

/-- Outputs of the block other than data links. -/
inductive PinId where
  | irqOut | thermTrip | pwrfailHeld | ppsOut
  | xspiReset
  | gateEn (ch : Nat) | ilimSet (ch : Nat)
  | vsel (trunk : Nat) | sbState (trunk : Nat)
  | vmeBerr | vmeDtack | vmeSysreset | vmeBbsy | vmeBclr | vmeSysclk
  | vmeBrq (level : Nat) | vmeBgo (level : Nat)
  /-- transceivers: 0 address, 1 data, 2 control -/
  | vxDir (k : Nat) | vxOe (k : Nat)
  | usbPullup | usbWake
  deriving DecidableEq, Repr

/-- One outward transmission. -/
inductive Out where
  /-- posted write to host memory: VI, PASID if any, address, data -/
  | hostWrite (vi : Nat) (pasid : Option Nat) (addr : Nat) (data : Bytes)
  /-- read request to host memory: VI, PASID if any, address, length, and the tag of the read it belongs to; a read of more than one request
  completes as a whole -/
  | hostRead (vi : Nat) (pasid : Option Nat) (addr len tag : Nat)
  /-- MSI-X message -/
  | msix (addr data : Nat)
  /-- completion of a host's register read -/
  | tlpData (data : Bytes)
  /-- completion with status Unsupported Request (R271, R291) -/
  | tlpUr
  /-- bytes on the SPI target's MISO (R42, R43) -/
  | spiOut (data : Bytes)
  /-- the debug access port answers with data -/
  | dbgData (data : Bytes)
  /-- the debug access port answers with an error (Table 20.1) -/
  | dbgError
  /-- a task core is started at an address -/
  | dbgStart (addr : Nat)
  /-- a frame on a trunk's sideband (R428): the half-bit levels of SB_P - SB_N, first to last -/
  | sideband (trunk : Nat) (levels : List Bool)
  /-- a cable marker's answer on a trunk's sideband (R440): CABLE_INFO body -/
  | cableAnswer (trunk : Nat) (body : Bytes)
  /-- a codeword's time on the transmit lanes of a trunk (R90, R91, R125): lane, and its PAM4 level indices (Unxus 2) or bits (Unxus 1) -/
  | codeword (trunk : Nat) (lanes : List (Nat × List Nat))
  /-- one training block's time on the transmit lanes of a trunk (R97), as `codeword` -/
  | training (trunk : Nat) (lanes : List (Nat × List Nat))
  /-- the clock lane of a trunk changes to a pattern, its first bit highest (Sequence 04.1): 1110 in step 2, 1100 from step 3 on -/
  | clockLane (trunk pattern : Nat)
  /-- a line of active pixels on a dock head's output, in raster format (R303) -/
  | videoLine (head line : Nat) (pixels : Bytes)
  /-- an AUX transaction at a dock head (R315): OP, address, write data -/
  | aux (head op addr : Nat) (data : Bytes)
  /-- a frame sent on an Ethernet port (R325): its bytes from the destination address through the FCS -/
  | ethFrame (port : Nat) (data : Bytes)
  /-- a data packet on a USB endpoint of function `fn` (0 the hub), and a handshake: 0 ACK, 1 NAK, 2 STALL, 3 NYET, 5 NRDY,
with NumP of a SuperSpeed ACK -/
  | usbData (fn ep : Nat) (data : Bytes)
  | usbHandshake (fn ep kind numP : Nat)
  /-- a Function Wake notification (R372) -/
  | usbFunctionWake (fn : Nat)
  /-- the answer of the USB link to LGO_U1 or LGO_U2: true LAU, false LXU -/
  | usbLink (accept : Bool)
  /-- one bus cycle starts (R383, R389): address modifier, address, bytes, whether it belongs to a read-modify-write, write data if a write -/
  | vmeCycle (am addr n : Nat) (rmw : Bool) (write : Option Bytes)
  /-- an interrupt-acknowledge cycle of a level and width (R402) -/
  | vmeIack (level width : Nat)
  /-- data the bridge drives for an inbound read -/
  | vmeData (data : Bytes)
  /-- completion of a non-posted access to an instance's legacy aperture: VI, transaction tag, status (0 successful, 1 Unsupported Request,
  4 Completer Abort), data -/
  | apertureCpl (vi tag st : Nat) (data : Bytes)
  /-- a pulse on a pin: the local time of its rising edge and how long it stays high, ps (R268) -/
  | pulse (p : PinId) (at' width : Nat)
  /-- a pin driven to a level -/
  | pin (p : PinId) (v : Nat)
  deriving DecidableEq, Repr

/-- A frame sent by this end on the sideband of trunk `n`, to the cable marker or to the peer (R428, Table 18.2). -/
def sbOut (n : Nat) (marker : Bool) (type id : Nat) (body : Bytes) : Out := .sideband n (sbLevels 1 (if marker then 2 else 1) type id body)

end Sys2Proof.Machine
end

