-- ==== Sys2Proof/Machine/TypesPower.lean ====
section
/-!
DEFINITION. The state of chapters 17 and 18: power channels, feeds, and the power contracts of the trunks. Each field's default is its value
after a power-on reset.
-/
namespace Sys2Proof.Machine

/-- Channel states (Table 17.2). -/
inductive ChanState where
  | off | absent | standby | start | on | retryWait | latched | damaged | shed
  deriving DecidableEq, Repr

/-- What PWR_CHANNEL_SET writes (Table 17.4). -/
structure ChanCfg where
  /-- CFLAGS ADMIN_ON, SHED -/
  admin : Bool := false
  shed : Bool := false
  retryMax : Nat := 3
  /-- I_FS_MA, 0 unscaled -/
  iFs : Nat := 0
  vFs : Nat := 0
  limit : Nat := 0
  inrush : Nat := 0
  severePct : Nat := 200
  gateUs : Nat := 1000
  faultUs : Nat := 1000
  startFaultUs : Nat := 20000
  retryMs : Nat := 1000
  pgDelay : Nat := 20
  pgMv : Nat := 0
  uvMv : Nat := 0
  ovMv : Nat := 0
  deriving DecidableEq, Repr

/-- A power channel (R411). -/
structure PowerChan where
  /-- settings; none before the first PWR_CHANNEL_SET without a stored one (R423) -/
  cfg : Option ChanCfg := none
  /-- admin on -/
  admin : Bool := false
  state : ChanState := .off
  /-- Pn_GATE_EN -/
  gate : Bool := false
  /-- Pn_ILIM_SET in microvolts -/
  ilimUv : Nat := 0
  inLimit : Bool := false
  /-- power-good -/
  pg : Bool := false
  /-- GATE_GOOD -/
  gateGood : Bool := false
  /-- the gate-rise window is open (R417) -/
  gateWin : Bool := false
  /-- Pn_VSNS is at or above PG_MV -/
  vPg : Bool := false
  /-- board present -/
  present : Bool := false
  /-- Pn_VSNS has lain in its window for VALID_MS (R421) -/
  inWindow : Bool := false
  /-- the fault timer runs: its limit in µs (R412, R413) -/
  timer : Option Nat := none
  /-- RETRY_MS of the wait in progress (R426) -/
  retryMs : Nat := 0
  faultCount : Nat := 0
  /-- CAUSE -/
  cause : Nat := 0
  trips : Nat := 0
  /-- I_MA, V_MV, GATE_CODE -/
  iMa : Nat := 0
  vMv : Nat := 0
  gateCode : Nat := 0
  /-- R437 a trip of a trunk channel waits to be recorded: its cause -/
  tripPending : Option Nat := none
  /-- R425 limits that the contract unit has set: LIMIT_MA, INRUSH_MA, PG_MV, UV_MV, OV_MV -/
  limit : Nat := 0
  inrush : Nat := 0
  pgMv : Nat := 0
  uvMv : Nat := 0
  ovMv : Nat := 0
  deriving DecidableEq, Repr

/-- What PWR_FEED_SET writes. -/
structure FeedCfg where
  /-- PRIORITY of P0 to P5 (R423 before a CONFIG) -/
  prio : List Nat := [2, 1, 0, 0, 0, 0]
  deadUs : Nat := 10
  revert : Bool := false
  validMs : Nat := 10
  restoreMs : Nat := 1000
  staggerMs : Nat := 10
  presenceMs : Nat := 50
  deriving DecidableEq, Repr

/-- What TRUNK_POWER_SET writes (Table 18.8). -/
structure TPowerCfg where
  srcEn : Bool := false
  sinkEn : Bool := false
  swapAllow : Bool := false
  fsAllow : Bool := false
  noPower : Bool := false
  /-- PRECEDENCE; none the role's default -/
  prec : Option Nat := none
  /-- OFFERS: VOLT, MAX_MA -/
  offers : List (Nat × Nat) := []
  sinkVolts : Nat := 7
  sinkMa : Nat := 500
  /-- FS_MA. DESIGN CHOICE 500 -/
  fsMa : Nat := 500
  deriving DecidableEq, Repr

/-- PSTATE of TRUNK_POWER_STATUS (R447). -/
inductive PState where
  | detached | safe | negotiating | transition | contract | swapping | hardReset | faulted | noPower
  deriving DecidableEq, Repr

/-- A frame that was sent (Table 18.2). -/
structure SbFrame where
  /-- to the cable marker -/
  marker : Bool
  type : Nat
  id : Nat
  body : Bytes
  deriving DecidableEq, Repr

/-- A frame that expects an answer, and how often it was sent again (R430). -/
structure SbExch where
  frame : SbFrame
  tries : Nat := 0
  deriving DecidableEq, Repr

/-- The peer's CAPS (Table 18.4). -/
structure PeerCaps where
  prole : Nat
  prec : Nat
  devRole : Nat
  cflags : Nat
  serialLow : Nat
  offers : List (Nat × Nat)
  deriving DecidableEq, Repr

/-- The power contract of a trunk (chapter 18). -/
structure TrunkPower where
  cfg : TPowerCfg := {}
  /-- R427 source bias presented -/
  bias : Bool := false
  /-- ATTACH: 0 open, 1 sink seen, 2 source seen, 3 probing -/
  attach : Nat := 0
  /-- PROLE: 0 none, 1 SOURCE, 2 SINK -/
  prole : Nat := 0
  pstate : PState := .detached
  /-- VOLT on the line -/
  volt : Nat := 0
  /-- a contract is in force -/
  contractOn : Bool := false
  /-- R436 the trunk channel is a feed candidate -/
  sinking : Bool := false
  /-- LIMIT_MA, OP_MA in force -/
  limit : Nat := 0
  op : Nat := 0
  /-- CONTRACT_ID -/
  cid : Nat := 0
  /-- the transition in progress: VOLT, LIMIT_MA, OP_MA -/
  pend : Option (Nat × Nat × Nat) := none
  /-- the REQUEST sent: offer, VOLT, LIMIT_MA, OP_MA -/
  req : Option (Nat × Nat × Nat × Nat) := none
  /-- fast swap armed; FS_MA of the sink -/
  armed : Bool := false
  fsMa : Nat := 0
  /-- R446 the loss has been detected -/
  fsDetect : Bool := false
  /-- R442 step reached: 0 none, 1 source waits for the line to discharge, 2 sink waits for READY VOLT 0, 3 new sink waits for READY VOLT 1,
  4 new source waits for the safe rail -/
  swap : Nat := 0
  peer : Option PeerCaps := none
  /-- the sink shall choose once the cable is known (R441) -/
  chooseDue : Bool := false
  /-- R447 offers changed and no REQUEST yet -/
  offersChanged : Bool := false
  /-- R435 step 1 runs: the source sends CAPS; CAPS sent since it began -/
  capsDue : Bool := false
  capsSent : Nat := 0
  lastReason : Nat := 0
  /-- R441 the cable has been asked, and is marked; its last CABLE_INFO -/
  cableDone : Bool := false
  cableValid : Bool := false
  cable : Bytes := []
  /-- next MSGID -/
  msgId : Nat := 0
  /-- frames that wait for an answer, from the peer and from the marker -/
  exch : Option SbExch := none
  cableExch : Option SbExch := none
  /-- the frame sent last -/
  lastTx : Option SbFrame := none
  /-- the last frame received that expects an answer, by TYPE and MSGID, and the answer given: TYPE, body -/
  lastRx : Option (Nat × Nat × Option (Nat × Bytes)) := none
  /-- R438 WAITs received for the request, and the request that waits: TYPE, body -/
  waits : Nat := 0
  deferred : Option (Nat × Bytes) := none
  /-- R444 powered times of the HARD_RESETs that count -/
  hardTimes : List Nat := []
  faulted : Bool := false
  /-- R432 roles are decided and this end is to be the sink -/
  yields : Bool := false
  /-- R447 CABLE_GETs with REQUERY that wait for the cable: session and tag -/
  cableDue : List (Session × Nat) := []
  /-- the open TRUNK_POWER_OP: handle, OP -/
  handle : Option (Nat × Nat) := none
  contracts : Nat := 0
  hardResets : Nat := 0
  fastSwaps : Nat := 0
  frameErrors : Nat := 0
  deriving DecidableEq, Repr

/-- Power channels and contracts. -/
structure Power where
  /-- channels P0 to P13 -/
  ch : Tab PowerChan := []
  feed : FeedCfg := {}
  /-- the selected feed -/
  selected : Option Nat := none
  /-- R422 the dead time runs: REASON, and the old feed (0xFF none) -/
  dead : Option (Nat × Nat) := none
  /-- FEEDS_LOST -/
  lost : Bool := false
  /-- R424 PWRFAIL_L asserted -/
  pwrfail : Bool := false
  feedSwitches : Nat := 0
  powerFails : Nat := 0
  /-- R420 STAGGER_MS since the last slot start has not passed; slot channels that wait -/
  staggering : Bool := false
  waiting : List Nat := []
  /-- R410 the channel whose voltage and gate the next ADC frame converts -/
  adcNext : Nat := 0
  /-- the trunks' contracts -/
  tp : Tab TrunkPower := []
  deriving DecidableEq, Repr

end Sys2Proof.Machine
end

