-- ==== Sys2Proof/Machine/TypesTime.lean ====
section
/-!
DEFINITION. The state of chapter 10: the time unit, PTP ports and the PPS pins. Each field's default is its value after a power-on reset.
-/
namespace Sys2Proof.Machine

/-- Time states (Table 10.2). -/
inductive TimeState where
  | unset | freerun | locking | locked | holdover
  deriving DecidableEq, Repr

/-- The dataset a source presents (Table 10.4, R256). -/
structure Dataset where
  tstate : Nat := 0
  stepsRemoved : Nat := 0
  gm : Nat := 0
  quality : Nat := 0
  priority : Nat := 0
  utcOffset : Nat := 0
  tflags : Nat := 0
  timeSource : Nat := 0
  freqAdj : Int := 0
  stepCount : Nat := 0
  /-- the sender's portIdentity, which an Announce bears; 0 for a trunk -/
  sender : Nat := 0
  deriving DecidableEq, Repr

/-- A step that is decided and not yet applied (R259). -/
structure TimeStep where
  /-- AT_TURN, the number that the turn beginning at B would have borne -/
  atTurn : Nat
  /-- old-scale time of the boundary B, ps -/
  atPs : Nat
  /-- Δq in ns -/
  dq : Int
  /-- remainder that is slewed, ps -/
  rest : Int
  /-- a command decided it -/
  commanded : Bool
  /-- REASON of a servo step that ends a refusal (JUMP_CONFIRMED), 0 otherwise -/
  reason : Nat := 0
  deriving DecidableEq, Repr

/-- TIME_CONFIG's settings (Table 10.7). -/
structure TimeCfg where
  sources : List Nat := []
  threshold : Nat := 1000000
  afterConfirm : Bool := false
  confirmS : Nat := 16
  holdoverS : Nat := 3600
  lockNs : Nat := 20
  slewPpm : Nat := 100
  asymAdj : List Int := [0, 0, 0, 0]
  deriving DecidableEq, Repr

/-- PTP_PORT_SET's settings of an Ethernet port (R267), and the port's engine. -/
structure PtpPort where
  mode : Nat := 0
  pflags : Nat := 0
  domain : Nat := 0
  logSync : Int := 0
  logAnnounce : Int := 0
  logDelay : Int := 0
  announceTimeout : Nat := 3
  priority1 : Nat := 128
  priority2 : Nat := 128
  ingressAdj : Int := 0
  egressAdj : Int := 0
  asym : Int := 0
  /-- sequenceId of the next Sync, Announce and Delay_Req sent -/
  seqSync : Nat := 0
  seqAnnounce : Nat := 0
  seqDelay : Nat := 0
  /-- last two-step Sync: sequenceId, receive time t2 and correction, ps -/
  lastSync : Option (Nat × Int × Int) := none
  /-- t2 - t1 less corrections of the last Sync measured, ps -/
  syncDelay : Option Int := none
  /-- the master whose Announce is in use: its sourcePortIdentity -/
  parent : Option Bytes := none
  /-- last peer delay response: sequenceId, t1, t2 and receive time t4, ps, and the correction so far -/
  pdResp : Option (Nat × Int × Int × Int × Int) := none
  /-- last delay request: sequenceId and transmit time t3, ps -/
  lastDelay : Option (Nat × Int) := none
  /-- mean path delay, ps -/
  pathDelay : Int := 0
  deriving DecidableEq, Repr

/-- PPS pins (R268). -/
structure Pps where
  flags : Nat := 0
  offset : Int := 0
  width : Nat := 100000
  /-- powered time of the last rising edge of PPS_OUT -/
  lastEdge : Option Nat := none
  /-- local time of the last edge on PPS_IN, ps -/
  lastIn : Option Nat := none
  deriving DecidableEq, Repr

/-- The time unit. -/
structure TimeUnit where
  state : TimeState := .unset
  /-- SOURCE in use, 0 none -/
  source : Nat := 0
  /-- R256 the grandmaster of the last source that had one -/
  gm : Nat := 0
  /-- FREQ_ADJ set or found by the servo, before the clamp of R254 -/
  freqAdj : Int := 0
  /-- STEP_COUNT -/
  stepCount : Nat := 0
  /-- R259 the step pending -/
  pending : Option TimeStep := none
  /-- R257 JUMP_REFUSED and the refused offset, ps -/
  refused : Option Int := none
  /-- R257 powered time since which every offset has kept within 1 µs of it -/
  refusedSince : Option Nat := none
  /-- R257 powered time of the last TIME_JUMP_REFUSED -/
  refusedAt : Nat := 0
  /-- REFUSED_US -/
  refusedUs : Int := 0
  /-- OFFSET_PS -/
  offsetPs : Int := 0
  cfg : TimeCfg := {}
  /-- R269 settings that apply from the next sample -/
  cfgNext : Option TimeCfg := none
  /-- R255 FREQ_ADJ in LOCKED, with the powered times from which each value held, oldest first, over 16 s -/
  freqHist : List (Nat × Int) := []
  /-- datasets by source code -/
  data : Tab Dataset := []
  /-- LOCKING was entered from LOCKED or HOLDOVER -/
  checked : Bool := false
  /-- powered time since which every offset has been within LOCK_NS -/
  lockSince : Option Nat := none
  /-- R259 remainders still to slew, ps -/
  slew : Int := 0
  ptp : Tab PtpPort := []
  pps : Pps := {}
  /-- STEP_NOTICE held, by trunk: AT_TURN, NEW_TURN, EXT_Q, STEP_COUNT -/
  notices : Tab (Nat × Nat × Nat × Nat) := []
  /-- received stamps and notices discarded and counted (Table 10.11) -/
  badStamps : Nat := 0
  deriving DecidableEq, Repr

end Sys2Proof.Machine
end

