-- ==== Sys2Proof/Machine/TypesTrunk.lean ====
section
/-!
DEFINITION. The state of chapters 04 and 05: trunk lanes and trunk framing. Each field's default is its value after a power-on reset.
-/
namespace Sys2Proof.Machine

/-- Lane settings (Table 04.10). -/
structure LaneCfg where
  /-- ADMIN: ADMIN_UP. Default 1 -/
  admin : Bool := true
  /-- MAX_WIDTH -/
  maxWidth : Nat := 4
  /-- MAX_REV -/
  maxRev : Nat := 2
  /-- R109 FOM_MIN -/
  fomMin : Nat := 96
  /-- R109 FOM_DEGRADE -/
  fomDegrade : Nat := 64
  /-- R93 TXCLK: true FOLLOW -/
  follow : Bool := false
  /-- FOLLOW_PORT -/
  followPort : Nat := 0
  /-- CFLAGS[0] PRECODE_ALLOW -/
  precodeAllow : Bool := true
  /-- CFLAGS[1] ALLOW_FAR_LOOP -/
  allowFarLoop : Bool := false
  /-- CFLAGS[2] ADAPT_LIVE -/
  adaptLive : Bool := false
  /-- BACKOFF_MS -/
  backoffMs : Nat := 1000
  deriving DecidableEq, Repr

/-- A physical receive lane (Table 04.12). -/
structure RxLane where
  /-- FOM -/
  fom : Nat := 0
  /-- FOM_LOW: lowest since LINK_UP -/
  fomLow : Nat := 255
  /-- EH_MV -/
  eh : Nat := 0
  /-- EW -/
  ew : Nat := 0
  /-- CTLE -/
  ctle : Nat := 0
  /-- DFE1, signed 8 bits -/
  dfe1 : Int := 0
  /-- R106 aligned in step 4 -/
  aligned : Bool := false
  /-- failed for the attempt (R106, R107) -/
  failed : Bool := false
  /-- the reason with which a lane was marked failed: DESKEW (R107), 0 where the spec gives none -/
  failReason : Nat := 0
  /-- polarity inverted (R105) -/
  inverted : Bool := false
  /-- SLIP -/
  slip : Nat := 0
  /-- LANE identified -/
  laneId : Nat := 0
  /-- arrival time in symbols (R107) -/
  arrival : Nat := 0
  /-- SKEW_PS against logical lane 0 -/
  skew : Int := 0
  /-- precoding on (R115) -/
  precode : Bool := false
  /-- the last level received, after polarity correction: p(k-1) (R91) -/
  last : Nat := 0
  /-- the peer transmitter's c-1 and c+1 on this lane -/
  peerPre : Nat := 0
  peerPost : Nat := 0
  deriving DecidableEq, Repr

/-- A physical transmit lane: taps and precoding. -/
structure TxLane where
  pre : Nat := 0
  post : Nat := 0
  precode : Bool := false
  /-- the last level sent: p(k-1) (R91) -/
  last : Nat := 0
  /-- where the lane's PRBS31 fill stands (Table 04.5); 0 before its first block -/
  fill : Nat := 0
  deriving DecidableEq, Repr

/-- The equalisation search of one receive lane (R110). -/
structure EqSearch where
  best : Nat := 0
  budget : Nat := 24
  /-- 0 post, 1 pre, 2 done -/
  tap : Nat := 0
  /-- the direction is +1 -/
  up : Bool := true
  /-- the last request undoes a step -/
  undoing : Bool := false
  deriving DecidableEq, Repr

/-- LINK_CAPS (Table 05.7). -/
structure LinkCaps where
  revs : Nat := 0
  widths2 : Nat := 0
  maxRev : Nat := 0
  maxWidth : Nat := 0
  features : Nat := 0
  gearFmt : Nat := 0
  cmdIf : Nat := 0
  role : Nat := 0
  cableClass : Nat := 0
  deriving DecidableEq, Repr

/-- What a trunk's lanes are doing. -/
inductive LanePhase where
  /-- idle: not in an attempt, DATA or a loop -/
  | idle
  /-- waiting 10 ms, or BACKOFF_MS when `long` (R101) -/
  | backoff (long : Bool)
  /-- in an attempt, at a step of Sequence 04.1 -/
  | train (step : Nat)
  | data
  | loop
  deriving DecidableEq, Repr

/-- Counters of one logical lane. -/
structure LaneCount where
  corrected : Nat := 0
  loopBits : Nat := 0
  loopErrs : Nat := 0
  fomLow : Nat := 0
  /-- losses of alignment that framing reported: losses of marker lock (R131; DEDUCED) -/
  alignLoss : Nat := 0
  deriving DecidableEq, Repr

/-- The trunk record of GET_LANE_COUNTERS. -/
structure TrunkCount where
  attempts : Nat := 0
  failed : Nat := 0
  linkUp : Nat := 0
  linkDown : Nat := 0
  clockLoss : Nat := 0
  followSwitch : Nat := 0
  txeqSent : Nat := 0
  deriving DecidableEq, Repr

/-- A test loop (Table 04.8). -/
structure LoopState where
  /-- MODE: 1 near-end serial, 2 near-end parallel, 3 far-end -/
  mode : Nat
  pattern : Nat := 0
  lanes : Nat := 0
  /-- this end asked for it -/
  requester : Bool := true
  /-- LOOP_ACK has come -/
  acked : Bool := false
  /-- the step of Sequence 04.1 in which this end trains its lanes for a far-end loop, 2 to 5; 6 when they are trained (R119) -/
  step : Nat := 6
  deriving DecidableEq, Repr

/-- A completed eye scan (GET_EYE). -/
structure EyeScanRec where
  serialNo : Nat
  eye : Nat
  grid : List Nat
  deriving DecidableEq, Repr

/-- One trunk port's lanes (chapter 04). -/
structure LanePort where
  /-- settings -/
  cfg : LaneCfg := {}
  /-- R120 settings as sampled at the last attempt's start -/
  use : LaneCfg := {}
  /-- what the lanes do -/
  phase : LanePhase := .idle
  /-- REVISION -/
  revision : Nat := 0
  /-- widest width of LINK_CAPS (R149) -/
  widest : Nat := 4
  /-- WIDTH -/
  width : Nat := 0
  /-- cable class in use (R96) -/
  cls : Nat := 0
  /-- MAP[0] -/
  mapReversed : Bool := false
  /-- MAP[1] -/
  clkInverted : Bool := false
  /-- R94 FOLLOW in use -/
  following : Bool := false
  /-- R94 clock depth -/
  depth : Nat := 0
  /-- R95 SYNTONY_LOST -/
  syntonyLost : Bool := false
  /-- R99 own STATE in the current step -/
  mine : Nat := 0
  /-- R99 STATE = 1 of the peer for the current step has come -/
  peerDone : Bool := false
  /-- R99 the TRAIN_STEPs received in this attempt: STEP, STATE -/
  peerGot : List (Nat × Nat) := []
  /-- peer's DEPTH with bit 7 -/
  peerDepth : Nat := 0
  /-- RXSET as reported with STATE 1 of step 7 (R112), own and the peer's -/
  ownRxset : Nat := 0
  peerRxset : Nat := 0
  /-- peer's PRECODE of step 9 -/
  peerPrecode : Nat := 0
  /-- the peer's LINK_CAPS of this attempt -/
  caps : Option LinkCaps := none
  /-- physical receive lanes -/
  rx : Tab RxLane := []
  /-- physical transmit lanes -/
  tx : Tab TxLane := []
  /-- equalisation searches by physical receive lane -/
  eq : Tab EqSearch := []
  /-- SEQ of the last TXEQ_REQ sent -/
  txeqSeq : Nat := 0
  /-- SEQ and TXEQ_ACK body of the last TXEQ_REQ applied -/
  txeqSeen : Option (Nat × Bytes) := none
  /-- R116 stamps sent: TX_PS by block number -/
  stamps : Tab Nat := []
  /-- R116 the peer's last block and its arrival -/
  lastBlock : Nat := 0
  lastBlockAt : Nat := 0
  /-- R116 results so far -/
  results : List Int := []
  /-- R116 the step has been run once more -/
  rerun : Bool := false
  /-- FLIGHT_PS -/
  flight : Nat := 0
  /-- active logical receive and transmit lanes, as masks -/
  activeRx : Nat := 0
  activeTx : Nat := 0
  /-- LAST_FAIL -/
  lastFail : Nat := 0
  /-- FAILS since the last LINK_UP -/
  fails : Nat := 0
  /-- R101 consecutive failed attempts -/
  consecutive : Nat := 0
  /-- R119 loop -/
  loopSt : Option LoopState := none
  /-- open handles: TRUNK_RETRAIN with failures seen, TRUNK_LOOP, EYE_SCAN with lane and eye -/
  retrain : Option (Nat × Nat) := none
  loopHandle : Option Nat := none
  eyeOpen : Option (Nat × Nat × Nat) := none
  /-- completed scans by lane -/
  scans : Tab EyeScanRec := []
  /-- serial of the last scan -/
  scanSerial : Nat := 0
  /-- R121 counters -/
  cnt : TrunkCount := {}
  laneCnt : Tab LaneCount := []
  deriving DecidableEq, Repr

/-- An uncorrectable codeword that is NAKed (R139). -/
structure NakRec where
  cwsn : Nat
  /-- powered time at which it arrived (R139) -/
  at' : Nat := 0
  deriving DecidableEq, Repr

/-- A V cell held (R140, R141). -/
structure HeldCell where
  cwsn : Nat
  cell : Cell
  pool : Pool := .reserve
  deriving DecidableEq, Repr

/-- A replay copy (R136). -/
structure CopyRec where
  cwsn : Nat
  slot : Nat
  cell : Cell
  pool : Pool := .reserve
  /-- powerPs when its tooth was sent -/
  at' : Nat := 0
  deriving DecidableEq, Repr

/-- A NAK range being replayed (R137, R138). -/
structure ReplayRange where
  start : Nat
  count : Nat
  /-- powered time at which the NAK's marker was received -/
  at' : Nat := 0
  /-- its window has ended -/
  ended : Bool := false
  deriving DecidableEq, Repr

/-- A width change asked for (R144, R146). -/
structure WidthReq where
  /-- 1 degrade, 2 upgrade -/
  kind : Nat
  width : Nat
  rxset : Nat
  turn : Nat
  spoke : Nat := 0
  /-- reason of WIDTH_CHANGED -/
  reason : Nat := 0
  /-- TRUNK_WIDTH handle, 0 none -/
  handle : Nat := 0
  /-- of the peer's request: its target, turn and spoke, in the peer's numbering, and the own turn in which it first came -/
  raw : Nat × Nat := (0, 0)
  seen : Nat := 0
  deriving DecidableEq, Repr

/-- A management segment (Table 05.5). -/
structure MgmtSeg where
  mseq : Nat := 0
  mack : Nat := 0
  mtype : Nat := 0
  first : Bool := false
  last : Bool := false
  payload : Bytes := []
  deriving DecidableEq, Repr

/-- One trunk's framing (chapter 05). -/
structure Framing where
  /-- R131 the trunk is in DATA -/
  inData : Bool := false
  /-- R115 lanes handed over, marker lock awaited -/
  seeking : Bool := false
  /-- MVER -/
  mver : Nat := 0
  /-- R131 consecutive good and lost markers -/
  good : Nat := 0
  lostRun : Nat := 0
  /-- last received marker: TURN, SPOKE -/
  lastRx : Option (Nat × Nat) := none
  /-- receive position: spoke of the last marker and data codewords since -/
  rxSpoke : Nat := 0
  /-- PEER_FEATURES -/
  peerFeatures : Nat := 0
  /-- PEER_ROLE -/
  peerRole : Nat := 0
  /-- TX_CWSN -/
  txCwsn : Nat := 0
  /-- ACK_SENT -/
  ackSent : Nat := 0
  /-- R134 CWSN of the next data codeword received -/
  rxCwsn : Nat := 0
  /-- R136 last ACK_CWSN received -/
  ackRx : Nat := 0
  /-- R138 own RESOLVED_CWSN -/
  resolved : Nat := 0
  /-- R140 last RESOLVED_CWSN received -/
  peerResolved : Nat := 0
  /-- R139 NAKs outstanding, oldest first -/
  naks : List NakRec := []
  /-- R140 held cells in order of arrival -/
  held : List HeldCell := []
  /-- R135 next expected SEQ by tunnel, of V tunnels -/
  expSeq : Tab Nat := []
  /-- R136 replay copies -/
  copies : List CopyRec := []
  /-- R137 cells queued for replay, in order -/
  replayQ : List (Nat × Nat) := []
  /-- R138 ranges -/
  ranges : List ReplayRange := []
  /-- R132 MSEQ of the last segment sent, and of the last accepted -/
  mgmtTx : Nat := 0
  mgmtRx : Nat := 0
  /-- R132 segments sent and not acknowledged -/
  mgmtOut : List MgmtSeg := []
  /-- R132 segments waiting to be sent -/
  mgmtQ : List MgmtSeg := []
  /-- R132 index from which the sender sends again, if it does -/
  mgmtResend : Option Nat := none
  /-- R132 spokes since MACK last advanced -/
  mgmtStall : Nat := 0
  /-- R132 assembly by MTYPE -/
  mgmtIn : Tab Bytes := []
  /-- R133 the rest of a command is discarded -/
  mgmtDrop : Tab Nat := []
  /-- own width request, the peer's, and whether the peer confirmed an upgrade (its target turn) -/
  wcMine : Option WidthReq := none
  wcPeer : Option WidthReq := none
  /-- R146 no proposal before this powered time, ps -/
  noUpgrade : Nat := 0
  /-- R143 consecutive uncorrectable data codewords -/
  badRun : Nat := 0
  /-- R143 a fast FoM reading is under way -/
  fastFom : Bool := false
  /-- R114 the lanes reported a failing lane -/
  laneFailing : Bool := false
  /-- WIDTH_TURN, WIDTH_REASON -/
  widthTurn : Nat := 0
  widthReason : Nat := 0
  /-- SET_FRAMING_CTRL UPGRADE_AUTO, DEGRADE_RUN, UPGRADE_HOLD -/
  upgradeAuto : Bool := true
  degradeRun : Nat := 8
  upgradeHold : Nat := 1
  /-- the 24 counters by index 0 to 20 -/
  cnt : Tab Nat := []
  /-- peer's view in its last marker: GEAR_STATE, GEAR_HASH, SHIFT_STATE, SHIFT_HASH, SHIFT_TURN, RXSET, MFLAGS -/
  peerGear : Nat := 0
  peerGearHash : Nat := 0
  peerShift : Nat := 0
  peerShiftHash : Nat := 0
  peerShiftTurn : Nat := 0
  peerRxset : Nat := 0xF
  peerMflags : Nat := 0
  /-- R130 the marker just received opened a turn whose TXSTAMP gave the peer's clock offset: own minus peer, ps -/
  peerOffset : Int := 0
  /-- R242 cumulative freewheel credits granted to the peer, and the counts received, by group 0 to 3 -/
  grantTx : Tab Nat := []
  grantRx : Tab Nat := []
  /-- R243 cells sent and received against credits, by group -/
  sentFw : Tab Nat := []
  rcvdFw : Tab Nat := []
  /-- position of the next data codeword sent in the turn -/
  txCw : Nat := 0
  /-- the turn and spoke of the last marker sent -/
  txPos : Option (Nat × Nat) := none
  /-- R200 next SEQ sent on TID 0 and on TID 1 -/
  ctlTx : Nat := 0
  timeTx : Nat := 0
  /-- TSTATE and STEP_COUNT of the last marker used -/
  peerStamp : Nat × Nat := (0, 0)
  /-- TURN of the last received marker (RX_TURN) -/
  rxTurn : Nat := 0
  /-- R131 data codewords received since the last marker, while lock is sought -/
  rxGap : Nat := 0
  /-- R518 TURN, SPOKE and TXSTAMP in ps of the last marker used -/
  rxMark : Nat × Nat × Nat := (0, 0, 0)
  /-- RXSET of the last marker sent -/
  sentRxset : Nat := 0
  /-- where the PRBS31 fill of idle teeth stands (Table 05.3); 0 before the first -/
  fill : Nat := 0
  /-- R146 by wider width: powered time since which both ends have had a usable set -/
  usableSince : Tab Nat := []
  /-- R144, R518 the transmit and the receive direction have switched to the agreed width, and the width before -/
  wcTxDone : Bool := false
  wcRxDone : Bool := false
  wcOld : Nat := 0
  /-- R144, R146 a marker has carried the own width request, so its target is fixed -/
  wcSent : Bool := false
  deriving DecidableEq, Repr

end Sys2Proof.Machine
end

