-- ==== Sys2Proof/Machine/TypesUsb.lean ====
section
/-!
DEFINITION. The state of chapter 15: the dock port, its virtual hub and its functions. Each field's default is its value after a power-on
reset.
-/
namespace Sys2Proof.Machine

/-- DOCK_PORT_SET's settings (Table 15.3). -/
structure UsbCfg where
  admin : Bool := true
  maxSpeed : Nat := 3
  wakeAllow : Bool := true
  u1u2 : Bool := true
  deriving DecidableEq, Repr

/-- DOCK_FN_SET's settings of a virtual port (Table 15.3). -/
structure FnCfg where
  kind : Nat := 0
  luns : Nat := 1
  removable : Bool := false
  mac : Bytes := List.replicate 6 0
  maxSegment : Nat := 1514
  pipes : Nat := 0
  deriving DecidableEq, Repr

/-- What waits in an IN endpoint: a transfer (`more`: its end is not there yet; `zlp`: when it ends on a full packet a zero-length packet
follows), or a halt that the Bulk-Only Transport asks for at this place. -/
inductive InItem where
  | xfer (data : Bytes) (more zlp : Bool)
  | halt
  deriving DecidableEq, Repr

/-- A virtual downstream port and the function on it (R357 to R362). -/
structure VPort where
  cfg : FnCfg := {}
  /-- R361: the present function is connected -/
  conn : Bool := false
  /-- C_PORT_CONNECTION -/
  cConn : Bool := false
  enabled : Bool := false
  /-- a PORT_RESET is in progress -/
  resetting : Bool := false
  /-- C_PORT_RESET, C_BH_PORT_RESET for a warm reset -/
  cReset : Bool := false
  addr : Nat := 0
  configured : Bool := false
  /-- alternate setting of the NCM data interface -/
  alt : Nat := 0
  /-- halted endpoints, by code -/
  halts : List Nat := []
  /-- function remote wake is enabled (SuperSpeed) -/
  fnWake : Bool := false
  /-- powered time since which F8 has been able to take its cells -/
  readyAt : Nat := 0
  /-- NCM: NETWORK_CONNECTION as reported last, and sequence number of the next NTB -/
  net : Bool := false
  ntbSeq : Nat := 0
  deriving DecidableEq, Repr

/-- A logical unit (R361, R367, R368). -/
structure Lun where
  /-- its tunnel pair is open -/
  ready : Bool := false
  /-- UNIT ATTENTION waits -/
  attention : Bool := false
  /-- sense key, additional code and qualifier, INFORMATION -/
  key : Nat := 0
  asc : Nat := 0
  info : Option Nat := none
  deriving DecidableEq, Repr

/-- An outstanding BLOCK request of a mass-storage function: `live` while its command is. -/
structure MscReq where
  tag : Nat
  tid : Nat
  lba : Nat
  count : Nat
  /-- data messages received for a READ -/
  got : Nat := 0
  live : Bool := true
  deriving DecidableEq, Repr

/-- The command that a mass-storage function serves (R367, R368). -/
structure MscCmd where
  /-- dCBWTag -/
  tag : Nat
  lun : Nat
  /-- dCBWDataTransferLength -/
  expect : Nat
  /-- 1 READ, 2 WRITE, 3 FLUSH, 4 TRIM -/
  op : Nat
  fua : Bool := false
  /-- ranges of blocks not yet requested: LBA and count -/
  todo : List (Nat × Nat) := []
  /-- a WRITE's data not yet sent -/
  data : Bytes := []
  /-- bytes moved -/
  moved : Nat := 0
  failed : Bool := false
  deriving DecidableEq, Repr

/-- A mass-storage function. -/
structure Msc where
  luns : Tab Lun := []
  cmd : Option MscCmd := none
  reqs : List MscReq := []
  nextTag : Nat := 0
  /-- a Bulk-Only Mass Storage Reset NAKs its status stage -/
  resetWait : Bool := false
  /-- both bulk endpoints stay halted until a Reset Recovery -/
  recovery : Bool := false
  deriving DecidableEq, Repr

/-- The end of a tunnel at F8: the message that its cells assemble (R365, R366). -/
structure UsbEnd where
  nextSeq : Option Nat := none
  /-- a gap comes before the message in assembly or the next one -/
  gap : Bool := false
  inMsg : Bool := false
  /-- the rest of a bad frame is dropped -/
  skip : Bool := false
  seq : Nat := 0
  xtag : Nat := 0
  aux : Nat := 0
  bytes : Bytes := []
  poison : Bool := false
  deriving DecidableEq, Repr

/-- The counters of Table 15.4. -/
structure UsbCounters where
  linkRecoveries : Nat := 0
  busResets : Nat := 0
  cmdDiscarded : Nat := 0
  repliesLost : Nat := 0
  ctrlAborted : Nat := 0
  framesDiscarded : Nat := 0
  mscErrors : Nat := 0
  tunnelMsgCut : Nat := 0
  usbStall : Nat := 0
  wakes : Nat := 0
  wakeCollisions : Nat := 0
  deriving DecidableEq, Repr

/-- The dock port. -/
structure Usb where
  cfg : UsbCfg := {}
  /-- R355: U_VBUS has been valid and not lost -/
  vbus : Bool := false
  /-- the pull-up and terminations are presented -/
  attached : Bool := false
  /-- 0 none, 1 FS, 2 HS, 3 SS -/
  speed : Nat := 0
  hubAddr : Nat := 0
  hubConf : Bool := false
  suspended : Bool := false
  /-- DEVICE_REMOTE_WAKEUP of the USB 2.0 hub -/
  hubWake : Bool := false
  /-- R372: remote wake is being signalled for this function -/
  wakePending : Option Nat := none
  /-- virtual ports 1 to 7. DESIGN CHOICE: port 1 starts with the command function and no pipes, the others empty -/
  ports : Tab VPort := [(1, { cfg := { kind := 4 } })]
  /-- IN endpoints by 16 * function + code, oldest first; code 12: frames of an NCM function that wait for a transfer block -/
  inq : Tab (List InItem) := []
  /-- bytes held in the 16 KiB buffer of an OUT endpoint -/
  outUsed : Tab Nat := []
  /-- R369, R371: data toggle, or sequence number at SuperSpeed, of the next packet of an endpoint -/
  seqs : Tab Nat := []
  ends : Tab UsbEnd := []
  msc : Tab Msc := []
  /-- R374: commands received whole before their session ended, with its version, not yet executed -/
  orphans : List (Nat × Packet × Nat) := []
  /-- the version of the ended session whose command is running, 0 for none -/
  orphanVer : Nat := 0
  cnt : UsbCounters := {}
  deriving DecidableEq, Repr

end Sys2Proof.Machine
end

