-- ==== Sys2Proof/Machine/State.lean ====
section
/-!
DEFINITION. The whole state of the block, plain data, and its value after a power-on reset; the two closed types of stops.
-/
namespace Sys2Proof.Machine

/-- The settings that commands with PERSIST store in CONFIG (Table 03.5), apart from the gatekeepers' sets. -/
structure Persist where
  /-- R49 holder stored by SET_MANAGER_TRANSPORT -/
  manager : Option Holder := none
  /-- TRUNK_LANE_CTRL settings by trunk -/
  lanes : Tab LaneCfg := []
  /-- SET_FRAMING_CTRL settings by trunk: UPGRADE_AUTO, DEGRADE_RUN, UPGRADE_HOLD -/
  framing : Tab (Bool × Nat × Nat) := []
  /-- R451 the approved-mode flag -/
  approved : Bool := false
  /-- ANCHOR_SET hashes by index -/
  anchors : Tab Bytes := []
  /-- SEAL_SET settings by trunk -/
  sealing : Tab SealCfg := []
  /-- FW_PORT_SET settings by output -/
  fwPort : Tab FwPortCfg := []
  /-- SIEVE_CTRL: AUDIT_MS, RECLAIM -/
  sieve : Option (Nat × Bool) := none
  /-- TIME_CONFIG settings -/
  time : Option TimeCfg := none
  /-- PWR_CHANNEL_SET settings by channel -/
  channels : Tab ChanCfg := []
  /-- PWR_FEED_SET settings -/
  feed : Option FeedCfg := none
  /-- CROCK_CTRL settings: HOLDUP_US, REFRESH_SHARE -/
  crock : Option (Nat × Nat) := none
  /-- TRUNK_POWER_SET settings by trunk -/
  tpower : Tab TPowerCfg := []
  /-- ETH_PORT_SET settings by port -/
  eth : Tab EthCfg := []
  /-- DOCK_PORT_SET settings -/
  usb : Option UsbCfg := none
  /-- DOCK_FN_SET settings by virtual port -/
  fns : Tab FnCfg := []
  /-- LEGACY_CONFIG settings -/
  leg : Option LegCfg := none
  /-- WINDOW_SET entries by window -/
  legWins : Tab LegWin := []
  /-- INBOUND_SET entries by window -/
  legIns : Tab LegIn := []
  deriving DecidableEq, Repr

/-- The boot flash (Table 03.5). DESIGN CHOICE: no valid directory, slots erased, CONFIG valid and empty. -/
structure Flash where
  /-- DIR_A -/
  dirA : Dir := {}
  /-- DIR_B -/
  dirB : Dir := {}
  /-- R78 CONFIG's CRC is valid -/
  configOk : Bool := true
  /-- CONFIG -/
  config : Persist := {}
  /-- times CONFIG has been written, which name its bytes (the layout is not in the spec) -/
  configGen : Nat := 0
  /-- IDCERT contents from its start -/
  idcert : Bytes := []
  /-- R464 ZEROIZE_PENDING mark -/
  zeroizePending : Bool := false
  /-- SLOT_A contents from its start; beyond them it is erased -/
  slotA : Bytes := []
  /-- SLOT_B -/
  slotB : Bytes := []
  deriving DecidableEq, Repr

/-- Everything but the queue, the gatekeepers' rule sets and the fuses. -/
structure Chip where
  /-- chapter 10 clocks -/
  clk : Clock := {}
  /-- chapter 03 modes -/
  dev : Dev := {}
  /-- Table 03.5 boot flash -/
  flash : Flash := {}
  /-- chapter 02 -/
  cmd : Cmd := {}
  /-- R42 SPI target -/
  spi : Spi := {}
  /-- chapter 11 -/
  host : HostPort := {}
  /-- chapter 04, by trunk -/
  lane : Tab LanePort := []
  /-- chapter 05, by trunk -/
  frm : Tab Framing := []
  /-- chapter 10 time unit -/
  time : TimeUnit := {}
  /-- chapter 07 -/
  gear : Gears := {}
  /-- chapters 06, 08 and 09 -/
  fab : Fabric := {}
  /-- chapter 19 key store -/
  keys : Keys := {}
  /-- chapter 19, by trunk -/
  sealing : Tab Seal := []
  /-- R334 Crock system area -/
  csys : CrockSys := {}
  /-- chapter 14 -/
  crock : Crock := {}
  /-- chapter 12 -/
  disp : Display := {}
  /-- chapter 13 -/
  eth : Eth := {}
  /-- chapter 15 -/
  usb : Usb := {}
  /-- chapter 16 -/
  leg : Legacy := {}
  /-- chapters 17 and 18 -/
  pwr : Power := {}
  /-- chapter 20 violation records, by gatekeeper -/
  gk : Tab GkLog := []
  /-- chapter 21 -/
  life : Life := {}
  /-- Table 20.2 CTRL SRAM, 16 MiB: bytes by address, unlisted bytes read zero (DESIGN CHOICE) -/
  sram : List Host.Cell := []
  /-- outward transmissions, newest last -/
  out : List Out := []
  deriving DecidableEq, Repr

/-- The state of the block. -/
structure State where
  chip : Chip
  /-- chapter 20 rule sets -/
  guard : Guard
  /-- R74, R79, R80, R453 fuses -/
  fuses : Fuses
  /-- the commands that wait, first in first out -/
  pending : List Instr
  deriving DecidableEq, Repr

/-- The rule sets after a power-on or warm reset (Table 20.5), with CTRL regions 120 to 127 installed and LOCKED (R480). The spec
names what those regions cover and gives no addresses: DESIGN CHOICE, eight 512 KiB regions at the top of CTRL SRAM, 120 to 123
code (L0 R and X), 124 to 127 data (L0 R and W). -/
def Guard.initial : Tab RuleSet :=
  [(0, { dflt := 0x3C0 }), (1, { dflt := 0 }), (2, { dflt := 0xC0 }), (3, { dflt := 0xC00 }),
   (4, { dflt := 0x7FF8,
         regions := [(120, { base := 0xC00000, limit := 0xC7FFFF, perm := 0x2D }), (121, { base := 0xC80000, limit := 0xCFFFFF, perm := 0x2D }),
                     (122, { base := 0xD00000, limit := 0xD7FFFF, perm := 0x2D }), (123, { base := 0xD80000, limit := 0xDFFFFF, perm := 0x2D }),
                     (124, { base := 0xE00000, limit := 0xE7FFFF, perm := 0x1D }), (125, { base := 0xE80000, limit := 0xEFFFFF, perm := 0x1D }),
                     (126, { base := 0xF00000, limit := 0xF7FFFF, perm := 0x1D }), (127, { base := 0xF80000, limit := 0xFFFFFF, perm := 0x1D })] })]

/-- The block right after a power-on reset, before the kettle ROM runs: every field at the value its docstring gives. -/
def State.reset : State :=
  { chip := {}, guard := { active := Guard.initial, shadow := Guard.initial }, fuses := {}, pending := [] }

/-- Faults: none of the block's rows stops the block by a fault. -/
inductive Fault where
  /-- raised by nobody: the type is closed and its one name is kept for a row whose effect the spec would forbid; safe -/
  | none
  deriving DecidableEq, Repr

/-- Refusals. -/
inductive Refusal where
  /-- a row of the table without a meaning yet; safe -/
  | notModelled (mnemonic : String)
  deriving DecidableEq, Repr

end Sys2Proof.Machine
end

