-- ==== Sys2Proof/Machine/Ops.lean ====
section
/-!
DEFINITION. The operations every family shares: time, outbox, DMA, interrupts, the lifetime counters, events, replies, handles,
the order of checks of R31, and the gatekeepers' decision.
-/
namespace Sys2Proof

/-! ### Sessions and packets -/

/-- Key of a session. -/
def Session.key : Session → Nat
  | .pcie vi qp => 64 * vi + qp
  | .spi => 5000
  | .usb => 5001
  | .trunk n => 5010 + n.val

/-- Transport number of a session: PCIe 0, SPI 1, USB 2, trunk 3. -/
def Session.tr : Session → Nat
  | .pcie _ _ => 0 | .spi => 1 | .usb => 2 | .trunk _ => 3

/-- Header bytes 0 to 23 of a packet with opcode `op`, as received. -/
def Packet.header (op : Nat) (p : Packet) : Bytes :=
  le 2 op ++ le 1 p.version.toNat ++ le 1 p.flags.toNat ++ le 4 p.tag.toNat ++ le 4 p.plen.toNat ++ le 1 p.inst.toNat ++
    le 1 p.rsvd13.toNat ++ le 2 p.evq.toNat ++ le 8 p.paddr.toNat

/-- FLAGS.CHECKED. -/
def Packet.checked (p : Packet) : Bool := bitOf p.flags.toNat 0
/-- FLAGS.INDIRECT. -/
def Packet.indirect (p : Packet) : Bool := bitOf p.flags.toNat 1
/-- FLAGS.LOGCOPY. -/
def Packet.logcopy (p : Packet) : Bool := bitOf p.flags.toNat 2
/-- CHECK matches (R30). -/
def Packet.checkOk (op : Nat) (p : Packet) : Bool := p.check.toNat == crc32c (p.header op ++ p.params)

/-- The opcode and the packet that a header (Table 02.1) and its parameters spell on a session. -/
def parsePacket (sess : Session) (b : Bytes) : Nat × Packet :=
  (fld b 0 2,
   { sess, version := BitVec.ofNat 8 (fld b 2 1), flags := BitVec.ofNat 8 (fld b 3 1), tag := BitVec.ofNat 32 (fld b 4 4),
     plen := BitVec.ofNat 32 (fld b 8 4), inst := BitVec.ofNat 8 (fld b 12 1), rsvd13 := BitVec.ofNat 8 (fld b 13 1),
     evq := BitVec.ofNat 16 (fld b 14 2), paddr := BitVec.ofNat 64 (fld b 16 8), check := BitVec.ofNat 32 (fld b 24 4),
     params := b.drop 32 })

end Sys2Proof

namespace Sys2Proof.Machine

/-- The effect `f` on everything but the queue, the rule sets and the fuses. -/
def onChip (s : State) (f : Chip → Chip) : Host.Outcome State Fault Refusal :=
  .next { s with chip := f s.chip }

/-! ### Time, outbox, free values -/

/-- One turn, 125 µs, in picoseconds. -/
def turnPs : Nat := 125000000

/-- One spoke, 7.8125 µs, in picoseconds. -/
def spokePs : Nat := 7812500

/-- The current turn number, 48 bits (R258). -/
def Chip.turn (c : Chip) : Nat :=
  match c.clk.adj with
  | some (n, _, _) => n
  | none => (c.clk.localPs / turnPs) % 2 ^ 48

/-- The spoke within the turn, 0 to 15. -/
def Chip.spoke (c : Chip) : Nat :=
  match c.clk.adj with
  | some (_, a, _) => Nat.min 15 ((c.clk.localPs - a) / spokePs)
  | none => (c.clk.localPs % turnPs) / spokePs

/-- Picoseconds to the next fabric spoke (R159; spoke 15 of an adjusted turn is longer, R260). -/
def Chip.toSpoke (c : Chip) : Nat :=
  match c.clk.adj with
  | some (_, a, e) => if c.spoke = 15 then e - c.clk.localPs else spokePs - (c.clk.localPs - a) % spokePs
  | none => spokePs - c.clk.localPs % spokePs

/-- Time is set (R258). -/
def Chip.timeSet (c : Chip) : Bool := c.time.state != .unset

/-- Send `o` outwards. -/
def Chip.emit (c : Chip) (o : Out) : Chip := { c with out := c.out ++ [o] }

/-- Drive a pin. -/
def Chip.drive (c : Chip) (p : PinId) (v : Nat) : Chip := c.emit (.pin p v)

/-- Advance the counter that tells free values apart. -/
def Chip.nextFresh (c : Chip) : Chip := { c with clk := { c.clk with fresh := c.clk.fresh + 1 } }

/-- The free value that the next use of the counter names (the spec leaves it open). -/
def Chip.freshNat (c : Chip) : Nat := Config.freeNat c.clk.fresh

/-- `n` bytes, fresh (entropy the spec names without a value). -/
def Chip.freshBytes (c : Chip) (n : Nat) : Bytes := sliceB (Config.freeBytes c.clk.fresh n) 0 n

/-- One CORE cycle (1.5625 GHz) in picoseconds. -/
def corePs : Nat := 640

/-- A trunk trains, carries data or loops (R254). -/
def Chip.trunkBusy (c : Chip) : Bool := c.lane.any fun e => match e.2.phase with | .train _ | .data | .loop => true | _ => false

/-- The largest adjustment in force, in 2^-32 ns per ns (R254): 1,000 ppm, 150 ppm while a trunk is busy. -/
def Chip.freqTop (c : Chip) : Int := if c.trunkBusy then 644245 else 4294967

/-- FREQ_ADJ as it may be applied, and whether it is clamped (R254). -/
def Chip.clampedFreq (c : Chip) : Int × Bool :=
  let f := c.time.freqAdj
  let top := c.freqTop
  if f > top then (top, c.trunkBusy) else if f < -top then (-top, c.trunkBusy) else (f, false)

/-- The slew of `d` ps of the local clock (R257): at most SLEW_PPM, and within R254 with the adjustment in force. Answers the ps slewed, their
sign apart, and what is left below 1 ps. -/
def Chip.slewOf (c : Chip) (d : Nat) : Nat × Nat :=
  let left := c.time.slew.natAbs
  let room := (if c.time.slew < 0 then c.freqTop + c.clk.dco else c.freqTop - c.clk.dco).toNat
  let n := d * Nat.min (c.time.cfg.slewPpm * 2 ^ 32 / 10 ^ 6) room + c.clk.slewRest
  if n / 2 ^ 32 < left then (n / 2 ^ 32, n % 2 ^ 32) else (left, 0)

/-- Let `d` picoseconds of the local clock pass: part of them is slewed, the rest runs at the DCO's adjustment, which then moves toward
FREQ_ADJ by at most 10 ppm per ms of powered time (R252, R254, R257). -/
def Chip.pass (c : Chip) (d : Nat) : Chip :=
  let s := c.slewOf d
  let fast := decide (0 ≤ c.time.slew)
  let num := (if fast then d - s.1 else d + s.1) * 2 ^ 32 + c.clk.refRest
  let den := (2 ^ 32 + c.clk.dco).toNat
  let r := num / den
  let gap := c.clampedFreq.1 - c.clk.dco
  let m := r * 42949673 + c.clk.dcoRest
  let move := m / 10 ^ 12
  let there := decide (gap.natAbs ≤ move)
  let dco := if there then c.clampedFreq.1 else if gap < 0 then c.clk.dco - move else c.clk.dco + move
  { c with clk := { c.clk with localPs := c.clk.localPs + d, upPs := c.clk.upPs + r, powerPs := c.clk.powerPs + r, refRest := num % den,
                               slewRest := s.2, dco, dcoRest := if there then 0 else m % 10 ^ 12 },
           time := { c.time with slew := if fast then c.time.slew - s.1 else c.time.slew + s.1 } }

/-- Store settings in CONFIG (Table 03.5, R78): its CRC becomes valid. DESIGN CHOICE (log entry 25): after a CRC failure the stored block keeps the
other contents that failed, and the store makes them valid; the spec does not say what the new block holds. -/
def Chip.storeConfig (c : Chip) (f : Persist → Persist) : Chip :=
  { c with flash := { c.flash with config := f c.flash.config, configOk := true, configGen := c.flash.configGen + 1 } }

/-! ### Modes and roles -/

/-- Mode code of Table 03.1. -/
def Mode.code : Mode → Nat
  | .boot => 0 | .recovery => 1 | .hub => 2 | .dock => 3 | .relay => 4 | .quiet => 5 | .keepalive => 6 | .lockdown => 7

/-- Role code of GET_IDENTITY. -/
def Role.code : Role → Nat
  | .hub => 0 | .dock => 1 | .relay => 2

/-- ROLE as reported: 0xFF for none (R73). -/
def Chip.roleCode (c : Chip) : Nat := match c.dev.role with | none => 0xFF | some r => r.code

/-- BFLAGS (Table 03.10). -/
def Dev.bflags (d : Dev) : Nat := b2n d.fallback + 2 * b2n d.roleMismatch + 4 * b2n d.configDefault + 8 * b2n d.tamperSeen

/-- The mode of a role. -/
def Role.mode : Role → Mode
  | .hub => .hub | .dock => .dock | .relay => .relay

/-- A role mode: HUB, DOCK or RELAY. -/
def Mode.isRole : Mode → Bool
  | .hub | .dock | .relay => true
  | _ => false

/-- A role mode or QUIET. -/
def Mode.serves (m : Mode) : Bool := m.isRole || m == .quiet

/-- Cells are forwarded and trunks train: in a role mode or QUIET, from which no LOCKDOWN has been triggered (R71, Table 03.1). -/
def Chip.forwards (c : Chip) : Bool := c.dev.mode.serves && (match c.dev.trans with | some t => t.target != .lockdown | none => true)

/-- The role is `r`. -/
def Chip.inRole (c : Chip) (r : Role) : Bool := c.dev.role == some r

/-- Subsystems off in the role, by opcode range (R14, Table 01.1). -/
def Chip.rangeOff (c : Chip) (range : Nat) : Bool :=
  match c.dev.role with
  | none => false
  | some .hub => false
  | some .dock => range == 0x0B || (range == 0x06 && c.host.perst)
  | some .relay => range == 0x07 || range == 0x08 || range == 0x0A || range == 0x0B || (range == 0x06 && c.host.perst)

/-- Approved mode is on (R451). -/
def Chip.approved (c : Chip) : Bool := c.keys.approved

/-! ### Lifetime counters (R489) -/

/-- Add `n` to lifetime counter `i` (Table 21.1); it saturates at 2^64 - 1. -/
def Chip.bump (c : Chip) (i n : Nat) : Chip :=
  { c with life := { c.life with counters := c.life.counters.set i (sat64 (c.life.counters.get 0 i) n) } }

/-- The bin of Table 21.2 whose bounds are powers of two: 0 none, `n` 2^(n-1) to 2^n - 1, 15 the rest. -/
def logBin (x : Nat) : Nat := if x = 0 then 0 else Nat.min 15 (Nat.log2 x + 1)

/-- Add one sample to bin `b` of lifetime histogram `h` (R490). -/
def Chip.sample (c : Chip) (h b : Nat) : Chip :=
  { c with life := { c.life with hist := c.life.hist.set (16 * h + b) (sat32 (c.life.hist.get 0 (16 * h + b)) 1) } }

/-! ### DMA and interrupts (R277, R281) -/

/-- The entry of an instance; VI 0 holds the fixed amounts of Table 11.8 (R282). -/
def Chip.inst (c : Chip) (vi : Nat) : Inst :=
  c.host.inst.get (if vi = 0 then { state := .active, queueEntries := 8192, share := 16384, msixBase := 0, msixCount := 64, maxQp := 64, maxEvq := 32 }
    else {}) vi

/-- Change an instance. -/
def Chip.setInst (c : Chip) (vi : Nat) (i : Inst) : Chip :=
  { c with host := { c.host with inst := c.host.inst.set vi i } }

/-- DMA may leave for VI `vi` (R281, Table 11.1). -/
def Chip.dmaOk (c : Chip) (vi : Nat) : Bool :=
  c.host.linkUp && !c.host.perst && c.host.busMaster && !c.host.d3hot && ((c.inst vi).state == .active || (c.inst vi).state == .quiescing)

/-- The PASID prefix of VI `vi`'s DMA (R281). -/
def Chip.pasidOf (c : Chip) (vi : Nat) : Option Nat :=
  if (c.inst vi).pasidValid && c.host.pasidEnable then some (c.inst vi).pasid else none

/-- TSTATE of Table 10.1. -/
def TimeState.code : TimeState → Nat
  | .unset => 0 | .freerun => 1 | .locking => 2 | .locked => 3 | .holdover => 4

/-- The part follows a trunk's clock (SYNTONIZED). -/
def Chip.syntonized (c : Chip) : Bool := c.lane.any fun e => e.2.following && !e.2.syntonyLost && e.2.phase == .data

/-- TSTATE: state, STEP_PENDING, TRACEABLE as the source declares, SYNTONIZED (Table 10.1). -/
def Chip.tstate (c : Chip) : Nat :=
  c.time.state.code + 8 * b2n c.time.pending.isSome +
    16 * b2n (bitOf (c.time.data.get {} c.time.source).tflags 3 && c.time.source != 0) + 32 * b2n c.syntonized

/-- The fields of a 16-byte time stamp of local time `t` ps (Table 10.1): seconds, nanoseconds, fraction. -/
def stampFields (t : Nat) : Nat × Nat × Nat := ((t / 10 ^ 12) % 2 ^ 48, (t % 10 ^ 12) / 1000, ((t % 1000) * 2 ^ 32) / 1000)

/-- A time stamp in a record or response (little-endian, R253). -/
def Chip.stamp (c : Chip) : Bytes :=
  let f := stampFields c.clk.localPs
  le 6 f.1 ++ le 4 f.2.1 ++ le 4 f.2.2 ++ le 1 c.tstate ++ le 1 c.time.stepCount

/-- A time stamp inside a marker or a cell (most significant byte first, R253). -/
def Chip.stampBe (c : Chip) : Bytes :=
  let f := stampFields c.clk.localPs
  be 6 f.1 ++ be 4 f.2.1 ++ be 4 f.2.2 ++ le 1 c.tstate ++ le 1 c.time.stepCount

/-- The configuration space of Table 11.1 (R270), with the part's identity of R3 to R5. -/
structure PciConfig where
  deviceId : Nat := 0x9416
  revisionId : Nat := 0x00
  classCode : Nat := 0x088000
  functions : Nat := 1
  /-- BAR0: 64-bit, non-prefetchable -/
  bar0Size : Nat := 8388608
  maxPayload : Nat := 512
  maxReadLimit : Nat := 4096
  msixVectors : Nat := 2048
  msixTable : Nat := 0x410000
  msixPba : Nat := 0x418000
  aer : Bool := true
  ecrc : Bool := true
  pasidWidth : Nat := 20
  pasidExecute : Bool := false
  pasidPrivileged : Bool := false
  /-- AtomicOp completer: 32-bit and 64-bit operands, and 128-bit CAS -/
  atomics32and64 : Bool := true
  cas128 : Bool := false
  sriov : Bool := false
  ats : Bool := false
  pri : Bool := false
  tph : Bool := false
  msi : Bool := false
  deriving DecidableEq, Repr

/-- What the part presents (Table 11.1). -/
def pciConfig : PciConfig := {}

/-- The pieces, address and length, of a transfer of `len` bytes at `addr` in requests of at most `lim` bytes, none over a 4,096-byte
boundary (Table 11.1; the boundary is PCI Express's own, R270). -/
def dmaPieces (lim : Nat) : Nat → Nat → Nat → List (Nat × Nat)
  | 0, _, _ => []
  | fuel + 1, addr, len =>
    let n := Nat.min (Nat.max 1 lim) (Nat.min len (4096 - addr % 4096))
    if len ≤ n then [(addr, len)] else (addr, n) :: dmaPieces lim fuel (addr + n) (len - n)

/-- Send several transmissions outwards, in order. -/
def Chip.emits (c : Chip) (l : List Out) : Chip := { c with out := c.out ++ l }

/-- Posted writes to host memory, at most 512 bytes each (Table 11.1). -/
def Chip.dmaWrite (c : Chip) (vi addr : Nat) (data : Bytes) : Chip :=
  if c.dmaOk vi then
    c.emits ((dmaPieces pciConfig.maxPayload (data.length + 1) addr data.length).map fun e =>
      .hostWrite vi (c.pasidOf vi) e.1 ((data.drop (e.1 - addr)).take e.2))
  else c

/-- A read of host memory, remembered under its tag until HOST_READ_COMPLETION; its requests keep to the host's setting, at most 4,096 bytes
(Table 11.1). -/
def Chip.dmaRead (c : Chip) (vi addr len : Nat) (why : ReadFor) : Chip :=
  if c.dmaOk vi then
    let t := c.host.nextTag
    let c := { c with host := { c.host with nextTag := t + 1, reads := c.host.reads.set t (why, vi, addr) } }
    c.emits ((dmaPieces (Nat.min c.host.maxRead pciConfig.maxReadLimit) (len + 1) addr len).map fun e =>
      .hostRead vi (c.pasidOf vi) e.1 e.2 t)
  else c

/-- The vector's entry. -/
def Chip.vec (c : Chip) (v : Nat) : Vec := c.host.vecs.get {} v

/-- Change a vector's entry. -/
def Chip.setVec (c : Chip) (v : Nat) (x : Vec) : Chip := { c with host := { c.host with vecs := c.host.vecs.set v x } }

/-- Raise an MSI-X message at once, or mark it pending while it is masked (R277). -/
def Chip.raise (c : Chip) (v : Nat) : Chip :=
  let x := c.vec v
  if x.masked || c.host.msixMask || !c.host.msixEnable || !c.host.linkUp then c.setVec v { x with pend := true }
  else (c.setVec v { x with pend := false, coalescing := false, last := some c.clk.powerPs }).emit (.msix x.addr x.data)

/-- Raise the vector of a queue or ring of VI `vi` (relative vector `rv`, 0xFFFF none): at once when the coalescing time has
passed or an entry carries IRQ, else when the time has passed (R277). -/
def Chip.raiseRing (c : Chip) (vi rv coalesceUs : Nat) (irq : Bool) : Chip :=
  let i := c.inst vi
  if rv == 0xFFFF || i.state == .absent || i.state == .quiesced then c
  else
    let v := i.msixBase + rv
    let x := c.vec v
    let passed := match x.last with | none => true | some t => decide (t + coalesceUs * 1000000 ≤ c.clk.powerPs)
    if irq || passed then c.raise v else c.setVec v { x with coalescing := true }

/-- Set bit `b` of IRQ_CAUSE; a bit newly set while enabled raises vector 63 of VI 0 without coalescing (R294). -/
def Chip.irqCause (c : Chip) (b : Nat) : Chip :=
  if bitOf c.host.irqCause b then c
  else
    let c := { c with host := { c.host with irqCause := setBit c.host.irqCause b true } }
    if bitOf c.host.irqEnable b then c.raise 63 else c

/-! ### Events (R58 to R60) -/

/-- The bytes of an event record (Table 02.8). -/
def EventRec.bytes (e : EventRec) : Bytes :=
  le 2 e.code ++ le 2 e.status ++ le 4 e.handle ++ le 6 e.turn ++ le 1 (e.code / 256) ++ le 1 e.eflags ++ le 4 e.seq ++
    le 2 e.reason ++ zeros 2 ++ le 8 e.detail

/-- Queue key of event queue `q` of VI `vi`. -/
def vqKey (vi q : Nat) : Nat := 32 * vi + q
/-- Queue key of the USB interrupt endpoint. -/
def usbQKey : Nat := 4096
/-- Queue key of a trunk's management channel. -/
def trunkQKey (n : Nat) : Nat := 4100 + n

/-- Counters of one transport. -/
def Chip.count (c : Chip) (tr : Nat) (f : CmdCounters → CmdCounters) : Chip :=
  { c with cmd := { c.cmd with counters := c.cmd.counters.upd {} tr f } }

/-- Write a record to the management event log (R58, R60): at 4,096 records the oldest is overwritten. -/
def Chip.postLog (c : Chip) (e : EventRec) : Chip :=
  let e := { e with seq := c.cmd.logSeq }
  let l := c.cmd.log ++ [e]
  let l := if l.length > 4096 then l.drop (l.length - 4096) else l
  let c := { c with cmd := { c.cmd with log := l, logSeq := (c.cmd.logSeq + 1) % 2 ^ 32,
                                        unread := Nat.min (c.cmd.unread + 1) l.length } }
  c.irqCause 1

/-- Whether event queue `k` is full, and whether it exists (R60, R276; the interrupt endpoint holds 256 records). DESIGN CHOICE (log entry 24): a
trunk's management channel counts as full at 1,024 records; the spec gives it no depth. -/
def Chip.queueFull (c : Chip) (k : Nat) : Option Bool :=
  let q := c.cmd.queues.get {} k
  if k < 4096 then
    (c.host.evqs.find k).map fun r => r.stopped || decide ((q.seq + 2 ^ 16 - r.head) % 2 ^ 16 = 2 ^ r.log2 % 2 ^ 16)
  else if k == usbQKey then some (decide (q.recs.length ≥ 256))
  else some (decide (q.recs.length ≥ 1024))

/-- Write one record into queue `k`, which has room. -/
def Chip.pushRec (c : Chip) (k : Nat) (e : EventRec) : Chip :=
  let q := c.cmd.queues.get {} k
  let e := { e with seq := q.seq }
  let q' := { q with recs := if k < 4096 then q.recs else q.recs ++ [e], seq := (q.seq + 1) % 2 ^ 32 }
  let c := { c with cmd := { c.cmd with queues := c.cmd.queues.set k q' } }
  if k < 4096 then
    match c.host.evqs.find k with
    | none => c
    | some r =>
      let vi := k / 32
      let c := c.dmaWrite vi (r.base + 32 * (q.seq % 2 ^ r.log2)) e.bytes
      let c := c.dmaWrite vi r.piAddr (le 4 ((q.seq + 1) % 2 ^ 32) ++ le 4 q.lost)
      c.raiseRing vi r.vector r.coalesceUs false
  else c

/-- The QUEUE_OVERFLOW record of queue `k` (R60). -/
def Chip.overflowRec (c : Chip) (k : Nat) : EventRec :=
  { code := 0x0002, turn := c.turn, eflags := b2n (!c.timeSet), detail := (c.cmd.queues.get {} k).lost }

/-- When queue `k` has lost records and has room, the next record written is QUEUE_OVERFLOW (R60). -/
def Chip.flushOverflow (c : Chip) (k : Nat) : Chip :=
  let q := c.cmd.queues.get {} k
  if q.lost = 0 then c
  else match c.queueFull k with
    | some false =>
      let c := c.pushRec k (c.overflowRec k)
      { c with cmd := { c.cmd with queues := c.cmd.queues.set k { c.cmd.queues.get {} k with lost := 0 } } }
    | _ => c

/-- The key of an event queue. -/
def keyOfRef : QueueRef → Nat
  | .vi v q => vqKey v q
  | .usb => usbQKey
  | .trunk n => trunkQKey n.val

/-- Transport of a queue key: PCIe 0, USB 2, trunk 3. -/
def trOfKey (k : Nat) : Nat := if k < 4096 then 0 else if k == usbQKey then 2 else 3

/-- Write a record to queue `k`, or count it lost when the queue is full (R60). -/
def Chip.postQueue (c : Chip) (k : Nat) (e : EventRec) : Chip :=
  let c := c.flushOverflow k
  match c.queueFull k with
  | none => c
  | some true =>
    let q := c.cmd.queues.get {} k
    let c := { c with cmd := { c.cmd with queues := c.cmd.queues.set k { q with lost := q.lost + 1 } } }
    c.count (trOfKey k) fun x => { x with evLost := sat32 x.evLost 1 }
  | some false => c.pushRec k e

/-- The manager's own event queue (R50, R58): event queue 0 of VI 0 on PCIe, the interrupt endpoint on USB; the SPI target's
events are in the log. -/
def Chip.postMgr (c : Chip) (e : EventRec) : Chip :=
  match c.cmd.holder with
  | .pcie => if (c.inst 0).state == .active then c.postQueue (vqKey 0 0) e else c
  | .usb => if (c.cmd.sessions.find 5001).isSome then c.postQueue usbQKey e else c
  | .spi => c

/-- An event to an instance's event queue 0; while the instance is quiescing or quiesced it goes to the log (R287). -/
def Chip.postInst (c : Chip) (vi : Nat) (e : EventRec) : Chip :=
  if (c.inst vi).state == .active then c.postQueue (vqKey vi 0) e else c.postLog e

/-- The lifetime counter that an event increments (Table 21.1). -/
def lifeOfEvent (code : Nat) : Option Nat :=
  if code = 0x0102 then some 9
  else if code = 0x0401 then some 15
  else if code = 0x0402 then some 16
  else if code = 0x0403 then some 17
  else if code = 0x0301 then some 25
  else if code = 0x0302 then some 26
  else if code = 0x03E0 then some 29
  else if code = 0x0C03 then some 33
  else if code = 0x0C04 then some 34
  else if code = 0x0D02 then some 36
  else if code = 0x0D05 then some 38
  else if code = 0x0E04 then some 46
  else none

/-- An event record of now. -/
def Chip.event (c : Chip) (code reason detail : Nat) (status : Nat := 0) (handle : Nat := 0) : EventRec :=
  { code, status, handle, turn := c.turn, eflags := b2n (!c.timeSet), reason, detail }

/-- Post an event of a subsystem: to the management event log and to the manager. -/
def Chip.post (c : Chip) (code reason detail : Nat) (status : Nat := 0) : Chip :=
  let e := c.event code reason detail status
  let c := (c.postLog e).postMgr e
  match lifeOfEvent code with
  | none => c
  | some i => c.bump i 1

/-- Post an event that goes to an instance as well. -/
def Chip.postVi (c : Chip) (vi code reason detail : Nat) : Chip :=
  let c := c.post code reason detail
  if vi = 0 then c else c.postInst vi (c.event code reason detail)

/-! ### Sessions and issuers (R28, R37, R50) -/

/-- Issuer code and level of the commands of a session (R28, R48, R50, Table 02.7). -/
def Chip.issuer (c : Chip) : Session → Nat × Nat
  | .pcie 0 _ => if c.cmd.holder = .pcie then (0x00, 1) else (0xE4, 3)
  | .pcie vi _ => (vi, 2)
  | .spi => if c.cmd.holder = .spi then (0x00, 1) else (0xE0, 3)
  | .usb => if c.cmd.holder = .usb then (0x00, 1) else (0xE8, 3)
  | .trunk n => (0xF0 + n.val, 3)

/-- The session exists (R37). -/
def Chip.sessionUp (c : Chip) : Session → Bool
  | .pcie vi qp => (c.host.qps.find (64 * vi + qp)).isSome
  | .spi => true
  | .usb => (c.cmd.sessions.find 5001).isSome
  | .trunk n => (c.cmd.sessions.find (5010 + n.val)).isSome && (c.sealing.get {} n.val).authentic

/-- Negotiated version of a session, 0 for none (R38). -/
def Chip.version (c : Chip) (x : Session) : Nat :=
  if x.tr = 2 && c.usb.orphanVer != 0 then c.usb.orphanVer else (c.cmd.sessions.get {} x.key).version

/-- A session ends (R37): what it held is let go (R86, R197, R449, R450, IDCERT_WRITE), and its waiting packets and replies are lost; completions of its handles go
to the log (R58). -/
def Chip.endSession (c : Chip) (x : Session) : Chip :=
  { c with
    dev := { (if c.dev.stagingOwner == some x then { c.dev with stagingOwner := none, staged := 0 } else c.dev) with
             waiting := c.dev.waiting.map fun (t : Trans) => { t with reply := t.reply.filter fun r => r.1 != x } },
    pwr := { c.pwr with tp := c.pwr.tp.mapAll fun _ (t : TrunkPower) => { t with cableDue := t.cableDue.filter fun r => r.1 != x } },
    gear := if c.gear.stageOwner == some x then { c.gear with stageOwner := none, staged := [] } else c.gear,
    keys := { c.keys with nonces := c.keys.nonces.erase x.key, logged := c.keys.logged.filter (· != x.key),
                          certOwner := if c.keys.certOwner == some x then none else c.keys.certOwner },
    cmd := { c.cmd with handles := c.cmd.handles.map fun (h : HandleRec) => if h.sess = x && !h.complete then { h with logOnly := true } else h,
                        sessions := c.cmd.sessions.erase x.key, inbox := c.cmd.inbox.filter (fun e => e.2.sess != x),
                        replies := c.cmd.replies.filter (fun r => r.sess != x) } }

/-! ### Handles (R51 to R57) -/

/-- Handle records an issuer has (Table 02.7). -/
def handleCap (iss : Nat) : Nat := if iss = 0 then 1024 else if iss < 64 then 64 else 16

/-- The records of an issuer. -/
def Chip.recsOf (c : Chip) (iss : Nat) : List HandleRec := c.cmd.handles.filter fun h => h.handle / 2 ^ 24 == iss

/-- The record of a handle. -/
def Chip.rec? (c : Chip) (h : Nat) : Option HandleRec := c.cmd.handles.find? fun r => r.handle == h

/-- The record of a handle that is still open. -/
def Chip.openRec? (c : Chip) (h : Nat) : Option HandleRec := c.cmd.handles.find? fun r => r.handle == h && !r.complete

/-- The operation under handle `h` is off: a cancellation is recorded on it (R56), or a reset or LOCKDOWN has completed it. -/
def Chip.cancelled (c : Chip) (h : Nat) : Bool := if h = 0 then false else match c.openRec? h with | none => true | some r => r.cancelled

/-- The next serial of an issuer after `x` that names no held record (R51, R52). -/
def nextSerial (held : List Nat) : Nat → Nat → Nat
  | 0, x => x
  | fuel + 1, x =>
    let y := if x ≥ 0xFFFFFF then 1 else x + 1
    if held.contains y then nextSerial held fuel y else y

/-- The handle that the issuer's next long command would get. -/
def Chip.newHandle (c : Chip) (iss : Nat) : Nat :=
  iss * 2 ^ 24 + nextSerial ((c.recsOf iss).map fun r => r.handle % 2 ^ 24) 2048 (c.cmd.serial.get 0 iss)

/-- A handle record can be had: some record of the issuer is free or complete (R53, R54). -/
def Chip.recordFree (c : Chip) (iss : Nat) : Bool :=
  decide ((c.recsOf iss).length < handleCap iss) || (c.recsOf iss).any (·.complete)

/-- Release the complete record of the issuer that completed earliest, when no record is free (R53). -/
def Chip.makeRoom (c : Chip) (iss : Nat) : Chip :=
  if (c.recsOf iss).length < handleCap iss then c
  else
    let done := (c.recsOf iss).filter (·.complete)
    match done with
    | [] => c
    | a :: r =>
      let e := r.foldl (fun m x => if x.doneSeq < m.doneSeq then x else m) a
      { c with cmd := { c.cmd with handles := c.cmd.handles.filter fun x => x.handle != e.handle } }

/-- Change the record of a handle. -/
def Chip.updRec (c : Chip) (h : Nat) (f : HandleRec → HandleRec) : Chip :=
  { c with cmd := { c.cmd with handles := c.cmd.handles.map fun r => if r.handle = h then f r else r } }

/-- Mark a handle past its commit point (R56). -/
def Chip.commitPoint (c : Chip) (h : Nat) : Chip := c.updRec h fun r => { r with committed := true }

/-- Where the events of a command's handle go (R58, R65, R287). DESIGN CHOICE (log entry 24): a handle whose EVQ names no event queue that exists
has its events in the log; the spec does not say where they go, and R55 gives every handle its COMPLETION. -/
def Chip.postForHandle (c : Chip) (r : HandleRec) (e : EventRec) : Chip :=
  let iss := r.handle / 2 ^ 24
  let c :=
    if r.logOnly then c.postLog e
    else if iss = 0 then
      match c.cmd.holder with
      | .pcie =>
        let q := match r.sess with | .pcie _ _ => r.evq | _ => 0
        if (c.inst 0).state == .active && (c.host.evqs.find (vqKey 0 q)).isSome then c.postQueue (vqKey 0 q) e else c.postLog e
      | .usb => if c.sessionUp .usb then c.postQueue usbQKey e else c.postLog e
      | .spi => c.postLog e
    else
      match r.sess with
      | .pcie vi qp =>
        if (c.inst vi).state == .active && c.sessionUp (.pcie vi qp) && (c.host.evqs.find (vqKey vi r.evq)).isSome then c.postQueue (vqKey vi r.evq) e else c.postLog e
      | .spi => c.postLog e
      | .usb => if c.sessionUp .usb then c.postQueue usbQKey e else c.postLog e
      | .trunk n => if c.sessionUp (.trunk n) then c.postQueue (trunkQKey n.val) e else c.postLog e
  if r.logcopy then c.postLog { e with eflags := e.eflags + 2 } else c

/-- The STATUS_ACCEPTED reply of a handle still waits for a completion entry (R277). -/
def Chip.replyHeld (c : Chip) (r : HandleRec) : Bool :=
  match r.sess with
  | .pcie vi qp => match c.host.qps.find (64 * vi + qp) with
    | none => false
    | some q => q.held.any fun y => y.rflags % 2 == 1 && y.result == r.handle
  | _ => false

/-- The COMPLETION event of a complete handle (R55, Table 02.8). -/
def Chip.postCompletion (c : Chip) (r : HandleRec) : Chip :=
  c.postForHandle r (c.event 0x0001 r.reason (r.result + r.tag * 2 ^ 32) r.status r.handle)

/-- Post the COMPLETION events that waited for the replies of their handles (R59): those that satisfy `p`. -/
def Chip.payOwed (c : Chip) (p : HandleRec → Bool) : Chip :=
  let due := c.cmd.owed.filter p
  due.foldl (fun c r => c.postCompletion r) { c with cmd := { c.cmd with owed := c.cmd.owed.filter fun r => !p r } }

/-- Complete an open handle once, with one COMPLETION event (R53, R55), which never goes before the handle's own reply (R59). -/
def Chip.complete (c : Chip) (h st reason result : Nat) : Chip :=
  match c.openRec? h with
  | none => c
  | some r =>
    let n := c.cmd.doneSeq + 1
    let c := { c with cmd := { c.cmd with doneSeq := n } }
    let c := c.updRec h fun r => { r with complete := true, status := st, reason, result, doneSeq := n }
    let r := { r with complete := true, status := st, reason, result, doneSeq := n }
    if c.replyHeld r then { c with cmd := { c.cmd with owed := c.cmd.owed ++ [r] } } else c.postCompletion r

/-- Complete with STATUS_ABORTED every open handle that satisfies `p`. -/
def Chip.abortWhere (c : Chip) (p : HandleRec → Bool) (reason : Nat) : Chip :=
  (c.cmd.handles.filter fun r => !r.complete && p r).foldl (fun c r => c.complete r.handle 0x0302 reason 0) c

/-! ### Status codes (R61, Table 02.9) -/

def stOk : Nat := 0x0000
def stAccepted : Nat := 0x0001
def stBadOpcode : Nat := 0x0101
def stBadVersion : Nat := 0x0102
def stLength : Nat := 0x0103
def stParam : Nat := 0x0104
def stDenied : Nat := 0x0201
def stBusy : Nat := 0x0202
def stNoResource : Nat := 0x0203
def stState : Nat := 0x0204
def stCertFail : Nat := 0x0301
def stAborted : Nat := 0x0302
def stTimeout : Nat := 0x0303
def stMedia : Nat := 0x0401
def stNoHandle : Nat := 0x0501
def stCheck : Nat := 0x0502
def stTimeUnset : Nat := 0x0503
def stInternal : Nat := 0x0F01

/-! ### Replies (R33 to R35, R42, R275) -/

/-- The 16 bytes of a status reply (Table 02.3). -/
def Reply.head (r : Reply) : Bytes :=
  le 2 r.status ++ le 2 r.reason ++ le 4 r.tag ++ le 4 r.result ++ le 3 r.data.length ++ le 1 r.rflags

/-- Bytes of the reply ring that a response of `n` bytes takes (R275). -/
def rbNeed (n : Nat) : Nat := if n = 0 then 0 else ((16 + n + 63) / 64) * 64

/-- Where a response of `need` bytes goes in a reply ring whose next byte is `next`: its offset and the tail it skips (R275). -/
def rbPlace (size next need : Nat) : Nat × Nat :=
  if need = 0 then (0, 0) else if next + need > size then (0, size - next) else (next, 0)

/-- The reply ring once the replies that wait for completion entries have been written: its next byte and its free bytes (R275, R277). -/
def QueuePair.rbAhead (q : QueuePair) : Nat × Nat :=
  q.held.foldl (fun s r =>
    let need := rbNeed r.data.length
    let pl := rbPlace (2 ^ q.rbLog2) s.1 need
    if need = 0 then s else ((pl.1 + need) % 2 ^ q.rbLog2, s.2 - (need + pl.2))) (q.rbNext, 2 ^ q.rbLog2 - q.rbHeld.foldl (· + ·) 0)

/-- Free bytes of a pair's reply ring (R275), those that waiting replies will take counted as taken. -/
def QueuePair.rbFree (q : QueuePair) : Nat := q.rbAhead.2

/-- The largest response, with its padding and its reply copy, that the free bytes hold without wrapping: before the ring's end, or from
offset 0 with the tail skipped (R275). -/
def QueuePair.rbFits (q : QueuePair) : Nat :=
  let a := q.rbAhead
  let tail := 2 ^ q.rbLog2 - a.1
  Nat.max (Nat.min tail a.2) (a.2 - tail) / 64 * 64

/-- Completion entries written and not yet freed. -/
def QueuePair.cqUsed (q : QueuePair) : Nat := (q.cqTail + 2 ^ 16 - q.cqHead) % 2 ^ 16

/-- Write a reply of a queue pair: the response into the reply ring, then the completion entry (R275). -/
def Chip.writeCqe (c : Chip) (vi qp : Nat) (r : Reply) : Chip :=
  match c.host.qps.find (64 * vi + qp) with
  | none => c
  | some q =>
    let need := rbNeed r.data.length
    let size := 2 ^ q.rbLog2
    let skip := (rbPlace size q.rbNext need).2
    let off := (rbPlace size q.rbNext need).1
    let c := if need = 0 then c else c.dmaWrite vi (q.rbBase + off) (r.head ++ r.data ++ zeros (need - 16 - r.data.length))
    let slot := q.cqTail % 2 ^ q.cqLog2
    let phase := (q.cqTail / 2 ^ q.cqLog2 + 1) % 2
    let e := r.head ++ le 2 q.sqHead ++ le 2 qp ++ le 4 off ++ le 1 phase ++ zeros 7
    let c := c.dmaWrite vi (q.cqBase + 32 * slot) e
    let q' := { q with cqTail := (q.cqTail + 1) % 2 ^ 16,
                       rbNext := if need = 0 then q.rbNext else (off + need) % size,
                       rbHeld := q.rbHeld ++ [if need = 0 then 0 else need + skip] }
    let c := { c with host := { c.host with qps := c.host.qps.set (64 * vi + qp) q' } }
    c.raiseRing vi q.vector q.coalesceUs false

/-- Post a reply on its session (R33). A reply to a session that has ended is lost. -/
def Chip.postReply (c : Chip) (r : Reply) : Chip :=
  let c := if r.status = stLength then c.count r.sess.tr fun x => { x with rejLength := sat32 x.rejLength 1 } else c
  match r.sess with
  | .pcie vi qp =>
    match c.host.qps.find (64 * vi + qp) with
    | none => c
    | some q =>
      if q.cqUsed ≥ 2 ^ q.cqLog2 || !q.held.isEmpty then
        { c with host := { c.host with qps := c.host.qps.set (64 * vi + qp) { q with held := q.held ++ [r] } } }
      else c.writeCqe vi qp r
  | .spi => { c with spi := { c.spi with reply := some r, busy := false } }
  | .usb => { c with cmd := { c.cmd with replies := c.cmd.replies ++ [r] } }
  | .trunk _ => { c with cmd := { c.cmd with replies := c.cmd.replies ++ [r] } }

/-- The largest response of a session at this moment (Table 02.5, R35, R275). -/
def Chip.replyRoom (c : Chip) : Session → Nat
  | .pcie vi qp => match c.host.qps.find (64 * vi + qp) with
    | none => 0
    | some q => q.rbFits - 16
  | .spi => 65536 - 16
  | .usb => 262144 - 16
  | .trunk _ => 16384 - 16

/-- The IRQ_OUT_L pin is asserted (R44). -/
def Chip.irqOut (c : Chip) : Bool :=
  c.cmd.holder == .spi && (c.spi.reply.isSome || decide (c.cmd.unread > 0))

/-! ### Receiving and checking a command (R27 to R31, R42, R45, R46, R66, R72) -/

/-- What the order of checks decides for a packet. -/
inductive Verdict where
  | run
  | reply (st reason : Nat)
  | discard
  | silent
  deriving DecidableEq, Repr

/-- PLEN is beyond the transport's parameter buffer (R31, Table 02.5, R273). -/
def beyondBuffer (p : Packet) : Bool :=
  match p.sess with
  | .pcie _ _ => !p.indirect && decide (p.plen.toNat > 4096)
  | .spi => decide (32 + p.plen.toNat > 65536)
  | .usb => decide (32 + p.plen.toNat > 262144)
  | .trunk _ => decide (32 + p.plen.toNat > 16384)

/-- The recovery set (R72). -/
def recoverySet (op : Nat) : Bool :=
  (decide (1 ≤ op) && decide (op ≤ 6)) || op == 0x0101 || op == 0x0104 || op == 0x0106 || op == 0x0107 || op == 0x0109

/-- The opcode is allowed in the mode (Table 03.1). -/
def Chip.modeAllows (c : Chip) (op : Nat) (x : Session) : Bool :=
  match c.dev.mode with
  | .boot => false
  | .hub | .dock | .relay => true
  | .quiet => op != 0x0304 && op != 0x0701
  | .keepalive => x == .spi && (op / 256 == 0 || op == 0x0101 || op == 0x0109 || op == 0x0104 || op / 256 == 0x0C || op / 256 == 0x0D)
  | .recovery | .lockdown => recoverySet op && (match x with | .trunk _ => false | _ => true)

/-- The issuer's level is allowed (R31, R50, R72). -/
def Chip.levelAllows (c : Chip) (o : OpInfo) (x : Session) : Bool :=
  let lvl := (c.issuer x).2
  let onTrunk := match x with | .trunk _ => true | _ => false
  (bitOf o.levels (lvl - 1) && (lvl != 3 || !o.l3Trunk || onTrunk))
    || ((c.dev.mode == .recovery || c.dev.mode == .lockdown) && recoverySet o.code && lvl == 3 && !onTrunk)

/-- The trunk's remote policy allows the opcode's range (R46). -/
def Chip.policyAllows (c : Chip) (op : Nat) : Session → Bool
  | .trunk n => bitOf (c.cmd.policy.get 1 n.val) (op / 256)
  | _ => true

/-- R31: the order of checks, up to the lengths. -/
def Chip.r31 (c : Chip) (op : Nat) (p : Packet) : Verdict :=
  let v := p.version.toNat
  let neg := c.version p.sess
  if p.plen.toNat > 1048576 || beyondBuffer p then .reply stLength 0x000A
  else if p.checked && !p.checkOk op then
    match p.sess with
    | .pcie _ _ | .usb => .reply stCheck 0
    | _ => .discard
  else if v = 0 || v > 3 then .reply stBadVersion 0
  else if neg != 0 && v != neg then .reply stBadVersion 0
  else if v = 1 && p.plen.toNat > 4096 then .reply stLength 0x0009
  else if p.indirect && (p.sess.tr != 0 || v = 1) then .reply stParam 0x0001
  else match opInfo op with
    | none => .reply stBadOpcode 0
    | some o =>
      if o.minVer > v then .reply stBadVersion 0
      else if neg = 0 && op != 0x0001 && op != 0x0002 then .reply stState 0x0004
      else if !bitOf o.transports p.sess.tr then .reply stDenied 0x0001
      else if !c.levelAllows o p.sess then .reply stDenied 0x0002
      else if !c.policyAllows op p.sess then .reply stDenied 0x0003
      else if c.rangeOff (op / 256) || !c.modeAllows op p.sess then .reply stState 0x000B
      else if p.plen.toNat < o.lo then .reply stLength 0x0008
      else if p.plen.toNat > o.hi then .reply stLength 0x0009
      else .run

/-- Count a discarded packet (R30, R42, R43, R45, R133, R363); on SPI it sets FRAME_ERROR (R42). -/
def Chip.discardPacket (c : Chip) (x : Session) : Chip :=
  let c := c.count x.tr fun k => { k with discarded := sat32 k.discarded 1 }
  match x with
  | .spi => { c with spi := { c.spi with frameError := true } }
  | _ => c

/-- Commands of a session received and not yet executed (Table 02.5). -/
def Chip.outstanding (c : Chip) (x : Session) : Nat := (c.cmd.inbox.filter fun e => e.2.sess == x).length

/-- A packet reaches the part on its transport: framing conditions of the transport (R42, R43, R45, R363), then it is counted; false when it
is not taken. A peer's commands are taken in a session, which begins when the peer is authenticated (R37, R45). While 8 commands are
outstanding on USB the endpoint accepts none (R363); the limits of Table 02.5 on PCIe and on a trunk refuse nothing: R33 gives every command a
reply and the spec names no back-pressure there (DESIGN CHOICE, log entry 24). DESIGN CHOICE (log entry 24): a packet that is discarded for its framing is
counted as discarded only; one discarded for its CHECK later has been counted as received too. -/
def Chip.takePacket (c : Chip) (p : Packet) : Chip × Bool :=
  if !c.dev.fwRunning || !c.sessionUp p.sess then
    (match p.sess with
     | .trunk _ => c.discardPacket p.sess
     | _ => c, false)
  else match p.sess with
    | .spi =>
      if c.spi.busy || c.spi.reply.isSome || !p.checked then (c.discardPacket p.sess, false)
      else ({ (c.count 1 fun k => { k with received := sat32 k.received 1 }) with
              spi := { c.spi with busy := true, frameError := false } }, true)
    | x =>
      if x == .usb && decide (c.outstanding x ≥ 8) then (c, false)
      else (c.count x.tr fun k => { k with received := sat32 k.received 1 }, true)

/-- What an opcode answers (Table 02.3): status, reason, result, response data, GAP; for STATUS_ACCEPTED the handle is the
context's, and `done` completes it right after its reply; `hold` keeps the reply back (R68). -/
structure Ans where
  st : Nat := 0
  reason : Nat := 0
  result : Nat := 0
  data : Bytes := []
  gap : Bool := false
  done : Option (Nat × Nat × Nat) := none
  hold : Bool := false
  /-- the handle of STATUS_ACCEPTED is past its commit point from the start (R56) -/
  committed : Bool := false
  /-- the manager role moves to this transport once the reply is posted (R65) -/
  moveTo : Option Holder := none
  deriving DecidableEq, Repr

/-- Who issued a command and with what. -/
structure Ctx where
  op : Nat
  sess : Session
  iss : Nat
  lvl : Nat
  ver : Nat
  tag : Nat
  evq : Nat
  logcopy : Bool
  ps : Bytes
  /-- the handle a long command gets -/
  handle : Nat
  fuses : Fuses
  guard : Guard

/-- REASON is zero before version 3 (Table 02.4). -/
def reasonFor (ver reason : Nat) : Nat := if ver < 3 then 0 else reason

/-- The context of a packet that passed R31. -/
def Chip.ctx (c : Chip) (op : Nat) (p : Packet) (f : Fuses) (g : Guard) : Ctx :=
  let il := c.issuer p.sess
  { op, sess := p.sess, iss := il.1, lvl := il.2, ver := p.version.toNat, tag := p.tag.toNat, evq := p.evq.toNat,
    logcopy := p.logcopy, ps := p.params, handle := c.newHandle il.1, fuses := f, guard := g }

/-- Open the handle record of an accepted long command (R51, R53); an output kept under the same number is gone (R475). -/
def Chip.openHandle (c : Chip) (x : Ctx) : Chip :=
  let c := c.makeRoom x.iss
  { c with keys := { c.keys with outputs := c.keys.outputs.filter fun e => e.1 != x.handle }, cmd := { c.cmd with
      serial := c.cmd.serial.set x.iss (x.handle % 2 ^ 24),
      handles := c.cmd.handles ++ [{ handle := x.handle, opcode := x.op, sess := x.sess, tag := x.tag, evq := x.evq,
                                     logcopy := x.logcopy, logOnly := c.usb.orphanVer != 0 }] } }

/-- Reply to a command with a refusal of R31. -/
def Chip.refuse (c : Chip) (p : Packet) (st reason result : Nat) : Chip :=
  let c := if st = stCheck then c.count p.sess.tr fun k => { k with discarded := sat32 k.discarded 1 } else c
  c.postReply { sess := p.sess, status := st, reason := reasonFor p.version.toNat reason, tag := p.tag.toNat, result }

/-- TARGET of SET_MANAGER_TRANSPORT. -/
def Holder.code : Holder → Nat
  | .pcie => 0 | .spi => 1 | .usb => 2

/-- The manager role moves (R65): MANAGER_MOVED is posted to the log and to the new holder. -/
def Chip.moveManager (c : Chip) (h : Holder) : Chip := ({ c with cmd := { c.cmd with holder := h } }).post 0x0003 0 h.code

/-- Post the answer of an opcode whose effect gave `c`, from `c0`, the state before it (R33 to R36, R54, R59). -/
def Chip.answer {α : Type} (c0 : Chip) (a0 : α) (x : Ctx) (r : Ans) (c : Chip) (a : α) : Chip × α :=
  if r.st = stAccepted then
    if c0.recordFree x.iss then
      let c := c.openHandle x
      let c := c.postReply { sess := x.sess, status := stAccepted, reason := reasonFor x.ver r.reason, tag := x.tag,
                             result := x.handle, rflags := 1, data := r.data }
      let c := if r.committed then c.commitPoint x.handle else c
      match r.done with
      | none => (c, a)
      | some (st, rs, res) => (c.complete x.handle st rs res, a)
    else (c0.postReply { sess := x.sess, status := stBusy, tag := x.tag }, a0)
  else if r.hold then (c, a)
  else if r.data.length > c0.replyRoom x.sess then
    (c0.postReply { sess := x.sess, status := stLength, reason := reasonFor x.ver 0x000A, tag := x.tag,
                    result := r.data.length }, a0)
  else
    let c := c.postReply { sess := x.sess, status := r.st, reason := reasonFor x.ver r.reason, tag := x.tag, result := r.result,
                           rflags := if r.gap then 2 else 0, data := r.data }
    (match r.moveTo with | none => c | some h => c.moveManager h, a)

/-- What a refusal of R31 does: the reply, or the silent discard of R30 and R42. -/
def Chip.turnAway (c : Chip) (p : Packet) : Verdict → Chip
  | .reply st rs => c.refuse p st rs 0
  | .discard =>
    let c := c.discardPacket p.sess
    match p.sess with | .spi => { c with spi := { c.spi with busy := false } } | _ => c
  | _ => c

/-- Run a packet whose verdict under R31 is `v`: the opcode's own checks and effect, then the reply. -/
def runTaken {α : Type} (v : Verdict) (op : Nat) (p : Packet) (f : Fuses) (g : Guard) (body : Ctx → Chip → α → Ans × Chip × α)
    (c : Chip) (a : α) : Chip × α :=
  match v with
  | .run =>
    let x := c.ctx op p f g
    let r := body x c a
    c.answer a x r.1 r.2.1 r.2.2
  | v => (c.turnAway p v, a)

/-- R31 for a packet that has waited: its trunk's remote policy was looked at when it arrived (R64). -/
def Chip.r31Waited (c : Chip) (op : Nat) (p : Packet) : Verdict :=
  { c with cmd := { c.cmd with policy := [(0, 2 ^ 18 - 1), (1, 2 ^ 18 - 1), (2, 2 ^ 18 - 1), (3, 2 ^ 18 - 1)] } }.r31 op p

/-- The packet of a session that has waited longest (R41). -/
def Chip.firstOf (c : Chip) (x : Session) : Option (Nat × Packet) := c.cmd.inbox.find? fun e => e.2.sess == x

/-- A packet leaves the inbox. -/
def Chip.unqueue (c : Chip) (op : Nat) (p : Packet) : Chip := { c with cmd := { c.cmd with inbox := c.cmd.inbox.erase (op, p) } }

/-- Packets at the front of a session's line that R31 refuses are answered and leave it (R31, R41). -/
def Chip.settle (c : Chip) (x : Session) : Nat → Chip
  | 0 => c
  | n + 1 => match c.firstOf x with
    | none => c
    | some e =>
      let v := c.r31Waited e.1 e.2
      if v == .run then c else ((c.unqueue e.1 e.2).turnAway e.2 v).settle x n

/-- The block as it looks at a session's waiting commands: the refused ones before the first that runs are answered. -/
def Chip.attend (c : Chip) (x : Session) : Chip := c.settle x c.cmd.inbox.length

/-- A command of a USB session that has ended goes on (R374): it runs under its session's version; its reply is lost and counted, and its
handle's completion goes to the log. -/
def runOrphan {α : Type} (op : Nat) (p : Packet) (ver : Nat) (f : Fuses) (g : Guard) (body : Ctx → Chip → α → Ans × Chip × α)
    (c : Chip) (a : α) : Chip × α :=
  let sessions := c.cmd.sessions
  let replies := c.cmd.replies
  let c := { c with usb := { c.usb with orphanVer := ver } }
  let r := runTaken (c.r31 op p) op p f g body c a
  let c := r.1
  let lost := c.cmd.replies.length - replies.length
  let c := { c with
    cmd := { c.cmd with sessions, replies },
    usb := { c.usb with orphanVer := 0, cnt := { c.usb.cnt with repliesLost := sat32 c.usb.cnt.repliesLost lost } } }
  (if (sessions.find 5001).isSome then c else c.endSession .usb, r.2)

/-- Every session with waiting commands is looked at. -/
def Chip.attendAll (c : Chip) : Chip := c.cmd.inbox.foldl (fun c e => c.attend e.2.sess) c

/-- An idle step: waiting commands that R31 refuses are answered, and one CORE cycle passes, but never over a spoke boundary, which
FABRIC_SPOKE_START opens (DESIGN CHOICE). -/
def Chip.idle (c : Chip) : Chip :=
  let c := c.attendAll
  if corePs < c.toSpoke then c.pass corePs else c

/-- A transport row delivers a whole packet. Behind commands of its session that wait, it waits too (R41), unless the remote policy refuses
it now (R64); what R31 refuses is answered at once, the rest waits for its command row. -/
def Chip.receive (c : Chip) (op : Nat) (p : Packet) : Chip :=
  let c := c.attend p.sess
  let t := c.takePacket p
  if !t.2 then t.1
  else
    let v := if (c.firstOf p.sess).isSome && c.policyAllows op p.sess then .run else t.1.r31 op p
    match v with
    | .run => { t.1 with cmd := { t.1.cmd with inbox := t.1.cmd.inbox ++ [(op, p)] } }
    | v => t.1.turnAway p v

/-- A command row: the packet comes out of the inbox when a transport row put it there, in its session's order (R41): while another of the
session stands before it, it goes on waiting. Any other packet reaches the part now, behind those of its session that wait. -/
def runCommandA {α : Type} (op : Nat) (p : Packet) (f : Fuses) (g : Guard) (body : Ctx → Chip → α → Ans × Chip × α)
    (c : Chip) (a : α) : Chip × α :=
  let c := c.attend p.sess
  if c.cmd.inbox.contains (op, p) then
    if c.firstOf p.sess == some (op, p) then
      let c := c.unqueue op p
      runTaken (c.r31Waited op p) op p f g body c a
    else (c, a)
  else match c.usb.orphans.find? fun o => o.1 == op && o.2.1 == p with
  | some o => runOrphan op p o.2.2 f g body { c with usb := { c.usb with orphans := c.usb.orphans.erase o } } a
  | none =>
    if (c.firstOf p.sess).isSome then (c.receive op p, a)
    else
      let t := c.takePacket p
      if t.2 then runTaken (t.1.r31 op p) op p f g body t.1 a else (t.1, a)

/-- A command row whose effect touches neither the rule sets nor the fuses. -/
def runCommand (op : Nat) (p : Packet) (s : State) (body : Ctx → Chip → Ans × Chip) : Host.Outcome State Fault Refusal :=
  let r := runCommandA op p s.fuses s.guard (fun x c (u : Unit) => ((body x c).1, (body x c).2, u)) s.chip ()
  .next { s with chip := r.1 }

/-- Answers. -/
def ok (data : Bytes := []) (result : Nat := 0) : Ans := { data, result }
/-- A refusal of the opcode. -/
def err (st : Nat) (reason : Nat := 0) (result : Nat := 0) : Ans := { st, reason, result }
/-- STATUS_ACCEPTED. -/
def accepted : Ans := { st := stAccepted }
/-- STATUS_BUSY naming the holding handle (R36). -/
def busyWith (h : Nat) : Ans := { st := stBusy, result := h }
/-- The opcode refuses and has no effect. -/
def no (c : Chip) (st : Nat) (reason : Nat := 0) (result : Nat := 0) : Ans × Chip := (err st reason result, c)

/-! ### The gatekeepers' decision (R476, R479, R484 to R487) -/

/-- Level codes of Table 20.6: 0 to 3 for L0 to L3, 4 DBG. The permission word `w` grants an access of `kind` (0 read, 1 write,
2 read-modify-write, 3 execute) to level `l` (R479, Table 20.4). -/
def permGrants (w l kind : Nat) : Bool :=
  let r := if l = 0 then bitOf w 3 else if l = 1 then bitOf w 6 else if l = 2 then bitOf w 8 else if l = 3 then bitOf w 10 else bitOf w 12
  let wr := if l = 0 then bitOf w 4 else if l = 1 then bitOf w 7 else if l = 2 then bitOf w 9 else if l = 3 then bitOf w 11 else bitOf w 13
  let x := if l = 0 then bitOf w 5 else if l = 4 then bitOf w 14 else false
  if kind = 0 then r else if kind = 1 then wr else if kind = 2 then r && wr else x

/-- The index of the enabled region that holds address `a`. -/
def RuleSet.regionAt (g : RuleSet) (a : Nat) : Option Nat :=
  (g.regions.find? fun e => bitOf e.2.perm 0 && decide (e.2.base ≤ a) && decide (a ≤ e.2.limit)).map Prod.fst

/-- A byte at `a` is allowed to level `l` (R479; R487 for DBG in LOCKED regions). -/
def RuleSet.byteOk (g : RuleSet) (lifecycle l kind a : Nat) : Bool :=
  match g.regionAt a with
  | none => permGrants g.dflt l kind
  | some i =>
    let w := (g.regions.get {} i).perm
    if l = 4 && bitOf w 2 then lifecycle == 3 else permGrants w l kind

/-- The outcome of a check: which bytes of the access are allowed. -/
structure GkVerdict where
  /-- one flag per byte -/
  bytes : List Bool
  /-- every byte allowed -/
  all : Bool
  /-- no byte allowed -/
  nobyte : Bool
  /-- region of the lowest denied byte, 0xFF the default rule -/
  region : Nat
  /-- the bytes lie in more than one region, or partly in none -/
  straddle : Bool
  deriving DecidableEq, Repr

/-- Decide an access of `len` bytes at `a` (R484, R485: `whole` when it is decided whole). -/
def RuleSet.decide' (g : RuleSet) (lifecycle l kind a len : Nat) (whole : Bool) : GkVerdict :=
  let as := (List.range len).map (a + ·)
  let first := g.regionAt a
  let straddle := as.any fun x => g.regionAt x != first
  let per := as.map fun x => g.byteOk lifecycle l kind x
  let firstOk := g.byteOk lifecycle l kind a
  let bytes := if whole then List.replicate len (per.all id) else if g.straddle = 0 then List.replicate len firstOk else per
  let low := if !whole && g.straddle = 0 then a else (as.find? fun x => !g.byteOk lifecycle l kind x).getD a
  { bytes, all := bytes.all id, nobyte := !bytes.any id,
    region := (g.regionAt low).getD 0xFF, straddle }

/-- Record a violation at gatekeeper `gk` (R486): the first is kept and posted, later ones count in OVERFLOW. -/
def Chip.violate (c : Chip) (gk : Nat) (v : Violation) : Chip :=
  let x := c.gk.get {} gk
  let c := c.bump 47 1
  if x.first.valid then
    { c with gk := c.gk.set gk { x with first := { x.first with overflow := sat32 x.first.overflow 1 } } }
  else
    let c := { c with gk := c.gk.set gk { x with first := { v with valid := true, turn := c.turn, overflow := 0 } } }
    c.post 0x0F01 0 (gk + v.level * 256 + (v.addr % 2 ^ 48) * 65536)

/-- Device space is unmapped at `a` (Table 20.2). -/
def unmapped (a : Nat) : Bool :=
  !(decide (a ≤ 0x00FFFFFF) || (decide (0x01000000 ≤ a) && decide (a ≤ 0x0111FFFF))
    || (decide (0x20000000 ≤ a) && decide (a ≤ 0x3FFFFFFF)))

/-- A command handler's access to device space on behalf of its issuer, decided whole (R477, R485): true when allowed; a denial is
recorded. -/
def Chip.gkCommand (c : Chip) (x : Ctx) (kind addr len : Nat) : Chip × Bool :=
  let gk := match x.sess with | .pcie _ _ | .spi => 4 | .usb => 2 | .trunk _ => 3
  let v := (x.guard.active.get {} gk).decide' x.fuses.lifecycle x.lvl kind addr len true
  if v.all then (c, true)
  else (c.violate gk { addr, size := len, kind, level := x.lvl, master := 0, id := x.iss, region := v.region,
                       straddle := v.straddle }, false)

end Sys2Proof.Machine
end

