-- ==== Sys2Proof/Machine/Trunk.lean ====
section
/-!
DEFINITION. Reading and changing one trunk's lanes and framing; the wire form of cells (R128) and codewords (R125).
-/
namespace Sys2Proof

/-- The 8 header bytes of a cell (Table 05.2). -/
def Cell.header (x : Cell) : Bytes :=
  be 8 (x.tid % 1024 * 2 ^ 54 + x.ctype % 16 * 2 ^ 50 + b2n x.f * 2 ^ 49 + b2n x.l * 2 ^ 48 + b2n x.p * 2 ^ 47 + x.seq % 65536 * 2 ^ 31 +
        x.len % 64 * 2 ^ 25 + x.aux % 256 * 2 ^ 17 + x.xtag % 65536 * 2)

/-- The 64 bytes of a cell. -/
def Cell.bytes (x : Cell) : Bytes := x.header ++ sliceB x.payload 0 56

/-- The cell that 64 bytes spell; the reserved bit is ignored (R10). -/
def cellOfBytes (b : Bytes) : Cell :=
  let h := beNat (b.take 8)
  { tid := bitsOf h 54 10, ctype := bitsOf h 50 4, f := bitOf h 49, l := bitOf h 48, p := bitOf h 47, seq := bitsOf h 31 16,
    len := bitsOf h 25 6, aux := bitsOf h 17 8, xtag := bitsOf h 1 16, payload := sliceB b 8 56 }

end Sys2Proof

namespace Sys2Proof.Machine

/-- A trunk's lanes. -/
def Chip.laneOf (c : Chip) (n : Nat) : LanePort := c.lane.get {} n
/-- Change a trunk's lanes. -/
def Chip.setLane (c : Chip) (n : Nat) (l : LanePort) : Chip := { c with lane := c.lane.set n l }
/-- A trunk's framing. -/
def Chip.frmOf (c : Chip) (n : Nat) : Framing := c.frm.get {} n
/-- Change a trunk's framing. -/
def Chip.setFrm (c : Chip) (n : Nat) (f : Framing) : Chip := { c with frm := c.frm.set n f }
/-- The trunk is in DATA. -/
def Chip.inData (c : Chip) (n : Nat) : Bool := (c.laneOf n).phase == .data
/-- The lifetime counter that follows a framing counter (Table 21.1). -/
def lifeOfFrm (i : Nat) : Option Nat :=
  if i = 2 then some 21 else if i = 3 then some 20 else if i = 5 then some 24 else if i = 13 then some 22 else if i = 14 then some 23 else none
/-- Add to framing counter `i`, numbered from 0 as GET_FRAMING_COUNTERS lists them. -/
def Chip.countFrm (c : Chip) (n i d : Nat) : Chip :=
  let f := c.frmOf n
  let c := match lifeOfFrm i with | some k => c.bump k d | none => c
  c.setFrm n { f with cnt := f.cnt.set i (sat64 (f.cnt.get 0 i) d) }
/-- Change the trunk counters of the lanes. -/
def Chip.countLane (c : Chip) (n : Nat) (f : TrunkCount → TrunkCount) : Chip :=
  let l := c.laneOf n
  c.setLane n { l with cnt := f l.cnt }
/-- A trunk's power contract. -/
def Chip.tpOf (c : Chip) (n : Nat) : TrunkPower := c.pwr.tp.get {} n
/-- Change a trunk's power contract. -/
def Chip.setTp (c : Chip) (n : Nat) (x : TrunkPower) : Chip := { c with pwr := { c.pwr with tp := c.pwr.tp.set n x } }
/-- Send a frame on a trunk's sideband with the next MSGID (Table 18.2). -/
def Chip.sbSend (c : Chip) (n : Nat) (marker : Bool) (type : Nat) (body : Bytes) : Chip :=
  let x := c.tpOf n
  let f : SbFrame := { marker, type, id := x.msgId, body }
  (c.setTp n { x with msgId := (x.msgId + 1) % 256, lastTx := some f }).emit (sbOut n marker type f.id body)
/-- Send a sideband message to the peer. -/
def Chip.sbPeer (c : Chip) (n type : Nat) (body : Bytes) : Chip := c.sbSend n false type body


/-- The logical lanes of a mask, in order. -/
def lanesOf (mask : Nat) : List Nat := (List.range 4).filter fun i => bitOf mask i

/-- The symbols of a codeword on each active lane: symbol k goes on lane k mod W (R125). -/
def stripe (lanes : List Nat) (sym : List Nat) : List (Nat × List Nat) :=
  let w := Nat.max 1 lanes.length
  lanes.zipIdx.map fun e => (e.1, (sym.zipIdx.filter fun x => x.2 % w = e.2).map Prod.fst)

/-- The lane that training's reversal maps logical receive lane `i` to (R105). -/
def LanePort.phys (l : LanePort) (i : Nat) : Nat := if l.mapReversed then 3 - i else i

/-- The units of a lane's symbols as transmitted: precoded on Unxus 2 where the lane precodes (R90, R91, R125). -/
def LanePort.txUnits (l : LanePort) (i : Nat) (sym : List Nat) : List Nat :=
  let t := l.tx.get {} i
  let u := lineUnits l.revision (sym.map symbolBits).flatten
  if l.revision = 2 && t.precode then precode t.last u else u

/-- Time of a training block, ps (Table 04.5). -/
def blockPs (rev : Nat) : Nat := if rev = 2 then 6250 else 25000

/-- The block that a trunk's lanes are in: one every block time of the local clock (the spec gives the counter no start; DEDUCED, log
entry 46). -/
def Chip.blockNow (c : Chip) (rev : Nat) : Nat := c.clk.localPs / blockPs rev

/-- The training block that the four transmit lanes of a trunk send now (R97). -/
def Chip.sendTraining (c : Chip) (n : Nat) : Chip :=
  let l := c.laneOf n
  let b := (List.range 4).map fun i => (i, trainingBlocks i (c.blockNow l.revision) 1 (l.tx.get {} i).fill)
  let tx := b.foldl (fun (t : Tab TxLane) e => t.set e.1 { t.get {} e.1 with fill := e.2.2 }) l.tx
  (c.setLane n { l with tx }).emit (.training n (b.map fun e => (e.1, lineUnits l.revision e.2.1)))

/-- Send 320 data bytes as a codeword on a trunk (R122, R124, R125). Lanes outside the active set carry training blocks meanwhile, 4 / W on
each; precoding starts again from level 0 on a lane that comes back from them (DEDUCED, log entry 46). -/
def Chip.sendCodeword (c : Chip) (n : Nat) (d : Bytes) : Chip :=
  let l := c.laneOf n
  let on := lanesOf l.activeTx
  let data := (stripe on (rsTrunk.encode (dataSymbols (sliceB d 0 320)))).map fun e => (e.1, l.txUnits e.1 e.2)
  let off := lanesOf (15 - l.activeTx % 16)
  let k := 4 / Nat.max 1 on.length
  let idle := off.map fun i => (i, trainingBlocks i (c.blockNow l.revision) k (l.tx.get {} i).fill)
  let tx := idle.foldl (fun (t : Tab TxLane) e => t.set e.1 { t.get {} e.1 with last := 0, fill := e.2.2 }) l.tx
  let tx := data.foldl (fun (t : Tab TxLane) e => t.set e.1 { t.get {} e.1 with last := e.2.getLast?.getD 0 }) tx
  (c.setLane n { l with tx }).emit (.codeword n (data ++ idle.map fun e => (e.1, lineUnits l.revision e.2.1)))

/-- One received lane's units: the bits they spell and the level that the next one is precoded after (R90, R91). -/
def LanePort.rxBits (l : LanePort) (i : Nat) (u : List Nat) : List Bool × Nat :=
  let x := l.rx.get {} (l.phys i)
  let v := u.map (flipUnit l.revision x.inverted)
  (unitBits l.revision (if l.revision = 2 && x.precode then unprecode x.last v else v), v.getLast?.getD x.last)

/-- The 272 symbols of a codeword from the units that each physical receive lane brings (R125), and the lanes afterwards. Units of lanes
outside the active set are training blocks. -/
def LanePort.lineRx (l : LanePort) (rx : List (List Nat)) : List Nat × LanePort :=
  let on := lanesOf l.activeRx
  let got := on.map fun i => (i, l.rxBits i (nth [] rx (l.phys i)))
  let sym := got.map fun e => (pieces 10 272 e.2.1).map bitsNat
  let w := Nat.max 1 on.length
  let tb := (lanesOf (15 - l.activeRx % 16)).foldl (fun (t : Tab RxLane) i => t.set (l.phys i) { t.get {} (l.phys i) with last := 0 }) l.rx
  let tb := got.foldl (fun (t : Tab RxLane) e => t.set (l.phys e.1) { t.get {} (l.phys e.1) with last := e.2.2 }) tb
  ((List.range 272).map fun k => nth 0 (nth [] sym (k % w)) (k / w), { l with rx := tb })

/-- A trunk's lanes deliver a codeword's time (R90, R91, R105, R125): its symbols, and the chip with the lanes' new precoding state. -/
def Chip.lineRx (c : Chip) (n : Nat) (rx : List (List Nat)) : List Nat × Chip :=
  let r := (c.laneOf n).lineRx rx
  (r.1, c.setLane n r.2)

/-- The four trunks as sessions. -/
def trunkSession (n : Nat) : Session := if n = 0 then .trunk 0 else if n = 1 then .trunk 1 else if n = 2 then .trunk 2 else .trunk 3

/-- Sealing of a trunk. -/
def Chip.sealOf (c : Chip) (n : Nat) : Seal := c.sealing.get {} n
/-- Change a trunk's sealing. -/
def Chip.setSeal (c : Chip) (n : Nat) (x : Seal) : Chip := { c with sealing := c.sealing.set n x }

/-- `a` is before `b` in a sequence of `2^n` numbers (R134, R135). -/
def seqBefore (n a b : Nat) : Bool :=
  let d := (b + 2 ^ n - a % 2 ^ n) % 2 ^ n
  decide (1 ≤ d) && decide (d < 2 ^ (n - 1))

end Sys2Proof.Machine
end

