-- ==== Sys2Proof/Machine/Fabric.lean ====
section
/-!
DEFINITION. Chapters 06, 08 and 09: the fabric's queues, pools and promises, which many families use.
-/
namespace Sys2Proof.Machine

/-! ### Accessors -/

/-- A tunnel context. -/
def Chip.tunOf (c : Chip) (tid : Nat) : Tun := c.fab.tun.get {} tid
/-- Change a tunnel context. -/
def Chip.setTun (c : Chip) (tid : Nat) (t : Tun) : Chip := { c with fab := { c.fab with tun := c.fab.tun.set tid t } }
/-- An output port; class B at F6 and F8 starts as store-and-forward (R224). -/
def Chip.port (c : Chip) (p : Nat) : OutPort := c.fab.ports.get (if p = 6 || p = 8 then { fwd := 4 } else {}) p
/-- Change an output port. -/
def Chip.setPort (c : Chip) (p : Nat) (x : OutPort) : Chip := { c with fab := { c.fab with ports := c.fab.ports.set p x } }
/-- Key of a tunnel's queue at an output. -/
def qKey (p tid : Nat) : Nat := 1024 * p + tid
/-- A tunnel's queue at an output. -/
def Chip.queue (c : Chip) (p tid : Nat) : List QCell := c.fab.q.get [] (qKey p tid)
/-- Change a queue; an empty one is not listed, and is not eligible (R235). -/
def Chip.setQueue (c : Chip) (p tid : Nat) (l : List QCell) : Chip :=
  if l.isEmpty then
    { c with fab := { c.fab with q := c.fab.q.erase (qKey p tid),
                                 fw := c.fab.fw.mapAll fun k f => if k = qKey p tid then { f with eligible := false } else f } }
  else { c with fab := { c.fab with q := c.fab.q.set (qKey p tid) l } }
/-- Freewheel state of a queue. -/
def Chip.fwOf (c : Chip) (p tid : Nat) : FwQueue := c.fab.fw.get {} (qKey p tid)
/-- Change the freewheel state of a queue. -/
def Chip.setFw (c : Chip) (p tid : Nat) (x : FwQueue) : Chip := { c with fab := { c.fab with fw := c.fab.fw.set (qKey p tid) x } }
/-- Change the stockpot's counters. -/
def Chip.setPot (c : Chip) (f : Stockpot → Stockpot) : Chip := { c with fab := { c.fab with pot := f c.fab.pot } }
/-- Add to chainring counter `i` of a port, numbered from 0. -/
def Chip.countPort (c : Chip) (p i d : Nat) : Chip :=
  let x := c.port p
  c.setPort p { x with cnt := x.cnt.set i (sat64 (x.cnt.get 0 i) d) }

/-- The context holds its TID and carries cells (R203). -/
def TState.live : TState → Bool
  | .opening | .open | .closing => true
  | _ => false

/-! ### Gears in use (R170, R175) -/

/-- A gear slot. -/
def Chip.gslot (c : Chip) (i : Nat) : GearSlot := c.gear.slots.get {} i
/-- Change a gear slot. -/
def Chip.setGslot (c : Chip) (i : Nat) (x : GearSlot) : Chip := { c with gear := { c.gear with slots := c.gear.slots.set i x } }
/-- The active gear, none under NONE. -/
def Chip.activeGear (c : Chip) : Option GearImg := match c.gear.active with | none => none | some i => (c.gslot i).img
/-- The image an open shift names. -/
def Chip.targetGear (c : Chip) : Option GearImg :=
  match c.gear.shift with | none => none | some x => if x.slot ≥ 4 then none else (c.gslot x.slot).img
/-- A certificate record of an image. -/
def GearImg.rec? (g : GearImg) (tid : Nat) : Option CertRec := g.recs.find? fun r => r.tid == tid
/-- The active gear's record of a tunnel. -/
def Chip.certRec (c : Chip) (tid : Nat) : Option CertRec := match c.activeGear with | none => none | some g => g.rec? tid
/-- A record's variant for a geometry. -/
def CertRec.var (r : CertRec) (g : Nat) : Variant := if g = 4 then r.var4 else if g = 2 then r.var2 else r.var1
/-- Geometry of the full variant (R179, R182). -/
def GearImg.full (g : GearImg) : Nat := if g.format = 2 then 4 else 1
/-- The source endpoint is here, the destination is here, and VERIFY_FIRST (Table 07.7). -/
def CertRec.verifyFirst (r : CertRec) : Bool := bitOf r.cflags 0
def CertRec.source (r : CertRec) : Bool := bitOf r.cflags 1
def CertRec.dest (r : CertRec) : Bool := bitOf r.cflags 2

/-- The geometry of a trunk as it runs (R174). -/
def Chip.geom (c : Chip) (n : Nat) : Nat := if (c.laneOf n).revision = 1 then 1 else (c.laneOf n).width
/-- The TEETH section of an image for a trunk and geometry. -/
def GearImg.sec? (g : GearImg) (n geom : Nat) : Option TeethSec := g.teeth.find? fun t => t.trunk == n && t.geom == geom
/-- The image's table for a trunk at a geometry carries a tunnel. -/
def GearImg.carries (g : GearImg) (n geom tid : Nat) : Bool :=
  match g.sec? n geom with
  | none => false
  | some t => t.runs.any fun r => r.kind == 1 && r.tid == tid

/-- The tunnel is opened as contracted and the active gear holds a record for it (R22, R206). -/
def Chip.contracted (c : Chip) (tid : Nat) : Bool := decide ((c.tunOf tid).cls < 2) && (c.certRec tid).isSome
/-- SERVED: B while no gear is active (R22, R206). -/
def Chip.served (c : Chip) (tid : Nat) : Nat := if c.contracted tid then (c.tunOf tid).cls else 2
/-- A contracted tunnel whose output trunk's table in use carries no teeth for it (R175, R195). -/
def Chip.uncarried (c : Chip) (tid : Nat) : Bool :=
  let t := c.tunOf tid
  c.contracted tid && decide (t.outPort < 4) &&
    (match c.activeGear with | none => false | some g => !g.carries t.outPort (c.geom t.outPort) tid)

/-! ### The ladle (R246 to R250) -/

/-- A ladle filter. -/
def Chip.filterOf (c : Chip) (i : Nat) : LadleFilter := c.fab.ladle.filters.get {} i
/-- A ladle ring. -/
def Chip.ring (c : Chip) (i : Nat) : LadleRing := c.fab.ladle.rings.get {} i
/-- Change a ladle ring. -/
def Chip.setRing (c : Chip) (i : Nat) (x : LadleRing) : Chip :=
  { c with fab := { c.fab with ladle := { c.fab.ladle with rings := c.fab.ladle.rings.set i x } } }

/-- Queue a record for its ring, or lose it when 256 wait (R247). -/
def Chip.pushLadle (c : Chip) (i : Nat) (bytes : Bytes) : Chip :=
  let r := c.ring i
  if r.mode = 0 then c
  else if c.fab.ladle.queue.length ≥ 256 then c.setRing i { r with lost := sat32 r.lost 1, gap := true }
  else { c with fab := { c.fab with ladle := { c.fab.ladle with queue := c.fab.ladle.queue ++ [{ ring := i, bytes }] } } }

/-- The record with its content, zero-filled when short (R248). -/
def ladleBytes (head content : Bytes) : Bytes :=
  let short := decide (content.length < 64)
  let h := if short then patch head 22 [BitVec.ofNat 8 ((nth 0 head 22).toNat + 16)] else head
  h ++ sliceB content 0 64

/-- A filter matches a cell at a point (R246). -/
def LadleFilter.hit (f : LadleFilter) (point port cls : Nat) (x : Cell) (demoted : Bool) : Bool :=
  f.enable && bitOf f.points point && bitOf f.ports port && bitOf f.classes cls && (!bitOf f.classes 3 || demoted)
    && (!(bitOf f.fflags 0 || bitOf f.fflags 2) || x.f) && (!bitOf f.fflags 1 || x.p) && x.ctype != 0 && bitOf f.ctypes x.ctype
    && decide (f.tidLo ≤ x.tid) && decide (x.tid ≤ f.tidHi)

/-- Present a cell to filter `i` at a capture point. A ring owned by an instance takes only that instance's own tunnels (R249). -/
def Chip.captureOne (c : Chip) (i point port : Nat) (x : Cell) (demoted : Bool) (cause : Nat) : Chip :=
  let f := c.filterOf i
  let r := c.ring f.ring
  let t := c.tunOf x.tid
  let cls := c.served x.tid
  let own := f.ring = 0 || r.owner = 0 || (t.index = 0 && t.owner = r.owner)
  if !f.hit point port cls x demoted || r.mode = 0 || !own then c
  else
    let m := f.matched + 1
    let take := decide (m % 2 ^ f.sampleN = 0)
    let cap := if take then f.captured + 1 else f.captured
    let f' := { f with matched := m, captured := cap, enable := !(decide (f.limit > 0) && decide (cap ≥ f.limit)) }
    let c := { c with fab := { c.fab with ladle := { c.fab.ladle with filters := c.fab.ladle.filters.set i f' } } }
    if !take then c
    else
      let msg := bitOf f.fflags 2
      let head := c.stamp ++ le 2 x.tid ++ le 1 port ++ le 1 cls ++ le 1 i ++ le 1 point ++
        le 1 (2 * b2n demoted + 4 * b2n x.p + 8 * b2n msg) ++ zeros 1 ++ le 2 x.seq ++ le 2 cause ++ zeros 4
      if !msg then c.pushLadle f.ring (head ++ x.bytes)
      else
        let content := sliceB x.payload 0 x.len
        if x.l || point = 2 then c.pushLadle f.ring (ladleBytes head content)
        else
          let m : LadleMsg := { filter := i, tid := x.tid, port, point, head, content, at' := c.clk.powerPs }
          { c with fab := { c.fab with ladle := { c.fab.ladle with msgs := c.fab.ladle.msgs ++ [m] } } }

/-- Write a MESSAGE capture with the content it has (R248). -/
def Chip.writeMsg (c : Chip) (m : LadleMsg) (content : Bytes) : Chip :=
  ({ c with fab := { c.fab with ladle := { c.fab.ladle with msgs := c.fab.ladle.msgs.filter fun y => y != m } } }).pushLadle
    (c.filterOf m.filter).ring (ladleBytes m.head content)

/-- A cell that passes a capture point joins the MESSAGE captures that gather there; an F cell ends them, its message being another (R248). -/
def Chip.gather (c : Chip) (point port : Nat) (x : Cell) : Chip :=
  c.fab.ladle.msgs.foldl (fun c m =>
    if m.tid = x.tid && m.port = port && m.point = point then
      if x.f then c.writeMsg m m.content
      else
        let m' := { m with content := m.content ++ sliceB x.payload 0 x.len }
        if x.l || decide (m'.content.length ≥ 64) then c.writeMsg m m'.content
        else { c with fab := { c.fab with ladle := { c.fab.ladle with msgs := (c.fab.ladle.msgs.filter fun y => y != m) ++ [m'] } } }
    else c) c

/-- A cell passes a capture point: 0 LINK, 1 DEPART, 2 DISCARD (R246). -/
def Chip.capture (c : Chip) (point port : Nat) (x : Cell) (demoted : Bool := false) (cause : Nat := 0) : Chip :=
  (c.fab.ladle.filters.map Prod.fst).foldl (fun c i => c.captureOne i point port x demoted cause) (c.gather point port x)

/-- MESSAGE captures of a tunnel at a port that have waited its SF_TIMEOUT are written as they are (R248). -/
def Chip.flushMsgs (c : Chip) (p tid : Nat) : Chip :=
  (c.fab.ladle.msgs.filter fun m => m.tid == tid && m.port == p && decide (m.at' + (c.port p).sfTimeout * 10000000 ≤ c.clk.powerPs)).foldl
    (fun c m => c.writeMsg m m.content) c

/-! ### Events of tunnels and the promise (R165 to R169) -/

/-- The queue key of the manager's own event queue, if it has one. -/
def Chip.mgrKey (c : Chip) : Option Nat :=
  match c.cmd.holder with | .pcie => some (vqKey 0 0) | .usb => some usbQKey | .spi => none

/-- Post to the event queue that the tunnel's owner named at open, at device 0 (R169, R287). -/
def Chip.postTun (c : Chip) (tid : Nat) (e : EventRec) : Chip :=
  let t := c.tunOf tid
  match t.sess with
  | none => c
  | some s =>
    let k := match s with
      | .pcie vi _ => some (vqKey vi t.evq)
      | .spi => none
      | .usb => some usbQKey
      | .trunk n => some (trunkQKey n.val)
    match k with
    | none => c
    | some k => if c.mgrKey == some k then c else
      match s with
      | .pcie vi _ => if (c.inst vi).state == .active then c.postQueue k e else c
      | _ => if c.sessionUp s then c.postQueue k e else c

/-- DETAIL of the promise events (Table 06.7). -/
def promiseDetail (port tid turn : Nat) : Nat := (if port > 10 then 15 else port) * 2 ^ 58 + tid * 2 ^ 48 + turn

/-- The trunks a tunnel crosses at this device. -/
def Tun.trunks (t : Tun) : List Nat :=
  (if t.index > 0 && t.inPort < 4 then [t.inPort] else []) ++ (if t.outPort < 4 then [t.outPort] else [])

/-- A sealed tunnel may use the trunk: its turns are sealed (R473). -/
def Chip.sealedOk (c : Chip) (n : Nat) (oflags : Nat) : Bool :=
  !(bitOf oflags 0 || bitOf oflags 1) || (c.sealOf n).tx.isSome

/-- A trunk counts as in DATA for a tunnel's promise (R167, R194, R473). -/
def Chip.trunkHolds (c : Chip) (n tid : Nat) : Bool :=
  c.inData n && !c.gear.mismatch.contains n && c.sealedOk n (c.tunOf tid).oflags

/-- The flight over a tunnel's outgoing trunk is within its allowance (R164). -/
def Chip.flightOk (c : Chip) (tid : Nat) : Bool :=
  match c.certRec tid with
  | none => true
  | some r => r.hop = 0 || decide ((c.laneOf r.outPort).flight ≤ r.flightAllow)

/-- Every condition whose absence suspends a promise holds (R167); under the gear NONE no variant carries the tunnel. -/
def Chip.promiseHolds (c : Chip) (tid : Nat) : Bool :=
  c.contracted tid && ((c.tunOf tid).trunks.all fun n => c.trunkHolds n tid) && c.flightOk tid && !c.uncarried tid

/-- A cause arises for a contracted tunnel (R165, R166). -/
def Chip.suspend (c : Chip) (tid cause port : Nat) : Chip :=
  if !(c.contracted tid && (c.tunOf tid).state.live) then c
  else
    let t := c.tunOf tid
    let p := t.promise
    let p' := { p with cause, port, causes := sat32 p.causes 1, lastTurn := c.turn, held := c.promiseHolds tid }
    if p.suspended then c.setTun tid { t with promise := p' }
    else
      let c := c.setTun tid { t with promise := { p' with suspended := true, since := c.turn, suspensions := sat32 p.suspensions 1 } }
      let d := promiseDetail port tid c.turn
      let c := (c.post 0x03E0 cause d)
      c.postTun tid (c.event 0x03E0 cause d)

/-- Look whether the conditions of a suspended promise hold: when they come to hold again, the count of R167 starts at this turn. -/
def Chip.promiseLook (c : Chip) (tid : Nat) : Chip :=
  let t := c.tunOf tid
  let p := t.promise
  let now := c.promiseHolds tid
  if !p.suspended || now == p.held then c
  else c.setTun tid { t with promise := { p with held := now, lastTurn := if now then c.turn else p.lastTurn } }

/-- A tunnel that comes to be contracted, at open or at a shift, is suspended for each condition of R167 that does not hold (R164, R194,
R195; DEDUCED, log entry 48). -/
def Chip.promiseStart (c : Chip) (tid : Nat) : Chip :=
  let t := c.tunOf tid
  let c := match t.trunks.find? fun n => !c.trunkHolds n tid with | some n => c.suspend tid 0x03F3 n | none => c
  let c := if c.flightOk tid then c else c.suspend tid 0x03F4 t.outPort
  if c.uncarried tid then c.suspend tid 0x03F1 t.outPort else c

/-- The tunnels that satisfy `p`. -/
def Chip.tids (c : Chip) (p : Nat → Tun → Bool) : List Nat := (c.fab.tun.filter fun e => p e.1 e.2).map Prod.fst

/-- Suspend every live contracted tunnel that satisfies `p`. -/
def Chip.suspendAll (c : Chip) (p : Nat → Tun → Bool) (cause port : Nat) : Chip :=
  (c.tids fun i t => t.state.live && p i t).foldl (fun c i => c.suspend i cause port) c

/-! ### Pools (R219 to R221) -/

/-- Every stored cell's TID and pool. -/
def Chip.stored (c : Chip) : List (Nat × Pool) :=
  (c.fab.q.map fun e => e.2.map fun x => (x.cell.tid, x.pool)).flatten ++
  (c.fab.backlog.map fun e => e.2.map fun x => (x.cell.tid, x.pool)).flatten ++
  (c.frm.map fun e => (e.2.held.map fun x => (x.cell.tid, x.pool)) ++ (e.2.copies.map fun x => (x.cell.tid, x.pool))).flatten

/-- Cells of a pool in use. -/
def Chip.poolUsed (c : Chip) (p : Pool) : Nat := (c.stored.filter fun e => e.2 == p).length
/-- Cells of a pool that a tunnel uses. -/
def Chip.poolOf (c : Chip) (p : Pool) (tid : Nat) : Nat := (c.stored.filter fun e => e.2 == p && e.1 == tid).length

/-- Note the shared pool's peak (Table 21.2). -/
def Chip.notePeak (c : Chip) : Chip := c.setPot fun s => { s with peakShared := Nat.max s.peakShared (c.poolUsed .shared) }

/-- RES of the active gear. -/
def Chip.res (c : Chip) : Nat := match c.activeGear with | none => 0 | some g => g.total
/-- G: the sum of the guarantees in force. -/
def Chip.guarantees (c : Chip) : Nat := c.fab.tun.foldl (fun a e => if e.2.state.live then a + e.2.guarantee else a) 0
/-- S_eff (R219, R221): with the larger of the active and target RES while a shift is open. -/
def Chip.sEff (c : Chip) : Nat :=
  let r := match c.targetGear with | none => c.res | some g => Nat.max c.res g.total
  524288 - r - 4096 - c.guarantees - c.fab.pot.retired.length

/-- Credits granted on a trunk's group whose cell has not arrived (R222, R242). -/
def Framing.unused (f : Framing) (g : Nat) : Nat := (f.grantTx.get 0 g + 2 ^ 32 - f.rcvdFw.get 0 g) % 2 ^ 32
/-- Shared cells kept free for credits until the credited cell leaves (R222, R242): one for each credit whose cell has not come, or whose
cell is stored in its tunnel's guarantee; a credited cell in the shared pool uses its own. -/
def Chip.kept (c : Chip) : Nat :=
  let own := fun (l : List QCell) => (l.filter fun x => x.pool != .shared && (match x.credit with | some (_, g) => decide (g < 4) | none => false)).length
  c.frm.foldl (fun a e => a + e.2.unused 0 + e.2.unused 1 + e.2.unused 2 + e.2.unused 3) 0 +
    c.fab.q.foldl (fun a e => a + own e.2) 0 + c.fab.backlog.foldl (fun a e => a + own e.2) 0
/-- A shared cell is free. -/
def Chip.sharedFree (c : Chip) : Bool := decide (c.poolUsed .shared + c.kept < c.sEff)

/-- Space for a contracted cell (R221): its reservation, else the shared pool while any is free. -/
def Chip.contractedPool (c : Chip) (tid : Nat) : Option Pool :=
  let r := match c.certRec tid with | none => 0 | some r => r.reserve
  if c.poolOf .reserve tid < r then some .reserve else if c.sharedFree then some .shared else none

/-- Space for a TID 0, TID 1 or firmware cell (R219). -/
def Chip.systemPool (c : Chip) : Option Pool :=
  if c.poolUsed .system < 4096 then some .system else if c.sharedFree then some .shared else none

/-- R221's admission of a class B cell beyond its guarantee: u_q < 2^k (s_eff - u); a cell kept for a credit is not to be had (R222). -/
def Chip.admits (c : Chip) (tid : Nat) (k : Int) : Bool :=
  let uq := c.poolOf .shared tid
  let free := c.sEff - c.poolUsed .shared
  if !c.sharedFree then false
  else if k ≥ 0 then decide (uq < 2 ^ k.toNat * free) else decide (uq * 2 ^ (-k).toNat < free)

/-- Space for a class B cell that an endpoint presents, or a demoted one (R221, R240). -/
def Chip.bestEffortPool (c : Chip) (tid : Nat) (demoted : Bool) : Option Pool :=
  let t := c.tunOf tid
  if !demoted && c.poolOf .guaranteed tid < t.guarantee then some .guaranteed
  else if c.admits tid t.alpha then some .shared else none

/-- Space for a credited class B cell from a trunk: its guarantee, else the shared cell kept for it. -/
def Chip.creditedPool (c : Chip) (tid : Nat) : Pool :=
  if c.poolOf .guaranteed tid < (c.tunOf tid).guarantee then .guaranteed else .shared

/-! ### Discards -/

/-- A cell of a tunnel is discarded at a port and counted. -/
def Chip.dropCell (c : Chip) (p : Nat) (x : Cell) (demoted : Bool := false) (cause : Nat := 0) : Chip :=
  let c := c.capture 2 p x demoted cause
  if x.tid < 2 then c
  else
    let t := c.tunOf x.tid
    if t.state == .free then c else c.setTun x.tid { t with discarded := sat32 t.discarded 1 }

/-- Discard a tunnel's whole queue at an output; the number is in the context's count. -/
def Chip.dropQueue (c : Chip) (p tid : Nat) (cause : Nat := 0) : Chip :=
  ((c.queue p tid).foldl (fun c x => c.dropCell p x.cell x.demoted cause) c).setQueue p tid []

/-- Discard the cells of a tunnel that wait for a sealed turn's tag on a trunk (R472). -/
def Chip.dropSealHeld (c : Chip) (n tid : Nat) (cause : Nat) : Chip :=
  let y := c.sealOf n
  match y.rx with
  | none => c
  | some r =>
    let c := (r.held.filter fun x => x.tid == tid).foldl (fun c x => c.dropCell n x false cause) c
    c.setSeal n { y with rx := some { r with held := r.held.filter fun x => x.tid != tid } }

/-- Discard every cell of a tunnel that this device holds: queues, backlogs, replay copies, held cells, cells held for VERIFY_FIRST (R192,
R210, Table 19.12). -/
def Chip.dropTunnel (c : Chip) (tid : Nat) (cause : Nat := 0) : Chip :=
  let c := (List.range 11).foldl (fun c p => c.dropQueue p tid cause) c
  let gone := (c.fab.backlog.map fun e => (e.2.filter fun x => x.cell.tid == tid).map fun x => (e.1 / 16, x)).flatten
  let c := gone.foldl (fun c e => c.dropCell e.1 e.2.cell e.2.demoted cause) c
  let c := { c with fab := { c.fab with backlog := (c.fab.backlog.mapAll fun _ l => l.filter fun x => x.cell.tid != tid).filter fun e => !e.2.isEmpty } }
  (List.range 4).foldl (fun c n =>
    let c := c.dropSealHeld n tid cause
    let f := c.frmOf n
    let hs := f.held.filter fun h => h.cell.tid == tid
    let cs := f.copies.filter fun h => h.cell.tid == tid
    if hs.isEmpty && cs.isEmpty then c
    else
      let gone := cs.map fun k => (k.cwsn, k.slot)
      let c := c.setFrm n { f with held := f.held.filter fun h => h.cell.tid != tid, copies := f.copies.filter fun h => h.cell.tid != tid,
                                   replayQ := f.replayQ.filter fun k => !gone.contains k }
      let c := hs.foldl (fun c h => c.dropCell n h.cell false cause) c
      cs.foldl (fun c h => c.dropCell n h.cell false cause) c) c

/-- Ports that a role makes available (R14, Table 01.1). -/
def Chip.portOn (c : Chip) (p : Nat) : Bool :=
  match c.dev.role with
  | none => false
  | some .hub => true
  | some .dock => p != 9 && (p != 4 || !c.host.perst)
  | some .relay => p != 5 && p != 7 && p != 8 && p != 9 && (p != 4 || !c.host.perst)

/-! ### F4's receive side (R280, R287) -/

/-- Instance state letters of an F4 destination end: its VI (R283). -/
def Tun.f4Vi (t : Tun) : Nat := fld t.typeParams 0 1

/-- The receive ring bound to a tunnel. -/
def Chip.rxRing (c : Chip) (tid : Nat) : Option (Nat × DataRing) := c.host.rings.find? fun e => e.2.dir == 1 && e.2.tid == tid

/-- A SEQ gap stands before a cell of a receive ring (R280). -/
def DataRing.gapAt (r : DataRing) (x : Cell) : Bool := match r.nextSeq with | some n => n != x.seq | none => false

/-- A cell interrupts the message in progress (R280). -/
def DataRing.interrupts (r : DataRing) (x : Cell) : Bool := r.inMsg && (r.gapAt x || x.f)

/-- Bytes free for a cell in a receive ring's posted buffers: the buffer that an interrupted message ends in does not count. -/
def DataRing.room (r : DataRing) (x : Cell) : Nat :=
  if r.interrupts x && r.rxOpen then (r.descs.drop 1).foldl (fun a d => a + fld d.2 8 4) 0
  else r.descs.foldl (fun a d => a + fld d.2 8 4) 0 - r.used

/-- The egress port that a tunnel ending at F6 names (R325). -/
def Chip.ethDst (c : Chip) (tid : Nat) : Nat := fld (c.tunOf tid).typeParams 0 1 % 4
/-- The egress buffer of an Ethernet port has room for a cell (R325: 128 KiB). -/
def Chip.ethRoom (c : Chip) (n : Nat) : Bool :=
  decide (((c.eth.ports.get {} n).frames.foldl (fun a f => a + f.bytes.length) 0) + 56 ≤ 131072)

/-- F8 takes cells of a tunnel (R362, R375): its function is configured and not suspended, and its IN endpoint has room; DESIGN CHOICE: an
endpoint holds 16 KiB of complete transfers. -/
def Chip.usbRoom (c : Chip) (tid : Nat) : Bool :=
  let p := (c.tunOf tid).typeParams
  let n := fld p 0 1
  let v := c.usb.ports.get {} n
  let k := if v.cfg.kind = 4 then 16 * n + 5 + 2 * fld p 1 1 else if v.cfg.kind = 1 then 16 * n + 12 else 16 * n + 10
  let held : Nat := (c.usb.inq.get [] k).foldl (fun a i => a + (match i with | .xfer d _ _ => d.length | .halt => 0)) 0
  v.conn && v.configured && !c.usb.suspended && (decide (held < 16384) || (v.cfg.kind == 1 && v.alt == 0))

/-- F4 can take a tunnel's head cell: a receive buffer is posted for it and its instance is ACTIVE; F7 takes no write cells after PWRFAIL_L
(R347); F9 takes a request only while a tag is free (R387); other ports always can. -/
def Chip.takeable (c : Chip) (p tid : Nat) : Bool :=
  if p = 6 then c.ethRoom (c.ethDst tid)
  else if p = 8 then c.usbRoom tid
  else if p = 9 then
    (match c.queue 9 tid with
     | x :: _ => !x.cell.f || fld (c.tunOf tid).typeParams 0 1 != 0 || decide (c.leg.q.length + c.leg.asm.length < 64)
     | [] => false)
  else if p = 4 && (c.tunOf tid).ty = 5 && !(c.tids fun _ t => t.state.live && t.index == 0 && t.inPort == 4 && t.ty == 5 && t.partner == tid).isEmpty then
    (c.inst (c.tunOf tid).f4Vi).state == .active && c.dmaOk (c.tunOf tid).f4Vi
  else if p = 7 then
    !c.crock.halted || (match c.queue 7 tid with | x :: _ => x.cell.f && x.cell.l && fld x.cell.payload 0 1 != 2 | [] => false)
  else p != 4 || tid < 2 || (match c.queue 4 tid, c.rxRing tid with
    | x :: _, some (_, r) => !r.stopped && (c.inst r.vi).state == .active && c.dmaOk r.vi && decide (r.room x.cell ≥ Nat.max 1 x.cell.len)
    | _, _ => false)

/-! ### Shapers (R236, R237) -/

/-- Bring a shaper up to date at a decision: a waiting write takes effect, then tokens accrue up to BURST. -/
def Shaper.refresh (s : Shaper) (now : Nat) : Shaper :=
  let s := match s.write with
    | some (on, rate, burst, full) =>
      { s with on, rate, burst, tokens := if full then burst * 65536 else 0, frac := 0, at' := now, write := none }
    | none => s
  if !s.on then { s with at' := now }
  else
    let num := s.rate * 125 * 65536 * (now - s.at') + s.frac
    let tk := s.tokens + num / 10 ^ 12
    if tk ≥ s.burst * 65536 then { s with tokens := s.burst * 65536, frac := 0, at' := now }
    else { s with tokens := tk, frac := num % 10 ^ 12, at' := now }

/-- The shaper conforms for `acc` bytes. -/
def Shaper.conforms (s : Shaper) (acc : Nat) : Bool := !s.on || decide (s.tokens ≥ acc * 65536)

/-- Sending `acc` bytes removes tokens. -/
def Shaper.take (s : Shaper) (acc : Nat) : Shaper := if s.on then { s with tokens := s.tokens - acc * 65536 } else s

/-! ### The freewheel queues (R231 to R235) -/

/-- The freewheel queues at an output: TID 0 and 1, class B, and demoted contracted queues away from trunks (R231). -/
def Chip.isFwQueue (c : Chip) (p tid : Nat) : Bool :=
  tid < 2 || !c.contracted tid || (decide (p ≥ 4) && (match c.queue p tid with | x :: _ => x.demoted | [] => false))

/-- Freewheel cells queued at an output. -/
def Chip.portDepth (c : Chip) (p : Nat) : Nat :=
  c.fab.q.foldl (fun a e => if e.1 / 1024 = p && c.isFwQueue p (e.1 % 1024) then a + e.2.length else a) 0

/-- Table 09.1: the credit group of a fabric output. -/
def groupOfPort (p : Nat) : Nat := if p < 4 then 0 else if p ≤ 5 then 1 else if p = 6 || p = 8 then 2 else 3

/-- Accounted length of a cell at an output (R234). -/
def OutPort.acc (o : OutPort) (x : Cell) : Nat := ((x.len : Int) + (if x.f then o.overhead else 0)).toNat

/-- A queue's weight: 65,535 for TID 0 and 1, DEMOTE_WEIGHT for a contracted queue (R231). -/
def Chip.fwWeight (c : Chip) (p tid : Nat) : Nat :=
  if tid < 2 then 65535 else if c.contracted tid then (c.port p).demoteWeight else (c.fwOf p tid).weight

/-- The credit group of a tunnel at a trunk output: by the next device's output on its route (R241). -/
def Tun.group (t : Tun) : Nat := groupOfPort (nth 0xFF t.route (t.index + 1))

/-- A credit is available for a group on a trunk (R243). -/
def Framing.credit (f : Framing) (g : Nat) : Bool :=
  let d := (f.grantRx.get 0 g + 2 ^ 32 - f.sentFw.get 0 g) % 2 ^ 32
  decide (1 ≤ d) && decide (d < 2 ^ 31)

/-- QSTATE of a queue (Table 09.6), its shapers being up to date: 0 empty, 1 eligible, 2 shaped, 3 credit-blocked (at F4: no receive buffer posted, DESIGN CHOICE), 4 SF wait, 5 demoted
head at a trunk output (R232, R233). -/
def Chip.qstate (c : Chip) (p tid : Nat) : Nat :=
  match c.queue p tid with
  | [] => 0
  | x :: r =>
    let o := c.port p
    let acc := o.acc x.cell
    let mine := c.contracted tid || (c.fwOf p tid).shaper.conforms acc
    if p < 4 && x.demoted then 5
    else if x.sf && !((x :: r).any fun y => y.cell.l) then 4
    else if tid ≥ 2 && !(mine && o.shaper.conforms acc) then 2
    else if p < 4 && tid ≥ 2 && x.cell.ctype != 6 && !(c.frmOf p).credit (c.tunOf tid).group then 3
    else if !c.takeable p tid then 3
    else 1

/-- The later of two tags (R235). -/
def tagMax (a b : Nat) : Nat := if seqBefore 64 a b then b else a

/-- The TIDs of the freewheel queues at an output that hold cells, rising. -/
def Chip.fwTids (c : Chip) (p : Nat) : List Nat :=
  (c.fab.q.filter fun e => e.1 / 1024 == p && c.isFwQueue p (e.1 % 1024)).map fun e => e.1 % 1024

/-- The finish tag after start tag `s` for the head cell (R235). -/
def Chip.finish (c : Chip) (p tid s : Nat) : Nat :=
  let acc := match c.queue p tid with | x :: _ => (c.port p).acc x.cell | [] => 0
  let w := Nat.max 1 (c.fwWeight p tid)
  (s + (acc * 65536 + w - 1) / w) % 2 ^ 64

/-- Note whether a queue is eligible; when it becomes so it wakes at the current V (R235). -/
def Chip.fwWakeOne (c : Chip) (p tid : Nat) : Chip :=
  let f := c.fwOf p tid
  if c.qstate p tid = 1 then
    if f.eligible then c
    else
      let s := tagMax (c.port p).v f.fLast
      c.setFw p tid { f with eligible := true, s, f := c.finish p tid s }
  else if f.eligible then c.setFw p tid { f with eligible := false } else c

/-- Note which queues of an output are eligible (R235). -/
def Chip.fwWake (c : Chip) (p : Nat) : Chip := (c.fwTids p).foldl (fun c tid => c.fwWakeOne p tid) c

/-! ### Linking (R159, R160, R213, R214, R224, R225) -/

/-- The store-and-forward setting of a tunnel's class at an output. -/
def Chip.sfClass (c : Chip) (p tid : Nat) : Bool := tid ≥ 2 && bitOf (c.port p).fwd (c.served tid)

/-- The cells at the end of a queue that belong to a message whose L cell has not been linked. -/
def openMsg (q : List QCell) : List QCell := (q.reverse.takeWhile fun x => !x.cell.l).reverse

/-- The depth marks of a freewheel queue and of its output (R245). -/
def Chip.noteDepth (c : Chip) (p tid : Nat) : Chip :=
  if c.isFwQueue p tid then
    let f := c.fwOf p tid
    let c := c.setFw p tid { f with depthHwm := Nat.max f.depthHwm (c.queue p tid).length }
    let o := c.port p
    c.setPort p { o with depthHwm := Nat.max o.depthHwm (c.portDepth p) }
  else c

/-- Append a cell to its queue, with its capture and high-water marks; a freewheel queue that it makes eligible wakes (R235, R245, R246). -/
def Chip.enqueue (c : Chip) (p : Nat) (x : QCell) : Chip :=
  let tid := x.cell.tid
  let old := c.queue p tid
  let tail := openMsg old
  let sf := match tail with | y :: _ => y.sf | [] => c.sfClass p tid
  let c := (c.setQueue p tid (old ++ [{ x with linkAt := c.clk.powerPs, sf }])).notePeak
  let c := (c.capture 0 p x.cell x.demoted).noteDepth p tid
  if c.isFwQueue p tid then c.fwWakeOne p tid else c

/-- Discard the unfinished store-and-forward message at the end of a queue, once counted; `skip` until the next F cell (R225). -/
def Chip.sfDiscard (c : Chip) (p tid : Nat) : Chip :=
  let q := c.queue p tid
  let tail := openMsg q
  let c := tail.foldl (fun c x => c.dropCell p x.cell x.demoted) c
  let c := c.setQueue p tid (q.take (q.length - tail.length))
  let c := c.setPot fun s => { s with sfIncomplete := sat32 s.sfIncomplete 1 }
  c.setFw p tid { c.fwOf p tid with sfSkip := true }

/-- Link a cell under store-and-forward: a gap, a missing start, a message that ends early or is too long is discarded whole (R225). -/
def Chip.sfLink (c : Chip) (p : Nat) (x : QCell) (gap : Bool) : Chip :=
  let tid := x.cell.tid
  let tail := openMsg (c.queue p tid)
  let c := if !tail.isEmpty && (gap || x.cell.f) then c.sfDiscard p tid else c
  let f := c.fwOf p tid
  let tail := openMsg (c.queue p tid)
  if x.cell.f then (c.setFw p tid { f with sfSkip := false }).enqueue p x
  else if f.sfSkip then c.dropCell p x.cell x.demoted
  else if tail.isEmpty then
    let c := c.setPot fun s => { s with sfIncomplete := sat32 s.sfIncomplete 1 }
    (c.setFw p tid { f with sfSkip := true }).dropCell p x.cell x.demoted
  else if tail.length ≥ 2048 then (c.sfDiscard p tid).dropCell p x.cell x.demoted
  else c.enqueue p x

/-- Put a cell into its queue: the expected SEQ at OUT_PORT and gaps are kept, at device 0 too, where a policed or refused cell has used its
SEQ (R221, R225, R240); at the destination a cell behind it is dropped (R228). -/
def Chip.linkQueue (c : Chip) (p : Nat) (x : QCell) : Chip :=
  let tid := x.cell.tid
  if tid < 2 then c.enqueue p x
  else
    let t := c.tunOf tid
    let want := if t.index = 0 then t.linkNext else t.nextSeq
    let gap := want != x.cell.seq
    let behind := t.index > 0 && gap && seqBefore 16 x.cell.seq want
    if behind && p ≥ 4 then
      let c := if t.inPort < 4 then c.countFrm t.inPort 10 1 else c
      c.dropCell p x.cell x.demoted
    else
      let next := if behind then want else (x.cell.seq + 1) % 65536
      let gaps := if gap then sat32 t.gaps 1 else t.gaps
      let c := c.setTun tid (if t.index = 0 then { t with linkNext := next, gaps } else { t with nextSeq := next, gaps })
      let sf := match openMsg (c.queue p tid) with | y :: _ => y.sf | [] => c.sfClass p tid
      if sf then c.sfLink p x gap else c.enqueue p x

/-- A cell for a receive tunnel of an instance that is not ACTIVE, beyond the tunnel's RESERVE or its guarantee (R287). -/
def Chip.quiescedDrop (c : Chip) (p tid : Nat) : Bool :=
  let t := c.tunOf tid
  let lim := if c.contracted tid then (match c.certRec tid with | some r => r.reserve | none => 0) else t.guarantee
  p = 4 && t.index = t.hops && (c.inst (fld t.typeParams 0 1)).state != .active && decide ((c.queue 4 tid).length ≥ lim)

/-- HOST_QUIESCED is counted. -/
def Chip.countQuiesced (c : Chip) (vi : Nat) : Chip :=
  let i := c.inst vi
  c.setInst vi { i with quiesceDiscards := sat32 i.quiesceDiscards 1 }

/-- The budget of an output for the fabric spoke is not spent (R159). -/
def Chip.budgetLeft (c : Chip) (p : Nat) : Bool :=
  decide ((c.port p).spent < (match c.activeGear with | none => 0 | some g => nth 0 g.budget p))

/-- A contracted cell at an output whose budget is spent is counted, and suspends the promise (R160). -/
def Chip.beyondBudget (c : Chip) (p tid : Nat) : Chip := (c.countPort p 6 1).suspend tid 0x03F0 p

/-- A contracted cell finds no stockpot space (R160, R221): beyond the budget or within it, it is counted and dropped. -/
def Chip.contractedFull (c : Chip) (p : Nat) (x : Cell) : Chip :=
  if c.budgetLeft p then (c.countPort p 7 1).dropCell p x else ((c.beyondBudget p x.tid).countPort p 7 1).dropCell p x false 0x03F0

/-- Link a contracted cell that was not demoted: within the budget into its reservation, else shared space; beyond the budget into shared
space, with the promise suspended (R159, R160, R221). A cell of the link backlog, `held`, has its space already. -/
def Chip.linkContracted (c : Chip) (p : Nat) (x : QCell) (held : Bool) : Chip :=
  let mine := if held then some x.pool else none
  if c.budgetLeft p then
    match (c.contractedPool x.cell.tid).or mine with
    | none => c.contractedFull p x.cell
    | some pool =>
      let o := c.port p
      let c := c.setPort p { o with spent := o.spent + 1 }
      (if p ≥ 4 then c.countPort p 0 1 else c).linkQueue p { x with pool }
  else if c.sharedFree || mine == some .shared then (c.beyondBudget p x.cell.tid).linkQueue p { x with pool := .shared }
  else c.contractedFull p x.cell

/-- Link a cell at an output in one link slot: discards at a trunk that is down or carries no teeth for it, then the budget of R159 and
R160. A cell of the link backlog, `held`, is stored already: a class B one takes its guarantee or stays in the cell kept for its credit. -/
def Chip.linkCell (c : Chip) (p : Nat) (x : QCell) (held : Bool := false) : Chip :=
  let tid := x.cell.tid
  let t := c.tunOf tid
  if tid < 2 then c.linkQueue p x
  else if !t.state.live then c.dropCell p x.cell x.demoted
  else if p < 4 && !c.inData p then c.dropCell p x.cell x.demoted 0x0212
  else if c.uncarried tid then c.dropCell p x.cell x.demoted 0x03F1
  else if c.quiescedDrop p tid then c.countQuiesced (fld t.typeParams 0 1) |>.dropCell p x.cell x.demoted 0x0613
  else if c.contracted tid && !x.demoted then c.linkContracted p x held
  else c.linkQueue p (if held then { x with pool := c.creditedPool tid } else x)

/-- The backlog of an output from a trunk input (R214). -/
def Chip.backlogOf (c : Chip) (p i : Nat) : List QCell := c.fab.backlog.get [] (16 * p + i)
/-- Change a backlog; an empty one is not listed. -/
def Chip.setBacklog (c : Chip) (p i : Nat) (l : List QCell) : Chip :=
  { c with fab := { c.fab with backlog := if l.isEmpty then c.fab.backlog.erase (16 * p + i) else c.fab.backlog.set (16 * p + i) l } }

/-- Trunk cells wait for a link slot of an output (R214). -/
def Chip.backlogged (c : Chip) (p : Nat) : Bool := (List.range 4).any fun i => !(c.backlogOf p i).isEmpty

/-- One link slot of an output for the trunk inputs: a contracted cell within budget first, else round robin across them (R214). Nothing is
linked where cells are not forwarded (R71). -/
def Chip.linkSlot (c : Chip) (p : Nat) : Chip :=
  let o := c.port p
  let order := (List.range 4).map fun i => (o.rrTrunk + 1 + i) % 4
  let within := fun i => match c.backlogOf p i with
    | x :: _ => c.contracted x.cell.tid && !x.demoted && c.budgetLeft p
    | [] => false
  let some_ := fun i => !(c.backlogOf p i).isEmpty
  match (if !c.forwards then none else match order.find? within with | some i => some i | none => order.find? some_) with
  | none => c
  | some i =>
    match c.backlogOf p i with
    | [] => c
    | x :: r =>
      let c := if within i then c else c.setPort p { o with rrTrunk := i }
      (c.setBacklog p i r).linkCell p x true

/-- A trunk cell that passed framing's checks enters the fabric (R200, R214, R219): TID 0, TID 1 and FLOW cells are consumed at F10; any
other is written and waits in its output's link backlog, in shared space (Table 08.7), or for want of it in its reservation. -/
def Chip.fabricIn (c : Chip) (n : Nat) (x : Cell) : Chip :=
  if x.tid < 2 then
    match c.systemPool with
    | none => (c.setPot fun s => { s with systemDrops := sat32 s.systemDrops 1 }).capture 2 10 x
    | some pool => c.enqueue 10 { cell := x, pool, credit := some (n, 4) }
  else if x.ctype = 6 then { c with fab := { c.fab with f10 := c.fab.f10 ++ [(n, x)] } }
  else
    let t := c.tunOf x.tid
    let p := t.outPort
    if c.contracted x.tid then
      match (if c.sharedFree then some Pool.shared else c.contractedPool x.tid) with
      | none => c.contractedFull p x
      | some pool => (c.setBacklog p n (c.backlogOf p n ++ [{ cell := x, pool }])).notePeak
    else
      let q : QCell := { cell := x, pool := .shared, credit := some (n, groupOfPort p) }
      (c.setBacklog p n (c.backlogOf p n ++ [q])).notePeak

/-! ### Cells from firmware (R200, R203, R219, R265) -/

/-- Queue waiting control and TIME cells of a trunk while there is space for them. -/
def Chip.drainCtl (c : Chip) (n : Nat) : List Cell → Chip
  | [] => { c with fab := { c.fab with ctlWait := c.fab.ctlWait.erase n } }
  | x :: r =>
    match c.systemPool with
    | none => { c with fab := { c.fab with ctlWait := c.fab.ctlWait.set n (x :: r) } }
    | some pool => (c.enqueue n { cell := x, pool }).drainCtl n r

/-- The firmware cells of every trunk that wait for space take what has come free (R219). -/
def Chip.drainWaiting (c : Chip) : Chip := c.fab.ctlWait.foldl (fun c e => c.drainCtl e.1 e.2) c

/-- Firmware sends a cell on a trunk: TID 0 and TID 1 cells take the next SEQ of their direction. -/
def Chip.sendFw (c : Chip) (n : Nat) (x : Cell) : Chip :=
  if !c.inData n then c
  else
    let f := c.frmOf n
    let (c, x) :=
      if x.tid = 0 then (c.setFrm n { f with ctlTx := (f.ctlTx + 1) % 65536 }, { x with seq := f.ctlTx })
      else if x.tid = 1 then (c.setFrm n { f with timeTx := (f.timeTx + 1) % 65536 }, { x with seq := f.timeTx })
      else (c, x)
    c.drainCtl n (c.fab.ctlWait.get [] n ++ [x])

/-- A control cell (R204). -/
def ctlCell (tid ctype : Nat) (payload : Bytes) : Cell :=
  { tid, ctype, f := true, l := true, len := 56, payload := sliceB payload 0 56 }

/-! ### Endpoints' cells at their sources -/

/-- Put a cell at the end of an endpoint's source. -/
def Chip.pushSrc (c : Chip) (p : Nat) (x : Cell) : Chip :=
  { c with fab := { c.fab with src := c.fab.src.set p (c.fab.src.get [] p ++ [x]) } }

/-- A message of bytes as cells of a tunnel: the first has F, the last L. -/
def msgCells (tid aux xtag : Nat) (p : Bool) (b : Bytes) : List Cell :=
  let ps := pieces 56 ((b.length + 55) / 56) b
  ps.zipIdx.map fun e =>
    { tid, f := e.2 == 0, l := e.2 + 1 == ps.length, p, len := e.1.length, aux, xtag, payload := sliceB e.1 0 56 }

end Sys2Proof.Machine
end

