-- ==== Sys2Proof/Machine/CrockOps.lean ====
section
/-!
DEFINITION. Chapter 14: the media, the erase blocks, staging, and the BLOCK protocol at F7.
-/
namespace Sys2Proof.Machine

/-! ### Accessors -/

/-- Change the Crock. -/
def Chip.setCrock (c : Chip) (f : Crock → Crock) : Chip := { c with crock := f c.crock }
/-- What the NAND holds. -/
def Chip.nand (c : Chip) : Nand := c.csys.nand
/-- Change what the NAND holds. -/
def Chip.setNand (c : Chip) (f : Nand → Nand) : Chip := { c with csys := { c.csys with nand := f c.csys.nand } }
/-- The format in force. -/
def Chip.fmt (c : Chip) : CrockFormat := c.nand.fmt.getD {}
/-- Change the format's record. -/
def Chip.setFmt (c : Chip) (f : CrockFormat → CrockFormat) : Chip := c.setNand fun n => { n with fmt := n.fmt.map f }
/-- Key of a logical block. -/
def blkKey (vol lba : Nat) : Nat := vol * 2 ^ 48 + lba
/-- POWERED_S. -/
def Chip.poweredS (c : Chip) : Nat := c.life.counters.get 0 0
/-- A volume that exists. -/
def Chip.vol? (c : Chip) (v : Nat) : Option Volume := (c.nand.vols.find v).bind fun x => if x.deleting.isSome then none else some x
/-- Change a volume. -/
def Chip.setVol (c : Chip) (v : Nat) (x : Volume) : Chip := c.setNand fun n => { n with vols := n.vols.set v x }

/-! ### Media (R329, R334, R337) -/

/-- Erase blocks in all. -/
def Chip.ebTotal (c : Chip) : Nat := match c.crock.media with | none => 0 | some m => c.crock.lunCount * m.blocksPerLun
/-- Codewords of 4 KiB that an erase block holds: a TLC block in SLC mode holds a third of its pages (DESIGN CHOICE). -/
def onfiUnits (m : OnfiPage) (slc : Bool) : Nat := (if slc && m.tlc then m.pagesPerBlock / 3 else m.pagesPerBlock) * m.pageBytes / 4096
/-- Codewords of a data-area erase block. -/
def Chip.ebUnits (c : Chip) : Nat := match c.crock.media with | none => 0 | some m => onfiUnits m c.fmt.slc
/-- An erase block. -/
def Chip.ebOf (c : Chip) (e : Nat) : EBlock := c.nand.eb.get {} e
/-- Change an erase block. -/
def Chip.setEb (c : Chip) (e : Nat) (f : EBlock → EBlock) : Chip := c.setNand fun n => { n with eb := n.eb.upd {} e f }
/-- An erase block of the data area that is in use. -/
def Chip.isData (c : Chip) (e : Nat) : Bool :=
  let f := c.fmt
  decide (f.sysTop ≤ e) && decide (e < c.ebTotal) && !f.bad.contains e && !c.nand.grown.contains e && !f.spare.contains e
/-- Logical blocks that an erase block holds: volume and LBA. -/
def Chip.unitsIn (c : Chip) (e : Nat) : List (Nat × Nat) :=
  (c.nand.map.filter fun x => x.2.eb == some e && !x.2.lost).map fun x => (x.1 / 2 ^ 48, x.1 % 2 ^ 48)
/-- HOLDUP_NEED_US. -/
def Chip.holdupNeed (c : Chip) : Nat := match c.crock.media with | none => 0 | some m => Config.holdupNeed c.crock.lunCount m.timing

/-- A NAND operation begins. -/
def Chip.nandOp (c : Chip) (k : NandFor) : Chip := c.setCrock fun x => { x with ops := x.ops.set x.nextOp k, nextOp := x.nextOp + 1 }
/-- A NAND operation of a kind is under way. -/
def Chip.nandBusy (c : Chip) (p : NandFor → Bool) : Bool := c.crock.ops.any fun e => p e.2

/-! ### Volumes -/

/-- An event that also goes to the volume's owner. -/
def Chip.postVol (c : Chip) (v code reason detail : Nat) : Chip := c.postVi ((c.nand.vols.get { owner := 0 } v).owner) code reason detail
/-- State codes of VOLUME_GET. -/
def VolState.code : VolState → Nat
  | .online => 0 | .census => 1 | .readOnly => 2 | .offline => 3
/-- A volume changes state (R344): VOLUME_STATE. -/
def Chip.volState (c : Chip) (v : Nat) (st : VolState) (reason : Nat) : Chip :=
  match c.nand.vols.find v with
  | none => c
  | some x => if x.state == st then c else
    (c.setVol v { x with state := st, reason }).postVol v 0x0801 reason (v + 256 * x.state.code + 65536 * st.code)

/-- Logical blocks are lost (R333): BLOCKS_LOST. -/
def Chip.postLost (c : Chip) (v n lba : Nat) : Chip := c.postVol v 0x0803 0 (v + 256 * Nat.min 255 n + 65536 * lba)
/-- A logical block is marked lost. -/
def Chip.markLost (c : Chip) (v lba : Nat) : Chip :=
  let b := c.nand.map.get {} (blkKey v lba)
  if b.lost then c
  else
    let c := (c.setNand fun n => { n with map := n.map.set (blkKey v lba) { b with lost := true, data := [] } }).bump 41 1
    if c.crock.state == .census then c.setCrock fun x => { x with census := { x.census with lostBlocks := sat32 x.census.lostBlocks 1 } } else c

/-! ### Erase blocks (R336 to R340) -/

/-- The free erase block with the fewest cycles (R338). -/
def Chip.freeEb (c : Chip) : Option Nat :=
  (List.range c.ebTotal).foldl (fun (b : Option Nat) e =>
    if !(c.isData e && (c.ebOf e).used = 0 && c.crock.openEb != some e && !c.nandBusy (· == .erase e)) then b
    else match b with
      | none => some e
      | some m => if (c.ebOf e).cycles < (c.ebOf m).cycles then some e else b) none

/-- An erase block without valid data that has been written is erased. -/
def Chip.reclaim (c : Chip) (e : Nat) : Chip :=
  let busy := c.nandBusy fun k => match k with | .erase x => x == e | .program _ x => x == e | .parity x => x == e | _ => false
  if c.isData e && decide ((c.ebOf e).used > 0) && c.crock.openEb != some e && !busy && (c.unitsIn e).isEmpty then c.nandOp (.erase e) else c

/-- The valid data of an erase block are read to be moved (R336, R339, R340). -/
def Chip.startMove (c : Chip) (e : Nat) : Chip :=
  let c := if c.crock.openEb == some e then c.setCrock fun x => { x with openEb := none } else c
  let c := (c.unitsIn e).foldl (fun c u => c.nandOp (.move u.1 u.2)) (c.setCrock fun x => { x with moving := some e })
  if (c.unitsIn e).isEmpty then (c.setCrock fun x => { x with moving := none }).reclaim e else c

/-- An erase block is retired as grown bad (R336, R337): a spare takes its place and its data are moved. -/
def Chip.retireEb (c : Chip) (e : Nat) : Chip :=
  let had := !c.fmt.spare.isEmpty
  let c := (c.setNand fun n => { n with grown := insertSorted e n.grown }).bump 40 1
  let c := c.setFmt fun f => { f with spare := f.spare.drop 1 }
  let f := c.fmt
  let c := if had && !f.lowPosted && decide (4 * f.spare.length ≤ f.spareFormat) then
      (c.setFmt fun f => { f with lowPosted := true }).post 0x0804 0 f.spare.length else c
  let c := if f.spare.isEmpty && c.crock.state != .census then
      (c.nand.vols.map Prod.fst).foldl (fun c v => match (c.nand.vols.get { owner := 0 } v).state with
        | .offline => c
        | _ => c.volState v .readOnly 0x0810) c
    else c
  c.startMove e

/-! ### Staging and programs (R345, R348) -/

/-- Program the staged blocks that can be: one at a time per request tunnel, so that blocks commit in index order. -/
def Chip.crockPump (c : Chip) : Nat → Chip
  | 0 => c
  | fuel + 1 =>
    let busyTid := fun (t : Option (Nat × Nat)) => match t with
      | none => false
      | some (i, _) => c.crock.staged.any fun s => s.running && (match s.by' with | some (j, _) => j == i | none => false)
    match c.crock.staged.find? fun s => !s.running && !busyTid s.by' with
    | none => c
    | some s =>
      match c.crock.openEb with
      | some e =>
        if c.isData e && decide ((c.ebOf e).used < c.ebUnits) then
          let now := c.poweredS
          let c := c.setEb e fun b => { b with used := b.used + 1, at' := if b.used = 0 then now else b.at' }
          let c := (c.nandOp (.program s.id e)).setCrock fun x =>
            { x with staged := x.staged.map (fun y => if y.id = s.id then { y with running := true } else y), stripe := x.stripe + 1 }
          let c := if c.crock.stripe ≥ 15 then
              ((c.setEb e fun b => { b with used := b.used + 1 }).nandOp (.parity e)).setCrock fun x => { x with stripe := 0 } else c
          c.crockPump fuel
        else (c.setCrock fun x => { x with openEb := none }).crockPump fuel
      | none =>
        match c.freeEb with
        | none => c
        | some e =>
          if c.crock.state == .census && !c.crock.erased.contains e then
            if c.nandBusy fun k => match k with | .erase _ => true | _ => false then c else c.nandOp (.erase e)
          else (c.setCrock fun x => { x with openEb := some e }).crockPump fuel

/-- Start what can be programmed; nothing more while PWRFAIL_L holds (R347). -/
def Chip.crockGo (c : Chip) : Chip := if c.crock.halted then c else c.crockPump (3 * c.crock.staged.length + 3)

/-- A block enters staging. -/
def Chip.stageBlock (c : Chip) (vol lba : Nat) (data : Bytes) (from_ : Option (Nat × Nat)) : Chip :=
  let id := c.nand.seq
  let c := (c.setNand fun n => { n with seq := n.seq + 1 }).setCrock fun x => { x with staged := x.staged ++ [{ id, vol, lba, data, by' := from_ }] }
  c.crockGo

/-- The newest staged content of a block, if any. -/
def Chip.stagedOf (c : Chip) (vol lba : Nat) : Option Staged :=
  (c.crock.staged.filter fun s => s.vol == vol && s.lba == lba).getLast?

/-- A staged block is committed (R348, R351): it replaces the whole previous content and takes the next write sequence, so that the write
committed later holds. A block that is moved keeps its sequence, and is dropped where it has been written, trimmed or lost since. -/
def Chip.commitBlock (c : Chip) (s : Staged) (e : Option Nat) : Chip :=
  let k := blkKey s.vol s.lba
  let now := c.poweredS
  if s.by'.isNone then
    match c.nand.map.find k with
    | some b => if b.lost || b.seq != s.id then c else c.setNand fun n => { n with map := n.map.set k { b with eb := e, at' := now } }
    | none => c
  else (c.setNand fun n => { n with map := n.map.set k { eb := e, data := s.data, seq := n.seq, at' := now }, seq := n.seq + 1 }).bump 39 1

/-! ### FLOW (R207, R349) -/

/-- FLOW goes upstream from the destination (Table 08.5); on a path of one device the source sees it at once. -/
def Chip.sendFlow (c : Chip) (tid credit : Nat) : Chip :=
  let t := c.tunOf tid
  let c := c.setTun tid { t with creditSent := credit, creditSeq := if t.index = 0 then some credit else t.creditSeq }
  if t.index = 0 then c else c.sendFw t.inPort (ctlCell tid 6 (be 2 credit))

/-- FLOW follows once half the WINDOW can be granted anew, or `all` when nothing is held back. -/
def Chip.flowUpdate (c : Chip) (tid credit : Nat) (all : Bool) : Chip :=
  let t := c.tunOf tid
  let more := (credit + 65536 - t.creditSent) % 65536
  if bitOf t.oflags 2 && decide (more < 32768) && decide (more > 0) && (all || decide (2 * more ≥ t.window)) then c.sendFlow tid credit else c

/-! ### The BLOCK protocol (R349 to R351) -/

/-- A request tunnel's end. -/
def Chip.blkOf (c : Chip) (tid : Nat) : Option BlkTunnel := c.crock.tun.find tid
/-- Change a request tunnel's end. -/
def Chip.setBlk (c : Chip) (tid : Nat) (t : BlkTunnel) : Chip := c.setCrock fun x => { x with tun := x.tun.set tid t }
/-- Blocks of a tunnel that are in staging. -/
def Chip.blkStaged (c : Chip) (tid : Nat) : Nat :=
  (c.crock.staged.filter fun s => match s.by' with | some (t, _) => t == tid | none => false).length
/-- Credit of a request tunnel: its window beyond the cells taken, less the blocks that still occupy staging. -/
def Chip.blkCredit (c : Chip) (tid : Nat) : Chip :=
  match c.blkOf tid with
  | none => c
  | some t =>
    let n := c.blkStaged tid
    let w := (c.tunOf tid).window
    c.flowUpdate tid ((t.taken + (w - 74 * n)) % 65536) (n = 0 && t.reqs.isEmpty)

/-- Send cells on the response tunnel. -/
def Chip.blkSend (c : Chip) (tid : Nat) (l : List Cell) : Chip :=
  let p := (c.tunOf tid).partner
  if (c.tunOf p).state == .open then l.foldl (fun c x => c.pushSrc 7 x) c else c
/-- Send a response (Table 14.2). -/
def Chip.blkRespond (c : Chip) (tid tag st reason done failLba : Nat) : Chip :=
  c.blkSend tid [{ tid := (c.tunOf tid).partner, f := true, l := true, len := 56, aux := 0xFF, xtag := tag,
                   payload := sliceB (be 2 st ++ be 2 reason ++ be 2 done ++ be 6 failLba) 0 56 }]
/-- Send a logical block of data as its 74 cells (R350); a lost one is poisoned. -/
def Chip.blkData (c : Chip) (tid tag idx : Nat) (data : Bytes) (lost : Bool) : Chip :=
  c.blkSend tid (msgCells (c.tunOf tid).partner idx tag lost (if lost then zeros 4096 else sliceB data 0 4096))

/-- Response data of a READ block: the request goes on. -/
def BlkReq.sent (r : BlkReq) (lost : Bool) : BlkReq :=
  { r with next := r.next + 1, lostAt := if lost && r.lostAt.isNone then some (r.lba + r.next) else r.lostAt }

/-- A staged block's write has been answered already, as tunnel `tid`, serving a later request, sees it: its own blocks, and those of a tunnel
whose WRITE is no longer outstanding. -/
def Crock.answered (k : Crock) (tid : Nat) (s : Staged) : Bool :=
  match s.by' with
  | none => false
  | some (j, tag) => j == tid || !(match k.tun.find j with | some t => t.reqs.any fun r => r.tag == tag && r.op == 2 | none => false)

/-- Serve the requests of a tunnel in order of arrival, as far as they can go now. -/
def Chip.blkServe (c : Chip) (tid : Nat) : Nat → Chip
  | 0 => c
  | fuel + 1 =>
    match c.blkOf tid with
    | none => c
    | some t =>
      match t.reqs with
      | [] => c
      | r :: rest =>
        let pop := fun (c : Chip) => c.setBlk tid { t with reqs := rest }
        if r.op = 1 then
          if r.next ≥ r.count then
            let c := pop c
            (match r.lostAt with
              | none => c.blkRespond tid r.tag stOk 0 r.count 0
              | some l => c.blkRespond tid r.tag stMedia 0x0813 r.count l).blkServe tid fuel
          else if c.nandBusy fun k => match k with | .request i _ _ _ => i == tid | _ => false then c
          else
            let lba := r.lba + r.next
            let b := c.nand.map.get {} (blkKey t.vol lba)
            match c.stagedOf t.vol lba with
            | some s => ((c.blkData tid r.tag r.next s.data false).setBlk tid { t with reqs := r.sent false :: rest }).blkServe tid fuel
            | none =>
              if b.lost then ((c.blkData tid r.tag r.next [] true).setBlk tid { t with reqs := r.sent true :: rest }).blkServe tid fuel
              else if (c.nand.map.find (blkKey t.vol lba)).isNone then
                ((c.blkData tid r.tag r.next [] false).setBlk tid { t with reqs := r.sent false :: rest }).blkServe tid fuel
              else c.nandOp (.request tid r.tag t.vol lba)
        else if r.op = 2 then
          let back := (match c.vol? t.vol with | some v => v.back && !v.unback | none => false) && !r.fua
          let settled := back || r.done ≥ r.next
          match r.fail with
          | some (st, rs) => if settled then ((pop c).blkRespond tid r.tag st rs r.next (r.lba + r.next)).blkServe tid fuel else c
          | none => if r.next ≥ r.count && settled then ((pop c).blkRespond tid r.tag stOk 0 r.count 0).blkServe tid fuel else c
        else if r.op = 3 then
          if c.crock.staged.any fun s => s.vol == t.vol && decide (s.id < r.mark) && s.by'.isSome then c
          else ((pop c).blkRespond tid r.tag stOk 0 0 0).blkServe tid fuel
        else
          let c := (List.range r.count).foldl (fun c i =>
            let k := blkKey t.vol (r.lba + i)
            let e := (c.nand.map.get {} k).eb
            let c := (c.setNand fun n => { n with map := n.map.erase k }).setCrock fun x =>
              { x with staged := x.staged.filter fun s => !(s.vol == t.vol && s.lba == r.lba + i && x.answered tid s) }
            match e with | some e => c.reclaim e | none => c) c
          ((pop c).blkRespond tid r.tag stOk 0 r.count 0).blkServe tid fuel

/-- Serve a tunnel. -/
def Chip.blkGo (c : Chip) (tid : Nat) : Chip := (c.blkServe tid 4300).blkCredit tid

/-- The failure of a WRITE (R351): the blocks before it stay committed, the rest of its data messages are discarded and counted. -/
def Chip.blkFail (c : Chip) (tid : Nat) (overrun : Bool) (left : Nat) : Chip :=
  match c.blkOf tid with
  | none => c
  | some t =>
    match t.rx with
    | none => c
    | some (tag, _, _) =>
      let st := c.freshNat % 65536
      let c := c.nextFresh
      let f := if overrun then (st, 0x0815) else (st, 0)
      let reqs := t.reqs.map fun r => if r.tag = tag && r.op = 2 && r.fail.isNone then { r with fail := some f } else r
      c.setBlk tid { t with reqs, rx := if left = 0 then none else some (tag, left, true), buf := [] }

/-- A data message was discarded. -/
def Chip.blkDiscard (c : Chip) (vol : Nat) : Chip :=
  match c.nand.vols.find vol with
  | none => c
  | some v => c.setVol vol { v with discarded := sat32 v.discarded 1 }

/-- The refusal of a request, if any (Table 14.3). -/
def Chip.blkRefusal (c : Chip) (t : BlkTunnel) (ver tag op qf count lba : Nat) : Option (Nat × Nat) :=
  match c.vol? t.vol with
  | none => some (stState, 0x080F)
  | some v =>
    if op = 0 || op > 4 || (op = 4 && ver < 2) || qf > 1 || (qf = 1 && ver < 3) then some (stParam, 0x080D)
    else if (if op = 3 then count != 0 else count = 0 || decide (count > 64) || decide (lba + count > v.blocks)) then some (stParam, 0x0816)
    else if t.reqs.any (fun r => r.tag == tag) then some (stParam, 0x080C)
    else if t.reqs.length ≥ 64 then some (stBusy, 0)
    else if (op = 2 || op = 4) && (!t.rw || v.state == .readOnly) then some (stState, 0x080E)
    else if v.state == .offline then some (stState, 0x080F)
    else none

/-- A request message arrives (Table 14.1). -/
def Chip.blkRequest (c : Chip) (tid : Nat) (x : Cell) : Chip :=
  match c.blkOf tid with
  | none => c
  | some t =>
    let op := fld x.payload 0 1
    let qf := fld x.payload 1 1
    let count := beNat (sliceB x.payload 2 2)
    let lba := beNat (sliceB x.payload 4 6)
    let ver := (c.tunOf tid).version
    let expect := fun (disc : Bool) => if op = 2 && count > 0 then some (x.xtag, count, disc) else none
    match c.blkRefusal t ver x.xtag op qf count lba with
    | some (st, rs) => (c.setBlk tid { t with rx := expect true, buf := [] }).blkRespond tid x.xtag st rs 0 0
    | none =>
      let r : BlkReq := { tag := x.xtag, op, fua := bitOf qf 0, count, lba, mark := c.nand.seq }
      c.setBlk tid { t with reqs := t.reqs ++ [r], rx := expect false, buf := [] }

/-- A cell of a WRITE's data message (R351). -/
def Chip.blkCell (c : Chip) (tid : Nat) (x : Cell) (gap past : Bool) : Chip :=
  match c.blkOf tid with
  | none => c
  | some t =>
    match t.rx with
    | none => if x.l then c.blkDiscard t.vol else c
    | some (tag, left, disc) =>
      let left' := if x.l then left - 1 else left
      if disc then
        let c := if x.l then c.blkDiscard t.vol else c
        c.setBlk tid { t with rx := if left' = 0 then none else some (tag, left', true) }
      else
        match t.reqs.find? fun r => r.tag == tag && r.op == 2 with
        | none => c.setBlk tid { t with rx := none }
        | some r =>
          let tail := decide (t.buf.length = 4088)
          let good := !gap && !past && !x.p && x.xtag == tag && x.aux == r.next && (x.f == t.buf.isEmpty) && (x.l == tail) && x.len == (if tail then 8 else 56)
          if !good then (if x.l then c.blkDiscard t.vol else c).blkFail tid past left'
          else
            let buf := t.buf ++ sliceB x.payload 0 x.len
            if !x.l then c.setBlk tid { t with buf }
            else
              let reqs := t.reqs.map fun y => if y.tag = tag && y.op = 2 then { y with next := y.next + 1 } else y
              (c.setBlk tid { t with buf := [], reqs, rx := if left' = 0 then none else some (tag, left', false) }).stageBlock t.vol (r.lba + r.next) buf
                (some (tid, tag))

/-- F7 takes a cell of a request tunnel. DESIGN CHOICE (log entry 77): a request cell that is poisoned or not as R350 lays it out is discarded. -/
def Chip.blkRx (c : Chip) (q : QCell) : Chip :=
  let x := q.cell
  match c.blkOf x.tid with
  | none => c
  | some t =>
    let gap := match t.nextSeq with | some n => n != x.seq | none => false
    let past := bitOf (c.tunOf x.tid).oflags 2 && !seqBefore 16 x.seq (c.tunOf x.tid).creditSent
    let c := c.setBlk x.tid { t with nextSeq := some ((x.seq + 1) % 65536), taken := (x.seq + 1) % 65536 }
    let c := if past then match c.nand.vols.find t.vol with
        | some v => c.setVol t.vol { v with windowOverrun := sat32 v.windowOverrun 1 }
        | none => c
      else c
    let c :=
      if x.f && x.l then
        if past || x.p || x.len != 56 || x.aux != 0 then c
        else
          let c := match t.rx with | some (_, _, false) => c.blkFail x.tid false 0 | _ => c
          c.blkRequest x.tid x
      else c.blkCell x.tid x gap past
    c.blkGo x.tid

/-- Request tunnels attached to a volume, read-only and read-write. -/
def Chip.attached (c : Chip) (v : Nat) (rw : Bool) : Nat := (c.crock.tun.filter fun e => e.2.vol == v && e.2.rw == rw).length

/-- F7's answer to an OPEN of a request tunnel (R349). -/
def Chip.f7Answer (c : Chip) (params : Bytes) (partner oflags window hops owner : Nat) : Option (Nat × Nat) :=
  let v := fld params 0 1
  let acc := fld params 1 1
  let p := c.tunOf partner
  if acc > 1 || !bitOf oflags 2 || window < 75 || window > 4096 then some (stParam, 0)
  else if !bitOf oflags 3 || !(p.state == .open || p.state == .opening) || p.inPort != 7 || p.index != 0 then some (stNoResource, 0x0808)
  else match c.vol? v with
    | none => some (stNoResource, 0x0805)
    | some x =>
      if x.state == .offline || c.crock.state == .noMedia || c.crock.state == .unformatted || c.crock.state == .failed then some (stNoResource, 0x0805)
      else if (if hops = 0 then owner != 0 && owner != x.owner else !bitOf x.vflags 0) then some (stNoResource, 0x0809)
      else if acc = 1 && c.attached v true > 0 && !bitOf x.vflags 1 then some (stNoResource, 0x080A)
      else if (c.crock.tun.foldl (fun a e => a + e.2.reserve) 0) + (window + 73) / 74 > 1792 then some (stNoResource, 0x080B)
      else none

/-- A request tunnel is open at F7. -/
def Chip.blkOpen (c : Chip) (tid : Nat) : Chip :=
  let t := c.tunOf tid
  c.setBlk tid { vol := fld t.typeParams 0 1, rw := fld t.typeParams 1 1 == 1, reserve := (t.window + 73) / 74 }
/-- A request tunnel has gone: its staged blocks, which no request waits for any more, stay to be programmed. -/
def Chip.blkClose (c : Chip) (tid : Nat) : Chip :=
  c.setCrock fun x => { x with tun := x.tun.erase tid, staged := x.staged.map fun (s : Staged) =>
    match s.by' with | some (j, tag) => if j = tid then { s with by' := some (1024, tag) } else s | none => s }

/-! ### Flushes (R345, R346) -/

/-- Staged writes of a volume numbered below `mark` remain. -/
def Chip.unflushed (c : Chip) (v mark : Nat) : Bool := c.crock.staged.any fun s => s.vol == v && decide (s.id < mark) && s.by'.isSome

/-- Complete the flushes that are over, and the returns to WRITE_THROUGH (R346). -/
def Chip.flushCheck (c : Chip) : Chip :=
  let done := c.crock.flushes.filter fun f => !c.unflushed f.2.1 f.2.2
  let c := c.setCrock fun x => { x with flushes := x.flushes.filter fun f => !done.contains f }
  let c := done.foldl (fun c f => c.complete f.1 stOk 0 0) c
  (c.nand.vols.filter fun e => e.2.unback && !c.unflushed e.1 c.nand.seq).foldl (fun c e =>
    (c.setVol e.1 { e.2 with unback := false, back := false, reason := 0x0812 }).postVol e.1 0x0801 0x0812
      (e.1 + 256 * e.2.state.code + 65536 * e.2.state.code)) c

/-- Every tunnel looks at its requests again. -/
def Chip.blkAll (c : Chip) : Chip := (c.crock.tun.map Prod.fst).foldl Chip.blkGo c

/-- Blocks of the power-loss area have still to be moved to their place (R347). -/
def Chip.lossMoves (c : Chip) : Bool :=
  c.crock.staged.any fun s => s.by'.isNone && (match c.nand.map.find (blkKey s.vol s.lba) with | some b => b.eb.isNone && !b.lost | none => false)

/-- The next read of the census (R342), which begins once the power-loss area is empty (R347). -/
def Chip.censusNext (c : Chip) : Chip :=
  match c.crock.censusLeft with
  | [] => c
  | e :: _ =>
    if c.lossMoves || c.crock.halted || (c.nandBusy fun k => match k with | .census _ => true | _ => false) then c else c.nandOp (.census e)

/-- A staged block has been programmed: it is committed, and what waited for it goes on. -/
def Chip.programOk (c : Chip) (s : Staged) (e : Option Nat) : Chip :=
  let old := (c.nand.map.get {} (blkKey s.vol s.lba)).eb
  let c := (c.commitBlock s e).setCrock fun x => { x with staged := x.staged.filter fun y => y.id != s.id }
  let c := match s.by' with
    | none => c
    | some (tid, tag) =>
      match c.blkOf tid with
      | none => c
      | some t => c.setBlk tid { t with reqs := t.reqs.map fun (r : BlkReq) => if r.tag = tag && r.op = 2 then { r with done := r.done + 1 } else r }
  let c := match old with | some o => c.reclaim o | none => c
  ((c.flushCheck.blkAll).crockGo).censusNext

/-! ### Start, census and power loss (R329, R342 to R344, R347) -/

/-- The Crock changes CSTATE. -/
def Chip.crockState (c : Chip) (st : CrockState) (reason : Nat) : Chip := c.setCrock fun x => { x with state := st, reason }

/-- The fields of two parameter pages that describe geometry, cell type and timing are identical (R329). -/
def onfiSame (a b : OnfiPage) : Bool :=
  a.luns == b.luns && a.blocksPerLun == b.blocksPerLun && a.pagesPerBlock == b.pagesPerBlock && a.pageBytes == b.pageBytes && a.tlc == b.tlc &&
    a.timing == b.timing

/-- RAW_BYTES. -/
def onfiRaw (m : OnfiPage) (targets : Nat) : Nat := targets * m.luns * m.blocksPerLun * m.pagesPerBlock * m.pageBytes

/-- A volume's state outside a census: READ_ONLY once the spare pool is empty (R337, R344). -/
def Chip.volRest (c : Chip) : VolState × Nat := if c.fmt.spare.isEmpty then (.readOnly, 0x0810) else (.online, 0x0814)

/-- The census begins (R342, R343); blocks of the power-loss area are moved to their place first (R347). -/
def Chip.censusStart (c : Chip) (lostVols : List Nat) : Chip :=
  let moves := c.nand.map.filter fun e => e.2.eb.isNone && !e.2.lost
  let c := (c.crockState .census 0).setCrock fun x => { x with
    staged := moves.map (fun e => { id := e.2.seq, vol := e.1 / 2 ^ 48, lba := e.1 % 2 ^ 48, data := e.2.data }),
    census := { startTurn := c.turn, startAt := c.clk.powerPs, interrupted := c.nand.censusOpen },
    censusLeft := (c.nand.map.filterMap fun e => if e.2.lost then none else e.2.eb).foldl (fun l e => insertSorted e l) [] }
  let c := (c.setNand fun n => { n with censusOpen := true }).bump 42 1
  let c := (c.nand.vols.map Prod.fst).foldl (fun c v => if lostVols.contains v then c.volState v .offline 0x0811 else c.volState v .census 0) c
  c.censusNext.crockGo

/-- CROCK_START (R329): the parameter pages of every target present, and the volumes whose entries neither copy of the volume table gives. -/
def Chip.crockStart (c : Chip) (pages : List OnfiPage) (lostVols : List Nat) : Chip :=
  let c := { c with crock := { holdup := c.crock.holdup, refreshShare := c.crock.refreshShare } }
  match pages with
  | [] => c.crockState .noMedia 0x0801
  | m :: r =>
    let mask := pages.foldl (fun a p => setBit a (p.channel % 4) true) 0
    let c := c.setCrock fun x => { x with media := some m, channels := mask, lunCount := pages.length * m.luns,
                                          targets := (pages.filter fun p => p.channel == m.channel).length }
    if !(pages.all fun p => p.crcOk) || !(r.all fun p => onfiSame p m) || onfiRaw m pages.length > 8 * 10 ^ 12 then c.crockState .failed 0x0802
    else if c.nand.formatting then (c.setNand fun n => { n with formatting := false, fmt := none }).crockState .unformatted 0x0804
    else if c.nand.fmt.isNone then c.crockState .unformatted 0x0803
    else c.censusStart lostVols

/-- The CROCK island stops without PWRFAIL_L: a block being written holds its whole previous or its whole new content (R348, a free choice). -/
def Chip.crockStop (c : Chip) : Chip :=
  let c := c.crock.staged.foldl (fun c s =>
    if s.by'.isNone then c
    else (if c.freshNat % 2 = 1 then c.commitBlock s none else c).nextFresh) c
  { c with crock := { holdup := c.crock.holdup, refreshShare := c.crock.refreshShare } }

/-- PWRFAIL_L (R347): no more write cells are taken, and staging goes to the power-loss area, which commits it. -/
def Chip.crockPowerFail (c : Chip) : Chip :=
  let c := c.setCrock fun x => { x with halted := true }
  let l := c.crock.staged
  let c := c.setCrock fun x => { x with stripe := 0, ops := x.ops.filter fun e =>
    match e.2 with | .program _ _ => false | .parity _ => false | .move _ _ => false | _ => true }
  l.foldl (fun c s => if s.by'.isSome then c.programOk s none else c.setCrock fun x => { x with staged := x.staged.filter fun y => y.id != s.id }) c

/-- PWRFAIL_L is released (R347): the Crock resumes, with the move that it had to leave. -/
def Chip.crockResume (c : Chip) : Chip :=
  let c := c.setCrock fun x => { x with halted := false }
  let c := match c.crock.moving with | some e => c.startMove e | none => c
  (c.crockGo).censusNext

end Sys2Proof.Machine
end

