-- ==== Sys2Proof/Machine/Freewheel.lean ====
section
/-!
DEFINITION. Chapter 09: shapers, the freewheel decision, and cells leaving an output (R216 to R218, R231 to R238, R243, R245).
-/
namespace Sys2Proof.Machine

/-! ### Decisions (R231 to R235) -/

/-- Bring every shaper of an output up to date. -/
def Chip.fwRefresh (c : Chip) (p : Nat) : Chip :=
  let now := c.clk.powerPs
  let o := c.port p
  let c := c.setPort p { o with shaper := o.shaper.refresh now }
  { c with fab := { c.fab with fw := c.fab.fw.mapAll fun k f => if k / 1024 = p then { f with shaper := f.shaper.refresh now } else f } }

/-- The eligible queue with the least finish tag, ties to the lower TID (R235). -/
def Chip.fwChoice (c : Chip) (p : Nat) : Option Nat :=
  ((c.fwTids p).filter fun t => (c.fwOf p t).eligible).foldl (fun (b : Option Nat) t =>
    match b with
    | none => some t
    | some u => if seqBefore 64 (c.fwOf p t).f (c.fwOf p u).f then some t else some u) none

/-! ### Reading the stockpot (R216 to R218) -/

/-- Retire a line, up to 1,024; then STOCKPOT_WORN is posted once (R218). -/
def Chip.retireLine (c : Chip) (line : Nat) : Chip :=
  let s := c.fab.pot
  if s.retired.contains line then c
  else if s.retired.length < 1024 then
    let c := (c.bump 43 1).setPot fun s => { s with retired := insertSorted line s.retired, corrections := s.corrections.erase line }
    if c.fab.pot.retired.length = 1024 && !s.worn then
      (c.setPot fun s => { s with worn := true }).post 0x0205 0 1024
    else c
  else c

/-- Read a cell's line: corrected, or sent poisoned with the descriptor's header and a payload of zeros (R216, R217). -/
def Chip.readLine (c : Chip) (r : LineRead) (x : Cell) : Chip × Cell :=
  if allZero r.err then (c, x)
  else
    let w := [0, 0, 0] ++ (sliceB r.err 0 72).map BitVec.toNat
    match rsLine.decode w with
    | some (w', pos) =>
      if pos.any (· < 3) then bad c r x
      else
        let k := c.fab.pot.corrections.get 0 r.line + 1
        let c := c.setPot fun s => { s with corrected := sat64 s.corrected 1, corrections := s.corrections.set r.line k }
        let c := if k ≥ 16 then c.retireLine r.line else c
        let left := (w'.drop 11).take 56
        (c, if left.all (· == 0) then x
            else { x with payload := ((sliceB x.payload 0 56).zip left).map fun e => e.1 ^^^ BitVec.ofNat 8 e.2 })
    | none => bad c r x
where
  /-- an uncorrectable line -/
  bad (c : Chip) (r : LineRead) (x : Cell) : Chip × Cell :=
    let c := (c.bump 44 1).setPot fun s => { s with poisoned := sat64 s.poisoned 1 }
    let c := c.post 0x0204 0 (r.line % 2 ^ 19 + x.tid * 2 ^ 48)
    (c.retireLine r.line, { x with p := true, payload := zeros 56 })

/-- A list of `n` cells is lost with a descriptor (R217): counted, for the sieve to recover, and STOCKPOT_ERROR is posted. -/
def Chip.listLost (c : Chip) (owner n tid : Nat) (r : LineRead) : Chip :=
  let c := c.setPot fun s => { s with descLost := sat32 s.descLost n, lost := s.lost ++ [{ owner, lines := n }] }
  c.post 0x0204 0 (r.line % 2 ^ 19 + 2 ^ 19 + tid * 2 ^ 48)

/-- A queue whose descriptor is uncorrectable loses the rest of its cells (R217). -/
def Chip.descLost (c : Chip) (p tid : Nat) (r : LineRead) : Chip :=
  let n := (c.queue p tid).length
  (c.dropQueue p tid).listLost (qKey p tid) n tid r

/-! ### Departures (R214, R235, R243, R245) -/

/-- The head cell of a queue leaves its output, as a freewheel choice when `fw`. Answers the cell, none when its list was lost. -/
def Chip.depart (c : Chip) (p tid : Nat) (r : LineRead) (fw : Bool) : Chip × Option QCell :=
  match c.queue p tid with
  | [] => (c, none)
  | x :: rest =>
    if r.descBad then (c.descLost p tid r, none)
    else
      let acc := (c.port p).acc x.cell
      let c := c.setQueue p tid rest
      let rd := c.readLine r x.cell
      let c := rd.1
      let x := { x with cell := rd.2 }
      let c := c.capture 1 p x.cell x.demoted
      let soj := Nat.min 0xFFFFFFFF ((c.clk.powerPs - x.linkAt) / 1000)
      let c :=
        if fw then
          let f := c.fwOf p tid
          let o := c.port p
          let f' := { f with cellsOut := sat64 f.cellsOut 1, accBytes := sat64 f.accBytes acc, sojournHwm := Nat.max f.sojournHwm soj,
                             shaper := if tid ≥ 2 && !c.contracted tid then f.shaper.take acc else f.shaper }
          let o' := { o with fwCells := sat64 o.fwCells 1, sojournHwm := Nat.max o.sojournHwm soj,
                             shaper := if tid ≥ 2 then o.shaper.take acc else o.shaper }
          (c.setFw p tid f').setPort p o'
        else c.noteDepth p tid
      let c :=
        if tid ≥ 2 && x.cell.ctype != 6 then
          let t := c.tunOf tid
          if t.state == .free then c
          else c.setTun tid { t with cellsOut := sat64 t.cellsOut 1, outNext := (x.cell.seq + 1) % 65536 }
        else c
      (c.drainWaiting, some x)

/-- A freewheel decision at an output: choose, send the head cell, keep the tags (R232, R235). -/
def Chip.fwDecide (c : Chip) (p : Nat) (r : LineRead) : Chip × Option QCell :=
  let c := (c.drainWaiting.fwRefresh p).fwWake p
  let blocked := p < 4 && (c.fwTids p).any fun t => c.qstate p t = 3
  let o := c.port p
  let c := if blocked then c.setPort p { o with creditBlocked := sat64 o.creditBlocked 1 } else c
  match c.fwChoice p with
  | none => (c, none)
  | some tid =>
    let f := c.fwOf p tid
    let c := (c.setFw p tid { f with fLast := f.f }).setPort p { c.port p with v := f.f }
    let d := c.depart p tid r true
    let c := d.1
    let c := match d.2 with
      | some x =>
        if p < 4 && tid ≥ 2 && x.cell.ctype != 6 then
          let fr := c.frmOf p
          let g := (c.tunOf tid).group
          c.setFrm p { fr with sentFw := fr.sentFw.set g ((fr.sentFw.get 0 g + 1) % 2 ^ 32) }
        else c
      | none => c
    let f' := c.fwOf p tid
    let c := if c.qstate p tid = 1 && c.isFwQueue p tid then c.setFw p tid { f' with s := f.f, f := c.finish p tid f.f }
      else c.setFw p tid { f' with eligible := false }
    (c.fwWake p, d.2)

end Sys2Proof.Machine
end

