-- ==== Sys2Proof/Machine/HostOps.lean ====
section
/-!
DEFINITION. Chapter 11: queue pairs, event queues and data rings as hardware serves them (R273 to R280, R291, R292).
-/
namespace Sys2Proof.Machine

/-- Change the host attachment. -/
def Chip.setHost (c : Chip) (f : HostPort → HostPort) : Chip := { c with host := f c.host }
/-- Key of data ring `r` of VI `vi`. -/
def ringKey (vi r : Nat) : Nat := 256 * vi + r
/-- Change a queue pair. -/
def Chip.setQp (c : Chip) (k : Nat) (q : QueuePair) : Chip := c.setHost fun h => { h with qps := h.qps.set k q }
/-- Change a data ring. -/
def Chip.setDring (c : Chip) (k : Nat) (r : DataRing) : Chip := c.setHost fun h => { h with rings := h.rings.set k r }
/-- `a - b` modulo 2^16. -/
def sub16 (a b : Nat) : Nat := (a + 2 ^ 16 - b % 2 ^ 16) % 2 ^ 16

/-- RING_ERROR (0x0602): to the log, the manager and the instance. -/
def Chip.postRingError (c : Chip) (reason vi idx : Nat) (data : Bool) : Chip := c.postVi vi 0x0602 reason (vi + 256 * idx + 65536 * b2n data)
/-- DMA_ERROR (0x0604). -/
def Chip.postDmaError (c : Chip) (vi addr : Nat) : Chip := c.post 0x0604 0 (vi + (addr % 2 ^ 48) * 65536)
/-- An AER error is recorded (R291): 0 completion timeout, 1 poisoned TLP, 2 ECRC, 3 unsupported request, 4 malformed, 5 internal. -/
def Chip.aerError (c : Chip) (k : Nat) : Chip := c.setHost fun h => { h with aer := h.aer.set k (h.aer.get 0 k + 1) }

/-! ### Submission (R273 to R275) -/

/-- Submission entries of the command whose first entry is `b` (R273); an inline PLEN that is refused takes the one entry. -/
def cmdEntries (b : Bytes) : Nat :=
  let plen := fld b 8 4
  if plen > 32 && plen ≤ 4096 && !bitOf (fld b 3 1) 1 then 2 + (plen - 33) / 64 else 1

/-- Entries of a queue pair that wait for a read in flight. -/
def Chip.sqReading (c : Chip) (vi qp : Nat) : Bool :=
  c.host.reads.any fun e => match e.2.1 with | .sq v q _ => v == vi && q == qp | _ => false

/-- Fetch the next entries that a queue pair may fetch (R273 to R275, R287). -/
def Chip.sqFetch (c : Chip) (vi qp : Nat) : Chip :=
  match c.host.qps.find (64 * vi + qp) with
  | none => c
  | some q =>
    let avail := sub16 q.sqTail q.fetched
    let space := decide (q.rbFree ≥ 4112) || (q.rbLog2 = 12 && q.rbFree = 4096)
    let slot := q.fetched % 2 ^ q.sqLog2
    let want := if q.partialCmd.isEmpty then (if space then 1 else 0) else cmdEntries q.partialCmd - q.partialCmd.length / 64
    if q.stopped || c.sqReading vi qp || (c.inst vi).state != .active || !c.dev.fwRunning || want = 0 || avail < want then c
    else
      let n := Nat.min want (2 ^ q.sqLog2 - slot)
      c.dmaRead vi (q.sqBase + 64 * slot) (64 * n) (.sq vi qp n)

/-- A command whose INDIRECT parameters cannot be read: it counts as received and is refused (Table 11.11); so is one for which no read may be
issued any more (DESIGN CHOICE, log entry 66: R33 gives it a reply). -/
def Chip.fetchFailed (c : Chip) (p : Packet) (st reason : Nat) : Chip :=
  (c.count p.sess.tr fun k => { k with received := sat32 k.received 1 }).refuse p st reason 0

/-- A whole command of a queue pair: its INDIRECT parameters are fetched first (R29, R281). -/
def Chip.sqCommand (c : Chip) (vi qp : Nat) (b : Bytes) : Chip :=
  let r := parsePacket (.pcie vi qp) b
  let plen := r.2.plen.toNat
  if r.2.indirect then
    if plen = 0 || plen > 1048576 then c.receive r.1 { r.2 with params := [] }
    else if !c.dmaOk vi then c.fetchFailed r.2 stParam 0x0608
    else c.dmaRead vi r.2.paddr.toNat plen (.params r.1 { r.2 with params := [] })
  else c.receive r.1 { r.2 with params := if plen > 4096 then [] else r.2.params.take plen }

/-- Submission entries have been read (R273). -/
def Chip.sqData (c : Chip) (vi qp n : Nat) (data : Bytes) : Chip :=
  match c.host.qps.find (64 * vi + qp) with
  | none => c
  | some q =>
    let buf := q.partialCmd ++ sliceB data 0 (64 * n)
    let need := cmdEntries buf
    let whole := decide (buf.length ≥ 64 * need)
    let q := { q with fetched := (q.fetched + n) % 2 ^ 16, partialCmd := if whole then [] else buf,
                      sqHead := if whole then (q.sqHead + need) % 2 ^ 16 else q.sqHead }
    let c := c.setQp (64 * vi + qp) q
    (if whole then c.sqCommand vi qp buf else c).sqFetch vi qp

/-! ### Data rings (R278 to R280) -/

/-- Write a descriptor back (Table 11.7): its first 24 bytes, HW cleared; COOKIE is left unchanged. -/
def Chip.descBack (c : Chip) (r : DataRing) (idx : Nat) (d : Bytes) (len flags status xtag aux seq : Nat) : Chip :=
  let irq := bitOf (fld d 12 2) 5
  let c := c.dmaWrite r.vi (r.base + 32 * idx)
    (sliceB d 0 8 ++ le 4 len ++ le 2 (flags + 32 * b2n irq) ++ le 2 status ++ le 2 xtag ++ le 1 aux ++ zeros 1 ++ le 2 seq ++ zeros 2)
  c.raiseRing r.vi r.vector r.coalesceUs irq

/-- A transmit descriptor is written back with a status. -/
def Chip.txBack (c : Chip) (r : DataRing) (idx : Nat) (d : Bytes) (status : Nat) : Chip :=
  c.descBack r idx d (fld d 8 4) (2 * b2n (bitOf (fld d 12 2) 1)) status (fld d 16 2) (fld d 18 1) (fld d 20 2)

/-- Descriptors of a ring that wait for a read in flight. -/
def Chip.descReading (c : Chip) (k : Nat) : Bool :=
  c.host.reads.any fun e => match e.2.1 with | .desc j _ _ => j == k | _ => false
/-- A buffer of a transmit ring is being read. -/
def Chip.txReading (c : Chip) (k : Nat) : Bool :=
  c.host.reads.any fun e => match e.2.1 with | .txData j _ => j == k | _ => false

/-- Fetch the descriptors that PRODUCER has handed over, up to the ring's end. -/
def Chip.descFetch (c : Chip) (k : Nat) : Chip :=
  match c.host.rings.find k with
  | none => c
  | some r =>
    let first := (r.consumed + r.descs.length) % 2 ^ 16
    let avail := sub16 r.producer first
    let slot := first % 2 ^ r.log2
    if r.stopped || avail = 0 || c.descReading k || (c.inst r.vi).state != .active then c
    else
      let n := Nat.min avail (2 ^ r.log2 - slot)
      c.dmaRead r.vi (r.base + 32 * slot) (32 * n) (.desc k slot n)

/-- The cells of `b` that are full; while more of the message follows (`last` false) a remainder stays (R278). -/
def Chip.txCells (c : Chip) (r : DataRing) (poison last : Bool) : Nat → Bytes → Chip × DataRing
  | 0, b => (c, { r with carry := b, carryPoison := r.carryPoison || (poison && !b.isEmpty) })
  | fuel + 1, b =>
    let fin := last && decide (b.length ≤ 56)
    if b.length < 56 && !fin then (c, { r with carry := b, carryPoison := r.carryPoison || (poison && !b.isEmpty) })
    else
      let d := b.take 56
      let x : Cell := { tid := r.tid, f := !r.inMsg, l := fin, p := r.carryPoison || poison, len := d.length, aux := r.aux, xtag := r.xtag,
                        payload := sliceB d 0 56 }
      let c := c.pushSrc 4 x
      let r := { r with inMsg := !fin, carryPoison := false, carry := [] }
      if fin then (c, r) else c.txCells r poison last fuel (b.drop 56)

/-- A message in progress cannot be completed (R279): a poisoned last cell ends it. -/
def Chip.txEnd (c : Chip) (r : DataRing) : Chip × DataRing :=
  if r.msgDescs = 0 then (c, r)
  else
    (c.pushSrc 4 { tid := r.tid, f := !r.inMsg, l := true, p := true, len := 1, aux := r.aux, xtag := r.xtag, payload := zeros 56 },
     { r with inMsg := false, msgDescs := 0, carry := [], carryPoison := false })

/-- Serve a transmit ring: invalid descriptors are written back, the next valid one's buffer is read (R278). -/
def Chip.txKick (c : Chip) (k : Nat) : Nat → Chip
  | 0 => c
  | fuel + 1 =>
    match c.host.rings.find k with
    | none => c
    | some r =>
      match r.descs with
      | [] => c.descFetch k
      | (idx, d) :: rest =>
        let len := fld d 8 4
        if r.stopped || c.txReading k || (c.inst r.vi).state != .active then c
        else if !c.dmaOk r.vi then c
        else if len = 0 || len > 1048576 || r.msgDescs ≥ 64 then
          let c := (c.txBack r idx d 0x0611).postRingError 0x0611 r.vi (k % 256) true
          let e := c.txEnd { r with descs := rest, consumed := (r.consumed + 1) % 2 ^ 16 }
          (e.1.setDring k e.2).txKick k fuel
        else
          let r := if r.msgDescs = 0 then { r with xtag := fld d 16 2, aux := fld d 18 1 } else r
          (c.setDring k { r with msgDescs := r.msgDescs + 1 }).dmaRead r.vi (fld d 0 8) len (.txData k idx)

/-- Serve a ring. -/
def Chip.ringKick (c : Chip) (k : Nat) : Chip :=
  match c.host.rings.find k with
  | none => c
  | some r => if r.dir = 0 then c.txKick k (r.descs.length + 1) else c.descFetch k

/-- Descriptors have been read: those with HW set are taken. -/
def Chip.descData (c : Chip) (k first n : Nat) (data : Bytes) : Chip :=
  match c.host.rings.find k with
  | none => c
  | some r =>
    let ds := (List.range n).map fun i => (first + i, sliceB data (32 * i) 32)
    let ds := ds.takeWhile fun d => bitOf (fld d.2 12 2) 0
    let r := { r with descs := r.descs ++ ds, refilledAt := if r.descs.isEmpty then c.clk.powerPs else r.refilledAt }
    let c := c.setDring k r
    if ds.isEmpty then c else c.ringKick k

/-- A transmit buffer has been read: its bytes become cells and its descriptor is written back (R278); of an instance that is quiescing the
message ends there (Table 11.10). -/
def Chip.txData (c : Chip) (k : Nat) (data : Bytes) (poison : Bool) : Chip :=
  match c.host.rings.find k with
  | none => c
  | some r =>
    match r.descs with
    | [] => c
    | (idx, d) :: rest =>
      let last := bitOf (fld d 12 2) 1
      let live := (c.inst r.vi).state == .active
      let b := r.carry ++ sliceB data 0 (fld d 8 4)
      let o := c.txCells r poison (last && live) (b.length / 56 + 1) b
      let r := { o.2 with descs := rest, consumed := (r.consumed + 1) % 2 ^ 16 }
      let e := if !live then o.1.txEnd r else if last then (o.1, { r with msgDescs := 0 }) else (o.1, r)
      let c := (e.1.setDring k e.2).txBack e.2 idx d (if live then 0 else 0x0609)
      c.ringKick k

/-- A read of a transmit buffer has failed (R279, R291). -/
def Chip.txFail (c : Chip) (k reason : Nat) : Chip :=
  match c.host.rings.find k with
  | none => c
  | some r =>
    match r.descs with
    | [] => c
    | (idx, d) :: rest =>
      let e := c.txEnd { r with descs := rest, consumed := (r.consumed + 1) % 2 ^ 16 }
      ((e.1.setDring k e.2).txBack e.2 idx d reason).ringKick k

/-- Descriptors of a transmit ring not started are written back with a reason, and a message in progress ends (R287, R292). -/
def Chip.txAbort (c : Chip) (k reason : Nat) (now : Bool) : Chip :=
  match c.host.rings.find k with
  | none => c
  | some r =>
    let reading := c.txReading k && !now
    let keep := if reading then r.descs.take 1 else []
    let gone := if reading then r.descs.drop 1 else r.descs
    let c := gone.foldl (fun c d => c.txBack r d.1 d.2 reason) c
    let e := if reading then (c, r) else c.txEnd r
    e.1.setDring k { e.2 with descs := keep, consumed := (r.consumed + gone.length) % 2 ^ 16 }

/-! ### Receiving at F4 (R280, R285) -/

/-- The current buffer of a receive ring is written back (R280). -/
def Chip.rxBack (c : Chip) (r : DataRing) (fin cut : Bool) : Chip × DataRing :=
  match r.descs with
  | [] => (c, r)
  | (idx, d) :: rest =>
    let fl := 2 * b2n fin + 4 * b2n r.rxStart + 8 * b2n r.rxPoison + 16 * b2n r.rxGap + 64 * b2n cut
    let c := c.descBack r idx d r.used fl 0 r.rxXtag r.rxAux r.rxSeq
    (c, { r with descs := rest, consumed := (r.consumed + 1) % 2 ^ 16, used := 0, rxOpen := false, rxStart := false, rxPoison := false,
                 rxGap := false })

/-- Write a cell's bytes into the posted buffers, spanning them (R280); a buffer that has become full stays open until the message goes on or
ends, since it may hold the message's last cell. -/
def Chip.rxFill (c : Chip) (x : Cell) (start : Bool) : Nat → DataRing → Bytes → Chip × DataRing
  | 0, r, _ => (c, r)
  | fuel + 1, r, b =>
    match r.descs with
    | [] => (c, r)
    | (_, d) :: _ =>
      let r := if r.rxOpen then r
        else { r with rxOpen := true, rxStart := start, rxGap := r.gapNext, gapNext := false, rxXtag := x.xtag, rxAux := x.aux, rxSeq := x.seq }
      let room := fld d 8 4 - r.used
      let n := Nat.min room b.length
      let c := if n = 0 then c else c.dmaWrite r.vi (fld d 0 8 + r.used) (b.take n)
      let r := { r with used := r.used + n, rxPoison := r.rxPoison || x.p }
      if n < b.length then
        let e := c.rxBack r false false
        e.1.rxFill x false fuel e.2 (b.drop n)
      else (c, r)

/-- A cell that interrupts the message in progress, by a SEQ gap or by a new message's start, ends the buffer that holds the message's last
cell with END and CUT (R280). -/
def Chip.rxCut (c : Chip) (r : DataRing) (x : Cell) : Chip × DataRing :=
  if r.interrupts x then
    let e := c.rxBack r true true
    (e.1, { e.2 with inMsg := false })
  else (c, r)

/-- The messages at F4 that the next cell of their tunnels interrupts are ended (R280), whether or not a buffer is posted for that cell. -/
def Chip.rxCuts (c : Chip) : Chip :=
  (c.host.rings.keysWhere fun _ r => r.dir == 1).foldl (fun c k =>
    match c.host.rings.find k with
    | none => c
    | some r =>
      match c.queue 4 r.tid with
      | q :: _ =>
        if r.interrupts q.cell && (c.inst r.vi).state == .active && c.dmaOk r.vi then
          let e := c.rxCut r q.cell
          (e.1.setDring k { e.2 with gapNext := e.2.gapNext || r.gapAt q.cell }).descFetch k
        else c
      | [] => c) c

/-- F4 takes a cell of a bound receive tunnel (R280); outside R285's conditions it counts as HOST_STALL (whether the host is late with its
credit is a free choice, log entry 66). -/
def Chip.hostRx (c : Chip) (q : QCell) : Chip :=
  let x := q.cell
  match c.rxRing x.tid with
  | none => c
  | some (k, r) =>
    let stall := c.host.width != 8 || c.host.rate != 32 || decide (q.linkAt < r.refilledAt) || Config.hostCreditLate c.clk.fresh
    let c := if c.contracted x.tid then c.nextFresh else c
    let c := if stall && c.contracted x.tid then
        let i := c.inst r.vi
        c.setInst r.vi { i with hostStall := sat32 i.hostStall 1 } else c
    let gap := r.gapAt x
    let e := c.rxCut r x
    let c := e.1
    let r := { e.2 with gapNext := e.2.gapNext || gap, nextSeq := some ((x.seq + 1) % 65536) }
    let b := if x.p then zeros x.len else sliceB x.payload 0 x.len
    let e := c.rxFill x x.f (r.descs.length + 1) { r with inMsg := true } b
    let e := if x.l then
        let f := e.1.rxBack e.2 true false
        (f.1, { f.2 with inMsg := false })
      else e
    (e.1.setDring k e.2).descFetch k

/-! ### Ending queues and rings (R292, R288) -/

/-- Forget the reads of a queue pair or ring that are in flight; completions that arrive afterwards are discarded. -/
def Chip.dropReads (c : Chip) (p : ReadFor → Bool) : Chip := c.setHost fun h => { h with reads := h.reads.filter fun e => !p e.2.1 }

/-- Unbind a ring (R292). -/
def Chip.unbindRing (c : Chip) (k : Nat) : Chip :=
  match c.host.rings.find k with
  | none => c
  | some r =>
    let c := if r.dir = 0 then c.txAbort k 0x0612 true else c
    (c.dropReads fun f => match f with | .desc j _ _ => j == k | .txData j _ => j == k | _ => false).setHost fun h =>
      { h with rings := h.rings.erase k }

/-- Unbind every ring of a tunnel (R292). -/
def Chip.unbindTunnel (c : Chip) (tid : Nat) : Chip :=
  (c.host.rings.keysWhere fun _ r => r.tid == tid).foldl Chip.unbindRing c

/-- Delete a queue pair: its session ends (R37, R292); completions that waited for its replies go to the log (R58, R59). -/
def Chip.deleteQp (c : Chip) (vi qp : Nat) : Chip :=
  let c := c.endSession (.pcie vi qp)
  let c := c.dropReads fun f => match f with
    | .sq v q _ => v == vi && q == qp
    | .params _ p => p.sess == .pcie vi qp
    | _ => false
  (c.setHost fun h => { h with qps := h.qps.erase (64 * vi + qp) }).payOwed fun r => r.sess == .pcie vi qp

/-- Delete an event queue. -/
def Chip.deleteEvq (c : Chip) (vi q : Nat) : Chip :=
  ({ c with cmd := { c.cmd with queues := c.cmd.queues.erase (vqKey vi q) } }).setHost fun h => { h with evqs := h.evqs.erase (vqKey vi q) }

/-- Queue entries in use by an instance (Table 11.8). -/
def Chip.queueEntries (c : Chip) (vi : Nat) : Nat :=
  c.host.qps.foldl (fun a e => if e.1 / 64 = vi then a + 2 ^ e.2.sqLog2 + 2 ^ e.2.cqLog2 else a) 0 +
  c.host.evqs.foldl (fun a e => if e.1 / 32 = vi then a + 2 ^ e.2.log2 else a) 0 +
  c.host.rings.foldl (fun a e => if e.2.vi = vi then a + 2 ^ e.2.log2 else a) 0

/-- Tunnels counted against an instance (Table 11.8): those it owns at device 0, and F4 destination ends bound to it. -/
def Chip.tunnelsOf (c : Chip) (vi : Nat) : List Nat :=
  c.tids fun _ t => t.state.live && ((t.index = 0 && t.owner = vi) || (t.index = t.hops && t.outPort = 4 && t.f4Vi = vi))

/-- Tunnels granted to an instance; VI 0 holds the remainder. -/
def Chip.tunnelGrant (c : Chip) (vi : Nat) : Nat :=
  if vi = 0 then 1008 - c.host.inst.foldl (fun a e => if e.1 > 0 && e.2.state != .absent then a + e.2.tunnels else a) 0 else (c.inst vi).tunnels

/-- An instance's tunnel grant is spent. -/
def Chip.tunnelsSpent (c : Chip) (vi : Nat) : Bool := decide ((c.tunnelsOf vi).length ≥ c.tunnelGrant vi)

/-- State code of Table 11.4. -/
def InstState.code : InstState → Nat
  | .absent => 0 | .active => 1 | .quiescing => 2 | .quiesced => 3

/-- An instance changes state (R286): INSTANCE_STATE_CHANGED. -/
def Chip.instState (c : Chip) (vi : Nat) (st : InstState) (reason : Nat) : Chip :=
  let i := c.inst vi
  (c.setInst vi { i with state := st }).post 0x0601 reason (vi + 256 * i.state.code + 65536 * st.code)

/-- A reset whose CLOSE cells are all answered ends: the instance is ACTIVE, and the handle completes (R288), as cancelled when a CANCEL came
first (R56). DESIGN CHOICE (log entry 66): the instance is ACTIVE then too, its queues and tunnels being gone already. -/
def Chip.resetEnd (c : Chip) (vi h reason : Nat) : Chip :=
  let c := c.setInst vi { c.inst vi with qhandle := 0, resetting := false, linkLoss := false, latched := 0 }
  let off := c.cancelled h
  (c.instState vi .active reason).complete h (if off then stAborted else stOk) (if off then 0x0007 else 0) 0

/-- The instance whose reset holds handle `h`. -/
def Chip.resetOf (c : Chip) (h : Nat) : Option Nat :=
  (c.host.inst.find? fun e => e.2.resetting && e.2.qhandle == h).map Prod.fst

/-- F4's answer to an OPEN (R283): byte 0 of TYPE_PARAMS names the destination VI. -/
def Chip.f4Answer (c : Chip) (params : Bytes) : Option (Nat × Nat) :=
  let vi := fld params 0 1
  if vi > 63 || (c.inst vi).state != .active then some (stNoResource, 0x0605)
  else if c.tunnelsSpent vi then some (stNoResource, 0x0601) else none

end Sys2Proof.Machine
end

