-- ==== Sys2Proof/Machine/KeyOps.lean ====
section
/-!
DEFINITION. Chapter 19: key slots, the KDF, blobs, the management channel's sending side, and the handshake's keys and messages (R455 to
R462, R466 to R469).
-/
namespace Sys2Proof.Machine

/-! ### Slots (R456) -/

def KeySlot.owner (k : KeySlot) : Nat := bitsOf k.attr 26 6
def KeySlot.ty (k : KeySlot) : Nat := bitsOf k.attr 23 3
def KeySlot.origin (k : KeySlot) : Nat := bitsOf k.attr 21 2
def KeySlot.locked (k : KeySlot) : Bool := bitOf k.attr 20
def KeySlot.persist (k : KeySlot) : Bool := bitOf k.attr 19
def KeySlot.meas (k : KeySlot) : Bool := bitOf k.attr 18
def KeySlot.login (k : KeySlot) : Bool := bitOf k.attr 17
def KeySlot.use (k : KeySlot) (b : Nat) : Bool := bitOf k.attr b

/-- A slot's key, none when EMPTY. -/
def Chip.kslot (c : Chip) (i : Nat) : Option KeySlot := c.keys.slots.find i
/-- Change the key store. -/
def Chip.setKeys (c : Chip) (f : Keys → Keys) : Chip := { c with keys := f c.keys }

/-- Key bytes of a TYPE (R457, R459). -/
def keyLen (ty : Nat) : Nat := if ty = 1 then 32 else if ty = 5 then 97 else 48

/-- USE bits that Table 19.6 allows a TYPE. -/
def useMask (ty : Nat) : Nat :=
  if ty = 1 then 0b1010011 else if ty = 2 then 0b1101100 else if ty = 3 then 0b1000100 else if ty = 4 then 0b1001000
  else if ty = 5 then 0b1100100 else 0

/-- TYPE is defined and USE is within Table 19.6. -/
def attrOk (attr : Nat) : Bool :=
  let ty := bitsOf attr 23 3
  decide (1 ≤ ty) && decide (ty ≤ 5) && (attr % 128) &&& (127 - useMask ty) == 0

/-! ### The KDF (R457) -/

/-- SP 800-108 in counter mode with HMAC-SHA-384: `l` bits. -/
def kdf (ki label ctx : Bytes) (l : Nat) : Bytes :=
  sliceB ((List.range ((l + 383) / 384)).map fun i =>
    sliceB (Config.hmac384 ki (be 4 (i + 1) ++ label ++ [0] ++ ctx ++ be 4 l)) 0 48).flatten 0 (l / 8)

/-- Text as bytes. -/
def ascii (s : String) : Bytes := s.toList.map fun ch => BitVec.ofNat 8 ch.toNat

/-- Order of the P-384 group (the standard's constant). -/
def p384Order : Nat := 0xFFFFFFFFFFFFFFFFFFFFFFFFFFFFFFFFFFFFFFFFFFFFFFFFC7634D81F4372DDF581A0DB248B0A77AECEC196ACCC52973

/-- d = (c mod (n - 1)) + 1 (R455). -/
def p384Scalar (b : Bytes) : Bytes := be 48 (beNat b % (p384Order - 1) + 1)

/-- Digest of M0 to M7. -/
def Chip.measDigest (c : Chip) : Bytes := sliceB (Config.sha384 c.dev.meas.flatten) 0 48

/-- A slot's derived key: parent key, LABEL, owner, TYPE and MEAS (R457). -/
def Chip.deriveKey (c : Chip) (ki label : Bytes) (owner ty : Nat) (meas : Bool) : Bytes :=
  let ctx := sliceB label 0 16 ++ le 1 owner ++ le 1 ty ++ (if meas then c.measDigest else [])
  let l := if ty = 1 then 256 else if ty = 2 then 384 else 448
  let k := kdf ki (ascii "BH9416 SLOT") ctx l
  if ty = 1 || ty = 2 then k else p384Scalar k

/-- The identity private key (R455). -/
def Chip.identityKey (c : Chip) : Bytes := c.deriveKey Config.rootSecret (ascii "DEVICE IDENTITY") 0 3 false

/-- The identity key exists (Table 19.4). -/
def identityOk (lifecycle : Nat) : Bool := lifecycle = 1 || lifecycle = 2

/-- The store key (R461). -/
def Chip.storeKey (c : Chip) (salt : Bytes) (meas : Bool) : Bytes :=
  kdf Config.rootSecret (ascii "BH9416 SLOT") (sliceB (ascii "CROCK STORE") 0 16 ++ salt ++ (if meas then c.measDigest else [])) 256

/-! ### Blobs (R460, R461, Table 19.9) -/

/-- The 128 bytes that a blob wraps. -/
def KeySlot.plain (k : KeySlot) (recipe : Bool) : Bytes :=
  le 4 k.attr ++ sliceB k.label 0 16 ++ le 2 k.parent ++ zeros 2 ++ (if recipe then zeros 104 else sliceB k.key 0 104)

/-- A blob: KIND 0 persisted, 1 recipe, 2 export. -/
def KeySlot.blob (k : KeySlot) (slot kind gen : Nat) (wrapKey : Bytes) : Bytes :=
  le 4 0x4B534C42 ++ le 1 slot ++ le 1 kind ++ zeros 2 ++ le 4 gen ++ zeros 28 ++
    sliceB (Config.kwWrap wrapKey (k.plain (kind == 1))) 0 136

/-- The slot that unwrapped bytes spell. -/
def slotOfPlain (b : Bytes) : KeySlot :=
  let a := fld b 0 4
  { attr := a, label := sliceB b 4 16, parent := fld b 20 2, key := sliceB b 24 (keyLen (bitsOf a 23 3)) }

/-- A parent's key for a derivation (R458): ROOT, a slot with USE derive, or for an agreement slot the ECDH secret with a peer's public
key. -/
def Chip.parentKey (c : Chip) (parent : Nat) : Option Bytes :=
  if parent = 0xFFFF then some Config.rootSecret
  else match c.kslot (parent % 256) with
    | none => none
    | some k =>
      if k.ty = 4 then
        match c.kslot (parent / 256) with
        | none => none
        | some q => some (sliceB (Config.ecdh k.key q.key) 0 48)
      else some k.key

/-- The Crock system area can be written (R334, R461). -/
def Chip.storeReady (c : Chip) : Bool := c.crock.state == .ready

/-- Write a slot's blob to the Crock system area; WRAP_SALT is created at the first (R461). A recipe is wrapped without the measurement
digest, so that R462 can read it under other measurements (DEDUCED). -/
def Chip.storeSlot (c : Chip) (i : Nat) : Chip :=
  match c.kslot i with
  | none => c
  | some k =>
    let c := match c.csys.salt with
      | some _ => c
      | none => ({ c with csys := { c.csys with salt := some (c.freshBytes 32) } }).nextFresh
    let gen := (c.csys.blobs.foldl (fun m e => Nat.max m (fld e.2 8 4)) c.keys.gen) + 1
    let k := { k with gen }
    let b := k.blob i (if k.origin = 1 then 1 else 0) gen (c.storeKey (c.csys.salt.getD []) (k.meas && k.origin != 1))
    let c := c.setKeys fun s => { s with gen, slots := s.slots.set i k }
    { c with csys := { c.csys with blobs := c.csys.blobs.set i b } }

/-! ### The sending side of the management channel (R132) -/

/-- Queue a packet for a trunk's management channel in segments of 60 bytes. -/
def Chip.mgmtSend (c : Chip) (n mtype : Nat) (b : Bytes) : Chip :=
  let ps := pieces 60 (Nat.max 1 ((b.length + 59) / 60)) b
  let segs : List MgmtSeg := ps.zipIdx.map fun e =>
    { mtype, first := e.2 == 0, last := e.2 + 1 == ps.length, payload := e.1 }
  let f := c.frmOf n
  c.setFrm n { f with mgmtQ := f.mgmtQ ++ segs }

/-! ### The handshake (R466 to R469) -/

/-- A handshake message (Table 19.10). -/
def kxMsg (htype : Nat) (body : Bytes) : Bytes := le 1 htype ++ zeros 1 ++ le 2 body.length ++ body

/-- Begin an exchange: KX_HELLO goes out at once (R466). -/
def Chip.kxStart (c : Chip) (n : Nat) (fresh : Bool) : Chip :=
  let x := c.sealOf n
  let nonce := c.freshBytes 32
  let c := c.nextFresh
  let eph := p384Scalar (c.freshBytes 56)
  let c := c.setKeys fun k => { k with pairFailed := k.pairFailed || !Config.pairwisePass c.clk.fresh }
  let c := c.nextFresh
  let hello := kxMsg 1 (le 1 1 ++ le 1 x.cfg.mode ++ zeros 2 ++ nonce ++ sliceB (Config.p384Pub eph) 0 97)
  let x := { x with phase := .hello, fresh, myHello := hello, peerHello := [], myCert := [], peerCert := [], eph, fin := [], newKeys := none,
                    helloHash := [] }
  (c.setSeal n x).mgmtSend n 4 hello

/-- PEER_AUTH's event (chapter 19, key events). -/
def Chip.postPeerAuth (c : Chip) (n reason : Nat) (auth unchecked anon : Bool) : Chip :=
  c.post 0x0E01 reason (n + 256 * b2n auth + 512 * b2n unchecked + 1024 * b2n anon)

/-- An end refuses its peer or gives up: KX_ALERT is sent and PEER_AUTH posted (R466, R467). -/
def Chip.kxRefuse (c : Chip) (n reason : Nat) (alert : Bool := true) : Chip :=
  let x := c.sealOf n
  let x := { x with phase := .refused, reason, eph := [], fin := [], newKeys := none,
                    authentic := x.fresh && x.authentic, anonymous := x.fresh && x.anonymous,
                    complete := x.fresh && x.complete }
  let c := c.setSeal n x
  let c := if alert then c.mgmtSend n 4 (kxMsg 4 (le 2 reason)) else c
  let c := c.postPeerAuth n reason false false false
  match x.rekey with
  | some h =>
    if x.fresh then (c.setSeal n { c.sealOf n with rekey := none }).complete h (if reason = 0x0E15 then stTimeout else stCertFail) reason 0 else c
  | none => c

/-- Epoch 0 of a handshake: Z, the transcript hash of both hellos (R468). The last 48 bytes are FINISH. -/
def epochZero (z th : Bytes) (initiator : Bool) : LinkKeys × Bytes :=
  let k := kdf z (ascii "UNXUS KX") th 1280
  let ir := sliceB k 0 32
  let ri := sliceB k 32 32
  ({ epoch := 0, kTx := if initiator then ir else ri, kRx := if initiator then ri else ir, chain := sliceB k 64 48 }, sliceB k 112 48)

/-- The next epoch (R468). -/
def LinkKeys.next (k : LinkKeys) (initiator : Bool) : LinkKeys :=
  let o := kdf k.chain (ascii "UNXUS REKEY") (be 4 (k.epoch + 1)) 896
  let ir := sliceB o 0 32
  let ri := sliceB o 32 32
  { epoch := k.epoch + 1, kTx := if initiator then ir else ri, kRx := if initiator then ri else ir, chain := sliceB o 64 48 }

/-- The transcript hash over all four messages (R466). -/
def Seal.transcript (x : Seal) : Bytes :=
  sliceB (Config.sha384 (if x.initiator then x.myHello ++ x.peerHello ++ x.myCert ++ x.peerCert
    else x.peerHello ++ x.myHello ++ x.peerCert ++ x.myCert)) 0 48

/-- The bytes that a PROOF signs, for role byte `role` (Table 19.10). -/
def Seal.proofInput (x : Seal) (role : Nat) : Bytes := sliceB (Config.sha384 (x.transcript ++ le 1 role)) 0 48

/-- PEER_AUTH's certificate chain checks (R467): the anchor matched, or the reason of refusal. -/
def Chip.chainCheck (c : Chip) (x : Seal) (chain : Bytes) : Option Nat × Nat :=
  let root := sliceB (Config.sha384 (Config.chainRoot chain)) 0 48
  if chain.length > 12288 || !Config.chainVerifies chain then (none, 0x0E12)
  else match (List.range 8).find? fun i => bitOf x.cfg.anchors i && c.keys.anchors.find i == some root with
    | some i => (some i, 0)
    | none => (none, 0x0E13)

/-- The trunk qualifies for sealing (R469): Unxus 2, both LINK_CAPS carry sealing, and either KX_HELLO wanted it. -/
def Chip.sealQualifies (c : Chip) (n : Nat) : Bool :=
  let x := c.sealOf n
  let l := c.laneOf n
  decide (l.revision = 2) && (match l.caps with | some k => bitOf k.features 0 | none => false) && (x.cfg.mode == 1 || x.peerWants)

/-- A REKEY is past its commit point: its change has been announced (R474). -/
def Chip.commitRekey (c : Chip) (h : Option Nat) : Chip := match h with | some h => c.commitPoint h | none => c

/-- The handshake is complete at this end: the first sealed turn is named nine turns ahead, or for a fresh exchange the change turn. -/
def Chip.kxDone (c : Chip) (n : Nat) : Chip :=
  let x := c.sealOf n
  match x.newKeys with
  | none => c
  | some k =>
    if !c.sealQualifies n then c.setSeal n { x with phase := .done, complete := true, fin := [] }
    else if x.fresh && x.keys.isSome then
      c.setSeal n { x with phase := .done, complete := true, fin := [], newKeys := none, next := some (k, (c.turn + 9) % 2 ^ 48) }
        |>.commitRekey x.rekey
    else c.setSeal n { x with phase := .done, complete := true, fin := [], newKeys := none, keys := some k, txFirst := some ((c.turn + 9) % 2 ^ 48) }

/-- This end's proof goes out (Table 19.10). -/
def Chip.kxProof (c : Chip) (n : Nat) (lifecycle : Nat) : Chip :=
  let x := c.sealOf n
  let inp := x.proofInput (if x.initiator then 0 else 1)
  let sig := if identityOk lifecycle then sliceB (Config.ecdsaSign c.identityKey inp c.clk.fresh) 0 96 else zeros 96
  let c := (c.setSeal n { x with phase := .proof }).nextFresh
  c.mgmtSend n 4 (kxMsg 3 (sig ++ sliceB (Config.hmac384 x.fin inp) 0 48))

/-- A KX_HELLO has arrived (R466). -/
def Chip.kxHello (c : Chip) (n : Nat) (m : Bytes) : Chip :=
  let c := if (c.sealOf n).phase == .hello then c else c.kxStart n ((c.sealOf n).sealedOn)
  let x := c.sealOf n
  let a := beNat (sliceB x.myHello 8 32)
  let b := beNat (sliceB m 8 32)
  if a = b then c.kxStart n x.fresh
  else
    let initiator := decide (a < b)
    let z := sliceB (Config.ecdh x.eph (sliceB m 40 97)) 0 48
    let th := sliceB (Config.sha384 (if initiator then x.myHello ++ m else m ++ x.myHello)) 0 48
    let k := epochZero z th initiator
    let cert := kxMsg 2 (sliceB c.flash.idcert 4 (fld c.flash.idcert 0 4))
    let x := { x with phase := .cert, peerHello := m, initiator, eph := [], newKeys := some k.1, fin := k.2, helloHash := th, myCert := cert,
                      peerWants := (nth 0 m 5).toNat == 1 }
    (c.setSeal n x).mgmtSend n 4 cert

/-- The trunk's command session begins when its peer is authenticated (R37); a fresh exchange leaves it as it is. -/
def Chip.peerSession (c : Chip) (n : Nat) : Chip :=
  let k := (trunkSession n).key
  if (c.cmd.sessions.find k).isSome then c else { c with cmd := { c.cmd with sessions := c.cmd.sessions.set k {} } }

/-- A KX_PROOF has arrived: the peer is accepted or refused (R467). -/
def Chip.kxPeerProof (c : Chip) (n : Nat) (m : Bytes) : Chip :=
  let x := c.sealOf n
  let chain := x.peerCert.drop 4
  let inp := x.proofInput (if x.initiator then 1 else 0)
  let ck := c.chainCheck x chain
  let anon := ck.1.isNone && ck.2 == 0x0E13 && x.cfg.anonOk && !c.approved
  let proof := Config.ecdsaVerify (Config.chainLeaf chain) inp (sliceB m 4 96) && sliceB m 100 48 == sliceB (Config.hmac384 x.fin inp) 0 48
  if ck.1.isNone && !anon then c.kxRefuse n ck.2
  else if !proof then c.kxRefuse n 0x0E14
  else if !c.timeSet && x.cfg.requireTime then c.kxRefuse n 0x0E18
  else if c.timeSet && !Config.chainValidAt chain (c.clk.localPs / 10 ^ 12) then c.kxRefuse n 0x0E18
  else
    let c := c.setSeal n { x with authentic := !anon, anonymous := anon, peer := ck.1.getD 0xFF, reason := 0 }
    let c := if anon then c else c.peerSession n
    (c.postPeerAuth n 0 (!anon) (!c.timeSet) anon).kxDone n

/-- A handshake message from the peer (R466, Table 19.10). -/
def Chip.kxRx (c : Chip) (n lifecycle : Nat) (m : Bytes) : Chip :=
  let x := c.sealOf n
  if !x.cfg.auth then c
  else if fld m 2 2 > 12292 then c.kxRefuse n 0x0E12
  else match fld m 0 1 with
    | 1 => c.kxHello n m
    | 2 =>
      if x.phase == .cert then (c.setSeal n { x with peerCert := m }).kxProof n lifecycle else c
    | 3 => if x.phase == .proof then c.kxPeerProof n m else c
    | 4 => c.kxRefuse n (fld m 4 2) false
    | _ => c

/-- The front operation of the queue is started, and so past its commit point. -/
def Chip.cryptoStart (c : Chip) : Chip := match c.keys.jobs with | [] => c | j :: _ => c.commitPoint j.handle

end Sys2Proof.Machine
end

