-- ==== Sys2Proof/Machine/LegacyOps.lean ====
section
/-!
DEFINITION. Chapter 16: bus cycles, requests and tags, poisoning, prefetch, trivets, atomics and the ends of LEGACY tunnels, as the rows and
the fabric use them.
-/
namespace Sys2Proof.Machine

/-- Change the bridge. -/
def Chip.setLeg (c : Chip) (f : Legacy → Legacy) : Chip := { c with leg := f c.leg }
/-- An outbound window. -/
def Chip.legWin (c : Chip) (i : Nat) : LegWin := c.leg.wins.get {} i
/-- An outbound window's poisoning and counts. -/
def Chip.legHealth (c : Chip) (i : Nat) : LegHealth := c.leg.health.get {} i
/-- Change them. -/
def Chip.setHealth (c : Chip) (i : Nat) (f : LegHealth → LegHealth) : Chip := c.setLeg fun l => { l with health := l.health.set i (f (c.legHealth i)) }
/-- Add to counter `i` of LEGACY_STATUS. -/
def Chip.legCount (c : Chip) (i d : Nat) : Chip := c.setLeg fun l => { l with cnt := l.cnt.set i (sat32 (l.cnt.get 0 i) d) }
/-- The window is POISONED. -/
def Chip.poisoned (c : Chip) (i : Nat) : Bool := (c.legHealth i).poisoned.isSome
/-- The bridge drives a bus: the role is HUB, the LEGACY island runs and MODE is not off (R377). -/
def Chip.legOn (c : Chip) : Bool := c.inRole .hub && c.dev.islands.contains 10 && c.leg.cfg.mode != 0
/-- Strobe mode. -/
def Chip.strobe (c : Chip) : Bool := c.leg.cfg.mode == 2
/-- The bridge is system controller. -/
def Chip.syscon (c : Chip) : Bool := c.leg.cfg.mode == 1 && bitOf c.leg.cfg.sysflags 0

/-! ### Modifiers and cycles (R380, R383, R389) -/

/-- Single-cycle modifiers of Table 16.2. -/
def amOk (am : Nat) : Bool := [0x09, 0x0D, 0x39, 0x3D, 0x29, 0x2D].contains am
/-- Address bits of a modifier's space. -/
def amSpace (am : Nat) : Nat := if am / 16 = 0 then 32 else if am / 8 = 5 then 16 else 24
/-- The modifier of a single-cycle or block modifier without its block type: 0x08 to 0x0B give 0x09. -/
def amSingle (am : Nat) : Nat := if am / 8 = 5 then am else am / 4 * 4 + 1
/-- Block type of a modifier: 0 single, 1 BLT, 2 MBLT. -/
def amBlock (am : Nat) : Nat := if am / 8 = 5 then 0 else if am % 4 = 3 then 1 else if am % 4 = 0 then 2 else 0
/-- The modifier is one of Table 16.2. -/
def amKnown (am : Nat) : Bool := amOk am || (amOk (amSingle am) && amBlock am != 0)

/-- Single cycles of up to `w` bytes over `n` bytes from `a`: D08 and D16 where the address or the rest is not aligned. -/
def singles (am w : Nat) : Nat → Nat → Nat → List LegCycle
  | 0, _, _ => []
  | fuel + 1, a, n =>
    if n = 0 then []
    else
      let k := if w ≥ 4 && a % 4 = 0 && n ≥ 4 then 4 else if w ≥ 2 && a % 2 = 0 && n ≥ 2 then 2 else 1
      { am, addr := a, n := k } :: singles am w fuel (a + k) (n - k)

/-- The aligned body of a WIDTH 3 window: a BLT for each part of 8 bytes or more within one 256-byte block. -/
def bltBody (am : Nat) : Nat → Nat → Nat → List LegCycle
  | 0, _, _ => []
  | fuel + 1, a, n =>
    if n = 0 then []
    else
      let k := Nat.min n (256 - a % 256)
      (if k ≥ 8 then [{ am := am + 2, addr := a, n := k }] else singles am 4 k a k) ++ bltBody am fuel (a + k) (n - k)

/-- Cycles of a WIDTH 3 window. -/
def split3 (am a n : Nat) : List LegCycle :=
  let head := Nat.min n ((4 - a % 4) % 4)
  let body := (n - head) / 4 * 4
  singles am 4 head a head ++ bltBody am body (a + head) body ++ singles am 4 (n - head - body) (a + head + body) (n - head - body)

/-- Cycles of a WIDTH 4 window: an MBLT for each part of 16 bytes or more, aligned to 8, within one 2,048-byte block. -/
def split4 (am : Nat) : Nat → Nat → Nat → List LegCycle
  | 0, _, _ => []
  | fuel + 1, a, n =>
    if n = 0 then []
    else
      let k := Nat.min n (2048 - a % 2048)
      let head := Nat.min k ((8 - a % 8) % 8)
      let m := (k - head) / 8 * 8
      (if m ≥ 16 then split3 am a head ++ [{ am := am - 1, addr := a + head, n := m }] ++ split3 am (a + head + m) (k - head - m) else split3 am a k)
        ++ split4 am fuel (a + k) (n - k)

/-- The cycles of `n` bytes from bus address `a` (R389); A16 has no block modifiers, and strobe mode has widths of 8 and 16 bits only. -/
def splitCycles (strobe : Bool) (w : LegWin) (a n : Nat) : List LegCycle :=
  if strobe then singles 0 (if w.width = 0 then 1 else 2) n a n
  else if w.width = 0 then singles w.am 1 n a n
  else if w.width = 1 then singles w.am 2 n a n
  else if w.width = 2 || amSpace w.am = 16 then singles w.am 4 n a n
  else if w.width = 3 then split3 w.am a n
  else split4 w.am n a n

/-! ### Transceivers (R377, R378) -/

/-- Set transceiver `k` to a direction, or deassert it: its direction changes only while its enable is deasserted. -/
def Chip.setVx (c : Chip) (k : Nat) (want : Option Bool) : Chip :=
  let v := c.leg.vx
  let on := nth false v.oe k
  match want with
  | none => if on then (c.setLeg fun l => { l with vx := { v with oe := updAt (fun _ => false) v.oe k } }).drive (.vxOe k) 0 else c
  | some d =>
    if on && nth false v.dir k == d then c
    else
      let c := if on then (c.setLeg fun l => { l with vx := { v with oe := updAt (fun _ => false) v.oe k } }).drive (.vxOe k) 0 else c
      let v := c.leg.vx
      let c := if nth false v.dir k == d then c else (c.setLeg fun l => { l with vx := { v with dir := updAt (fun _ => d) v.dir k } }).drive (.vxDir k) (b2n d)
      let v := c.leg.vx
      (c.setLeg fun l => { l with vx := { v with oe := updAt (fun _ => true) v.oe k } }).drive (.vxOe k) 1

/-- Address and control toward the bus as its owner, else listening; data in the given direction. -/
def Chip.vxFor (c : Chip) (master : Bool) (data : Option Bool) : Chip := ((c.setVx 1 data).setVx 0 (some master)).setVx 2 (some master)

/-! ### The bus (R379, R398) -/

/-- Ask for the bus. -/
def Chip.busRequest (c : Chip) : Chip :=
  if c.leg.requesting || c.leg.backedOff then c
  else (c.setLeg fun l => { l with requesting := true }).drive (.vmeBrq c.leg.cfg.brLevel) 1

/-- Let the bus go. -/
def Chip.busRelease (c : Chip) : Chip :=
  if !c.leg.owned then c
  else (c.setLeg fun l => { l with owned := false }).drive .vmeBbsy 0 |>.vxFor false none

/-- The highest level that another master requests and the arbiter serves: level 3 alone under SGL. -/
def Legacy.wanted (l : Legacy) : Option Nat :=
  if bitOf l.cfg.sysflags 1 then [3, 2, 1, 0].find? fun k => bitOf l.brqOthers k else if bitOf l.brqOthers 3 then some 3 else none

/-- As system controller the bridge grants a free bus to the highest level asked for, its own request winning at its level, and under PRI asserts
VME_BCLR_L for a level above the one granted. -/
def Chip.arbitrate (c : Chip) : Chip :=
  let l := c.leg
  match (if c.syscon then l.wanted else none) with
  | none => c
  | some k =>
    if !l.bbsy && !l.owned then
      if l.requesting && l.cfg.brLevel ≥ k then c
      else (c.setLeg fun l => { l with grantedTo := some k }).drive (.vmeBgo k) 1
    else if bitOf l.cfg.sysflags 1 && decide (k > l.grantedTo.getD l.cfg.brLevel) then c.drive .vmeBclr 1
    else c

/-! ### Prefetch lines (R394 to R396) -/

/-- Discard the lines that satisfy `p`: each that still holds bytes is counted and remembered. -/
def Chip.dropLines (c : Chip) (p : LegLine → Bool) : Chip :=
  let gone := c.leg.lines.filter fun x => p x && !x.bytes.isEmpty
  let c := c.setLeg fun l => { l with lines := l.lines.filter fun x => !p x, ring := ((gone.map (·.addr)).reverse ++ l.ring).take 16 }
  c.legCount 4 gone.length

/-- Keep prefetched bytes in a line, the newest last; beyond 16 lines the least recently used is replaced. -/
def Chip.keepLine (c : Chip) (x : LegLine) : Chip :=
  if x.bytes.isEmpty then c
  else
    let c := match c.leg.lines with
      | old :: _ => if c.leg.lines.length ≥ 16 then c.dropLines (· == old) else c
      | [] => c
    c.setLeg fun l => { l with lines := l.lines ++ [x] }

/-- Bus address of a request's first byte. -/
def LegReq.addr (r : LegReq) : Nat := r.win.base + r.off

/-- The line that holds a whole read. -/
def Chip.lineFor (c : Chip) (r : LegReq) : Option LegLine :=
  if r.op != 1 || r.parts != [(0, r.len)] then none
  else c.leg.lines.find? fun x => x.win == r.idx && x.space == amSpace r.win.am &&
    (List.range r.len).all fun i => x.bytes.any fun b => b.1 == r.addr + i

/-- The bytes a line gives a read, and the line without them. -/
def LegLine.serve (x : LegLine) (a n : Nat) : Bytes × LegLine :=
  ((List.range n).map fun i => match x.bytes.find? fun b => b.1 == a + i with | some b => b.2 | none => 0,
   { x with bytes := x.bytes.filter fun b => !(decide (a ≤ b.1) && decide (b.1 < a + n)) })

/-! ### Answers (R387, R393, R400, R404) -/

/-- The header of a response (Table 16.4). -/
def legHeader (st reason len done fail owner : Nat) : Bytes := be 2 st ++ be 2 reason ++ be 2 len ++ be 2 done ++ be 4 fail ++ be 2 owner ++ zeros 2

/-- A response leaves on the request tunnel's partner, or is dropped and counted (R405). -/
def Chip.legSend (c : Chip) (tid xtag : Nat) (b : Bytes) : Chip :=
  let p := (c.tunOf tid).partner
  let t := c.tunOf p
  if (t.state == .open || t.state == .closing) && t.index == 0 && t.inPort == 9 then
    (msgCells p 0 xtag false b).foldl (fun c x => c.pushSrc 9 x) c
  else c.legCount 7 1

/-- A request is done: its client is answered, unless it was posted or its reply is discarded; its tag is free. -/
def Chip.legFinish (c : Chip) (r : LegReq) (st reason : Nat) (fail owner : Nat := 0) : Chip :=
  let c := c.setLeg fun l => { l with q := l.q.filter fun x => x.tag != r.tag, running := if r.started then false else l.running }
  if r.posted then c
  else if r.drop then c.legCount 7 (if r.client < 0x1000 then 1 else 0)
  else if r.client ≥ 0x1000 then
    c.emit (if st = stBusy then .apertureCpl (r.client - 0x1000) r.xtag 4 [] else .apertureCpl (r.client - 0x1000) r.xtag 0 r.buf)
  else
    let data := if r.op = 1 || (r.op = 3 && (st = stOk || st = stAborted || st = stTimeout || reason = 0x0B04)) then r.buf else []
    c.legSend r.client r.xtag (legHeader st reason data.length r.done fail owner ++ data)

/-- Owner code reported for a trivet: 0xFFFF FREE. -/
def Chip.trivetOwner (c : Chip) (n : Nat) : Nat := c.leg.trivets.get 0xFFFF n
/-- Take a trivet for an owner code: only a FREE one (R399). -/
def Chip.trivetTake (c : Chip) (n who : Nat) : Chip × Bool :=
  if (c.leg.trivets.find n).isSome then (c, false) else (c.setLeg fun l => { l with trivets := l.trivets.set n who }, true)
/-- Make a trivet FREE. -/
def Chip.trivetFree (c : Chip) (n : Nat) : Chip := c.setLeg fun l => { l with trivets := l.trivets.erase n }
/-- Release every trivet of an owner code. -/
def Chip.trivetsOf (c : Chip) (who : Nat) : Chip := c.setLeg fun l => { l with trivets := l.trivets.filter fun e => e.2 != who }

/-- An atomic gives its trivet back unless the requester held it before, or its hold has expired (R399, R400). -/
def Chip.atomicEnd (c : Chip) (r : LegReq) : Chip :=
  if r.tookTrivet && c.trivetOwner r.win.trivet == r.client then c.trivetFree r.win.trivet else c

/-! ### Poisoning (R391, R392) -/

/-- A posted write to a POISONED window is discarded. -/
def Chip.discardWrite (c : Chip) (i : Nat) : Chip := (c.setHealth i fun h => { h with discarded := sat32 h.discarded 1 }).legCount 2 1

/-- The window becomes POISONED: posted writes to it that hold tags are discarded, its other requests will complete without a cycle, its
prefetch lines are gone, and WINDOW_POISONED is posted. -/
def Chip.poison (c : Chip) (i addr tag cause : Nat) : Chip :=
  if c.poisoned i then c
  else
    let c := (c.setHealth i fun h => { h with poisoned := some { addr, tag, cause, turn := c.turn } }).dropLines fun x => x.win == i
    let posted := fun (r : LegReq) => r.idx == i && r.op == 2 && r.posted && !r.started
    let n := (c.leg.q.filter posted).length
    let c := (List.range n).foldl (fun c _ => c.discardWrite i) c
    let c := c.setLeg fun l => { l with q := (l.q.filter fun r => !posted r).map fun (r : LegReq) =>
      if r.idx = i && (r.op = 1 || r.op = 2 || r.op = 3) && !r.started then { r with dead := true } else r }
    c.postVi (c.legWin i).owner 0x0B01 (if cause = 4 then 0x0B12 else 0x0B00 + cause) (i + 256 * tag + addr % 2 ^ 32 * 2 ^ 32)

/-- A request to a POISONED window completes without a cycle; an aperture completion counts in READ_ERRORS (R392). -/
def Chip.legDead (c : Chip) (r : LegReq) : Chip :=
  let c := if r.op = 2 || r.client < 0x1000 then c else (c.setHealth r.idx fun h => { h with readErrors := sat32 h.readErrors 1 }).legCount 3 1
  c.legFinish { r with buf := if r.op = 2 then [] else List.replicate r.buf.length 0xFF } stState 0x0B04

/-! ### Running requests (R387, R389, R393, R395, R400) -/

/-- Cycles of a request's data part, with prefetch when its window asks for it. -/
def Chip.planCycles (c : Chip) (r : LegReq) : List LegCycle :=
  if r.op = 1 && r.win.prefetch && r.parts == [(0, r.len)] then
    let lo := r.addr / 256 * 256
    let hi := Nat.min ((r.addr + r.len + 255) / 256 * 256) (r.win.base + r.win.size)
    splitCycles c.strobe r.win lo (hi - lo)
  else (r.parts.map fun p => splitCycles c.strobe r.win (r.addr + p.1) p.2).flatten

/-- The data a write cycle carries. -/
def LegReq.out (r : LegReq) (k : LegCycle) : Bytes := sliceB r.data (k.addr - r.addr) k.n

/-- An atomic runs as one read-modify-write cycle (R400). -/
def Chip.rmwCycle (c : Chip) (r : LegReq) : Bool :=
  r.op == 3 && !c.strobe && r.win.rmw && (splitCycles false { r.win with width := Nat.min r.win.width 2 } r.addr r.len).length == 1

/-- Begin a request's next cycle. -/
def Chip.startCycle (c : Chip) (r : LegReq) (k : LegCycle) : Chip :=
  let w := r.op == 2 || r.writing
  let c := c.setLeg fun l => { l with running := true, q := l.q.map fun (x : LegReq) => if x.tag = r.tag then { r with started := true } else x }
  (c.vxFor true (some w)).emit (.vmeCycle k.am k.addr k.n (c.rmwCycle r) (if w then some (r.out k) else none))

/-- Serve requests in tag order until one needs a cycle, the bus or a trivet. -/
def Chip.legRun (c : Chip) : Nat → Chip
  | 0 => c
  | fuel + 1 =>
    if c.leg.running || c.leg.sysreset || !c.legOn then c
    else match c.leg.q with
      | [] => if c.leg.cfg.release = 0 then c.busRelease else c
      | r :: _ =>
        if r.op = 4 then
          let t := c.trivetTake r.idx r.client
          (t.1.legFinish r (if t.2 then stOk else stBusy) (if t.2 then 0 else 0x0B08) 0 (t.1.trivetOwner r.idx)).legRun fuel
        else if r.op = 5 then
          if c.trivetOwner r.idx = r.client then ((c.trivetFree r.idx).legFinish r stOk 0 0 0xFFFF).legRun fuel
          else (c.legFinish r stState 0x0B09 0 (c.trivetOwner r.idx)).legRun fuel
        else if r.dead then ((c.atomicEnd r).legDead r).legRun fuel
        else match (if r.started then none else c.lineFor r) with
          | some x =>
            let d := x.serve r.addr r.len
            let c := c.setLeg fun l => { l with lines := (l.lines.filter (· != x)) ++ (if d.2.bytes.isEmpty then [] else [d.2]) }
            (c.legFinish { r with buf := d.1, done := r.len } stOk 0).legRun fuel
          | none =>
            let hold : Chip × LegReq × Bool :=
              if r.op != 3 || r.hasTrivet then (c, r, true)
              else if c.trivetOwner r.win.trivet = r.client then (c, { r with hasTrivet := true }, true)
              else
                let t := c.trivetTake r.win.trivet r.client
                (t.1, { r with hasTrivet := t.2, tookTrivet := t.2 }, t.2)
            let c := hold.1
            let r := hold.2.1
            if !hold.2.2 then c
            else
              let r := if r.started then r else { r with cycles := c.planCycles r }
              let c := c.setLeg fun l => { l with q := l.q.map fun (x : LegReq) => if x.tag = r.tag then r else x }
              match r.cycles with
              | [] => ((c.atomicEnd r).legFinish r stOk 0).legRun fuel
              | k :: _ => if c.strobe || c.leg.owned then c.startCycle r k else c.busRequest

/-- Serve what can be served. -/
def Chip.legKick (c : Chip) : Chip := c.legRun (c.leg.q.length + 1)

/-- The bus goes after a request under RWD, or when another master asks under ROR; an atomic's cycles keep it. -/
def Chip.afterCycle (c : Chip) (ended locked : Bool) : Chip :=
  let l := c.leg
  if locked then c
  else if (l.cfg.release = 0 && ended) || (l.cfg.release = 1 && (l.brqOthers != 0 || l.bclr)) then c.busRelease.arbitrate else c

/-- The number a string of bytes spells for a requester: little-endian on PCIe, most significant first in a message (DESIGN CHOICE). -/
def LegReq.num (r : LegReq) (b : Bytes) : Nat := if r.client ≥ 0x1000 then leNat b else beNat b
/-- The bytes of a number for a requester. -/
def LegReq.spell (r : LegReq) (x : Nat) : Bytes := if r.client ≥ 0x1000 then le r.len x else be r.len x

/-- What an atomic writes: nothing when a CAS does not match. -/
def LegReq.atomicNew (r : LegReq) : Option Bytes :=
  let old := r.num r.buf
  if r.atop = 0 then some (r.spell ((old + r.num (sliceB r.data 0 r.len)) % 2 ^ (8 * r.len)))
  else if r.atop = 1 then some (sliceB r.data 0 r.len)
  else if old = r.num (sliceB r.data 0 r.len) then some (sliceB r.data r.len r.len) else none

/-- Bytes that a read cycle brought: requested ones go to the requester, others to the line. -/
def LegReq.took (r : LegReq) (k : LegCycle) (data : Bytes) : LegReq :=
  data.zipIdx.foldl (fun (r : LegReq) e =>
    let a := k.addr + e.2
    if r.addr ≤ a && a < r.addr + r.len then { r with buf := updAt (fun _ => e.1) r.buf (a - r.addr), done := r.done + 1 }
    else if r.preStop then r else { r with pre := r.pre ++ [(a, e.1)] }) r

/-- A cycle covers a requested byte. -/
def LegReq.covers (r : LegReq) (k : LegCycle) : Bool := decide (k.addr < r.addr + r.len) && decide (r.addr < k.addr + k.n)

/-- Prefetched bytes become a line for each 256-byte block. -/
def Chip.keepPre (c : Chip) (r : LegReq) : Chip :=
  let lo := r.addr / 256
  (List.range ((r.addr + r.len + 255) / 256 - lo)).foldl (fun (c : Chip) i =>
    c.keepLine { win := r.idx, space := amSpace r.win.am, addr := 256 * (lo + i), bytes := r.pre.filter fun b => b.1 / 256 == lo + i }) c

/-- The cycle on the bus is over: the data transceivers stay toward the bus no longer (R378). -/
def Chip.cycleOver (c : Chip) : Chip := (c.setLeg fun l => { l with running := false }).setVx 1 none

/-- The first request's cycle has ended without acknowledge, with `data` read before the failure: 1 BERR, 2 BUS_TIMEOUT, 3 READY_TIMEOUT,
4 BUS_RESET. -/
def Chip.cycleFailed (c : Chip) (r : LegReq) (k : LegCycle) (rest : List LegCycle) (cause : Nat) (data : Bytes) : Chip :=
  let c := if cause = 1 then c.legCount 0 1 else if cause = 4 then c else c.legCount 1 1
  let c := c.cycleOver
  let r := { r with cycles := rest }
  if r.op = 1 && !r.covers k then
    let r := { r.took k (data.take k.n) with preStop := true, cycles := rest.filter fun x => r.covers x }
    let c := c.setLeg fun l => { l with q := l.q.map fun (x : LegReq) => if x.tag = r.tag then r else x }
    if r.cycles.isEmpty then ((c.keepPre r).legFinish r stOk 0).afterCycle true false |>.legKick
    else (c.afterCycle false false).legKick
  else
    let r := if r.op = 2 || r.writing then r else r.took k (data.take k.n)
    let c :=
      if r.posted then (c.legFinish r stOk 0).poison r.idx k.addr r.tag cause
      else
        let c := if r.op = 1 && r.client ≥ 0x1000 && !r.drop || r.op = 3 && r.client ≥ 0x1000 then
            c.postVi r.win.owner 0x0B03 (if cause = 4 then 0x0B12 else 0x0B00 + cause) (r.idx + k.addr % 2 ^ 32 * 2 ^ 32) else c
        let c := if r.op = 2 then c else c.legCount 3 1
        let c := c.atomicEnd r
        c.legFinish r (if cause = 1 || cause = 4 then stAborted else stTimeout) (if cause = 4 then 0x0B12 else 0x0B00 + cause) (k.addr % 2 ^ 32)
    (c.afterCycle true false).legKick

/-- The cycle on the bus has ended: acknowledged with `data`, or failed. -/
def Chip.cycleEnd (c : Chip) (cause : Option Nat) (data : Bytes) : Chip :=
  if !c.leg.running then c
  else match c.leg.q with
    | [] => c.setLeg fun l => { l with running := false }
    | r :: _ =>
      match r.cycles with
      | [] => c.setLeg fun l => { l with running := false }
      | k :: rest =>
        match cause with
        | some w => c.cycleFailed r k rest w data
        | none =>
          let c := c.cycleOver
          let wr := r.op == 2 || r.writing
          let r := if wr then { r with done := if r.op = 2 then r.done + k.n else r.done } else r.took k (sliceB data 0 k.n)
          let r := { r with cycles := rest }
          let put := fun (c : Chip) (r : LegReq) => c.setLeg fun l => { l with q := l.q.map fun (x : LegReq) => if x.tag = r.tag then r else x }
          if !rest.isEmpty then ((put c r).afterCycle false (r.op == 3)).legKick
          else if r.op = 3 && !r.writing then
            match r.atomicNew with
            | some b => (put c { r with writing := true, data := b, cycles := splitCycles c.strobe r.win r.addr r.len }).legKick
            | none => (((c.atomicEnd r).legFinish r stOk 0).afterCycle true false).legKick
          else
            let c := (c.atomicEnd r).keepPre r
            ((c.legFinish r stOk 0).afterCycle true false).legKick

/-! ### Requests arrive (R385, R387, R390, R392, R396) -/

/-- Tags in use, with those kept for messages that assemble at F9. -/
def Legacy.tagsKept (l : Legacy) : Nat := l.q.length + l.asm.length
/-- The lowest free tag. -/
def Legacy.freeTag (l : Legacy) : Nat := ((List.range 64).find? fun t => !l.q.any fun r => r.tag == t).getD 0

/-- A request takes a tag and joins the queue: writes make overlapping prefetch lines void; one that needs no cycle and that no earlier request
of its requester precedes is served at once. -/
def Chip.legAccept (c : Chip) (r : LegReq) : Chip :=
  let r := { r with tag := c.leg.freeTag, dead := r.dead || ((r.op = 1 || r.op = 2 || r.op = 3) && c.poisoned r.idx) }
  if r.dead && r.op = 2 && r.posted then c.discardWrite r.idx
  else
    let c := if r.op = 2 || r.op = 3 then
        c.dropLines fun x => x.space == amSpace r.win.am && x.bytes.any fun b => decide (r.addr ≤ b.1) && decide (b.1 < r.addr + r.len) else c
    let first := !c.leg.q.any fun x => x.client == r.client
    let c := c.setLeg fun l => { l with q := l.q ++ [r] }
    let c := if !first || !c.legOn then c
      else if r.dead then c.legDead r
      else match c.lineFor r with
        | some x =>
          let d := x.serve r.addr r.len
          (c.setLeg fun l => { l with lines := (l.lines.filter (· != x)) ++ (if d.2.bytes.isEmpty then [] else [d.2]) }).legFinish
            { r with buf := d.1, done := r.len } stOk 0
        | none => c
    c.legKick

/-- The buffer for a read or atomic: 0xFF where a byte is not yet read, 0 where a gatekeeper denies it. -/
def legBuf (len : Nat) (parts : List (Nat × Nat)) : Bytes :=
  (List.range len).map fun i => if parts.any fun p => decide (p.1 ≤ i) && decide (i < p.1 + p.2) then 0xFF else 0

/-! ### Opens at F9 (R403) -/

/-- F9's answer to an OPEN. -/
def Chip.f9Answer (c : Chip) (tid partner oflags : Nat) (params : Bytes) : Option (Nat × Nat) :=
  let kind := fld params 0 1
  let p := c.tunOf partner
  let used := !(c.tids fun i t => i != tid && t.state.live && t.index == t.hops && t.outPort == 9 && t.partner == partner).isEmpty
  if kind > 1 then some (stParam, 0)
  else if !bitOf oflags 2 || !bitOf oflags 3 || p.state != .open || p.index != 0 || p.inPort != 9 || p.ty != 5 || used
      || (kind == 1 && nth 0xFF p.route p.hops != 4) then some (stNoResource, 0x0B0B)
  else if kind = 0 && c.leg.grants.get 0 tid = 0 then some (stNoResource, 0x0B07)
  else none

/-- A tunnel that ended at F9, or carried inbound requests to F4, has gone (R399, R405): requests not on the bus are gone, replies of others are
discarded, its trivets are FREE. -/
def Chip.legGone (c : Chip) (tid : Nat) : Chip :=
  let t := c.tunOf tid
  let c := c.setLeg fun l => { l with asm := l.asm.erase tid }
  if t.outPort != 9 then c
  else
    let gone := c.leg.q.filter fun r => r.client == tid && !r.started
    let c := gone.foldl Chip.atomicEnd c
    let c := c.setLeg fun l => { l with q := (l.q.filter fun r => !(r.client == tid && !r.started)).map fun (r : LegReq) =>
      if r.client = tid then { r with drop := true } else r }
    (c.trivetsOf tid).legKick

/-! ### Requests from tunnels (R404) -/

/-- An immediate answer to a request message. -/
def Chip.legRefuse (c : Chip) (tid xtag st reason len : Nat) : Chip :=
  c.legSend tid xtag (legHeader st reason len 0 0 0 ++ List.replicate len 0xFF)

/-- Bytes of a message beyond its header and LENGTH are discarded and counted (Table 16.9). -/
def Chip.restDiscarded (c : Chip) (tid : Nat) : Chip :=
  let t := c.tunOf tid
  if t.state == .free then c else c.setTun tid { t with discarded := sat32 t.discarded 1 }

/-- A whole request message (R403, R404, R407); its reserved fields are ignored (R10). -/
def Chip.legMessage (c : Chip) (tid : Nat) (m : LegMsg) : Chip :=
  let t := c.tunOf tid
  let b := m.bytes
  let op := fld b 0 1
  let qf := fld b 1 1
  let i := fld b 2 1
  let at' := fld b 3 1
  let len := beNat (sliceB b 4 2)
  let off := beNat (sliceB b 8 8)
  let no := fun (st reason : Nat) => c.legRefuse tid m.xtag st reason 0
  let mine := c.leg.q.filter fun r => r.client == tid
  let data := b.drop 16
  let trv := op == 4 || op == 5
  let lenOk := if op = 1 then b.length == 16 && decide (1 ≤ len) && decide (len ≤ 4096)
    else if op = 2 then b.length == 16 + len && decide (1 ≤ len) && decide (len ≤ 4096)
    else if op = 3 then b.length == 16 + len && len == (if bitOf at' 2 then 8 else 4) * (if at' % 4 = 2 then 2 else 1)
    else b.length == 16 && len == 0
  if m.bad || b.length < 16 || op = 0 || op > 5 || (op ≥ 3 && t.version < 2) || at' % 4 = 3
      || (!trv && i > 15) || (trv && i > 7) then no stParam 0
  else if (op = 1 || op = 2) && len > 4096 then no stParam 0x0B06
  else if !lenOk then (if b.length > 16 + len then c.restDiscarded tid else c).legRefuse tid m.xtag stParam 0 0
  else if mine.length ≥ 16 then no stBusy 0
  else if mine.any fun r => r.xtag == m.xtag then no stParam 0x0B0C
  else if trv then c.legAccept { client := tid, xtag := m.xtag, op, idx := i, win := {}, off := 0, len := 0, parts := [] }
  else
    let n := if op = 3 then (if bitOf at' 2 then 8 else 4) else len
    if !bitOf (c.leg.grants.get 0 tid) i then no stDenied 0x0B07
    else if !m.win.enable || c.leg.cfg.mode = 0 then no stState 0x0B05
    else if off + n > m.win.size then no stParam 0x0B06
    else if op = 3 && c.strobe && n > (if m.win.width = 0 then 2 else 4) then no stParam 0x0B0A
    else
      let posted := op == 2 && m.win.posted && !bitOf qf 0
      c.legAccept { client := tid, xtag := m.xtag, op, posted, idx := i, win := m.win, off, len := n, data, atop := at' % 4, parts := [(0, n)],
                    buf := if op = 2 then [] else legBuf n [(0, n)] }

/-! ### Inbound accesses (R397) -/

/-- The lowest-numbered enabled inbound window that decodes a cycle. -/
def Chip.decodeIn (c : Chip) (am addr n : Nat) : Option (Nat × LegIn) :=
  let sup := am / 4 % 2 == 1
  c.leg.ins.find? fun e =>
    let w := e.2
    w.enable && amKnown am && bitOf w.amsel (if amSpace am = 16 then 0 else if amSpace am = 24 then 1 else 2) && bitOf w.amsel (if sup then 3 else 4)
      && (amBlock am == 0 || bitOf w.amsel (4 + amBlock am)) && decide (w.base ≤ addr) && decide (addr + n ≤ w.base + w.size)

/-- Bytes of inbound requests that wait in the 8 KiB buffer. -/
def Chip.inboundHeld (c : Chip) : Nat :=
  (c.fab.src.get [] 9).foldl (fun a x => if c.leg.ins.any fun e => e.2.enable && !e.2.trivet && e.2.tid == x.tid then a + x.len else a) 0

/-- A request of an inbound access (Table 16.3). -/
def Chip.inboundSend (c : Chip) (tid op addr len : Nat) (data : Bytes) : Chip :=
  let x := c.leg.nextTag
  let b := le 1 op ++ zeros 3 ++ be 2 len ++ zeros 2 ++ be 8 addr ++ data
  (msgCells tid 0 x false b).foldl (fun c y => c.pushSrc 9 y) (c.setLeg fun l => { l with nextTag := (x + 1) % 65536 })

/-- The slave cycle ends for the bridge: acknowledge, or bus error. -/
def Chip.slaveEnd (c : Chip) (ok : Bool) (data : Option Bytes) : Chip :=
  let c := c.setLeg fun l => { l with slave := none }
  if !ok then c.drive .vmeBerr 1
  else match data with
    | some d => ((c.setVx 1 (some true)).emit (.vmeData d)).drive .vmeDtack 1
    | none => c.drive .vmeDtack 1

/-- Put the parts of an inbound write into the buffer while there is room; the cycle is acknowledged once all are in. -/
def Chip.inboundRoom (c : Chip) : Chip :=
  match c.leg.slave with
  | none => c
  | some s =>
    if s.isRead then c
    else
      let need := s.waiting.foldl (fun a p => a + p.2.length + 16) 0
      if c.inboundHeld + need > 8192 then c
      else (s.waiting.foldl (fun (c : Chip) p => c.inboundSend s.tid 2 p.1 p.2.length p.2) c).slaveEnd true none

/-- An inbound response message (Table 16.4). -/
def Chip.inboundAnswer (c : Chip) (m : LegMsg) : Chip :=
  match c.leg.slave with
  | none => c
  | some s =>
    match s.reads.find? fun r => r.1 == m.xtag with
    | none => c
    | some r =>
      let good := !m.bad && beNat (sliceB m.bytes 0 2) == 0 && m.bytes.length == 16 + r.2.2
      let s : LegSlave := { s with reads := s.reads.filter fun x => x.1 != m.xtag, failed := s.failed || !good,
                                   buf := if good then patch s.buf r.2.1 (m.bytes.drop 16) else s.buf }
      c.setLeg fun l => { l with slave := some s }

/-! ### Cells that F9 and F4 take -/

/-- The inbound-response tunnel that starts at F4 here and answers a request tunnel (R403). -/
def Chip.inboundPair (c : Chip) (tid : Nat) : Option Nat :=
  (c.tids fun _ t => t.state.live && t.index == 0 && t.inPort == 4 && t.ty == 5 && t.partner == tid).head?
/-- A tunnel that ends at F4 and carries inbound requests. -/
def Chip.inboundTun (c : Chip) (tid : Nat) : Bool :=
  let t := c.tunOf tid
  t.ty == 5 && t.outPort == 4 && t.index == t.hops && (c.inboundPair tid).isSome

/-- Gather a message of a LEGACY tunnel; a whole one is answered. Bytes beyond the longest message are discarded and counted. -/
def Chip.legGather (c : Chip) (x : Cell) (gap : Bool) : Chip × Option LegMsg :=
  let old := c.leg.asm.find x.tid
  let b := sliceB x.payload 0 x.len
  let m : LegMsg := match old with
    | some m => if x.f then { xtag := x.xtag, bytes := b, bad := x.p, win := c.legWin (fld b 2 1) }
                else { m with bytes := m.bytes ++ b, bad := m.bad || x.p || gap || m.xtag != x.xtag }
    | none => { xtag := x.xtag, bytes := b, bad := !x.f || x.p, win := c.legWin (fld b 2 1) }
  let past := decide (m.bytes.length > 4112)
  let c := if past then c.dropCell 9 x else c
  let m := if past then { m with bytes := m.bytes.take 4112, bad := true } else m
  if x.l then (c.setLeg fun l => { l with asm := l.asm.erase x.tid }, some m)
  else (c.setLeg fun l => { l with asm := l.asm.set x.tid m }, none)

/-- F9 takes a cell (R404). -/
def Chip.legTake (c : Chip) (x : Cell) : Chip :=
  let t := c.tunOf x.tid
  let r := c.legGather x false
  match r.2 with
  | none => r.1
  | some m =>
    if t.ty != 5 then r.1
    else if fld t.typeParams 0 1 = 1 then r.1.inboundAnswer m
    else r.1.legMessage x.tid m

/-- F4 performs an inbound request by DMA and answers a read on the partner (R403). -/
def Chip.inboundTake (c : Chip) (x : Cell) : Chip :=
  let r := c.legGather x false
  match r.2 with
  | none => r.1
  | some m =>
    let c := r.1
    let vi := (c.tunOf x.tid).f4Vi
    let op := fld m.bytes 0 1
    let len := beNat (sliceB m.bytes 4 2)
    let addr := beNat (sliceB m.bytes 8 8)
    if m.bad || m.bytes.length < 16 then c
    else if op = 2 then c.dmaWrite vi addr (sliceB m.bytes 16 len)
    else if op = 1 then c.dmaRead vi addr len (.inbound x.tid m.xtag len)
    else c

/-- The DMA read of an inbound request has ended: its response leaves on the partner; a failed one carries STATUS_ABORTED. -/
def Chip.inboundRead (c : Chip) (tid xtag len : Nat) (data : Option Bytes) : Chip :=
  match c.inboundPair tid with
  | none => c
  | some p =>
    let b := match data with
      | some d => legHeader stOk 0 len len 0 0 ++ sliceB d 0 len
      | none => legHeader stAborted 0x0608 0 0 0 0
    (msgCells p 0 xtag false b).foldl (fun c y => c.pushSrc 4 y) c

/-- The bus interface is held inactive (R377): bus, grants and slave cycle are gone, and the transceivers are deasserted. -/
def Chip.legQuiet (c : Chip) : Chip :=
  let l := c.leg
  let c := if l.requesting then c.drive (.vmeBrq l.cfg.brLevel) 0 else c
  let c := match l.grantedTo with | some k => c.drive (.vmeBgo k) 0 | none => c
  let c := if l.sysresetDrive then c.drive .vmeSysreset 0 else c
  let c := if l.slave.isSome then (c.drive .vmeDtack 0).drive .vmeBerr 0 else c
  let c := c.busRelease
  let c := c.setLeg fun l => { l with
    requesting := false, backedOff := false, running := false, grantedTo := none, brqOthers := 0, bclr := false, bbsy := false, slave := none,
    sysreset := false, sysresetDrive := false }
  (((c.setVx 0 none).setVx 1 none).setVx 2 none).drive .vmeSysclk 0

/-- The LEGACY island loses power: its requests, messages, prefetch lines and trivets are gone. DESIGN CHOICE: without an answer. -/
def Chip.legOff (c : Chip) : Chip :=
  if !c.dev.islands.contains 10 then c
  else c.legQuiet.setLeg fun l => { l with q := [], apWait := [], asm := [], lines := [], trivets := [] }

/-! ### Instances (Table 11.10, R288) -/

/-- A request in an instance's name: by its aperture, or by a request tunnel that it owns; of VI 0, only those that start at F4. -/
def Chip.legOf (c : Chip) (vi : Nat) (r : LegReq) : Bool :=
  r.client == 0x1000 + vi || (decide (r.client < 0x1000) && (c.tunOf r.client).index == 0 && (c.tunOf r.client).owner == vi &&
    (vi != 0 || (c.tunOf r.client).inPort == 4))
/-- The bridge still holds work of an instance. -/
def Chip.legBusy (c : Chip) (vi : Nat) : Bool := c.leg.q.any fun r => c.legOf vi r
/-- An instance is quiesced: requests not yet on the bus are aborted, posted writes accepted go on, and data of those on the bus is discarded. -/
def Chip.legQuiesce (c : Chip) (vi reason : Nat) : Chip :=
  let gone := (c.leg.q ++ c.leg.apWait).filter fun r => c.legOf vi r && !r.started && !r.posted
  let c := c.setLeg fun l => { l with
    q := (l.q.filter fun r => !gone.contains r).map fun (r : LegReq) => if c.legOf vi r && r.started && !r.posted then { r with drop := true } else r
    apWait := l.apWait.filter fun r => !gone.contains r }
  (gone.foldl (fun (c : Chip) r => (c.atomicEnd r).legFinish r stAborted reason) c).legKick

end Sys2Proof.Machine
end

