-- ==== Sys2Proof/Machine/PowerOps.lean ====
section
/-!
DEFINITION. Chapters 17 and 18: the power channels, feed selection, and what the power contracts' frames are built from.
-/
namespace Sys2Proof.Machine

/-! ### Channels (R408 to R420) -/

/-- A power channel; P0 and P1 are admin on until a configuration says otherwise (R423). -/
def Chip.chan (c : Chip) (n : Nat) : PowerChan := c.pwr.ch.get (if n < 2 then { admin := true, state := .standby } else {}) n
/-- Change a power channel. -/
def Chip.setChan (c : Chip) (n : Nat) (x : PowerChan) : Chip := { c with pwr := { c.pwr with ch := c.pwr.ch.set n x } }
/-- Change the power unit. -/
def Chip.setPwr (c : Chip) (f : Power → Power) : Chip := { c with pwr := f c.pwr }
/-- A channel's settings. -/
def PowerChan.conf (x : PowerChan) : ChanCfg := x.cfg.getD {}
/-- P2 to P5 belong to the contract unit (R425). -/
def isTrunkCh (n : Nat) : Bool := decide (2 ≤ n) && decide (n ≤ 5)
/-- Slot channels. -/
def isSlotCh (n : Nat) : Bool := decide (6 ≤ n)
/-- The channel has scales, or is a feed under R423. -/
def PowerChan.scaled (x : PowerChan) (n : Nat) : Bool := (n < 2 && x.cfg.isNone) || x.conf.iFs != 0
/-- LIMIT_MA and INRUSH_MA in force. -/
def PowerChan.limitMa (x : PowerChan) (n : Nat) : Nat := if isTrunkCh n then x.limit else x.conf.limit
def PowerChan.inrushMa (x : PowerChan) (n : Nat) : Nat := if isTrunkCh n then x.inrush else x.conf.inrush
/-- Pn_ILIM_SET for a current, in microvolts on the scale of Pn_ISNS (R408, R410); a feed under R423 has 1.2 V. -/
def PowerChan.ilim (x : PowerChan) (n ma : Nat) : Nat :=
  if n < 2 && x.cfg.isNone then 1200000 else if x.conf.iFs = 0 then 0 else Nat.min 1200000 (ma * 1200000 / x.conf.iFs)

/-- Drive Pn_ILIM_SET. -/
def Chip.setIlim (c : Chip) (n uv : Nat) : Chip := (c.setChan n { c.chan n with ilimUv := uv }).drive (.ilimSet n) uv

/-- Power-good changes (R415): PWR_GOOD_CHANGED. -/
def Chip.powerGood (c : Chip) (n : Nat) (v : Bool) : Chip :=
  let x := c.chan n
  if x.pg == v then c else (c.setChan n { x with pg := v }).post 0x0C02 0 (n + 256 * b2n v)

/-- Pn_GATE_EN low: the timer stops, power-good is withdrawn and the channel is in state `st`. -/
def Chip.gateLow (c : Chip) (n : Nat) (st : ChanState) : Chip :=
  let c := c.powerGood n false
  let x := c.chan n
  let c := c.setChan n { x with gate := false, state := st, timer := none, gateWin := false, gateGood := false, inLimit := false }
  if x.gate then c.drive (.gateEn n) 0 else c

/-- A channel enters START (R412). -/
def Chip.startChan (c : Chip) (n : Nat) : Chip :=
  let x := c.chan n
  let c := c.setChan n { x with state := .start, gate := true, timer := some x.conf.startFaultUs, gateWin := false, gateGood := false }
  (c.setIlim n (x.ilim n (x.inrushMa n))).drive (.gateEn n) 1

/-- A channel enters ON (R412, R421): the limit is LIMIT_MA, the gate-rise window opens, and the fault timer runs while IN_LIMIT is set. -/
def Chip.chanOn (c : Chip) (n : Nat) : Chip :=
  let x := c.chan n
  let c := c.setChan n { x with state := .on, gate := true, timer := if x.inLimit then some x.conf.faultUs else none,
                                gateWin := !x.gateGood }
  let c := c.setIlim n (x.ilim n (x.limitMa n))
  if x.gate then c else c.drive (.gateEn n) 1

/-! ### Slot channels (R418 to R420) -/

/-- A slot channel's start condition (R418); one in SHED waits for PWRFAIL_L's release (R424). -/
def Chip.slotReady (c : Chip) (n : Nat) : Bool :=
  isSlotCh n && (c.chan n).admin && (c.chan n).scaled n && (c.chan n).present && !((c.chan n).state == .shed && c.pwr.pwrfail)

/-- A slot channel starts, or waits for STAGGER_MS after the last start (R420). -/
def Chip.startSlot (c : Chip) (n : Nat) : Chip :=
  if !c.slotReady n then c
  else if c.pwr.staggering then c.setPwr fun p => { p with waiting := insertSorted n p.waiting }
  else (c.setPwr fun p => { p with staggering := decide (p.feed.staggerMs > 0) }).startChan n

/-- A slot channel may enter START from its state (R412). -/
def ChanState.startable : ChanState → Bool
  | .absent | .standby | .retryWait | .shed => true
  | _ => false

/-- STAGGER_MS has passed: the next waiting channel that may still start does (R420). -/
def Chip.staggerNext (c : Chip) : List Nat → Chip
  | [] => c.setPwr fun p => { p with staggering := false, waiting := [] }
  | n :: r =>
    if c.slotReady n && (c.chan n).state.startable then (c.setPwr fun p => { p with waiting := r, staggering := true }).startChan n
    else c.staggerNext r

/-- The state a channel that is admin on and idle rests in. -/
def Chip.restState (c : Chip) (n : Nat) : ChanState :=
  let x := c.chan n
  if !x.admin || !x.scaled n then .off else if isSlotCh n then .absent else .standby

/-! ### Feeds (R421 to R423) -/

/-- A feed candidate (R421): P0, P1, and a trunk channel that sinks under a contract. -/
def Chip.candidate (c : Chip) (n : Nat) : Bool :=
  decide (n < 6) && nth 0 c.pwr.feed.prio n != 0 && (c.chan n).admin && (c.chan n).scaled n &&
    (n < 2 || (c.tpOf (n - 2)).sinking)

/-- A feed is valid (R421). -/
def Chip.feedValid (c : Chip) (n : Nat) : Bool :=
  let x := c.chan n
  c.candidate n && x.inWindow && x.state != .damaged && x.state != .latched && x.state != .retryWait && x.tripPending.isNone

/-- A local feed is valid (R69). -/
def Chip.localFeedValid (c : Chip) : Bool := c.feedValid 0 || c.feedValid 1

/-- The valid candidate of highest PRIORITY, the lower number on a tie (R421). -/
def Chip.bestFeed (c : Chip) : Option Nat :=
  (List.range 6).foldl (fun b n =>
    if !c.feedValid n then b
    else match b with
      | none => some n
      | some m => if nth 0 c.pwr.feed.prio n > nth 0 c.pwr.feed.prio m then some n else b) none

/-- The selected feed's gate is low: DEAD_US runs, with the REASON the switch will carry (R422). -/
def Chip.startDead (c : Chip) (reason : Nat) : Chip :=
  match c.pwr.selected with
  | none => c
  | some n => c.setPwr fun p => { p with selected := none, dead := some (reason, n) }

/-- Open the selected feed for a switch (R422). -/
def Chip.openFeed (c : Chip) (reason : Nat) : Chip :=
  match c.pwr.selected with
  | none => c
  | some n => (c.gateLow n .standby).startDead reason

/-- Select a feed at once while no gate is high (R421): `old` is the feed switched from, with the REASON. -/
def Chip.selectFeed (c : Chip) (sw : Option (Nat × Nat)) : Chip :=
  match c.bestFeed with
  | some n =>
    let c := (c.setPwr fun p => { p with selected := some n, dead := none, lost := false }).chanOn n
    match sw with
    | none => c
    | some (reason, old) =>
      (c.setPwr fun p => { p with feedSwitches := sat32 p.feedSwitches 1 }).post 0x0C04 reason (old + 256 * n)
  | none =>
    let c := c.setPwr fun p => { p with dead := none }
    match sw with
    | none => c
    | some _ => if c.pwr.lost then c else (c.setPwr fun p => { p with lost := true }).post 0x0C05 0 0xFF

/-- A candidate has become valid (R421, R422). -/
def Chip.feedCame (c : Chip) : Chip :=
  match c.pwr.selected, c.pwr.dead with
  | _, some _ => c
  | some n, none =>
    if c.feedValid n then c.setPwr fun p => { p with lost := false }
    else if c.bestFeed.isSome then c.openFeed 0x0C04 else c
  | none, none => if c.pwr.lost then c.selectFeed (some (0x0C06, 0xFF)) else c.selectFeed none

/-- The selected feed is invalid (R422): it opens when another candidate is valid, else it is held on. -/
def Chip.feedWent (c : Chip) (n : Nat) (reason : Nat) : Chip :=
  if c.pwr.selected == some n then
    if c.bestFeed.isSome then c.openFeed reason
    else if c.pwr.lost then c
    else (c.setPwr fun p => { p with lost := true }).post 0x0C05 0 n
  else c

/-- A channel is turned off without a trip (R425, R426): when it was the selected feed, another is chosen after the dead time. -/
def Chip.chanDown (c : Chip) (n : Nat) (st : ChanState) : Chip :=
  let c := c.gateLow n st
  if c.pwr.selected == some n then c.startDead 0x0C04 else c

/-! ### Trips and damage (R413 to R417) -/

/-- The trip is recorded: count, cause, PWR_TRIP and the lifetime counters (R416, R489, R490). -/
def Chip.recordTrip (c : Chip) (n cause : Nat) (latched : Bool) : Chip :=
  let x := c.chan n
  let k := Nat.min 255 (x.faultCount + 1)
  let c := c.setChan n { x with faultCount := k, cause, trips := sat16 x.trips 1 }
  let c := c.post 0x0C01 0 (n + 256 * cause + 65536 * k + 2 ^ 24 * b2n latched)
  (c.bump (if cause = 2 then 32 else 31) 1).sample 6 n

/-- A channel trips (R416); a trunk channel's trip is recorded only after 1 ms (R425, R437). -/
def Chip.trip (c : Chip) (n cause : Nat) : Chip :=
  let x := c.chan n
  let c := if isTrunkCh n then
      let c := c.gateLow n .standby
      c.setChan n { c.chan n with tripPending := some cause }
    else
      let k := Nat.min 255 (x.faultCount + 1)
      let latch := x.conf.retryMax != 255 && decide (k ≥ x.conf.retryMax)
      let c := c.gateLow n (if latch then .latched else .retryWait)
      (c.setChan n { c.chan n with retryMs := x.conf.retryMs }).recordTrip n cause latch
  if c.pwr.selected == some n then c.startDead 0x0C06 else c

/-- A pass transistor is judged damaged (R417). -/
def Chip.damage (c : Chip) (n cause : Nat) : Chip :=
  let c := c.gateLow n .damaged
  let c := (c.setChan n { c.chan n with cause }).post 0x0C03 0 (n + 256 * cause)
  if c.pwr.selected == some n then c.startDead 0x0C04 else c

/-! ### Sideband contracts: fields and bodies (chapter 18) -/

/-- VOLT in millivolts. -/
def voltMv (v : Nat) : Nat := if v = 1 then 12000 else if v = 2 then 24000 else if v = 3 then 48000 else 0

/-- PRECEDENCE: set, or the role's default (Table 18.8). -/
def Chip.prec (c : Chip) (n : Nat) : Nat :=
  match (c.tpOf n).cfg.prec with
  | some p => p
  | none => match c.dev.role with | some .hub => 8 | some .relay => 4 | _ => 0

/-- DEV_ROLE in CAPS; without a role, DOCK (R73). -/
def Chip.devRole (c : Chip) : Nat := match c.dev.role with | none => 1 | some r => r.code

/-- The end presents source bias while it seeks the role (R431). -/
def Chip.wantsBias (c : Chip) (n : Nat) : Bool :=
  (c.tpOf n).cfg.srcEn && decide (c.prec n ≥ 1) && c.localFeedValid && !(c.tpOf n).faulted && !(c.tpOf n).yields

/-- Present source bias or sink termination (R427). -/
def Chip.setBias (c : Chip) (n : Nat) (v : Bool) : Chip :=
  let x := c.tpOf n
  if x.bias == v then c else (c.setTp n { x with bias := v }).drive (.sbState n) (b2n v)

/-- Ends without a role take the state that R431 gives them. -/
def Chip.refreshBias (c : Chip) : Chip :=
  (List.range 4).foldl (fun c n =>
    if (c.tpOf n).prole = 0 && (c.tpOf n).pstate == .detached then c.setBias n (c.wantsBias n) else c) c

/-- Six offers of 4 bytes. -/
def offerBytes (l : List (Nat × Nat)) : Bytes :=
  ((List.range 6).map fun i =>
    let o := nth (0, 0) l i
    le 1 o.1 ++ zeros 1 ++ le 2 o.2).flatten
/-- The offers that 24 bytes spell. -/
def offersOf (b : Bytes) : List (Nat × Nat) := (List.range 6).map fun i => (fld b (4 * i) 1, fld b (4 * i + 2) 2)

/-- CAPS (Table 18.4). -/
def Chip.capsBody (c : Chip) (n : Nat) (serialLow : Bytes) : Bytes :=
  let x := c.tpOf n
  le 1 (if x.prole = 1 then 0 else if x.prole = 2 then 1 else 2) ++ le 1 (c.prec n) ++ le 1 c.devRole ++
    le 1 (b2n (x.cfg.srcEn && c.localFeedValid) + 2 * b2n x.cfg.sinkEn + 4 * b2n x.cfg.noPower + 8 * b2n x.cfg.swapAllow + 16 * b2n x.cfg.fsAllow) ++
    sliceB serialLow 0 8 ++ (if x.prole = 1 then offerBytes x.cfg.offers else zeros 24)

/-- The peer's CAPS. -/
def parseCaps (b : Bytes) : PeerCaps :=
  { prole := fld b 0 1, prec := fld b 1 1, devRole := fld b 2 1, cflags := fld b 3 1, serialLow := fld b 4 8, offers := offersOf (sliceB b 12 24) }

/-- Limits of the cable on contracts (R441): highest VOLT and current. -/
def TrunkPower.cableLimit (x : TrunkPower) : Nat × Nat := if x.cableValid then (fld x.cable 3 1, fld x.cable 4 2) else (1, 3000)

/-- Cable class (R96, R441). -/
def Chip.cableClass (c : Chip) (n : Nat) : Nat :=
  let x := c.tpOf n
  if x.cableValid then (let k := fld x.cable 1 1 % 16; if k ≤ 4 then k else 0) else 0
/-- ASYM_PS as received (R440). -/
def Chip.cableAsym (c : Chip) (n : Nat) : Int := if (c.tpOf n).cableValid then sfld (c.tpOf n).cable 8 4 else 0

/-- The sideband reports a peer (R101); after HARD_RESET none until the roles are settled again (R102). -/
def Chip.peerThere (c : Chip) (n : Nat) : Bool :=
  (c.tpOf n).pstate != .hardReset && ((c.tpOf n).prole != 0 || (c.tpOf n).pstate == .noPower || ((c.tpOf n).peer.isSome && (c.tpOf n).pstate == .detached))

/-- R24: the contract is READY, or both ends declared that no power is transferred; the cable has been asked before (R441). -/
def Chip.trainPower (c : Chip) (n : Nat) : Bool :=
  let x := c.tpOf n
  !x.faulted && ((x.contractOn && x.cableDone) || (x.pstate == .noPower && (x.prole = 0 || x.cableDone)))

/-- The trunk safe rail is present at a sink end (Table 03.2). -/
def Chip.safeRailPresent (c : Chip) : Bool :=
  c.pwr.tp.any fun e => e.2.prole == 2 && e.2.pstate != .hardReset && !e.2.faulted
/-- Every trunk contract is at the safe rail or absent (Table 03.2). -/
def Chip.contractsSafeOrAbsent (c : Chip) : Bool := c.pwr.tp.all fun e => !e.2.contractOn
/-- A contract is READY (Table 03.2). -/
def Chip.contractReady (c : Chip) : Bool := c.pwr.tp.any fun e => e.2.contractOn

/-- Tn_VSEL. -/
def Chip.vsel (c : Chip) (n v : Nat) : Chip := c.drive (.vsel n) v

/-- What the contract unit sets on a trunk channel (Table 18.5): limit, and the window from a lower to a higher voltage in mV. -/
def Chip.trunkLimits (c : Chip) (n limit lowMv highMv hiPct : Nat) : Chip :=
  let x := c.chan (2 + n)
  let c := c.setChan (2 + n) { x with limit, inrush := 500, pgMv := lowMv * 9 / 10, uvMv := lowMv * 9 / 10, ovMv := highMv * hiPct / 100 }
  if x.state == .on then c.setIlim (2 + n) (x.ilim (2 + n) limit) else c

/-- A trunk channel is turned off without a trip (R425). -/
def Chip.trunkOff (c : Chip) (n : Nat) : Chip :=
  let x := c.chan (2 + n)
  let c := if x.state == .start || x.state == .on || x.gate then c.chanDown (2 + n) .standby else c
  let c := c.setTp n { c.tpOf n with sinking := false }
  c.setChan (2 + n) { c.chan (2 + n) with tripPending := none, vPg := false }

/-- The trunk channel starts as source, unless it is off or damaged (R423, R431). -/
def Chip.trunkStart (c : Chip) (n : Nat) : Chip :=
  let x := c.chan (2 + n)
  if x.admin && x.scaled (2 + n) && x.state == .standby then c.startChan (2 + n) else c

/-- The source starts the safe rail: 12 V at 500 mA (R431). -/
def Chip.safeRail (c : Chip) (n : Nat) : Chip :=
  let c := ((c.vsel n 1).trunkLimits n 500 12000 12000 110)
  let x := c.tpOf n
  (c.setTp n { x with volt := 1, limit := 500, op := 500, pstate := .safe, capsDue := true, capsSent := 0, cableDone := false, req := none, pend := none }).trunkStart n

/-- Complete the trunk's open TRUNK_POWER_OP. -/
def Chip.powerDone (c : Chip) (n st reason : Nat) : Chip :=
  let x := c.tpOf n
  match x.handle with
  | none => c
  | some (h, _) => (c.setTp n { x with handle := none }).complete h st reason 0

/-- Complete the trunk's open TRUNK_POWER_OP when it is of operation `op`. -/
def Chip.powerDoneIf (c : Chip) (n op st reason : Nat) : Chip :=
  match (c.tpOf n).handle with
  | some (_, o) => if o = op then c.powerDone n st reason else c
  | none => c

/-- The contract in force ends (R437): CONTRACT_ENDED. -/
def Chip.contractEnd (c : Chip) (n reason : Nat) : Chip :=
  let x := c.tpOf n
  let c := c.setTp n { x with contractOn := false, armed := false, lastReason := reason }
  if x.contractOn then c.post 0x0D03 reason n else c

/-- Send a frame that expects an answer from the peer (R430). -/
def Chip.sbAsk (c : Chip) (n type : Nat) (body : Bytes) : Chip :=
  let c := c.sbSend n false type body
  let x := c.tpOf n
  c.setTp n { x with exch := x.lastTx.map fun f => { frame := f }, waits := 0, deferred := none }

/-- Send CABLE_QUERY (R441). -/
def Chip.sbCableQuery (c : Chip) (n : Nat) : Chip :=
  let c := c.sbSend n true 0x10 (le 1 (if (c.tpOf n).prole = 1 then 0 else 1) ++ zeros 3)
  let x := c.tpOf n
  c.setTp n { x with cableExch := x.lastTx.map fun f => { frame := f } }

/-- A waiting exchange of a TYPE. -/
def TrunkPower.asks (x : TrunkPower) (type : Nat) : Bool := match x.exch with | some e => e.frame.type == type | none => false

/-- The offer that a sink chooses (R435 step 3): index, VOLT, MAX_MA, OP_MA. -/
def TrunkPower.choose (x : TrunkPower) : Option (Nat × Nat × Nat × Nat) :=
  match x.peer with
  | none => none
  | some p =>
    let lim := x.cableLimit
    let ok := ((List.range 6).map fun i => (i, nth (0, 0) p.offers i)).filter fun e =>
      e.2.1 != 0 && decide (e.2.1 ≤ 3) && bitOf x.cfg.sinkVolts (e.2.1 - 1) && decide (e.2.1 ≤ lim.1) && decide (e.2.2 ≤ lim.2)
    let enough := ok.filter fun e => decide (e.2.2 ≥ x.cfg.sinkMa)
    let byVolt := enough.foldl (fun (b : Option (Nat × Nat × Nat)) e =>
      match b with | none => some e | some y => if e.2.1 > y.2.1 then some e else b) none
    match byVolt with
    | some e => some (e.1, e.2.1, e.2.2, x.cfg.sinkMa)
    | none =>
      let byPower := ok.foldl (fun (b : Option (Nat × Nat × Nat)) e =>
        match b with | none => some e | some y => if voltMv e.2.1 * e.2.2 > voltMv y.2.1 * y.2.2 then some e else b) none
      byPower.map fun e => (e.1, e.2.1, e.2.2, e.2.2)

/-- The sink chooses an offer and sends REQUEST, once the cable has been asked (R435, R441); false when it sends none. -/
def Chip.sinkChoose (c : Chip) (n : Nat) : Chip × Bool :=
  let x := c.tpOf n
  if x.prole != 2 || x.peer.isNone then (c, false)
  else if !x.cableDone then (c.setTp n { x with chooseDue := true }, true)
  else if x.cfg.noPower then
    let both := match x.peer with | some p => bitOf p.cflags 2 | none => false
    (if both && !x.contractOn then c.setTp n { x with pstate := .noPower, chooseDue := false } else c.setTp n { x with chooseDue := false }, false)
  else match x.choose with
    | none => (c.setTp n { x with chooseDue := false }, false)
    | some (i, v, ma, op) =>
      let c := c.setTp n { x with chooseDue := false, req := some (i, v, ma, op), pstate := .negotiating }
      (c.sbAsk n 0x03 (le 1 i ++ zeros 1 ++ le 2 op), true)

/-- The state a trunk returns to when an exchange ends without a change. -/
def TrunkPower.base (x : TrunkPower) : PState :=
  if x.faulted then .faulted else if x.contractOn then .contract else if x.prole = 0 then .detached
  else match x.pstate with | .noPower => .noPower | _ => .safe

end Sys2Proof.Machine
end

