-- ==== Sys2Proof/Machine/DisplayOps.lean ====
section
/-!
DEFINITION. Chapter 12: what a display head at F5 holds and takes: timing, raster cells, FRAME records and reports.
-/
namespace Sys2Proof.Machine

/-- A hub head. -/
def Chip.hub (c : Chip) (h : Nat) : HubHead := c.disp.hub.get {} h
/-- Change a hub head. -/
def Chip.setHub (c : Chip) (h : Nat) (x : HubHead) : Chip := { c with disp := { c.disp with hub := c.disp.hub.set h x } }
/-- A dock head. -/
def Chip.dock (c : Chip) (h : Nat) : DockHead := c.disp.dock.get {} h
/-- Change a dock head. -/
def Chip.setDock (c : Chip) (h : Nat) (x : DockHead) : Chip := { c with disp := { c.disp with dock := c.disp.dock.set h x } }

/-! ### Timing modes (R295, R300, R301, R309) -/

/-- Horizontal and vertical totals. -/
def HeadMode.htotal (m : HeadMode) : Nat := m.hactive + m.hfp + m.hsync + m.hbp
def HeadMode.vtotal (m : HeadMode) : Nat := m.vactive + m.vfp + m.vsync + m.vbp
/-- Bytes per pixel of the raster format. -/
def HeadMode.bytesPx (m : HeadMode) : Nat := if m.rformat = 0 then 3 else 4
/-- C: cells of a line. -/
def HeadMode.cells (m : HeadMode) : Nat := (m.hactive * m.bytesPx + 55) / 56
/-- T_line, T_act and the time of one pixel in ps, rounded up. -/
def HeadMode.tLine (m : HeadMode) : Nat := (m.htotal * 10 ^ 9 + m.pclk - 1) / m.pclk
def HeadMode.tAct (m : HeadMode) : Nat := (m.hactive * 10 ^ 9 + m.pclk - 1) / m.pclk
def HeadMode.tPx (m : HeadMode) : Nat := (10 ^ 9 + m.pclk - 1) / m.pclk
/-- The need in teeth per turn (R309): 125,000 / T_line lines per turn are PCLK_KHZ / (8 HTOTAL). -/
def HeadMode.need (m : HeadMode) : Nat := (m.pclk * m.cells + 8 * m.htotal - 1) / (8 * m.htotal) + 1
/-- The mode is within Table 12.1. -/
def HeadMode.ok (m : HeadMode) : Bool :=
  decide (m.sync < 4) && decide (m.rformat ≤ 1) && decide (25000 ≤ m.pclk) && decide (m.pclk ≤ 960000) && decide (64 ≤ m.hactive) &&
    decide (m.hactive ≤ 5120) && m.hactive % 2 == 0 && decide (64 ≤ m.vactive) && decide (m.vactive ≤ 2880) &&
    decide (m.hactive + 32 ≤ m.htotal) && decide (m.htotal ≤ 8192) && decide (m.vactive + 3 ≤ m.vtotal) && decide (m.vtotal ≤ 4096) &&
    decide (m.bg < 2 ^ 30)

/-- The TIMING field. -/
def HeadMode.timing (m : HeadMode) : List Nat := [m.hactive, m.hfp, m.hsync, m.hbp, m.vactive, m.vfp, m.vsync, m.vbp]
/-- A mode from its fields. -/
def modeOf (sync rformat pclk : Nat) (t : List Nat) (bg : Nat) : HeadMode :=
  { sync, rformat, pclk, hactive := nth 0 t 0, hfp := nth 0 t 1, hsync := nth 0 t 2, hbp := nth 0 t 3, vactive := nth 0 t 4,
    vfp := nth 0 t 5, vsync := nth 0 t 6, vbp := nth 0 t 7, bg }

/-! ### Tunnels of the heads (R299) -/

/-- The tunnel is a RASTER tunnel whose TYPE_PARAMS give DIR and a head: source head at byte 1, destination head at byte 0. -/
def Tun.rasterAt (t : Tun) (dir src : Nat) (h : Nat) : Bool :=
  t.ty == 1 && fld t.typeParams 2 1 == dir && fld t.typeParams (if src = 1 then 1 else 0) 1 == h

/-- The tunnel that ends at F5 for a head in a direction. -/
def Chip.headIn (c : Chip) (h dir : Nat) : Option Nat :=
  (c.tids fun _ t => t.state.live && t.index = t.hops && t.outPort = 5 && t.rasterAt dir 0 h).head?
/-- The open report tunnel that starts at a dock head, under version 2. -/
def Chip.reportTunnel (c : Chip) (h : Nat) : Option Nat :=
  (c.tids fun _ t => t.state == .open && t.index = 0 && t.inPort = 5 && t.rasterAt 1 1 h).head?
/-- Teeth per turn that the variant in use gives a contracted tunnel at its outgoing trunk; none where no teeth limit it. -/
def Chip.teethNow (c : Chip) (tid : Nat) : Option Nat :=
  let t := c.tunOf tid
  if t.outPort < 4 && c.contracted tid then
    match c.certRec tid with
    | some r => some (if c.uncarried tid then 0 else (r.var (c.geom t.outPort)).teeth)
    | none => none
  else none

/-! ### Delay (R305) -/

/-- BOUND of a tunnel's variant in use as GET_PROMISE reports it, in ns; none without a promise. -/
def Chip.boundNow (c : Chip) (tid : Nat) : Option Nat :=
  match c.certRec tid, c.activeGear with
  | some r, some g =>
    if !c.contracted tid then none
    else
      let v := if r.hop = 0 then g.full
        else if c.inData r.outPort && g.carries r.outPort (c.geom r.outPort) tid then c.geom r.outPort else 0
      some (if v = 0 then 0 else (r.var v).bound)
  | _, _ => none

/-- DELAY_LINES satisfies its condition for a mode and lock mode. -/
def Chip.delayOk (c : Chip) (d : Nat) (m : HeadMode) (marker : Bool) (tid : Nat) : Bool :=
  match c.boundNow tid with
  | none => true
  | some b => decide ((if marker then d else d - 1) * m.htotal * 10 ^ 9 ≥ m.hactive * 10 ^ 9 + (b + 1000) * 1000 * m.pclk)

/-- MARKER would be used, as far as the dock can tell without a record: the last hop starts at the hub, or its own time is LOCKED (R304). -/
def Chip.markerLock (c : Chip) (tid : Nat) (timeSet : Bool) : Bool :=
  (c.tunOf tid).index == 1 || (timeSet && c.time.state == .locked)

/-- DOCK_OUTPUT_FAULT. -/
def Chip.outputFault (c : Chip) (h reason : Nat) : Chip := c.post 0x0706 reason h

/-- The delay condition is looked at again: once it fails, DELAY_SHORT is posted (R305). -/
def Chip.delayCheck (c : Chip) (h : Nat) (m : HeadMode) (marker : Bool) : Chip :=
  match c.headIn h 0 with
  | none => c
  | some tid =>
    let x := c.dock h
    let good := c.delayOk x.delay m marker tid
    let c := c.setDock h { x with delayBad := !good }
    if !good && !x.delayBad then c.outputFault h 0x0708 else c

/-- A change of variant: each dock head that runs a mode looks at its condition again (R305). -/
def Chip.delayRecheck (c : Chip) : Chip :=
  (List.range 4).foldl (fun c h =>
    match (c.dock h).mode with
    | some m => if (c.dock h).lock = 0 then c else c.delayCheck h m ((c.dock h).lock == 1)
    | none => c) c

/-- F5's answer to an OPEN (R299, R305). -/
def Chip.f5Answer (c : Chip) (tid cls hops : Nat) (params : Bytes) : Option (Nat × Nat) :=
  let h := fld params 0 1
  let dir := fld params 2 1
  if h > 3 || fld params 1 1 > 3 || dir > 1 || dir != (if c.inRole .dock then 0 else 1) || (dir = 1 && cls != 2) then
    some (stParam, 0)
  else if (c.headIn h dir).isSome then some (stNoResource, 0x0710)
  else if dir = 0 then
    let x := c.dock h
    let short := match x.mode, c.certRec tid with
      | some m, some r =>
        let v := match c.activeGear with | some g => g.full | none => 0
        cls < 2 && decide ((if hops = 1 then x.delay else x.delay - 1) * m.htotal * 10 ^ 9 <
          m.hactive * 10 ^ 9 + ((r.var v).bound + 1000) * 1000 * m.pclk)
      | _, _ => false
    if x.kind = 0 then some (stNoResource, 0x0711)
    else if short then some (stNoResource, 0x0708) else none
  else none

/-- A tunnel has closed: the dock head whose raster it was sends the idle pattern with video muted (R308). -/
def Chip.rasterGone (c : Chip) (tid : Nat) : Chip :=
  let t := c.tunOf tid
  if t.ty = 1 && t.outPort = 5 && t.index = t.hops && fld t.typeParams 2 1 = 0 then
    let h := fld t.typeParams 0 1
    let x := c.dock h
    c.setDock h { x with rec_ := none, srPending := false, active := false, slots := [], lock := 0,
                         main := if x.main == .off then .off else .idle }
  else c

/-! ### The dock's receiving side (R303, R304, R310, R312) -/

/-- Big-endian field. -/
def beFld (b : Bytes) (o n : Nat) : Nat := beNat (sliceB b o n)

/-- A FRAME record taken at a dock head (R304, R305, R310, R312). -/
def Chip.frameRx (c : Chip) (h tid : Nat) (x : Cell) : Chip :=
  let b := x.payload
  let d := c.dock h
  let fl := beFld b 42 1
  let m := modeOf (beFld b 3 1 % 4) (beFld b 2 1) (beFld b 4 4 / 1000) ((List.range 8).map fun i => beFld b (8 + 2 * i) 2) (beFld b 24 4 % 2 ^ 30)
  if !m.ok then c.setDock h { d with discards := sat32 d.discards 1 }
  else if bitOf fl 1 then c.setDock h { d with srPending := true, noRaster := false }
  else
    let marker := c.markerLock tid (bitOf fl 0)
    let t := c.tunOf tid
    let off := if t.inPort < 4 then (c.frmOf t.inPort).peerOffset else 0
    let a0 := ((beFld b 32 6 * turnPs + beFld b 38 4 * 1000 : Nat) : Int) + off
    let target := (if marker then a0.toNat else c.clk.localPs) + d.delay * m.tLine
    let r : FrameRec := { mode := m, gen := beFld b 0 2, frameNo := beFld b 28 4, target, marker, first := bitOf fl 2 }
    (c.setDock h { d with rec_ := some r, noRaster := false, lock := if marker then 1 else 2 }).delayCheck h m marker

/-- Active lines from the line being read to a cell's line; none when its line has already begun reading. -/
def DockHead.ahead (d : DockHead) (va frame line : Nat) : Option Nat :=
  if frame = d.frameNo % 16 then (if line < d.read then none else some (line + 1 - d.read))
  else some (va - d.read + line + 1)

/-- A PIXELS cell taken at a dock head is stored, or discarded as LATE (R303). -/
def Chip.pixelsRx (c : Chip) (h : Nat) (x : Cell) : Chip :=
  let d := c.dock h
  let frame := x.aux % 16
  let m := match d.rec_ with | some r => r.mode | none => (match d.mode with | some m => m | none => {})
  if x.xtag ≥ m.vactive then c.setDock h { d with discards := sat32 d.discards 1 }
  else
    let late := match d.ahead m.vactive frame x.xtag with | none => true | some k => decide (k ≥ 32)
    if late && d.mode.isSome then c.setDock h { d with late := sat32 d.late 1 }
    else
      let k := x.xtag % 32
      let body := sliceB x.payload 0 x.len
      let fresh : LineSlot := { line := x.xtag, frame, bytes := body, cells := 1, nextSeq := (x.seq + 1) % 65536, gap := !x.f, poison := x.p }
      let slot := if x.f then fresh else match d.slots.find k with
        | some s => if s.line = x.xtag && s.frame = frame then
            { s with bytes := s.bytes ++ body, cells := s.cells + 1, nextSeq := (x.seq + 1) % 65536, gap := s.gap || s.nextSeq != x.seq,
                     poison := s.poison || x.p }
          else fresh
        | none => fresh
      c.setDock h { d with slots := d.slots.set k slot }

/-- A head takes a cell at F5 (RASTER_CELL_RX, FRAME_RECORD_RX; a REPORT waits for REPORT_RX). -/
def Chip.f5Rx (c : Chip) (x : Cell) : Chip :=
  let t := c.tunOf x.tid
  let h := fld t.typeParams 0 1
  let kind := x.aux / 64
  if t.ty != 1 || h > 3 then c
  else if fld t.typeParams 2 1 = 0 then
    if kind = 0 then c.pixelsRx h x
    else if kind = 1 then c.frameRx h x.tid x
    else
      let d := c.dock h
      c.setDock h { d with discards := sat32 d.discards 1 }
  else
    let u := c.hub h
    if kind = 2 then c.setHub h { u with reports := u.reports ++ [x] }
    else c.setHub h { u with discards := sat32 u.discards 1 }

/-! ### Self-refresh on QUIET (R312) -/

/-- QUIET entry: every enabled head enters self-refresh. -/
def Chip.headsRest (c : Chip) : Chip :=
  { c with disp := { c.disp with hub := c.disp.hub.mapAll fun _ x =>
      if x.enable && x.mode.isSome && !x.sr && x.srReq.isNone then { x with srReq := some (true, 0) } else x } }
/-- QUIET exit: every enabled head leaves it. -/
def Chip.headsResume (c : Chip) : Chip :=
  { c with disp := { c.disp with hub := c.disp.hub.mapAll fun _ x =>
      if x.sr then { x with srReq := some (false, 0) }
      else match x.srReq with
        | some (true, 0) => { x with srReq := none }
        | _ => x } }

end Sys2Proof.Machine
end

