-- ==== Sys2Proof/Machine/EthOps.lean ====
section
/-!
DEFINITION. Chapter 13: classification, segmentation and egress reassembly (R317 to R327), as the rows and the fabric use them.
-/
namespace Sys2Proof.Machine

/-! ### Ports (R316 to R318) -/

/-- An Ethernet port. -/
def Chip.ethPort (c : Chip) (n : Nat) : EthPort := c.eth.ports.get {} n
/-- Change the Ethernet block. -/
def Chip.setEth (c : Chip) (f : Eth → Eth) : Chip := { c with eth := f c.eth }
/-- Change an Ethernet port. -/
def Chip.setEthPort (c : Chip) (n : Nat) (p : EthPort) : Chip := c.setEth fun e => { e with ports := e.ports.set n p }
/-- Count at a port, counters numbered from 1 as R328 lists them. -/
def Chip.ethCount (c : Chip) (n i d : Nat) : Chip :=
  let p := c.ethPort n
  c.setEthPort n { p with cnt := p.cnt.set i (sat64 (p.cnt.get 0 i) d) }
/-- The port is set to run. -/
def EthPort.on (p : EthPort) : Bool := p.cfg.admin && p.cfg.mode != 0

/-- A port goes UP or DOWN (R317): ETH_LINK_CHANGED; a polarity found lasts until it goes DOWN (R318). -/
def Chip.ethUp (c : Chip) (n : Nat) (up : Bool) : Chip :=
  let p := c.ethPort n
  if p.up = up then c
  else
    (c.setEthPort n { p with up, ups := if up then (p.ups + 1) % 2 ^ 48 else p.ups, flipped := p.flipped && up }).post 0x0901 0
      (n + 256 * b2n up + 65536 * p.cfg.mode)

/-- A port loses its lock. -/
def Chip.ethDown (c : Chip) (n : Nat) : Chip :=
  (c.setEthPort n { c.ethPort n with lock := false, an := false, rsAligned := false }).ethUp n false

/-- Every port loses its lock: the NET island or REFCLK_ETH is gone. -/
def Chip.ethAllDown (c : Chip) : Chip := (List.range 4).foldl Chip.ethDown c

/-- CRC-32 of IEEE 802.3 (R323: the FCS), least significant byte first on the wire. -/
def fcsOf (b : Bytes) : Nat := (b.foldl (crcByte 0xEDB88320) 0xFFFFFFFF) ^^^ 0xFFFFFFFF

/-! ### Classification (R320 to R322, Table 13.2) -/

/-- The frame has an outer VLAN tag. PRESUMED: TPID 0x8100 or 0x88A8, as IEEE 802.1Q assigns them. -/
def tagged (f : Bytes) : Bool := let t := beNat (sliceB f 12 2); t == 0x8100 || t == 0x88A8
/-- The outer tag's control field, 0 when untagged. -/
def frameTci (f : Bytes) : Nat := if tagged f then beNat (sliceB f 14 2) else 0
/-- PCP, 0 when untagged. -/
def framePcp (f : Bytes) : Nat := frameTci f / 8192
/-- EtherType after any outer tag. -/
def frameType (f : Bytes) : Nat := beNat (sliceB f (if tagged f then 16 else 12) 2)

/-- An entry of Table 13.2 matches a frame of a port. -/
def entryMatches (e : Bytes) (port : Nat) (f : Bytes) : Bool :=
  let fl := fld e 0 1
  let vm := bitsOf fl 1 2
  bitOf fl 0 && (vm = 0 || (vm = 1 && !tagged f) || (vm = 2 && tagged f)) && bitOf (fld e 1 1) port
    && (frameTci f % 4096) &&& fld e 4 2 == fld e 2 2 &&& fld e 4 2
    && bitOf (fld e 6 1) (framePcp f)
    && ((List.range 6).all fun i => (nth 0 f i) &&& (nth 0 e (14 + i)) == (nth 0 e (8 + i)) &&& (nth 0 e (14 + i)))
    && frameType f &&& fld e 22 2 == fld e 20 2 &&& fld e 22 2

/-- What R320 makes of a frame. -/
inductive EthFate where
  /-- to the PTP engine: offset of the message -/
  | ptp (off : Nat)
  | control | missDrop | actionDrop | closed
  | tunnel (tid : Nat)
  deriving DecidableEq, Repr

/-- A tunnel is OPEN with source F6 at this device (R322). -/
def Chip.f6Source (c : Chip) (tid : Nat) : Bool :=
  let t := c.tunOf tid
  t.state == .open && t.inPort == 6 && t.index == 0

/-- Where a PTP message starts in a frame, if it is one (R320 step 1). -/
def ptpOffset (f : Bytes) (udp : Bool) : Option Nat :=
  let l3 := if tagged f then 18 else 14
  let ihl := 4 * (fld f l3 1 % 16)
  let dst := beNat (sliceB f (l3 + ihl + 2) 2)
  if frameType f = 0x88F7 then some l3
  else if udp && frameType f = 0x0800 && fld f (l3 + 9) 1 = 17 && (dst = 319 || dst = 320) then some (l3 + ihl + 8)
  else none

/-- The fate of a frame of a port (R320). -/
def Chip.ethFate (c : Chip) (n : Nat) (f : Bytes) : EthFate :=
  let p := c.ethPort n
  let ptp := if (c.time.ptp.get {} n).mode = 0 then none else ptpOffset f (bitOf p.cfg.pflags 6)
  match ptp with
  | some o => .ptp o
  | none =>
    if frameType f = 0x8808 then .control
    else
      let dest := fun (t : Nat) => if c.f6Source t then EthFate.tunnel t else .closed
      match c.eth.cls.find? fun e => entryMatches e.2 n f with
      | some (_, e) => if fld e 24 1 = 0 then .actionDrop else dest (fld e 26 2)
      | none => if p.cfg.miss = 0 then .missDrop else dest p.cfg.missTid

/-! ### Segmentation (R323, R324) -/

/-- Bytes that wait in a port's receive buffer. -/
def Chip.ethWaiting (c : Chip) (n : Nat) : Nat :=
  (c.fab.src.get [] 6).foldl (fun a x => if x.aux % 4 = n then a + x.len else a) 0

/-- Cells wait at F6's source. -/
def Chip.pushEth (c : Chip) (l : List Cell) : Chip := l.foldl (fun c x => c.pushSrc 6 x) c

/-- The cells of a frame: XTAG is 0 but in the L cell, where it is the frame's length. -/
def frameCells (tid aux : Nat) (f : Bytes) : List Cell :=
  (msgCells tid aux 0 false f).map fun (x : Cell) => if x.l then { x with xtag := f.length } else x

/-- The cells of a frame that fails under INGRESS_CT after `n` bytes: full cells, then an L cell with P and a zero payload. -/
def failedCells (tid aux n : Nat) (f : Bytes) : List Cell :=
  let k := (n - 1) / 56
  let full := (frameCells tid aux (sliceB f 0 (56 * k + 1))).take k
  full ++ [{ tid, f := k == 0, l := true, p := true, len := 1, aux, xtag := 0, payload := zeros 56 }]

/-- A frame whose checks the port has made: `bad` is the counter of its failure (R324), none when it passed. -/
def Chip.ethIngress (c : Chip) (n : Nat) (f : Bytes) (bad : Option Nat) : Chip :=
  let p := c.ethPort n
  let ct := bitOf p.cfg.pflags 4
  let fate := c.ethFate n f
  let aux := n + 4 * framePcp f
  match bad with
  | some k =>
    let c := c.ethCount n k 1
    (match fate with
     | .tunnel tid => if ct then c.pushEth (failedCells tid aux (Nat.min f.length (p.cfg.maxFrame - 4)) f) else c
     | _ => c)
  | none =>
    let c := c.ethCount n 1 1
    match fate with
    | .ptp o => c.setEth fun e => { e with ptpIn := e.ptpIn ++ [{ port := n, at' := c.clk.localPs, msg := f.drop o }] }
    | .control => c.ethCount n 6 1
    | .missDrop => c.ethCount n 7 1
    | .actionDrop => c.ethCount n 8 1
    | .closed => c.ethCount n 9 1
    | .tunnel tid =>
      let room := 65536 - c.ethWaiting n
      if f.length ≤ room then c.pushEth (frameCells tid aux f)
      else
        let c := c.ethCount n 5 1
        if ct then c.pushEth (failedCells tid aux room f) else c

/-- A frame arrives at a port's MAC (R320, R324). -/
def Chip.ethReceive (c : Chip) (n : Nat) (f : Bytes) (fcsOk : Bool) : Chip :=
  let p := c.ethPort n
  if !p.up then c
  else c.ethIngress n f (if !fcsOk then some 3 else if f.length + 4 > p.cfg.maxFrame then some 4 else none)

/-! ### Egress (R325, R326) -/

/-- A frame leaves the port's transmitter, with its FCS or with an inverted one; loops 1 and 2 bring it back (R319). -/
def Chip.ethSend (c : Chip) (n : Nat) (f : Bytes) (good : Bool) : Chip :=
  let k := (c.ethPort n).cfg.loop
  let c := c.ethCount n (if good then 2 else 12) 1
  if k = 1 || k = 2 then c.ethReceive n f good
  else c.emit (.ethFrame n (f ++ le 4 (if good then fcsOf f else fcsOf f ^^^ 0xFFFFFFFF)))

/-- Replace the frames of an egress buffer. -/
def Chip.setFrames (c : Chip) (n : Nat) (l : List EthFrame) : Chip := c.setEthPort n { c.ethPort n with frames := l }

/-- The end of a tunnel at F6. -/
def Chip.ethEnd (c : Chip) (tid : Nat) : EthEnd := c.eth.ends.get {} tid
/-- Change the end of a tunnel at F6. -/
def Chip.setEthEnd (c : Chip) (tid : Nat) (e : EthEnd) : Chip := c.setEth fun x => { x with ends := x.ends.set tid e }

/-- The frame of a tunnel that is being assembled in a port's buffer. -/
def EthPort.partial? (p : EthPort) (tid : Nat) : Option EthFrame := p.frames.find? fun f => f.tid == tid && !f.done

/-- A bad frame that is being assembled (R326): discarded whole, or ended with an inverted FCS when it has started. -/
def Chip.ethSpoil (c : Chip) (n tid : Nat) : Chip :=
  let p := c.ethPort n
  match p.partial? tid with
  | none => c
  | some f =>
    let c := c.setFrames n (p.frames.filter fun g => g != f)
    if f.started then c.ethSend n f.bytes false else c.ethCount n 11 1

/-- Contracted tunnels whose frames leave through the port: the sum of their rates, in cells per fabric spoke. -/
def Chip.ethRates (c : Chip) (n : Nat) : Nat :=
  (c.tids fun i t => t.state.live && t.index == t.hops && t.outPort == 6 && c.ethDst i == n && c.contracted i).foldl
    (fun a i => a + (match c.certRec i with | some r => r.inRate | none => 0)) 0

/-- MAC rate of a mode in Gb/s. -/
def ethGbps (mode : Nat) : Nat := if mode = 1 then 1 else if mode = 2 then 10 else if mode = 0 then 0 else 25

/-- Delivery lies within E_OUT (R327): the port is UP, EGRESS_CT is off and the contracted rates fit its MAC rate. -/
def Chip.ethPromised (c : Chip) (n : Nat) : Bool :=
  let p := c.ethPort n
  p.up && !bitOf p.cfg.pflags 5 && decide (c.ethRates n * 896 ≤ ethGbps p.cfg.mode * 15625)

/-- Add a cell to the frame of its tunnel: the frame becomes bad, ready or complete (R325, R326). -/
def Chip.ethAppend (c : Chip) (n : Nat) (f : EthFrame) (x : Cell) : Chip :=
  let rest := (c.ethPort n).frames.filter fun g => g != f
  let g : EthFrame := { f with bytes := f.bytes ++ sliceB x.payload 0 x.len, cells := f.cells + 1, done := x.l }
  let bad := x.p || decide (g.bytes.length + 4 > g.maxFrame) || (x.l && g.bytes.length != x.xtag)
  if bad then (c.setFrames n (rest ++ [{ g with done := false }])).ethSpoil n x.tid
  else if g.started then
    if x.l then (c.setFrames n rest).ethSend n g.bytes true else c.setFrames n (rest ++ [g])
  else if !g.ready && (x.l || (g.ct && decide (g.cells ≥ 2))) then c.setFrames n (rest ++ [{ g with ready := true }])
  else c.setFrames n ((c.ethPort n).frames.map fun (h : EthFrame) => if h = f then g else h)

/-- F6 takes a cell of a FRAME tunnel into its egress port (R325 to R327). -/
def Chip.ethTake (c : Chip) (q : QCell) : Chip :=
  let x := q.cell
  let n := c.ethDst x.tid
  let p := c.ethPort n
  let e := c.ethEnd x.tid
  let gap := match e.nextSeq with | some k => k != x.seq | none => false
  let c := if c.contracted x.tid && !q.demoted && !c.ethPromised n then c.ethCount n 14 1 else c
  let next := some ((x.seq + 1) % 65536)
  let old := p.partial? x.tid
  if !p.up then
    let c := if old.isSome || x.f then c.ethCount n 13 1 else c
    (c.setFrames n (p.frames.filter fun g => !(g.tid == x.tid && !g.done))).setEthEnd x.tid { nextSeq := next, skip := !x.l }
  else
    let broken := old.isSome && (gap || x.f)
    let c := if broken then c.ethSpoil n x.tid else c
    let c := c.setEthEnd x.tid { nextSeq := next, skip := false }
    if x.f then
      let f : EthFrame := { tid := x.tid, maxFrame := p.cfg.maxFrame, ct := bitOf p.cfg.pflags 5 }
      let c := (c.setFrames n ((c.ethPort n).frames ++ [f])).ethAppend n f x
      if !x.l && ((c.ethPort n).partial? x.tid).isNone then c.setEthEnd x.tid { nextSeq := next, skip := true } else c
    else
      match (c.ethPort n).partial? x.tid with
      | some f =>
        let c := c.ethAppend n f x
        if !x.l && ((c.ethPort n).partial? x.tid).isNone then c.setEthEnd x.tid { nextSeq := next, skip := true } else c
      | none =>
        let c := if e.skip || broken then c else c.ethCount n 11 1
        c.setEthEnd x.tid { nextSeq := next, skip := !x.l }

/-- An egress port starts its next ready frame: contracted tunnels first, then in the order in which they became ready (R325); `starved`: a
cell that the frame in transmission needs has not arrived (R326). -/
def Chip.ethStart (c : Chip) (n : Nat) (starved : Bool) : Chip :=
  let p := c.ethPort n
  if !p.up || p.cfg.loop = 3 then c
  else match p.frames.find? fun f => f.started with
    | some f => if starved then (c.ethSpoil n f.tid).setEthEnd f.tid { c.ethEnd f.tid with skip := true } else c
    | none =>
      let r := p.frames.filter fun f => f.ready
      match (match r.find? fun f => c.contracted f.tid with | some f => some f | none => r.head?) with
      | none => c
      | some f =>
        if f.done then (c.setFrames n (p.frames.erase f)).ethSend n f.bytes true
        else c.setFrames n (p.frames.map fun (g : EthFrame) => if g = f then { g with started := true } else g)

/-- F6's answer to an OPEN of a FRAME tunnel (R325). -/
def Chip.f6Answer (c : Chip) (params : Bytes) : Option (Nat × Nat) :=
  let n := fld params 0 1
  if n > 3 then some (stParam, 0)
  else if (c.ethPort n).cfg.mode = 0 then some (stNoResource, 0x0903) else none

/-- A tunnel has gone: a frame of it in assembly is dropped and counted EGRESS_NO_TUNNEL (R322); one being transmitted ends with an inverted
FCS. -/
def Chip.ethGone (c : Chip) (tid : Nat) : Chip :=
  let t := c.tunOf tid
  if t.outPort != 6 || t.index != t.hops then c
  else
    let n := c.ethDst tid
    let c := match (c.ethPort n).partial? tid with
      | none => c
      | some f =>
        let c := c.setFrames n ((c.ethPort n).frames.filter fun g => g != f)
        let c := c.ethCount n 10 1
        if f.started then c.ethSend n f.bytes false else c
    c.setEth fun e => { e with ends := e.ends.erase tid }

end Sys2Proof.Machine
end

