-- ==== Sys2Proof/Machine/UsbOps.lean ====
section
/-!
DEFINITION. Chapter 15: the dock port's link state, functions and the ends of tunnels at F8 (R354 to R368), as the rows and the fabric use
them.
-/
namespace Sys2Proof

/-- The code by which the model numbers an endpoint of a function. -/
def UsbEp.code : UsbEp → Nat
  | .hubStatus => 0 | .cmdOut => 1 | .reply => 2 | .event => 3
  | .pipeOut i => 4 + 2 * i.val | .pipeIn i => 5 + 2 * i.val
  | .notify => 8 | .dataOut => 9 | .dataIn => 10

end Sys2Proof

namespace Sys2Proof.Machine

/-- The virtual ports. -/
def fnPorts : List Nat := [1, 2, 3, 4, 5, 6, 7]
/-- Change the dock port. -/
def Chip.setUsb (c : Chip) (f : Usb → Usb) : Chip := { c with usb := f c.usb }
/-- A virtual port. -/
def Chip.vport (c : Chip) (n : Nat) : VPort := c.usb.ports.get {} n
/-- Change a virtual port. -/
def Chip.setVport (c : Chip) (n : Nat) (v : VPort) : Chip := c.setUsb fun u => { u with ports := u.ports.set n v }
/-- Change the counters. -/
def Chip.usbCount (c : Chip) (f : UsbCounters → UsbCounters) : Chip := c.setUsb fun u => { u with cnt := f u.cnt }
/-- Key of an endpoint. -/
def epKey (fn : Nat) (ep : UsbEp) : Nat := 16 * fn + ep.code
/-- What waits in an IN endpoint. -/
def Chip.inq (c : Chip) (k : Nat) : List InItem := c.usb.inq.get [] k
/-- Change what waits in an IN endpoint. -/
def Chip.setInq (c : Chip) (k : Nat) (l : List InItem) : Chip :=
  c.setUsb fun u => { u with inq := if l.isEmpty then u.inq.erase k else u.inq.set k l }
/-- Numbers of data packets before they wrap: sequence numbers 0 to 31 at SuperSpeed, the data toggle on USB 2.0 (R369). -/
def Usb.seqMod (u : Usb) : Nat := if u.speed = 3 then 32 else 2
/-- A data packet of an endpoint has been accepted or sent: its toggle or sequence number moves on. -/
def Usb.nextSeq (u : Usb) (k : Nat) : Usb := { u with seqs := u.seqs.set k ((u.seqs.get 0 k + 1) % u.seqMod) }
/-- A whole transfer for the host. -/
def Chip.pushIn (c : Chip) (k : Nat) (b : Bytes) : Chip := c.setInq k (c.inq k ++ [.xfer b false true])

/-! ### Link state (R354, R355, R372, R374) -/

/-- STATE of Table 15.4. -/
def Usb.state (u : Usb) : Nat :=
  if !u.cfg.admin then 0 else if !u.attached then 1 else if u.suspended then 5 else if u.hubConf then 4 else if u.hubAddr != 0 then 3 else 2

/-- Change the link: USB_STATE_CHANGED when STATE or SPEED has changed. -/
def Chip.usbChange (c : Chip) (reason : Nat) (f : Usb → Usb) : Chip :=
  let u := c.usb
  let c := c.setUsb f
  if u.state = c.usb.state && u.speed = c.usb.speed then c
  else c.post 0x0A01 reason (u.state + 256 * c.usb.state + 65536 * c.usb.speed)

/-- The command session ends (R37, R374): commands received whole go on, replies not taken are lost and counted. -/
def Chip.usbEndSession (c : Chip) : Chip :=
  if !c.sessionUp .usb then c
  else
    let ver := c.version .usb
    let kept := (c.cmd.inbox.filter fun e => e.2.sess == .usb).map fun e => (e.1, e.2, ver)
    let lost := (c.cmd.replies.filter fun r => r.sess == .usb).length + (c.inq (epKey 1 .reply)).length
    ((c.usbCount fun k => { k with repliesLost := sat32 k.repliesLost lost }).setUsb fun u => { u with orphans := u.orphans ++ kept }).endSession .usb

/-- A function is no longer configured: its endpoints' buffers are empty (DESIGN CHOICE), a message in assembly has a gap, a mass-storage
command ends; port 1's session ends. -/
def Chip.fnUnconfigure (c : Chip) (n : Nat) : Chip :=
  let c := if n = 1 then c.usbEndSession else c
  let v := c.vport n
  let mine := fun (tid : Nat) => (c.tunOf tid).outPort == 8 && fld (c.tunOf tid).typeParams 0 1 == n
  let held := c.usb.inq.any fun e => e.1 / 16 == n
  (c.setVport n { v with configured := false, alt := 0, halts := [], fnWake := false, net := false }).setUsb fun u => { u with
    inq := u.inq.filter fun e => e.1 / 16 != n
    outUsed := u.outUsed.filter fun e => e.1 / 16 != n
    seqs := u.seqs.filter fun e => e.1 / 16 != n
    ends := u.ends.mapAll fun t (e : UsbEnd) => if mine t then { e with gap := e.gap || e.inMsg || held, inMsg := false, bytes := [], poison := false } else e
    msc := u.msc.mapAll fun k (m : Msc) =>
      if k = n then { m with cmd := none, reqs := m.reqs.map fun (r : MscReq) => { r with live := false }, resetWait := false, recovery := false } else m }

/-! ### Functions (R358 to R361) -/

/-- Tunnels bound to a slot toward the host: those that end at F8 with this PORT and SLOT. -/
def Chip.fnIn (c : Chip) (n slot : Nat) : Option Nat :=
  (c.tids fun _ t => t.state.live && t.index == t.hops && t.outPort == 8 && fld t.typeParams 0 1 == n && fld t.typeParams 1 1 == slot).head?
/-- The tunnel from F8 that is paired with a tunnel to F8. -/
def Chip.fnPair (c : Chip) (dst : Nat) : Option Nat :=
  (c.tids fun _ t => t.state.live && t.index == 0 && t.inPort == 8 && t.partner == dst).head?
/-- The tunnel carries cells: OPEN, or CLOSING under a DRAIN. -/
def Chip.carries (c : Chip) (t : Option Nat) : Bool :=
  match t with | some t => (match (c.tunOf t).state with | .open | .closing => true | _ => false) | none => false
/-- Both tunnels of a slot are open. -/
def Chip.fnPairOpen (c : Chip) (n slot : Nat) : Bool :=
  match c.fnIn n slot with | none => false | some t => c.carries (some t) && c.carries (c.fnPair t)
/-- The tunnel on which a slot's OUT data leave: OPEN, with source F8. -/
def Chip.fnOut (c : Chip) (n slot : Nat) : Option Nat :=
  match c.fnIn n slot with
  | none => none
  | some t => match c.fnPair t with | some s => if (c.tunOf s).state == .open then some s else none | none => none

/-- A function disconnects from its port. -/
def Chip.fnDisconnect (c : Chip) (n : Nat) : Chip :=
  let v := c.vport n
  if !v.conn then c
  else
    let c := c.fnUnconfigure n
    (c.setVport n { c.vport n with conn := false, cConn := true, enabled := false, addr := 0 }).post 0x0A03 0 (n + 256 * v.cfg.kind)

/-- The port's function is there to be connected (R361). -/
def Chip.fnWanted (c : Chip) (n : Nat) : Bool :=
  let k := (c.vport n).cfg.kind
  if k = 3 then c.carries (c.fnIn n 0) else k != 0

/-- Connect the port's function when it is there and R358 allows. -/
def Chip.fnConnect (c : Chip) (n : Nat) : Chip :=
  let v := c.vport n
  if v.conn || !c.fnWanted n || (v.cConn && c.usb.hubConf) || !c.dev.islands.contains 9 then c
  else (c.setVport n { v with conn := true, cConn := true }).post 0x0A02 0 (n + 256 * v.cfg.kind)

/-- A mass-storage function. -/
def Chip.mscOf (c : Chip) (n : Nat) : Msc := c.usb.msc.get {} n
/-- Change a mass-storage function. -/
def Chip.setMsc (c : Chip) (n : Nat) (m : Msc) : Chip := c.setUsb fun u => { u with msc := u.msc.set n m }
/-- A logical unit. -/
def Msc.lun (m : Msc) (l : Nat) : Lun := m.luns.get {} l

/-- NETWORK_CONNECTION of an NCM function (R361): a change is notified while it is configured. -/
def Chip.ncmNotify (c : Chip) (n : Nat) : Chip :=
  let v := c.vport n
  let up := c.fnPairOpen n 0
  if !v.configured || v.net == up then c
  else (c.setVport n { v with net := up }).pushIn (epKey n .notify) (le 1 0xA1 ++ zeros 1 ++ le 2 (b2n up) ++ zeros 4)

/-! ### Mass storage: BLOCK requests (R367, R368) -/

/-- Put cells at F8's source. -/
def Chip.pushUsb (c : Chip) (l : List Cell) : Chip := l.foldl (fun c x => c.pushSrc 8 x) c

/-- A BLOCK request (Table 14.1) and the data messages of a WRITE. -/
def Chip.mscSend (c : Chip) (tid tag op qf count lba : Nat) (data : Bytes) : Chip :=
  let c := c.pushUsb [{ tid, f := true, l := true, len := 56, aux := 0, xtag := tag,
                        payload := sliceB (le 1 op ++ le 1 qf ++ be 2 count ++ be 6 lba) 0 56 }]
  if op != 2 then c
  else (List.range count).foldl (fun (c : Chip) i => c.pushUsb (msgCells tid i tag false (sliceB data (4096 * i) 4096))) c

/-- Issue the requests of a command, in LBA order, while fewer than 64 are outstanding on its tunnel. -/
def Chip.mscIssue (c : Chip) (n tid : Nat) : Nat → Chip
  | 0 => c
  | fuel + 1 =>
    let m := c.mscOf n
    match m.cmd with
    | none => c
    | some k =>
      match k.todo with
      | [] => c
      | (lba, cnt) :: r =>
        if (m.reqs.filter fun q => q.tid == tid).length ≥ 64 then c
        else
          let g := Nat.min 64 cnt
          let todo := if cnt > 64 then (lba + 64, cnt - 64) :: r else r
          let k' := { k with todo, data := k.data.drop (4096 * g) }
          let c := c.setMsc n { m with cmd := some k', reqs := m.reqs ++ [{ tag := m.nextTag, tid, lba, count := g }], nextTag := (m.nextTag + 1) % 65536 }
          (c.mscSend tid m.nextTag k.op (b2n k.fua) g lba (k.data.take (4096 * g))).mscIssue n tid fuel

/-- CSW of a command (Bulk-Only Transport): status 0, 1 or 2. -/
def Chip.mscCsw (c : Chip) (n tag residue status : Nat) : Chip :=
  let c := if status = 0 then c else c.usbCount fun k => { k with mscErrors := sat32 k.mscErrors 1 }
  c.setInq (epKey n .dataIn) (c.inq (epKey n .dataIn) ++ [.xfer (le 4 0x53425355 ++ le 4 tag ++ le 4 residue ++ le 1 status) false true])

/-- Set the sense data of a logical unit. -/
def Chip.mscSense (c : Chip) (n l key asc : Nat) (info : Option Nat := none) : Chip :=
  let m := c.mscOf n
  c.setMsc n { m with luns := m.luns.set l { m.lun l with key, asc, info } }

/-- Data of the data-IN stage of a READ: `last` ends the stage, with a short packet when `short`. -/
def Chip.mscData (c : Chip) (n : Nat) (b : Bytes) (last short : Bool) : Chip :=
  let k := epKey n .dataIn
  let q := c.inq k
  match q.reverse with
  | .xfer d true _ :: r => c.setInq k (r.reverse ++ [.xfer (d ++ b) (!last) short])
  | _ => c.setInq k (q ++ [.xfer b (!last) short])

/-- A command has ended: its data stage and its CSW. -/
def Chip.mscFinish (c : Chip) (n : Nat) : Chip :=
  let m := c.mscOf n
  match m.cmd with
  | none => c
  | some k =>
    if !k.todo.isEmpty && !k.failed || m.reqs.any (fun r => r.live) then c
    else
      let c := c.setMsc n { m with cmd := none }
      let residue := k.expect - k.moved
      let c :=
        if k.op != 1 then c
        else if k.failed then
          let c := c.mscData n [] true true
          c.setInq (epKey n .dataIn) (c.inq (epKey n .dataIn) ++ [.halt])
        else
          let c := if k.moved > 0 then c.mscData n [] true false else c
          if residue > 0 then c.setInq (epKey n .dataIn) (c.inq (epKey n .dataIn) ++ [.halt]) else c
      c.mscCsw n k.tag residue (b2n k.failed)

/-- A READ's data message (R368): blocks before the first failing one go to the host. -/
def Chip.mscBlock (c : Chip) (n tag idx : Nat) (b : Bytes) (bad : Bool) : Chip :=
  let m := c.mscOf n
  match m.cmd, m.reqs.find? fun r => r.tag == tag with
  | some k, some r =>
    if !r.live || k.op != 1 || k.failed then c
    else if bad || idx != r.got then
      (c.setMsc n { m with cmd := some { k with failed := true } }).mscSense n k.lun 3 0x1100 (some (r.lba + r.got))
    else
      let g := Nat.min 4096 (k.expect - k.moved)
      let reqs := m.reqs.map fun (q : MscReq) => if q.tag = tag then { q with got := q.got + 1 } else q
      (c.setMsc n { m with reqs, cmd := some { k with moved := k.moved + g } }).mscData n (b.take g) false true
  | _, _ => c

/-- A BLOCK response (Table 14.2): MSC_BLOCK_RESPONSE (R368). -/
def Chip.mscResponse (c : Chip) (n tag : Nat) (b : Bytes) : Chip :=
  let m := c.mscOf n
  match m.reqs.find? fun r => r.tag == tag with
  | none => c
  | some r =>
    let m := { m with reqs := m.reqs.filter fun q => q.tag != tag }
    let m := if m.resetWait && m.reqs.isEmpty then { m with resetWait := false } else m
    let c := c.setMsc n m
    match m.cmd with
    | none => c
    | some k =>
      if !r.live then c
      else
        let st := beNat (sliceB b 0 2)
        let reason := beNat (sliceB b 2 2)
        let done := beNat (sliceB b 4 2)
        let fail := beNat (sliceB b 6 6)
        let set := fun (k : MscCmd) (c : Chip) => c.setMsc n { c.mscOf n with cmd := some k }
        let c :=
          if st = 0 then
            if k.op = 2 && !k.failed then set { k with moved := k.moved + 4096 * r.count } c
            else if k.op = 1 && !k.failed && r.got != r.count then set { k with failed := true } (c.mscSense n k.lun 3 0x1100 (some (r.lba + r.got)))
            else c
          else
            let first := (c.mscOf n).lun k.lun |>.key
            let c := if k.failed && first != 0 then c
              else if k.op = 1 then c.mscSense n k.lun 3 0x1100 (some fail)
              else if reason = 0x080E then c.mscSense n k.lun 7 0x2700
              else if reason = 0x0816 then c.mscSense n k.lun 5 0x2100
              else c.mscSense n k.lun 3 0x0C00
            set { k with failed := true, moved := if k.op = 2 && !k.failed then k.moved + 4096 * done else k.moved } c
        (if k.failed || st != 0 then c else c.mscIssue n r.tid 65).mscFinish n

/-- The pair of a logical unit has opened or gone (R361): UNIT ATTENTION once, or NOT READY; a command that waits for it fails. -/
def Chip.lunRefresh (c : Chip) (n l : Nat) : Chip :=
  let m := c.mscOf n
  let u := m.lun l
  let up := c.fnPairOpen n l
  if up == u.ready then c
  else if up then c.setMsc n { m with luns := m.luns.set l { u with ready := true, attention := true } }
  else
    let c := c.setMsc n { m with luns := m.luns.set l { ready := false, attention := false } }
    match m.cmd with
    | none => c
    | some k =>
      if k.lun != l then c
      else
        let c := c.mscSense n l 2 0x3A00
        let m := c.mscOf n
        (c.setMsc n { m with reqs := m.reqs.filter fun r => !r.live, cmd := some { k with failed := true, todo := [] } }).mscFinish n

/-- Functions follow the tunnels bound to them (R361). -/
def Chip.fnRefresh (c : Chip) (n : Nat) : Chip :=
  let v := c.vport n
  if v.cfg.kind = 3 then (if v.conn && !c.fnWanted n then c.fnDisconnect n else c.fnConnect n)
  else if v.cfg.kind = 1 then c.ncmNotify n
  else if v.cfg.kind = 2 then (List.range v.cfg.luns).foldl (fun c l => c.lunRefresh n l) c
  else c
/-- Every function follows its tunnels. -/
def Chip.usbRefresh (c : Chip) : Chip := fnPorts.foldl Chip.fnRefresh c

/-- A pending remote wake is over: the port stops driving it (R373). -/
def Chip.usbStopWake (c : Chip) : Chip :=
  if c.usb.wakePending.isSome then (c.setUsb fun u => { u with wakePending := none }).drive .usbWake 0 else c

/-- The port disconnects from the host: the session ends and every function is unconfigured. -/
def Chip.usbDetach (c : Chip) (reason : Nat) : Chip :=
  let c := (fnPorts.foldl Chip.fnUnconfigure c).usbStopWake
  let c := (c.drive .usbPullup 0).usbChange reason fun u => { u with
    attached := false, speed := 0, hubAddr := 0, hubConf := false, suspended := false, hubWake := false, wakePending := none }
  { c with usb := { c.usb with ports := c.usb.ports.mapAll fun _ (v : VPort) => { v with enabled := false, resetting := false, addr := 0 } } }

/-- The port presents itself when ADMIN is 1 and U_VBUS is valid (R355). -/
def Chip.usbAttach (c : Chip) (reason : Nat) : Chip :=
  if !c.usb.cfg.admin || !c.usb.vbus || c.usb.attached || !c.dev.islands.contains 9 then c
  else (c.drive .usbPullup 1).usbChange reason fun u => { u with attached := true, speed := u.cfg.maxSpeed }

/-- The USB island starts: functions connect on their ports, and the port presents itself. -/
def Chip.usbStart (c : Chip) : Chip := (fnPorts.foldl Chip.fnConnect c).usbAttach 0
/-- The USB island loses power. -/
def Chip.usbOff (c : Chip) : Chip := fnPorts.foldl Chip.fnDisconnect (if c.usb.attached then c.usbDetach 0 else c)

/-! ### Opens at F8 (R360) -/

/-- KIND that a tunnel type needs at F8. -/
def fnKind (ty : Nat) : Nat := match ty with | 5 => 4 | 3 => 1 | 2 => 2 | 6 => 3 | _ => 0
/-- Slots of a function. -/
def FnCfg.slots (f : FnCfg) : Nat := if f.kind = 4 then f.pipes else if f.kind = 2 then f.luns else 1

/-- F8's answer to an OPEN of a tunnel that ends there. -/
def Chip.f8Answer (c : Chip) (ty : Nat) (params : Bytes) : Option (Nat × Nat) :=
  let n := fld params 0 1
  let slot := fld params 1 1
  let f := (c.vport n).cfg
  if n = 0 || n > 7 || f.kind = 0 || fnKind ty != f.kind || slot ≥ f.slots then some (stNoResource, 0x0A02)
  else if (c.fnIn n slot).isSome then some (stNoResource, 0x0A03) else none

/-- F8's answer to an OPEN of a tunnel that starts there. -/
def Chip.f8Source (c : Chip) (ty oflags partner : Nat) : Option (Nat × Nat) :=
  let t := c.tunOf partner
  if (c.fnPair partner).isSome && bitOf oflags 3 then some (stNoResource, 0x0A03)
  else if !bitOf oflags 3 || t.state != .open || t.index != t.hops || t.outPort != 8 || t.ty != ty then some (stNoResource, 0x0A05) else none

/-! ### Cells that F8 takes (R362, R365, R366, R375) -/

/-- The IN endpoint of a tunnel that ends at F8. -/
def Chip.inKey (c : Chip) (tid : Nat) : Nat :=
  let p := (c.tunOf tid).typeParams
  let n := fld p 0 1
  if (c.vport n).cfg.kind = 4 then 16 * n + 5 + 2 * fld p 1 1 else epKey n .dataIn

/-- A message for the host with its prefix (R365). -/
def UsbEnd.message (e : UsbEnd) (cut : Bool) : Bytes :=
  le 4 e.bytes.length ++ le 2 e.seq ++ le 1 (b2n e.gap + 2 * b2n e.poison + 4 * b2n cut) ++ zeros 1 ++ e.bytes

/-- A cell of a tunnel that a bulk pipe carries (R365). -/
def Chip.pipeTake (c : Chip) (tid : Nat) (x : Cell) (e : UsbEnd) (gap : Bool) : Chip :=
  let r : Chip × UsbEnd :=
    if e.inMsg && (gap || x.f) then (c.pushIn (c.inKey tid) (e.message true), { e with inMsg := false, gap := false, bytes := [], poison := false })
    else (c, e)
  let e := { r.2 with gap := r.2.gap || gap }
  let e := if e.inMsg then e else { e with inMsg := true, seq := x.seq, bytes := [], poison := false }
  let e := { e with bytes := e.bytes ++ (if x.p then zeros x.len else sliceB x.payload 0 x.len), poison := e.poison || x.p }
  if x.l then
    (r.1.pushIn (c.inKey tid) (e.message false)).setUsb fun u => { u with ends := u.ends.set tid { e with inMsg := false, gap := false, bytes := [], poison := false } }
  else r.1.setUsb fun u => { u with ends := u.ends.set tid e }

/-- Discarded frames are counted. -/
def Chip.countFrames (c : Chip) (d : Nat) : Chip := c.usbCount fun k => { k with framesDiscarded := sat32 k.framesDiscarded d }

/-- A cell of a FRAME tunnel for an NCM function (R362, R366): bad and oversize frames are discarded and counted. -/
def Chip.ncmTake (c : Chip) (tid n : Nat) (x : Cell) (e : UsbEnd) (gap : Bool) : Chip :=
  let v := c.vport n
  let put := fun (c : Chip) (e : UsbEnd) => c.setUsb fun u => { u with ends := u.ends.set tid e }
  let broken := e.inMsg && (gap || x.f)
  let c := if broken then c.countFrames 1 else c
  let e := { e with gap := false, skip := e.skip && !x.f || broken && !x.f, inMsg := e.inMsg && !broken, bytes := if broken then [] else e.bytes }
  if v.alt = 0 then
    put (if x.f && !broken || e.inMsg then c.countFrames 1 else c) { e with inMsg := false, bytes := [], skip := !x.l }
  else if e.skip then put c { e with skip := !x.l }
  else if !x.f && !e.inMsg then put (c.countFrames 1) { e with skip := !x.l }
  else
    let b := e.bytes ++ sliceB x.payload 0 x.len
    if x.p || b.length > v.cfg.maxSegment || (x.l && b.length != x.xtag) then put (c.countFrames 1) { e with inMsg := false, bytes := [], skip := !x.l }
    else if x.l then put (c.pushIn (16 * n + 12) b) { e with inMsg := false, bytes := [] }
    else put c { e with inMsg := true, bytes := b }

/-- A cell of a BLOCK response tunnel for a mass-storage function. -/
def Chip.mscTake (c : Chip) (tid n : Nat) (x : Cell) (e : UsbEnd) (gap : Bool) : Chip :=
  let put := fun (c : Chip) (e : UsbEnd) => c.setUsb fun u => { u with ends := u.ends.set tid e }
  if x.aux = 0xFF then
    (put c { e with inMsg := false, bytes := [], poison := false }).mscResponse n x.xtag x.payload
  else
    let e := if x.f then { e with inMsg := true, bytes := [], poison := false, xtag := x.xtag } else { e with poison := e.poison || gap }
    let e := { e with bytes := e.bytes ++ sliceB x.payload 0 x.len, poison := e.poison || x.p || x.xtag != e.xtag || !e.inMsg }
    if x.l then
      (put c { e with inMsg := false, bytes := [], poison := false }).mscBlock n x.xtag x.aux e.bytes (e.poison || e.bytes.length != 4096)
    else put c e

/-- F8 takes a cell (R362, R375). -/
def Chip.usbTake (c : Chip) (q : QCell) : Chip :=
  let x := q.cell
  let n := fld (c.tunOf x.tid).typeParams 0 1
  let v := c.vport n
  let e := c.usb.ends.get {} x.tid
  let gap := match e.nextSeq with | some k => k != x.seq | none => false
  let c := if c.contracted x.tid && !q.demoted && decide (q.linkAt < v.readyAt) then c.usbCount fun k => { k with usbStall := sat32 k.usbStall 1 } else c
  let e := { e with nextSeq := some ((x.seq + 1) % 65536) }
  if v.cfg.kind = 1 then c.ncmTake x.tid n x e gap
  else if v.cfg.kind = 2 then c.mscTake x.tid n x e gap
  else c.pipeTake x.tid x e gap

/-- A tunnel has gone or opened: forget the end of one that has gone, and let the functions follow. -/
def Chip.usbTunnel (c : Chip) (tid : Nat) : Chip :=
  let t := c.tunOf tid
  if t.outPort != 8 && t.inPort != 8 then c
  else (if t.state.live then c else c.setUsb fun u => { u with ends := u.ends.erase tid }).usbRefresh

end Sys2Proof.Machine
end

