-- ==== Sys2Proof/Machine/EndpointOps.lean ====
section
/-!
DEFINITION. What the endpoints do when a tunnel opens or ends at them.
-/
namespace Sys2Proof.Machine

/-- An OPEN as its destination endpoint sees it: `owner` is the opener's issuer code when HOPS is 0. -/
structure DstReq where
  tid : Nat
  ty : Nat
  cls : Nat
  port : Nat
  params : Bytes
  partner : Nat
  oflags : Nat
  window : Nat
  hops : Nat
  owner : Nat
  deriving DecidableEq, Repr

/-- What the destination endpoint of a type answers to an OPEN (check 8 of Table 08.6): a refusal's status and reason, and its TYPE_PARAMS. -/
def Chip.endpointAnswer (c : Chip) (r : DstReq) : Option (Nat × Nat) × Bytes :=
  if r.port = 4 then (c.f4Answer r.params, zeros 16)
  else if r.port = 7 && r.ty = 2 then (c.f7Answer r.params r.partner r.oflags r.window r.hops r.owner, zeros 16)
  else if r.port = 5 then (c.f5Answer r.tid r.cls r.hops r.params, zeros 16)
  else if r.port = 6 then (c.f6Answer r.params, zeros 16)
  else if r.port = 8 then (c.f8Answer r.ty r.params, zeros 16)
  else if r.port = 9 then (c.f9Answer r.tid r.partner r.oflags r.params, zeros 16)
  else (none, zeros 16)

/-- The endpoints let go of a tunnel that has closed (R292, R352, R399). -/
def Chip.tunnelGone (c : Chip) (tid : Nat) : Chip :=
  ((((((c.unbindTunnel tid).blkClose tid).rasterGone tid).ethGone tid).usbTunnel tid).legGone tid)
/-- The destination endpoint is ready for a tunnel that has opened. -/
def Chip.tunnelUp (c : Chip) (tid : Nat) : Chip :=
  let t := c.tunOf tid
  (if t.index = t.hops && t.outPort = 7 && t.ty = 2 then c.blkOpen tid else c).usbTunnel tid

end Sys2Proof.Machine
end

