-- ==== Sys2Proof/Machine/TunnelOps.lean ====
section
/-!
DEFINITION. Chapter 08: opening and closing tunnels (R202 to R212, R220, R519), as the commands, the control cells and other families use it.
-/
namespace Sys2Proof.Machine

/-! ### Types (Table 08.2) -/

/-- Source ports of a tunnel type. -/
def srcPorts (ty : Nat) : List Nat :=
  match ty with
  | 1 => [5] | 2 => [4, 7, 8] | 3 => [4, 6, 8] | 4 => [4] | 5 => [4, 8, 9, 10] | 6 => [4, 6, 7, 8, 9, 10] | _ => []

/-- Destination ports: the same sets. -/
def dstPorts (ty : Nat) : List Nat := srcPorts ty

/-- Classes of a type: 0 C, 1 V, 2 B. -/
def typeClasses (ty : Nat) : List Nat :=
  match ty with
  | 1 => [0, 2] | 2 => [1, 2] | 3 => [0, 2] | 4 => [0, 1, 2] | 5 => [1, 2] | 6 => [1, 2] | _ => []

/-- Highest version of a type; the lowest is 1. -/
def typeMaxVer (ty : Nat) : Nat := match ty with | 1 => 2 | 2 => 3 | 4 => 2 | 5 => 2 | _ => 1

/-- The port of which exactly one end must be. -/
def typeOneEnd (ty : Nat) : Option Nat := match ty with | 2 => some 7 | 5 => some 9 | 6 => some 8 | _ => none

/-! ### OPEN (Tables 08.4, 08.6) -/

/-- An OPEN as a device sees it. -/
structure OpenReq where
  tid : Nat
  ty : Nat
  cls : Nat
  minVer : Nat
  maxVer : Nat
  oflags : Nat
  partner : Nat
  hops : Nat
  index : Nat
  /-- fabric input: SRC_PORT at device 0, the trunk elsewhere -/
  inPort : Nat
  route : List Nat
  window : Nat
  openId : Nat
  guarantee : Nat
  params : Bytes
  drainTurns : Nat
  deriving DecidableEq, Repr

/-- The output at a device. -/
def OpenReq.out (r : OpenReq) (i : Nat) : Nat := nth 0xFF r.route i

/-- The OPEN as its destination endpoint sees it. -/
def OpenReq.dst (r : OpenReq) (owner : Nat) : DstReq :=
  { tid := r.tid, ty := r.ty, cls := r.cls, port := r.out r.hops, params := r.params, partner := r.partner, oflags := r.oflags,
    window := r.window, hops := r.hops, owner }

/-- OPEN's payload toward the device with path index `i`. -/
def OpenReq.payload (r : OpenReq) (i : Nat) : Bytes :=
  be 2 r.tid ++ le 1 r.ty ++ le 1 r.cls ++ le 1 r.minVer ++ le 1 r.maxVer ++ be 2 r.oflags ++ be 2 r.partner ++ le 1 r.hops ++ le 1 i ++
    ((List.range 9).map fun k => BitVec.ofNat 8 (if k ≤ r.hops then r.out k else 0xFF)) ++ zeros 1 ++ be 2 r.window ++ be 4 r.openId ++
    be 4 r.guarantee ++ sliceB r.params 0 16 ++ be 2 r.drainTurns ++ zeros 6

/-- A big-endian field of a payload. -/
def fldBe (b : Bytes) (o n : Nat) : Nat := beNat (sliceB b o n)

/-- The OPEN that a cell from trunk `n` carries; reserved fields are ignored (R204). -/
def openOfCell (n : Nat) (b : Bytes) : OpenReq :=
  { tid := fldBe b 0 2 % 1024, ty := fldBe b 2 1, cls := fldBe b 3 1, minVer := fldBe b 4 1, maxVer := fldBe b 5 1, oflags := fldBe b 6 2 % 16,
    partner := fldBe b 8 2, hops := fldBe b 10 1, index := fldBe b 11 1, inPort := n, route := (sliceB b 12 9).map BitVec.toNat,
    window := fldBe b 22 2, openId := fldBe b 24 4, guarantee := fldBe b 28 4, params := sliceB b 32 16, drainTurns := fldBe b 48 2 }

/-- Guarantees in force that satisfy `p`. -/
def Chip.guaranteesOf (c : Chip) (p : Tun → Bool) : Nat :=
  c.fab.tun.foldl (fun a e => if e.2.state.live && p e.2 then a + e.2.guarantee else a) 0

/-- The guarantee fits (R220): at device 0 the opener's share, elsewhere the transit share. -/
def Chip.guaranteeFits (c : Chip) (g : Nat) (owner : Option Nat) : Bool :=
  let shares := c.host.inst.foldl (fun a e => if e.1 > 0 && e.2.state != .absent then a + e.2.share else a) 16384
  let transit := fun (t : Tun) => t.index > 0 || t.owner ≥ 0xE0
  match owner with
  | some o =>
    if o < 64 then decide (c.guaranteesOf (fun t => t.index = 0 && t.owner = o) + g ≤ (c.inst o).share)
    else decide (c.guaranteesOf transit + g + shares ≤ 110592)
  | none => decide (c.guaranteesOf transit + g + shares ≤ 110592)

/-- The checks of Table 08.6 (R16, R26, R199, R201) at the device with path index `i`; `owner` is the opener's issuer code at device 0. -/
def Chip.checkOpen (c : Chip) (r : OpenReq) (i : Nat) (owner : Option Nat) : Option (Nat × Nat) :=
  let vf := bitOf r.oflags 0
  let o := r.out i
  let last := decide (i = r.hops)
  let one := match typeOneEnd r.ty with
    | none => true
    | some p => i != 0 || ((r.inPort == p) != (r.out r.hops == p))
  if !(typeClasses r.ty).contains r.cls || (vf && r.cls = 2) || r.hops > 8 then some (stParam, 0x0203)
  else if !c.portOn r.inPort || !c.portOn o || o > 10 || (i = 0 && !(srcPorts r.ty).contains r.inPort) || !one
      || (!last && (o > 3 || !c.inData o || o == r.inPort)) || (last && !(dstPorts r.ty).contains o) then some (stParam, 0x0204)
  else if (c.tunOf r.tid).state != .free then some (stNoResource, 0x0202)
  else if (vf || bitOf r.oflags 1) && !last
      && !(decide ((c.laneOf o).revision = 2) && bitOf (c.frmOf o).peerFeatures 0 && ((c.sealOf o).cfg.mode == 1 || (c.sealOf o).keys.isSome)) then
    some (stNoResource, 0x0205)
  else if r.cls < 2 && (match c.activeGear with
      | none => false
      | some g => match g.rec? r.tid with
        | none => true
        | some k => !(k.ty == r.ty && k.cls == r.cls && k.verifyFirst == vf && k.inPort == r.inPort && k.outPort == o)) then
    some (stNoResource, 0x0206)
  else if r.cls = 2 && !c.guaranteeFits r.guarantee owner then some (stNoResource, 0x0207)
  else if last && !(decide (r.minVer ≤ r.maxVer) && decide (r.minVer ≤ typeMaxVer r.ty) && decide (1 ≤ r.maxVer)) then some (stNoResource, 0x0208)
  else match (if i = 0 && r.inPort = 8 then c.f8Source r.ty r.oflags r.partner else none) with
  | some e => some e
  | none => if last then (c.endpointAnswer (r.dst (owner.getD 0xFF))).1 else none

/-- The context that an OPEN creates. -/
def OpenReq.context (r : OpenReq) (i owner : Nat) : Tun :=
  { state := .opening, ty := r.ty, cls := r.cls, minVer := r.minVer, maxVer := r.maxVer, hops := r.hops, index := i, inPort := r.inPort,
    outPort := r.out i, owner, oflags := r.oflags, partner := r.partner, window := r.window, guarantee := r.guarantee,
    drainTurns := if r.drainTurns = 0 then 8 else r.drainTurns, route := r.route, typeParams := r.params, openId := r.openId }

/-- The policer of a tunnel that is contracted starts full (R239). -/
def Chip.policerFull (c : Chip) (tid : Nat) : Chip :=
  match c.certRec tid with
  | none => c
  | some r => c.setTun tid { c.tunOf tid with tokens := r.policeDepth * 65536, tokensFrac := 0, tokensAt := c.clk.powerPs }

/-- Put a new context in place: its queue and freewheel state start fresh, but for the counters, and V cells are expected from SEQ 0. -/
def Chip.newContext (c : Chip) (tid : Nat) (t : Tun) : Chip :=
  let c := (c.setTun tid t).setFw t.outPort tid (c.fwOf t.outPort tid).fresh
  let c := if t.index > 0 && t.inPort < 4 then
      let f := c.frmOf t.inPort
      c.setFrm t.inPort { f with expSeq := f.expSeq.erase tid }
    else c
  c.policerFull tid

/-- A context enters OPEN with the chosen version: TUNNEL_OPENED is posted; a contracted tunnel is suspended for a condition that fails
already (R194, R195). -/
def Chip.tunnelOpened (c : Chip) (tid ver : Nat) : Chip :=
  let t := c.tunOf tid
  let credit := if bitOf t.oflags 2 && t.index = 0 then some (t.window % 65536) else none
  let t := { t with state := .open, version := ver, openTurn := c.turn, creditSeq := credit, creditSent := t.window % 65536,
                    promise := if t.promise.suspended then t.promise else { t.promise with since := c.turn } }
  let c := c.setTun tid t
  let d := tid + t.inPort * 65536 + t.outPort * 2 ^ 20 + ver * 2 ^ 24
  let c := c.post 0x0201 0 d
  let c := if t.index = 0 then c.postTun tid (c.event 0x0201 0 d) else c
  (c.tunnelUp tid).promiseStart tid

/-- An OPEN_ACK's payload (Table 08.5). -/
def ackPayload (tid st reason ver fail openId : Nat) (params : Bytes) : Bytes :=
  be 2 tid ++ be 2 st ++ be 2 reason ++ le 1 ver ++ le 1 fail ++ be 4 openId ++ sliceB params 0 16

/-! ### Closing (R209 to R212) -/

/-- A CLOSE's payload (Table 08.5). -/
def closePayload (tid mode dir cause lastSeq id origin : Nat) : Bytes :=
  be 2 tid ++ le 1 mode ++ le 1 dir ++ be 2 cause ++ be 2 lastSeq ++ be 4 id ++ le 1 origin

/-- A CLOSE_ACK's payload. -/
def closeAckPayload (tid id discarded : Nat) : Bytes := be 2 tid ++ be 4 id ++ be 4 discarded

/-- The context moves to QUARANTINE: TUNNEL_CLOSED is posted (R202, R212), and the endpoints let go of it. -/
def Chip.quarantine (c : Chip) (tid cause : Nat) (byShift : Bool := false) : Chip :=
  let t := c.tunOf tid
  let d := tid + 1024 * b2n t.promise.suspended + 2048 * b2n byShift + (t.discarded % 2 ^ 32) * 2 ^ 32
  let c := c.setTun tid { t with state := .quarantine, closeCause := cause, openHandle := none }
  let c := c.post 0x0202 cause d
  let c := if t.index = 0 then c.postTun tid (c.event 0x0202 cause d) else c
  c.tunnelGone tid

/-- Cells of a tunnel that wait at the endpoint's source are gone. -/
def Chip.clearSrc (c : Chip) (tid : Nat) : Chip :=
  { c with fab := { c.fab with src := (c.fab.src.mapAll fun _ l => l.filter fun x => x.tid != tid).filter fun e => !e.2.isEmpty } }

/-- The open DRAIN of a context ends with an ABORT's cause (R211). -/
def Chip.drainAborted (c : Chip) (tid cause : Nat) : Chip :=
  (c.fab.closes.filter fun k => k.tid == tid && k.drain && k.handle == (c.tunOf tid).openId).foldl (fun c k =>
    ({ c with fab := { c.fab with closes := c.fab.closes.filter fun y => y != k } }).complete k.handle stAborted cause 0) c

/-- An ABORT at this device (R210, R211): an open TUNNEL_OPEN and an open DRAIN complete, every cell is discarded, the context is
quarantined. -/
def Chip.abortHere (c : Chip) (tid cause : Nat) (openSt : Nat := 0x0302) (openReason : Nat := 0x020C) (byShift : Bool := false) : Chip :=
  let t := c.tunOf tid
  let c := match t.openHandle with
    | some h => c.complete h openSt openReason 0
    | none => c
  let c := c.drainAborted tid cause
  (((c.dropTunnel tid cause).clearSrc tid).quarantine tid cause byShift)

/-- This device originates an ABORT close (R210): CLOSE goes each way the path continues. With a handle it waits for the ends' answers. -/
def Chip.abortClose (c : Chip) (tid cause : Nat) (handle : Option Nat := none) (openSt : Nat := 0x0302) (openReason : Nat := 0x020C)
    (byShift : Bool := false) : Chip :=
  let t := c.tunOf tid
  let down := decide (t.index < t.hops)
  let up := decide (t.index > 0)
  let id := handle.getD 0
  let c := c.abortHere tid cause openSt openReason byShift
  let c := c.setTun tid { c.tunOf tid with aborter := true }
  let c := if down then c.sendFw t.outPort (ctlCell 0 4 (closePayload tid 1 0 cause 0 id t.index)) else c
  let c := if up then c.sendFw t.inPort (ctlCell 0 4 (closePayload tid 1 1 cause 0 id t.index)) else c
  match handle with
  | none => c
  | some h =>
    if down || up then
      { c with fab := { c.fab with closes := c.fab.closes ++
        [{ tid, handle := h, acks := b2n down + 2 * b2n up, drain := false, out := if down then some t.outPort else none }] } }
    else c

/-- A close's answers have come, or its time has passed: its handle completes once no other CLOSE under the handle is open; a reset ends with
STATUS_OK (R210, R288). -/
def Chip.closeDone (c : Chip) (h st reason : Nat) : Chip :=
  if c.fab.closes.any fun k => k.handle == h then c
  else match c.resetOf h with
    | some vi => c.resetEnd vi h 0x060A
    | none => c.complete h st reason 0

/-- A DRAIN has ended at this device (R209): QUARANTINE; the destination answers CLOSE_ACK, and HOPS = 0 completes here. -/
def Chip.drainEnd (c : Chip) (tid cause : Nat) : Chip :=
  let t := c.tunOf tid
  let c := (c.clearSrc tid).quarantine tid cause
  if t.index = t.hops then
    if t.index > 0 then c.sendFw t.inPort (ctlCell 0 5 (closeAckPayload tid t.openId (c.tunOf tid).discarded))
    else (c.fab.closes.filter fun k => k.tid == tid && k.drain && k.handle == t.openId).foldl (fun c k =>
      ({ c with fab := { c.fab with closes := c.fab.closes.filter fun y => y != k } }).complete k.handle stOk 0 0) c
  else c

/-- The cells of the tunnel have all left (R209): LAST_SEQ or a later one has been forwarded or delivered. -/
def Tun.drained (t : Tun) : Bool := t.state == .closing && !t.draining && seqBefore 16 t.lastSeq t.outNext

/-- The tunnel holds split-read tags at F9 (R405, Table 08.2). -/
def Chip.holdsTags (c : Chip) (tid : Nat) : Bool := c.leg.q.any fun r => r.client == tid

/-- Device 0's DRAIN has finished the unit in progress (R209, Table 08.2): LAST_SEQ is fixed, what waits at the source is not sent, and CLOSE
goes downstream. -/
def Chip.drainUnit (c : Chip) (tid : Nat) : Chip :=
  let t := c.tunOf tid
  if t.state == .closing && t.draining && !t.unitOpen && !c.holdsTags tid then
    let lastSeq := (t.nextSeq + 65535) % 65536
    let c := (c.setTun tid { t with draining := false, lastSeq }).clearSrc tid
    if t.index < t.hops then c.sendFw t.outPort (ctlCell 0 4 (closePayload tid 0 0 t.closeCause lastSeq t.openId 0)) else c
  else c

/-- Look whether a DRAIN has finished its unit, or has ended; at F9 it waits for the tags that the tunnel holds (R405). -/
def Chip.drainCheck (c : Chip) (tid : Nat) : Chip :=
  let c := c.drainUnit tid
  let t := c.tunOf tid
  if t.drained && !c.holdsTags tid then c.drainEnd tid t.closeCause else c

/-- A CLOSE with LAST_SEQ reaches a later device of the path (R209): the context moves to CLOSING and the CLOSE goes on at once. -/
def Chip.startDrain (c : Chip) (tid cause lastSeq id origin : Nat) : Chip :=
  let t := c.tunOf tid
  let c := c.setTun tid { t with state := .closing, lastSeq, closeCause := cause, openId := id }
  let c := if t.index < t.hops then c.sendFw t.outPort (ctlCell 0 4 (closePayload tid 0 0 cause lastSeq id origin)) else c
  c.drainCheck tid

/-- Device 0's TUNNEL_OPEN cannot go on (R208): an ABORT CLOSE with cause OPEN_TIMEOUT goes downstream and the handle completes. -/
def Chip.openFail (c : Chip) (tid st reason : Nat) : Chip := c.abortClose tid 0x0209 none st reason

/-- A trunk of the path at device 0 has left DATA (R208, R209): opens and drains through it end with ROUTE_DOWN. -/
def Chip.routeDown (c : Chip) (n : Nat) : Chip :=
  let opens := c.tids fun _ t => t.index = 0 && t.state == .opening && t.outPort = n && t.hops > 0
  let c := opens.foldl (fun c i => c.openFail i stAborted 0x0212) c
  (c.fab.closes.filter fun k => k.drain && k.out == some n).foldl (fun c k =>
    ({ c with fab := { c.fab with closes := c.fab.closes.filter fun y => y != k } }).complete k.handle stAborted 0x0212 0) c

end Sys2Proof.Machine
end

