-- ==== Sys2Proof/Machine/GearOps.lean ====
section
/-!
DEFINITION. Chapter 07: the derailleur's pass over an image (R172 to R184), and the shift's decision, abort and application (R186 to R196).
-/
namespace Sys2Proof.Machine

/-! ### Turn geometry (R151, R152) -/

/-- Codewords per turn of a geometry, and the codeword's length in ps. -/
def geomCw (g : Nat) : Nat := if g = 4 then 20000 else if g = 2 then 10000 else 5000
def geomCwPs (g : Nat) : Nat := if g = 4 then 6250 else if g = 2 then 12500 else 25000
/-- Codewords of spoke `s` (R126). -/
def spokeCw (g s : Nat) : Nat := (s + 1) * geomCw g / 16 - s * geomCw g / 16
/-- Teeth per turn. -/
def geomTeeth (g : Nat) : Nat := 5 * (geomCw g - 16)
/-- FIRST(s). -/
def firstTooth (g s : Nat) : Nat := 5 * (s * geomCw g / 16 - s)
/-- The codeword number in the turn of data codeword `d`. -/
def cwOfData (g d : Nat) : Nat :=
  d + 1 + ((List.range 15).filter fun s => decide (d ≥ (s + 1) * geomCw g / 16 - (s + 1))).length
/-- Start of tooth `k` in ps from the start of its turn, and its pick point. -/
def toothStart (g k : Nat) : Nat := cwOfData g (k / 5) * geomCwPs g + k % 5 * geomCwPs g / 5
def toothPick (g k : Nat) : Int := (cwOfData g (k / 5) * geomCwPs g : Nat) - 48000
/-- H_T in ns as the derailleur takes it (R184). -/
def geomHt (g : Nat) : Nat := if g = 4 then 212 else if g = 2 then 220 else 240

/-! ### Tooth tables (R174) -/

/-- The pattern teeth whose run satisfies `p`, from pattern tooth `at0`. -/
def runTeeth (p : Run → Bool) : List Run → Nat → List Nat
  | [], _ => []
  | r :: rest, at0 => (if p r then (List.range r.len).map (at0 + ·) else []) ++ runTeeth p rest (at0 + r.len)

/-- The teeth of a turn whose run satisfies `p`, ascending. -/
def TeethSec.teethOf (t : TeethSec) (p : Run → Bool) : List Nat :=
  let o := runTeeth p t.runs 0
  if t.period = 0 then [] else ((List.range (geomTeeth t.geom / t.period)).map fun k => o.map fun x => k * t.period + x).flatten

/-- The run that governs tooth `k`. -/
def runAt : List Run → Nat → Option Run
  | [], _ => none
  | r :: rest, k => if k < r.len then some r else runAt rest (k - r.len)

/-- Kind and tunnel of tooth `k` of a turn (R174). -/
def TeethSec.toothAt (t : TeethSec) (k : Nat) : Nat × Nat :=
  match runAt t.runs (if t.period = 0 then 0 else k % t.period) with
  | some r => (r.kind, r.tid)
  | none => (0, 0)

/-- Teeth of an ascending list in each spoke. -/
def perSpoke (g : Nat) (ts : List Nat) : List Nat :=
  (List.range 16).map fun s => (ts.filter fun k => decide (firstTooth g s ≤ k) && decide (k < firstTooth g (s + 1))).length

/-- The least of a list, 0 for none. -/
def minOf : List Nat → Nat
  | [] => 0
  | a :: r => r.foldl Nat.min a

/-- W of R162 in ps, for teeth `ts` and burst `b`. -/
def maxWait (g : Nat) (ts : List Nat) (b : Nat) : Int :=
  let m := ts.length
  if m = 0 then 0
  else
    let later := ((ts.drop (b % m)).map fun k => ((toothStart g k + b / m * 125000000 : Nat) : Int)) ++
      ((ts.take (b % m)).map fun k => ((toothStart g k + (b / m + 1) * 125000000 : Nat) : Int))
    (List.zip later (ts.map (toothPick g))).foldl (fun w e => max w (e.1 - e.2)) 0

/-! ### The derailleur (R172 to R184) -/

/-- A directory entry: type, offset, length. -/
structure DirEntry where
  ty : Nat
  off : Nat
  len : Nat
  deriving DecidableEq, Repr

/-- Directory entry `i`. -/
def dirEntry (b : Bytes) (i : Nat) : DirEntry :=
  let e := sliceB b (64 + 16 * i) 16
  { ty := fld e 0 2, off := fld e 4 4, len := fld e 8 4 }

/-- The length that a section's own counts imply. -/
def DirEntry.implied (b : Bytes) (e : DirEntry) : Option Nat :=
  if e.ty = 1 then (if e.len < 16 then none else let n := fld b (e.off + 8) 4; if 1 ≤ n && n ≤ 65536 then some (16 + 4 * n) else none)
  else if e.ty = 2 then some 24
  else if e.ty = 4 then some 8
  else if e.ty = 6 then some 32
  else if e.len < 8 then none
  else
    let n := fld b e.off 4
    if e.ty = 3 then some (8 + 16 * n) else if n ≤ 1023 then some (8 + 96 * n) else none

/-- The windows of a WINDOWS section. -/
def parseWindows (b : Bytes) (off : Nat) : List Window :=
  (List.range (fld b off 4)).map fun i =>
    let o := off + 8 + 16 * i
    let e := sliceB b o 16
    { engine := fld e 0 1, unit := fld e 1 1, tid := fld e 2 2 % 1024, spokes := fld e 4 2, start := fld e 8 4, len := fld e 12 4, off := o }

/-- A window's fields are within Table 07.6. -/
def Window.ok (w : Window) : Bool :=
  decide (w.engine ≤ 2) && decide (w.unit < (if w.engine = 0 then 1 else 4)) && decide (w.start ≤ 7811) && decide (1 ≤ w.len) &&
    decide (w.len ≤ 7812 - w.start)

/-- The offset of a section field outside its range, if one is. -/
def DirEntry.fieldBad (b : Bytes) (format : Nat) (e : DirEntry) : Option Nat :=
  if e.ty = 1 then
    let t := fld b e.off 1
    let g := fld b (e.off + 1) 1
    if t > 3 || !(g = 4 || g = 2 || g = 1) || (format = 1 && g != 1) || fld b (e.off + 4) 4 = 0 then some e.off else none
  else if e.ty = 3 then ((parseWindows b e.off).find? fun w => !w.ok).map Window.off
  else if e.ty = 6 then
    if (List.range 4).any fun i => let r := fld b (e.off + 8 * i + 4) 1; r > 2 && r != 0xFF then some e.off else none
  else none

/-- A refusal: status, reason, offset. -/
abbrev GearRefusal := Nat × Nat × Nat

/-- The first loop of check_directory, for entry `i`. -/
def dirEntryBad (b : Bytes) (format n : Nat) (i : Nat) : Option GearRefusal :=
  let e := dirEntry b i
  let at0 := 64 + 16 * i
  if e.ty < 1 || e.ty > 6 then some (stParam, 0x0305, at0)
  else if e.off % 8 != 0 || e.off < 64 + 16 * n || e.off + e.len > b.length - 104 then some (stParam, 0x0304, at0)
  else if e.implied b != some e.len then some (stParam, 0x0305, e.off)
  else (e.fieldBad b format).map fun o => (stParam, 0x0305, o)

/-- How many sections of a type a format allows (Table 07.3, R182). -/
def sectionMax (format ty : Nat) : Nat := if ty = 1 then 12 else if ty = 6 && format = 1 then 0 else 1

/-- check_directory (R173, R174, R177): the first refusal. -/
def checkDirectory (b : Bytes) (format : Nat) : Option GearRefusal :=
  let n := fld b 12 2
  if n < 3 || n > 32 || 64 + 16 * n > b.length - 104 then some (stParam, 0x0304, 12)
  else
    let es := (List.range n).map (dirEntry b)
    match (List.range n).findSome? (dirEntryBad b format n) with
    | some r => some r
    | none =>
      let lap := fun (x y : DirEntry) => decide (x.off < y.off + y.len) && decide (y.off < x.off + x.len)
      match es.zipIdx.find? fun e => (es.take e.2).any fun f => lap f e.1 with
      | some e => some (stParam, 0x0304, 64 + 16 * e.2)
      | none =>
        match es.zipIdx.find? fun e =>
            decide (((es.take e.2).filter fun f => f.ty == e.1.ty).length + 1 > sectionMax format e.1.ty) ||
            (e.1.ty = 1 && (es.take e.2).any fun f => f.ty = 1 && sliceB b f.off 2 == sliceB b e.1.off 2) with
        | some e => some (stParam, 0x0305, 64 + 16 * e.2)
        | none => if [2, 4, 5].all fun ty => es.any fun e => e.ty == ty then none else some (stParam, 0x0305, 0xFFFFFFFF)

/-- The trailer's authentication over the bytes before it (R181). -/
def Chip.gearAuthentic (c : Chip) (b : Bytes) : Bool :=
  let t := b.length - 104
  let alg := fld b t 1
  match c.kslot (fld b (t + 1) 1) with
  | none => false
  | some k =>
    if !k.use 5 then false
    else if alg = 1 then k.ty == 2 && sliceB b (t + 8) 48 == sliceB (Config.hmac384 k.key (b.take t)) 0 48 && sliceB b (t + 56) 48 == zeros 48
    else if alg = 2 then k.ty == 5 && Config.ecdsaVerify k.key (b.take t) (sliceB b (t + 8) 96)
    else false

/-- A variant's 12 bytes. -/
def parseVariant (b : Bytes) (o : Nat) : Variant := { teeth := fld b o 4, maxWait := fld b (o + 4) 4, bound := fld b (o + 8) 4 }

/-- The certificate records of a CERT section. -/
def parseRecs (b : Bytes) (off : Nat) : List CertRec :=
  (List.range (fld b off 4)).map fun i =>
    let o := off + 8 + 96 * i
    let e := sliceB b o 96
    { tid := fld e 0 2 % 1024, ty := fld e 2 1, cls := fld e 3 1, cflags := fld e 4 1 % 8, hops := fld e 5 1, hop := fld e 6 1, prot := fld e 7 1,
      inPort := fld e 8 1, outPort := fld e 9 1, inRate := fld e 12 2, burst := fld e 14 2, reserve := fld e 16 4, eIn := fld e 20 4,
      eOut := fld e 24 4, otherNs := fld e 28 4, flightAllow := fld e 32 4, policeRate := fld e 36 4, policeDepth := fld e 40 4,
      var4 := parseVariant e 48, var2 := parseVariant e 60, var1 := parseVariant e 72, off := o }

/-- A record's fields are valid (R179, R182); `prev` is the TID before it. -/
def CertRec.ok (format prev : Nat) (r : CertRec) : Bool :=
  let zero := fun (v : Variant) => v == {}
  let vars := [(4, r.var4), (2, r.var2), (1, r.var1)]
  let full := if format = 2 then 4 else 1
  decide (1 ≤ r.tid) && decide (prev < r.tid) && decide (1 ≤ r.ty) && decide (r.ty ≤ 8) && decide (r.cls ≤ 1) && decide (r.hops ≤ 8) &&
    decide (r.prot ≤ r.hops) && decide (r.inPort ≤ 10) && decide (r.outPort ≤ 10) &&
    (if r.outPort < 4 then decide (1 ≤ r.hop) && decide (r.hop ≤ r.hops) && decide (1 ≤ r.burst) && decide (r.burst ≤ 4096) &&
        decide (r.flightAllow ≤ 1000000) && vars.all fun e => e.2.teeth != 0 || zero e.2
      else r.hop = 0 && r.burst = 0 && r.flightAllow = 0 &&
        vars.all fun e => e.2.teeth = 0 && e.2.maxWait = 0 && (e.1 = full || e.2.bound = 0)) &&
    (r.source || (r.policeRate = 0 && r.policeDepth = 0)) &&
    (format = 2 || (!r.verifyFirst && zero r.var4 && zero r.var2))

/-- The first record that is not valid. -/
def recsBad (format : Nat) : List CertRec → Nat → Option GearRefusal
  | [], _ => none
  | r :: rest, prev => if r.ok format prev then recsBad format rest r.tid else some (stParam, 0x0308, r.off)

/-- A TEETH section. -/
def parseTeeth (b : Bytes) (off : Nat) : TeethSec :=
  { trunk := fld b off 1, geom := fld b (off + 1) 1, period := fld b (off + 4) 4, off,
    runs := (List.range (fld b (off + 8) 4)).map fun i =>
      let w := fld b (off + 16 + 4 * i) 4
      { len := bitsOf w 12 20, kind := bitsOf w 10 2, tid := w % 1024 } }

/-- One TEETH section's checks (R184). -/
def teethBad (recs : List CertRec) (t : TeethSec) : Option GearRefusal :=
  let sum := t.runs.foldl (fun a r => a + r.len) 0
  if sum != t.period || t.runs.any (fun r => r.len = 0) || geomTeeth t.geom % t.period != 0 then some (stParam, 0x0309, t.off)
  else
    let mine := recs.filter fun r => r.outPort == t.trunk
    match t.runs.zipIdx.find? fun e => e.1.kind = 3 || (e.1.kind = 1 && !(mine.any fun r => r.tid == e.1.tid)) with
    | some e => some (stParam, 0x030A, t.off + 16 + 4 * e.2)
    | none =>
      let rmin := minOf (perSpoke t.geom (t.teethOf fun r => r.kind == 2))
      mine.findSome? fun r =>
        let ts := t.teethOf fun u => u.kind == 1 && u.tid == r.tid
        let v := r.var t.geom
        if ts.length != v.teeth then some (stCertFail, 0x030B, r.off)
        else if !ts.isEmpty && decide (maxWait t.geom ts r.burst > (v.maxWait * 1000 : Nat)) then some (stCertFail, 0x030C, r.off)
        else if r.cls = 1 && !ts.isEmpty && rmin = 0 then some (stCertFail, 0x0312, r.off)
        else none

/-- need(rec) of R184: the stockpot cells that a record needs. -/
def CertRec.need (teeth : List TeethSec) (r : CertRec) : Nat :=
  let largest := maxOf ((teeth.filter fun t => t.trunk == r.outPort).map fun t =>
    maxOf (perSpoke t.geom (t.teethOf fun u => u.kind == 1 && u.tid == r.tid)))
  (if r.outPort < 4 then r.burst else r.inRate) + (if r.cls = 1 && r.outPort < 4 then 7 * largest else 0) +
    (if r.cls = 1 && r.inPort < 4 then 7 * r.inRate else 0)

/-- One record's claims: teeth, wait and bound (R161, R184, R185). -/
def claimBad (full : Nat) (teeth : List TeethSec) (r : CertRec) : Option GearRefusal :=
  if r.hop > 0 && (r.var full).teeth > 0 && !(teeth.any fun t => t.trunk == r.outPort && t.geom == full) then some (stCertFail, 0x030B, r.off)
  else
    let fixed := r.eIn + r.eOut + (r.hops + 1) * 96 + r.prot * 133000 + r.otherNs
    let own := fun (g : Nat) (v : Variant) =>
      if r.hop = 0 then 0
      else v.maxWait * 1000 + geomHt g * 1000 + r.flightAllow + (if r.cls = 1 then 33250000 + 2 * (geomHt g * 1000 + r.flightAllow) else 0)
    let vs := if r.hop = 0 then [(full, r.var full)] else [(4, r.var4), (2, r.var2), (1, r.var1)].filter fun e => decide (e.2.teeth > 0)
    if vs.any fun e => decide (e.2.bound * 1000 < fixed * 1000 + own e.1 e.2) then some (stCertFail, 0x030D, r.off)
    else if r.source && (r.inRate < (r.policeRate + 15) / 16 + r.policeDepth || (r.hop > 0 && r.policeRate > (r.var full).teeth)) then
      some (stCertFail, 0x0311, r.off)
    else if r.reserve < r.need teeth then some (stCertFail, 0x0310, r.off)
    else none

/-- Windows of the same engine and unit that overlap in time, or an owner without a record (R177): the offset of the first at fault. -/
def windowBad (recs : List CertRec) (ws : List Window) : Option GearRefusal :=
  (ws.zipIdx.find? fun e =>
    !(recs.any fun r => r.tid == e.1.tid) ||
    (ws.take e.2).any fun v => v.engine = e.1.engine && v.unit = e.1.unit && (v.spokes &&& e.1.spokes) != 0 &&
      decide (v.start < e.1.start + e.1.len) && decide (e.1.start < v.start + v.len)).map fun e => (stCertFail, 0x030F, e.1.off)

/-- The gear hash's low 32 bits (R180). -/
def gearHashLow (b : Bytes) : Nat :=
  let body := b.take (b.length - 104)
  let es := (List.range (fld b 12 2)).map (dirEntry b)
  let body := (es.filter fun e => e.ty == 6).foldl (fun d e => patch d e.off (zeros e.len)) body
  beNat (sliceB (Config.sha384 body) 44 4)

/-- The derailleur's whole pass (R184): the first refusal, or the image. -/
def Chip.derailleur (c : Chip) (b : Bytes) : Option GearRefusal × Option GearImg :=
  let no := fun (st rs off : Nat) => ((some (st, rs, off) : Option GearRefusal), (none : Option GearImg))
  let format := fld b 4 1
  let len := fld b 8 4
  if fld b 0 4 != 0x52414547 then no stParam 0x0301 0
  else if !(format = 1 || format = 2) || fld b 6 2 != 64 then no stParam 0x0302 4
  else if len != b.length || len < 256 || len > 1048568 then no stParam 0x0303 8
  else if fld b 5 1 != 0xFF && fld b 5 1 != c.roleCode then no stParam 0x0306 5
  else match checkDirectory b format with
    | some r => (some r, none)
    | none =>
      if !c.gearAuthentic b then no stCertFail 0x0307 (len - 104)
      else
        let es := (List.range (fld b 12 2)).map (dirEntry b)
        let at0 := fun ty => match es.find? fun e => e.ty == ty with | some e => e.off | none => 0
        let full := if format = 2 then 4 else 1
        let recs := parseRecs b (at0 5)
        let teeth := (es.filter fun e => e.ty == 1).map fun e => parseTeeth b e.off
        let budget := (List.range 11).map fun p => fld b (at0 2 + 2 * p) 2
        let windows := if es.any fun e => e.ty == 3 then parseWindows b (at0 3) else []
        let total := fld b (at0 4) 4
        let peers := if es.any fun e => e.ty == 6 then (List.range 4).map fun i => (fld b (at0 6 + 8 * i) 4, fld b (at0 6 + 8 * i + 4) 1) else []
        match recsBad format recs 0 with
        | some r => (some r, none)
        | none => match teeth.findSome? (teethBad recs) with
          | some r => (some r, none)
          | none => match recs.findSome? (claimBad full teeth) with
            | some r => (some r, none)
            | none =>
              match (List.range 11).findSome? fun p =>
                  if nth 0 budget p > 6103 then some ((stParam, 0x030E, at0 2 + 2 * p) : GearRefusal)
                  else if (recs.filter fun r => r.outPort == p).foldl (fun a r => a + r.inRate) 0 > nth 0 budget p then
                    some (stCertFail, 0x030E, at0 2 + 2 * p)
                  else none with
              | some r => (some r, none)
              | none => match windowBad recs windows with
                | some r => (some r, none)
                | none =>
                  if total != recs.foldl (fun a r => a + r.reserve) 0 then no stCertFail 0x0310 (at0 4)
                  else if total > 393216 then no stNoResource 0x0310 (at0 4)
                  else (none, some { format, gearId := fld b 16 4, setId := fld b 20 4, hashLow := gearHashLow b, teeth, budget, windows, total,
                                     recs, peers })

/-! ### Shifts (R186 to R194) -/

/-- EXPECT_HASH of an image for a trunk, 0 for none. -/
def expectHash (g : Option GearImg) (n : Nat) : Nat := match g with | none => 0 | some g => (nth (0, 0xFF) g.peers n).1

/-- SHIFT_HASH of an open shift. -/
def Chip.shiftHash (c : Chip) : Nat := match c.targetGear with | none => 0 | some g => g.hashLow

/-- Change the gears. -/
def Chip.setGear (c : Chip) (f : Gears → Gears) : Chip := { c with gear := f c.gear }

/-- The open shift is aborted (R188, R189, R196): the abort is announced, SHIFT_ABORTED posted, the handle completed. -/
def Chip.shiftAbort (c : Chip) (reason trunk : Nat) : Chip :=
  match c.gear.shift with
  | none => c
  | some x =>
    let hash := c.shiftHash
    let c := c.setGear fun g => { g with shift := none, aborting := some (x.slot, x.target, hash), lastSlot := x.slot, lastTarget := x.target,
                                         lastReason := reason }
    let c := c.post 0x0302 reason (x.slot + 256 * trunk + (x.target % 2 ^ 48) * 65536)
    if x.handle = 0 then c else c.complete x.handle stAborted reason 0

/-- The last marker received on a trunk is looked at for the open shift (R187). -/
def Chip.shiftMatch (c : Chip) (n : Nat) : Chip :=
  match c.gear.shift with
  | none => c
  | some x =>
    let f := c.frmOf n
    let e := expectHash c.targetGear n
    let st := f.peerShift % 4
    let live := c.inData n
    let m := live && (st = 1 || st = 2) && f.peerShiftTurn = x.target && (e = 0 || f.peerShiftHash = e)
    c.setGear fun g => { g with shift := some { x with matched := setBit x.matched n m, peerConf := setBit x.peerConf n (live && st = 2) } }

/-- Take back reservations beyond the gear in force (R191): a tunnel's cells over its RESERVE move to the shared pool. -/
def repool (r : Nat → Nat) (used : Tab Nat) (tid : Nat) (p : Pool) : Pool × Tab Nat :=
  if p == .reserve then
    let u := used.get 0 tid
    if u < r tid then (.reserve, used.set tid (u + 1)) else (.shared, used)
  else (p, used)

/-- Move a list of stored cells under `repool`. -/
def repoolList {α : Type} (get : α → Nat × Pool) (put : α → Pool → α) (r : Nat → Nat) : List α → Tab Nat → List α × Tab Nat
  | [], u => ([], u)
  | a :: l, u =>
    let g := get a
    let x := repool r u g.1 g.2
    let y := repoolList get put r l x.2
    (put a x.1 :: y.1, y.2)

/-- Every stored cell's pool follows the reservations of the gear in force (R191). -/
def Chip.repoolAll (c : Chip) : Chip :=
  let r := fun tid => match c.certRec tid with | none => 0 | some k => k.reserve
  let q := c.fab.q.foldl (fun (a : Tab (List QCell) × Tab Nat) e =>
    let x := repoolList (fun (y : QCell) => (y.cell.tid, y.pool)) (fun (y : QCell) p => { y with pool := p }) r e.2 a.2
    (a.1 ++ [(e.1, x.1)], x.2)) ([], [])
  let b := c.fab.backlog.foldl (fun (a : Tab (List QCell) × Tab Nat) e =>
    let x := repoolList (fun (y : QCell) => (y.cell.tid, y.pool)) (fun (y : QCell) p => { y with pool := p }) r e.2 a.2
    (a.1 ++ [(e.1, x.1)], x.2)) ([], q.2)
  let f := c.frm.foldl (fun (a : Tab Framing × Tab Nat) e =>
    let h := repoolList (fun (y : HeldCell) => (y.cell.tid, y.pool)) (fun (y : HeldCell) p => { y with pool := p }) r e.2.held a.2
    let k := repoolList (fun (y : CopyRec) => (y.cell.tid, y.pool)) (fun (y : CopyRec) p => { y with pool := p }) r e.2.copies h.2
    (a.1 ++ [(e.1, { e.2 with held := h.1, copies := k.1 })], k.2)) ([], b.2)
  { c with fab := { c.fab with q := q.1, backlog := b.1 }, frm := f.1 }

/-- The class B queue that holds the most shared cells: output and TID (R223). -/
def Chip.fullestShared (c : Chip) : Option (Nat × Nat) :=
  (c.fab.q.foldl (fun (a : Option (Nat × Nat)) e =>
    let n := (e.2.filter fun x => x.pool == .shared).length
    if n = 0 || c.contracted (e.1 % 1024) || e.1 % 1024 < 2 then a
    else match a with
      | none => some (e.1, n)
      | some (_, m) => if n > m then some (e.1, n) else a) none).map fun e => (e.1 / 1024, e.1 % 1024)

/-- Evict class B cells from the tail of the fullest queue until shared use fits (R223); `fuel` bounds the evictions. Where the last cell
lies in the guarantee, the newest shared one takes its place there. -/
def Chip.evict (c : Chip) : Nat → Chip
  | 0 => c
  | fuel + 1 =>
    if c.poolUsed .shared ≤ c.sEff then c
    else match c.fullestShared with
      | none => c
      | some (p, tid) =>
        let q := c.queue p tid
        match q.reverse with
        | [] => c
        | x :: r =>
          let rest := if x.pool == .shared then r
            else r.takeWhile (fun y => y.pool != .shared) ++ (match r.dropWhile (fun y => y.pool != .shared) with
              | y :: older => { y with pool := x.pool } :: older
              | [] => [])
          let c := (c.setQueue p tid rest.reverse).dropCell p x.cell x.demoted
          (c.setPot fun s => { s with evicted := sat64 s.evicted 1 }).evict fuel

/-- The tunnels uncarried at a trunk in DATA under the table in use are suspended and their cells queued there discarded (R195). -/
def Chip.limpCheck (c : Chip) (n : Nat) : Chip :=
  if !c.inData n then c else (c.tids fun i t => t.state.live && t.outPort = n && c.uncarried i).foldl (fun c i =>
    (c.dropQueue n i 0x03F1).suspend i 0x03F1 n) c

/-- Whether the last marker's GEAR_HASH agrees with the active gear's PEER entry (R194). -/
def Chip.hashAgrees (c : Chip) (n : Nat) : Bool :=
  let e := expectHash c.activeGear n
  e = 0 || e = (c.frmOf n).peerGearHash

/-- Look at the peer's GEAR_HASH after a marker (R194). -/
def Chip.gearPeer (c : Chip) (n : Nat) : Chip :=
  let ok := c.hashAgrees n
  if c.gear.checkDue.contains n then
    let c := c.setGear fun g => { g with checkDue := g.checkDue.filter (· != n) }
    if ok then c.setGear fun g => { g with mismatch := g.mismatch.filter (· != n) }
    else
      let c := c.setGear fun g => { g with mismatch := insertSorted n g.mismatch }
      let c := c.post 0x0303 0x031F (n + (c.frmOf n).peerGearHash * 2 ^ 32)
      c.suspendAll (fun _ t => t.trunks.contains n) 0x03F3 n
  else if ok && c.gear.mismatch.contains n then
    let c := c.setGear fun g => { g with mismatch := g.mismatch.filter (· != n) }
    (c.tids fun _ t => t.trunks.contains n && t.promise.suspended).foldl Chip.promiseLook c
  else c

/-- The committed shift takes place (R190 to R192, R223). -/
def Chip.shiftApply (c : Chip) : Chip :=
  match c.gear.shift with
  | none => c
  | some x =>
    let old := c.gear.active.getD 4
    let before := c.fab.tun.filter fun e => e.2.state.live && c.contracted e.1
    let new := if x.slot ≥ 4 then none else some x.slot
    let c := if x.slot ≥ 4 then c else c.setGslot x.slot { c.gslot x.slot with since := x.target }
    let c := c.setGear fun g => { g with shift := none, active := new, lastSlot := x.slot, lastTarget := x.target, lastReason := 0,
                                         checkDue := (List.range 4).filter fun n => c.inData n }
    let c := c.repoolAll
    let c := match c.activeGear with
      | none => c
      | some g => (c.tids fun i t => t.state.live && t.cls < 2 && (g.rec? i).isNone).foldl (fun c i =>
          c.abortClose i 0x020A none stAborted 0x020C true) c
    let c := (c.tids fun i t => t.state.live && c.contracted i && !(before.any fun e => e.1 == i)).foldl (fun c i => (c.policerFull i).promiseStart i) c
    let c := (List.range 4).foldl Chip.limpCheck c
    let c := (c.tids fun _ t => t.promise.suspended).foldl Chip.promiseLook c
    let c := c.evict (c.poolUsed .shared)
    let c := c.fab.q.foldl (fun c e => c.noteDepth (e.1 / 1024) (e.1 % 1024)) c
    let c := c.delayRecheck
    let c := c.post 0x0301 0 (old + 256 * x.slot + (x.target % 2 ^ 48) * 65536)
    if x.handle = 0 then c else c.complete x.handle stOk 0 0

end Sys2Proof.Machine
end

