-- ==== Sys2Proof/Machine/TimeOps.lean ====
section
/-!
DEFINITION. Chapter 10: states, sources, samples and steps of the time unit (R252 to R263).
-/
namespace Sys2Proof.Machine

/-- Change the time unit. -/
def Chip.setTime (c : Chip) (f : TimeUnit → TimeUnit) : Chip := { c with time := f c.time }

/-- The time unit changes state (Table 10.2): TIME_STATE_CHANGED is posted. -/
def Chip.timeState (c : Chip) (s : TimeState) (reason : Nat) : Chip :=
  if c.time.state = s then c
  else
    let old := c.time.state
    let c := c.setTime fun t => { t with state := s, lockSince := none }
    c.post 0x0501 reason (old.code + 256 * s.code + 65536 * c.time.source)

/-! ### Sources (R256) -/

/-- What IEEE 1588-2019 compares of datasets with different grandmasters, in order: the better is the smaller. -/
def Dataset.rank (d : Dataset) : List Nat :=
  [d.priority / 256, bitsOf d.quality 24 8, bitsOf d.quality 16 8, d.quality % 65536, d.priority % 256, d.gm]

/-- Lexicographic order. -/
def lexLt : List Nat → List Nat → Bool
  | a :: r, b :: s => decide (a < b) || (a == b && lexLt r s)
  | _, _ => false

/-- `a` is the better dataset (IEEE 1588-2019): with one grandmaster, the fewer steps, then the lower identity of the sender where both have
one; otherwise by rank. -/
def Dataset.better (a b : Dataset) : Bool :=
  if a.gm = b.gm then
    decide (a.stepsRemoved < b.stepsRemoved) || (a.stepsRemoved == b.stepsRemoved && a.sender != 0 && b.sender != 0 && decide (a.sender < b.sender))
  else lexLt a.rank b.rank

/-- A source with a dataset that may be used. -/
def Chip.sourceUsable (c : Chip) (code : Nat) : Bool :=
  c.time.cfg.sources.contains code &&
    (if code = 0x30 then c.timeSet && bitOf c.time.pps.flags 2
     else match c.time.data.find code with
      | none => false
      | some _ => if code < 0x20 then c.inData (code - 0x10) else true)

/-- The best usable source: by dataset, then the one listed first; PPS_IN only when no other is usable. -/
def Chip.bestSource (c : Chip) : Nat :=
  let l := c.time.cfg.sources.filter fun s => s != 0 && s != 0x30 && c.sourceUsable s
  let b := l.foldl (fun (a : Option Nat) s =>
    match a with
    | none => some s
    | some x => if (c.time.data.get {} s).better (c.time.data.get {} x) then some s else some x) none
  match b with
  | some s => s
  | none => if c.sourceUsable 0x30 then 0x30 else 0

/-- TIME_SOURCE_CHANGED's event. -/
def Chip.postSource (c : Chip) (old new reason : Nat) : Chip :=
  c.post 0x0504 reason (old + 256 * new + ((c.time.data.get {} new).gm % 2 ^ 48) * 65536)

/-- A free frequency adjustment within the range of R254. -/
def freeFreq (x : Nat) : Int := ((x % 8589935 : Nat) : Int) - 4294967

/-- The integral of FREQ_ADJ over powered time from `lo` to `now`. -/
def freqArea (now lo : Nat) : List (Nat × Int) → Int
  | [] => 0
  | [(t, v)] => v * ((now - Nat.max t lo : Nat) : Int)
  | (t, v) :: (u, w) :: r => v * ((Nat.max u lo - Nat.max t lo : Nat) : Int) + freqArea now lo ((u, w) :: r)

/-- 16 s in ps. -/
def sixteenS : Nat := 16 * 10 ^ 12

/-- The mean of FREQ_ADJ over the last 16 s of LOCKED, or the present value when LOCKED has not lasted (R255). -/
def Chip.meanFreq (c : Chip) : Int :=
  let now := c.clk.powerPs
  match c.time.freqHist with
  | [] => c.time.freqAdj
  | (t, v) :: r =>
    let lo := Nat.max t (now - sixteenS)
    if now ≤ lo then c.time.freqAdj else (freqArea now lo ((t, v) :: r)).tdiv ((now - lo : Nat) : Int)

/-- FREQ_ADJ is noted in LOCKED; what lies more than 16 s back is let go of. -/
def Chip.noteFreq (c : Chip) : Chip :=
  let now := c.clk.powerPs
  let l := c.time.freqHist ++ [(now, c.time.freqAdj)]
  let old := (l.filter fun e => decide (e.1 + sixteenS ≤ now)).length
  c.setTime fun t => { t with freqHist := l.drop (old - 1) }

/-- HOLDOVER is entered, with FREQ_ADJ at its mean (R255). -/
def Chip.holdOver (c : Chip) (reason : Nat) : Chip :=
  if c.time.state == .holdover then c
  else (c.setTime fun t => { t with freqAdj := c.meanFreq, freqHist := [] }).timeState .holdover reason

/-- Select again (R255, R256). The loss of the source in use, and another grandmaster, are posted; the loss takes LOCKED to HOLDOVER and
LOCKING to FREERUN, another grandmaster takes LOCKED and HOLDOVER to LOCKING, and FREERUN goes to LOCKING with any source. PPS_IN has no
grandmaster, and the first one counts as another (DESIGN CHOICE, log entry 53). -/
def Chip.selectSource (c : Chip) : Chip :=
  let old := c.time.source
  let lost := old != 0 && !c.sourceUsable old
  let new := c.bestSource
  let gm := if new = 0 || new = 0x30 then c.time.gm else (c.time.data.get {} new).gm
  let other := gm != c.time.gm
  let c := c.setTime fun t => { t with source := new, gm, lockSince := if new = old && !other then t.lockSince else none }
  let c := if lost then c.postSource old new 0x0504 else if other then c.postSource old new 0x0505 else c
  let c := if !lost then c else match c.time.state with
    | .locked => c.holdOver 0x0504
    | .locking => c.timeState .freerun 0x0504
    | _ => c
  match c.time.state with
  | .freerun => if new = 0 then c else (c.setTime fun t => { t with checked := false }).timeState .locking 0x0505
  | .locked | .holdover => if other then (c.setTime fun t => { t with checked := true }).timeState .locking 0x0505 else c
  | _ => c

/-- A source's dataset arrives. -/
def Chip.sourceData (c : Chip) (code : Nat) (d : Dataset) : Chip := (c.setTime fun t => { t with data := t.data.set code d }).selectSource

/-- A source is lost. -/
def Chip.sourceLost (c : Chip) (code : Nat) : Chip := (c.setTime fun t => { t with data := t.data.erase code }).selectSource

/-- TIME_CONFIG's settings apply from the next servo sample (R269). -/
def Chip.cfgApply (c : Chip) : Chip :=
  match c.time.cfgNext with
  | none => c
  | some g => (c.setTime fun t => { t with cfg := g, cfgNext := none }).selectSource

/-! ### Steps (R257, R259, R262) -/

/-- Δq: the nearest multiple of 25 ns to Δ ps, halves away from zero, in ns (R259). -/
def quantise (d : Int) : Int :=
  let q : Nat := (2 * d.natAbs + 25000) / 50000
  if d < 0 then -((q * 25 : Nat) : Int) else ((q * 25 : Nat) : Int)

/-- End of the turn in progress on the local clock. -/
def Chip.turnEnd (c : Chip) : Nat :=
  match c.clk.adj with
  | some (_, _, e) => e
  | none => (c.clk.localPs / turnPs + 1) * turnPs

/-- Some trunk is in DATA. -/
def Chip.anyData (c : Chip) : Bool := (List.range 4).any c.inData

/-- E of a step in ns (R259). -/
def stepExt (dq : Int) : Nat := ((-dq) % 125000).toNat

/-- Where the clock stands at B on the new scale, in ps. -/
def TimeStep.newStart (s : TimeStep) : Nat := ((s.atPs : Int) + s.dq * 1000).toNat

/-- The number the adjusted turn bears (R259). -/
def TimeStep.newTurn (s : TimeStep) : Nat := ((s.newStart + turnPs + stepExt s.dq * 1000) / turnPs - 1) % 2 ^ 48

/-- The own upgrade proposal or confirmation is withdrawn: counted, no proposal for UPGRADE_HOLD seconds, a TRUNK_WIDTH ends (R146). -/
def Chip.upgradeAbandon (c : Chip) (n : Nat) : Chip :=
  let f := c.frmOf n
  match f.wcMine with
  | none => c
  | some w =>
    let peer := match f.wcPeer with | some p => if p.kind = 2 then none else some p | none => none
    let c := c.setFrm n { f with wcMine := none, wcPeer := peer, wcSent := false, wcTxDone := false, wcRxDone := false, noUpgrade := c.clk.powerPs + f.upgradeHold * 10 ^ 12 }
    let c := c.countFrm n 20 1
    if w.handle = 0 then c else c.complete w.handle stAborted 0x0424 0

/-- A degrade is pending at either end. -/
def Framing.degrading (f : Framing) : Bool :=
  let d := fun (w : Option WidthReq) => match w with | some w => w.kind = 1 | none => false
  d f.wcMine || d f.wcPeer

/-- A step of the clock is pending whose boundary B lies at or before a turn, of 32 bits (R262). -/
def Chip.stepBars (c : Chip) (turn : Nat) : Bool :=
  match c.time.pending with
  | none => false
  | some s => !seqBefore 32 turn (s.atTurn % 2 ^ 32)

/-- B is put off one turn (R262): a degrade request is pending on a trunk, or a trunk is in step 8. -/
def Chip.stepDeferred (c : Chip) : Bool :=
  (List.range 4).any fun n => (c.frmOf n).degrading || (c.laneOf n).phase == .train 8

/-- Decide a step of `d` ps (R259): B is the start of turn N + 3, or the next boundary when no trunk is in DATA, a turn later when it is put
off now, the boundary before it being past (DEDUCED, log entry 53); upgrades whose target lies at or after B are withdrawn (R262). -/
def Chip.decideStep (c : Chip) (d : Int) (commanded : Bool) (reason : Nat) : Chip :=
  let dq := quantise d
  let atPs := c.turnEnd + (if c.anyData then 2 * turnPs else if c.stepDeferred then turnPs else 0)
  let s : TimeStep := { atTurn := (atPs / turnPs) % 2 ^ 48, atPs, dq, rest := d - dq * 1000, commanded, reason }
  let c := c.setTime fun t => { t with pending := some s }
  (List.range 4).foldl (fun c n =>
    match (c.frmOf n).wcMine with
    | some w => if w.kind = 2 && (c.frmOf n).wcSent && c.stepBars w.turn then c.upgradeAbandon n else c
    | none => c) c

/-- At the boundary before B (R262): B moves one turn later while it is put off. -/
def Chip.stepDefer (c : Chip) : Chip :=
  match c.time.pending with
  | none => c
  | some p =>
    if c.stepDeferred && c.clk.localPs < p.atPs && p.atPs ≤ c.clk.localPs + turnPs then
      c.setTime fun t => { t with pending := some { p with atTurn := (p.atTurn + 1) % 2 ^ 48, atPs := p.atPs + turnPs } }
    else c

/-- R257 checks a step in the present state. -/
def Chip.stepChecked (c : Chip) : Bool :=
  match c.time.state with
  | .locked | .holdover => true
  | .locking => c.time.checked
  | _ => false

/-- A step is refused (R257): HOLDOVER, JUMP_REFUSED, and TIME_JUMP_REFUSED when the refusal is new; an offset more than 1 µs from the first
starts CONFIRM_S again. -/
def Chip.refuseJump (c : Chip) (off : Int) : Chip :=
  let us : Int := off / 1000000
  let us := if us > 0x7FFFFFFF then 0x7FFFFFFF else if us < -0x80000000 then -0x80000000 else us
  match c.time.refused with
  | some first =>
    let near := decide ((off - first).natAbs ≤ 1000000)
    c.setTime fun t => { t with refusedUs := us, refusedSince := if near then some (t.refusedSince.getD c.clk.powerPs) else none }
  | none =>
    let c := c.setTime fun t => { t with refused := some off, refusedSince := some c.clk.powerPs, refusedAt := c.clk.powerPs, refusedUs := us }
    let c := c.holdOver 0x0501
    c.post 0x0503 0x0501 (unsigned 56 (off / 1000) + c.time.source * 2 ^ 56)

/-- The servo takes an offset of the source in use, local minus source, in ps (R255, R257). The frequency it sets is open. -/
def Chip.timeSample (c : Chip) (code : Nat) (off : Int) : Chip :=
  let c := c.cfgApply
  if c.time.source != code || code = 0 then c
  else
    let c := c.setTime fun t => { t with offsetPs := off }
    if c.time.pending.isSome then c
    else
      let big := decide (off.natAbs > 1000000)
      let past := decide (off.natAbs > c.time.cfg.threshold * 1000)
      if big && past && c.stepChecked then c.refuseJump off
      else
        let c := c.setTime fun t => { t with refused := none, refusedSince := none }
        let c := match c.time.state with
          | .unset => (c.setTime fun t => { t with checked := false }).timeState .locking 0x0505
          | .freerun => (c.setTime fun t => { t with checked := false }).timeState .locking 0x0505
          | .holdover => (c.setTime fun t => { t with checked := true }).timeState .locking 0x0505
          | _ => c
        if big then c.decideStep (-off) false 0
        else
          let c := (c.setTime fun t => { t with freqAdj := freeFreq c.freshNat, slew := -off }).nextFresh
          if c.time.state == .locking then
            if off.natAbs ≤ c.time.cfg.lockNs * 1000 then
              match c.time.lockSince with
              | none => c.setTime fun t => { t with lockSince := some c.clk.powerPs }
              | some a => if c.clk.powerPs ≥ a + 10 ^ 12 then (c.setTime fun t => { t with freqHist := [] }).noteFreq.timeState .locked 0x0507 else c
            else c.setTime fun t => { t with lockSince := none }
          else if c.time.state == .locked then c.noteFreq else c

/-- The frequency adjustment in force, and FREQ_CLAMPED (R254). -/
def Chip.appliedFreq (c : Chip) : Int × Bool := (c.clk.dco, c.clampedFreq.2)

/-- The part's own dataset, with no source. -/
def Chip.defaultDataset (c : Chip) : Dataset :=
  let p := c.time.ptp.get {} 0
  { tstate := c.tstate, stepsRemoved := 0, gm := Config.ownClock 0 % 2 ^ 64, quality := Config.ownClock 1 % 2 ^ 32,
    priority := p.priority1 * 256 + p.priority2, utcOffset := Config.ownClock 2 % 2 ^ 16, timeSource := Config.ownClock 3 % 256,
    freqAdj := c.clk.dco, stepCount := c.time.stepCount }

/-- The dataset this part presents (R265): of the source in use, with STEPS_REMOVED as IEEE 1588-2019 counts it; a trunk source's has been
raised by one as it came. -/
def Chip.ownDataset (c : Chip) : Dataset :=
  let d := c.time.data.get {} c.time.source
  if c.time.source != 0 && c.time.source != 0x30 then
    { d with tstate := c.tstate, freqAdj := c.clk.dco, stepCount := c.time.stepCount,
             stepsRemoved := if c.time.source < 0x20 then d.stepsRemoved else (d.stepsRemoved + 1) % 65536 }
  else c.defaultDataset

/-- CLOCK_INFO's payload (Table 10.4). -/
def Dataset.info (d : Dataset) : Bytes :=
  le 1 1 ++ le 1 d.tstate ++ be 2 d.stepsRemoved ++ be 8 d.gm ++ be 4 d.quality ++ be 2 d.priority ++ be 2 d.utcOffset ++ le 1 d.tflags ++
    le 1 d.timeSource ++ zeros 2 ++ be 4 (unsigned 32 d.freqAdj) ++ le 1 d.stepCount ++ zeros 27

/-- A CLOCK_INFO's dataset, with STEPS_REMOVED raised by one (R265). -/
def datasetOf (b : Bytes) : Dataset :=
  { tstate := fldBe b 1 1, stepsRemoved := (fldBe b 2 2 + 1) % 65536, gm := fldBe b 4 8, quality := fldBe b 12 4, priority := fldBe b 16 2,
    utcOffset := fldBe b 18 2, tflags := fldBe b 20 1 % 32, timeSource := fldBe b 21 1, freqAdj := signed 32 (fldBe b 24 4),
    stepCount := fldBe b 28 1 }

/-- STEP_NOTICE's payload (Table 10.4). -/
def Chip.noticePayload (c : Chip) (s : TimeStep) : Bytes :=
  le 1 2 ++ le 1 ((c.time.stepCount + 1) % 256) ++ zeros 2 ++ be 6 s.atTurn ++ be 6 s.newTurn ++ be 4 (stepExt s.dq / 25) ++
    be 8 (unsigned 64 s.dq) ++ zeros 28

/-- A TIME cell on TID 1 (R265). -/
def Chip.sendTime (c : Chip) (n : Nat) (b : Bytes) : Chip := c.sendFw n (ctlCell 1 7 b)

end Sys2Proof.Machine
end

