-- ==== Sys2Proof/Machine/Links.lean ====
section
/-!
DEFINITION. Chapters 04 and 05: what several families do to a trunk's lanes and framing.
-/
namespace Sys2Proof.Machine

/-- The logical receive lanes at or above FOM_MIN and not failed (R112, R143). -/
def LanePort.goodSet (l : LanePort) : Nat :=
  (List.range 4).foldl (fun m i =>
    let x := l.rx.get {} (l.phys i)
    if x.aligned && !x.failed && decide (x.fom ≥ l.cfg.fomMin) then m + 2 ^ i else m) 0

/-- The usable set of a mask at width `w`, if there is one (R112). -/
def usable (mask w : Nat) : Option Nat :=
  if w = 4 then (if mask % 16 = 15 then some 15 else none)
  else if w = 2 then (if bitOf mask 0 && bitOf mask 1 then some 3 else if bitOf mask 2 && bitOf mask 3 then some 12 else none)
  else (if bitOf mask 0 then some 1 else if bitOf mask 1 then some 2 else if bitOf mask 2 then some 4 else if bitOf mask 3 then some 8 else none)

/-- The largest of the widths `ws` usable in both masks, with its two sets (R112, R143). -/
def widest (a b : Nat) : List Nat → Option (Nat × Nat × Nat)
  | [] => none
  | w :: r =>
    match usable a w, usable b w with
    | some x, some y => some (w, x, y)
    | _, _ => widest a b r

/-- The TRAIN_STEP message of the present step (R98, Table 04.6). -/
def LanePort.stepBody (l : LanePort) (n step : Nat) : Bytes :=
  le 1 step ++ le 1 l.mine ++ le 1 (l.depth + (if l.following && l.use.followPort == n then 128 else 0)) ++
    le 1 (if step = 7 then (if l.mine = 1 then l.ownRxset else l.goodSet) else 0) ++
    le 1 (if step = 9 then (List.range 4).foldl (fun m i => if (l.rx.get {} (l.phys i)).precode then m + 2 ^ i else m) 0 else 0)

/-- Send the present step's TRAIN_STEP. -/
def Chip.sendStep (c : Chip) (n : Nat) : Chip :=
  let l := c.laneOf n
  match l.phase with
  | .train k => c.sbPeer n 0x41 (l.stepBody n k)
  | _ => c

/-- LINK_CAPS as this part sends it (Table 05.7). -/
def Chip.linkCapsBody (c : Chip) (n : Nat) : Bytes :=
  let l := c.laneOf n
  [0x03, 0x07] ++ le 1 l.use.maxRev ++ le 1 l.use.maxWidth ++ le 2 0x003F ++ [0x03, 3] ++ le 1 c.roleCode ++ le 1 (c.cableClass n) ++ zeros 2

/-- Starting transmit preset of a cable class (Table 04.4), as (c-1, c+1) of Table 04.7. -/
def startPreset (cls : Nat) : Nat × Nat := if cls = 2 then (0, 4) else if cls = 3 then (0, 0) else (4, 8)

/-- Classes that allow Unxus 2 (Table 04.4). -/
def classRev2 (cls : Nat) : Bool := cls = 1 || cls = 2 || cls = 3

/-- The lanes at the start of training: no lane aligned, the transmitters at a preset (Table 04.4), each PRBS31 fill running on, or from a free
phase on a lane that has sent no block. -/
def LanePort.fresh (l : LanePort) (preset : Nat × Nat) (seeds : Bytes) : LanePort :=
  let tx := fun i : Nat =>
    let x := (Tab.get ({} : TxLane) l.tx i).fill
    (i, ({ pre := preset.1, post := preset.2, fill := if x = 0 then prbsSeed (fld seeds (4 * i) 4) else x } : TxLane))
  let rx := fun i : Nat => (i, ({ peerPre := preset.1, peerPost := preset.2 } : RxLane))
  { l with rx := (List.range 4).map rx, tx := (List.range 4).map tx, mapReversed := false, clkInverted := false }

/-- A loop on the lanes is over. -/
def LanePort.unloop (l : LanePort) : LanePort := { l with loopSt := none, phase := .idle, revision := 0, depth := 0 }

/-- The trunk whose received clock a trunk's transmitters are clocked from, none for REFCLK_TRK (R93, R95); the looping end of a far-end loop
follows the loop's own trunk (R118). -/
def LanePort.txClock (l : LanePort) (n : Nat) : Option Nat :=
  match l.loopSt with
  | some k => if k.mode = 3 && !k.requester then some n else none
  | none => if l.following && !l.syntonyLost then some l.use.followPort else none

/-- The widths that LINK_CAPS and MAX_WIDTH allow, largest first (R112, R149); Unxus 1 has x4 alone. -/
def LanePort.widths (l : LanePort) : List Nat :=
  let peer := match l.caps with | some x => x | none => { widths2 := 7, maxWidth := 4 }
  [4, 2, 1].filter fun w => decide (w ≤ l.use.maxWidth) && decide (w ≤ peer.maxWidth) &&
    (if l.revision = 1 then w = 4 else bitOf peer.widths2 (if w = 4 then 2 else w - 1))

/-- Since when both ends have had a usable set at each wider width (R146). -/
def Chip.noteUsable (c : Chip) (n : Nat) : Chip :=
  let l := c.laneOf n
  let f := c.frmOf n
  let since := (l.widths.reverse.filter fun w => decide (l.width < w)).filterMap fun w =>
    match usable l.goodSet w, usable f.peerRxset w with
    | some _, some _ => some (w, (f.usableSince.find w).getD c.clk.powerPs)
    | _, _ => none
  if c.inData n then c.setFrm n { f with usableSince := since } else c

/-- The clock depths of the trunks that follow trunk `fp` are one more than its peer's (R94), and 0 while they are on REFCLK_TRK (R95). -/
def Chip.setDepths (c : Chip) (fp : Nat) : Chip :=
  (List.range 4).foldl (fun c m =>
    let l := c.laneOf m
    if l.following && l.use.followPort == fp then
      c.setLane m { l with depth := if l.syntonyLost then 0 else (c.laneOf fp).peerDepth % 128 + 1 }
    else c) c

/-- The follow port's clock may be followed (R94). -/
def Chip.followOk (c : Chip) (fp : Nat) : Bool :=
  let p := c.laneOf fp
  decide (p.peerDepth % 128 ≤ 7) && !bitOf p.peerDepth 7

/-- Begin a training attempt at step 1 (R93, R101, R120). -/
def Chip.startAttempt (c : Chip) (n : Nat) : Chip :=
  let l := c.laneOf n
  let fol := l.cfg.follow && !c.inRole .hub
  let l := l.fresh (startPreset (c.cableClass n)) (c.freshBytes 16)
  let c := c.nextFresh
  let l := { l with use := l.cfg, phase := .train 1, mine := 0, peerDone := false, peerGot := [], caps := none, ownRxset := 0, peerRxset := 0,
                    peerPrecode := 0, revision := 0, lastBlock := 0, lastBlockAt := 0,
                    following := fol, depth := if fol then (c.laneOf l.cfg.followPort).peerDepth % 128 + 1 else 0, syntonyLost := l.syntonyLost && fol,
                    eq := [], results := [], rerun := false, stamps := [], width := 0, activeRx := 0, activeTx := 0, flight := 0 }
  let c := (c.setLane n l).countLane n fun k => { k with attempts := sat32 k.attempts 1 }
  ((c.sbPeer n 0x40 (c.linkCapsBody n))).sendStep n

/-- The trunk may train (R24, R101). -/
def Chip.mayTrain (c : Chip) (n : Nat) : Bool :=
  (c.laneOf n).cfg.admin && c.peerThere n && c.trainPower n && c.forwards && !(c.dev.refFailed.contains 0 && !(c.laneOf n).cfg.follow)

/-- An attempt fails (R100, R101): `send` when this end sends TRAIN_FAIL; `peer` is the reason the peer's TRAIN_FAIL carried. -/
def Chip.failAttempt (c : Chip) (n reason : Nat) (send : Bool) (peer : Nat := 0) : Chip :=
  let l := c.laneOf n
  match l.phase with
  | .train k =>
    let c := if send then c.sbPeer n 0x48 (le 1 k ++ le 2 reason) else c
    let long := decide (l.consecutive + 1 ≥ 3)
    let l := { l with phase := .backoff long, lastFail := reason, fails := sat16 l.fails 1,
                      consecutive := if long then 0 else l.consecutive + 1, revision := 0, width := 0,
                      activeRx := 0, activeTx := 0 }
    let c := c.setLane n l
    let c := c.countLane n fun x => { x with failed := sat32 x.failed 1 }
    let c := c.setFrm n { c.frmOf n with seeking := false }
    let c := if long then c.post 0x0403 reason (n + 3 * 256 + (if reason = 0x040A then peer * 2 ^ 32 else 0)) else c
    match (c.laneOf n).retrain with
    | none => c
    | some (h, j) =>
      if j + 1 ≥ 3 then (c.setLane n { c.laneOf n with retrain := none }).complete h stTimeout reason 0
      else c.setLane n { c.laneOf n with retrain := some (h, j + 1) }
  | _ => c

/-- The next training step begins (R99). -/
def Chip.beginStep (c : Chip) (n k : Nat) : Chip :=
  let l := c.laneOf n
  let c := c.setLane n { l with phase := .train k, mine := 0, peerDone := l.peerGot.contains (k, 1) }
  c.sendStep n

/-! ### Link up and down -/

/-- Held cells and replay copies of a trunk are lost with its link (Table 05.6). -/
def Chip.dropReplay (c : Chip) (n : Nat) : Chip :=
  let f := c.frmOf n
  let c := f.held.foldl (fun c h => c.dropCell n h.cell) c
  let c := f.copies.foldl (fun c h => c.dropCell n h.cell) c
  c.setFrm n { c.frmOf n with held := [], copies := [], replayQ := [] }

/-- Credits of a trunk return: stored cells no longer hold one (R243). -/
def Chip.clearCredits (c : Chip) (n : Nat) : Chip :=
  let f := fun (x : QCell) => match x.credit with
    | some (m, g) => if m = n && g < 4 then { x with credit := none } else x
    | none => x
  { c with fab := { c.fab with q := c.fab.q.mapAll fun _ l => l.map f, backlog := c.fab.backlog.mapAll fun _ l => l.map f } }

/-- SEAL_FAILED (R472): to the log and the manager, and to the queues named at open of the tunnels delivered. -/
def Chip.postSealFailed (c : Chip) (n reason : Nat) (t : SealTurn) : Chip :=
  let d := n + t.turn * 2 ^ 16
  let c := c.post 0x0E03 reason d
  t.delivered.foldl (fun c i => c.postTun i (c.event 0x0E03 reason d)) c

/-- A turn whose tag failed or, `unver`, cannot be verified (Table 19.12): it is counted, its VERIFY_FIRST cells held go on poisoned and
zeroed, with the promise of a class V tunnel suspended, and SEAL_FAILED is posted. -/
def Chip.sealPoison (c : Chip) (n : Nat) (unver : Bool) (t : SealTurn) : Chip :=
  let x := c.sealOf n
  let c := (if unver then c else c.bump 45 1).setSeal n (if unver then { x with unverified := sat32 x.unverified 1 }
    else { x with tagFails := sat32 x.tagFails 1, failRun := x.failRun + 1 })
  let c := t.held.foldl (fun c y =>
    let c := c.fabricIn n { y with p := true, payload := zeros 56 }
    if c.contracted y.tid && (c.tunOf y.tid).cls = 1 then (c.countFrm n 14 1).suspend y.tid 0x0425 n else c) c
  c.postSealFailed n (if unver then 0x0E11 else 0x0E10) t

/-- The trunk leaves DATA while a sealed turn is being received: the marker with its tag will not come, so it is unverifiable (R472). -/
def Chip.sealLost (c : Chip) (n : Nat) : Chip :=
  let x := c.sealOf n
  match x.rx with
  | none => c
  | some t => (c.setSeal n { x with rx := none }).sealPoison n true t

/-- The trunk is no longer sealed: SEAL_STATE is posted when it was, and the handshake's state is gone (R465, R466). -/
def Chip.sealDown (c : Chip) (n reason : Nat) : Chip :=
  let x := c.sealOf n
  let c := c.setSeal n { cfg := x.cfg, tagFails := x.tagFails, unverified := x.unverified }
  let c := match x.rekey with
    | some h => c.complete h stAborted reason 0
    | none => c
  if x.sealedOn then c.post 0x0E02 0 n else c

/-- What the other families do when a trunk leaves DATA (R194, R208, R213, R243, R256, Table 06.6). -/
def Chip.linkDownRest (c : Chip) (n reason : Nat) : Chip :=
  let c := c.sealLost n
  let c := (c.fab.q.filter fun e => e.1 / 1024 == n).foldl (fun c e => c.dropQueue n (e.1 % 1024) 0x0212) c
  let c := { c with fab := { c.fab with ctlWait := c.fab.ctlWait.erase n } }
  let c := c.clearCredits n
  let c := c.suspendAll (fun _ t => t.trunks.contains n) 0x03F3 n
  let c := c.routeDown n
  let c := c.sealDown n reason
  let c := c.setGear fun g => { g with mismatch := g.mismatch.filter (· != n), checkDue := g.checkDue.filter (· != n),
                                       shift := g.shift.map fun x => { x with matched := setBit x.matched n false, peerConf := setBit x.peerConf n false } }
  c.sourceLost (0x10 + n)

/-- A condition of the promises that cross a trunk may hold again from this turn on (R167). -/
def Chip.conditionBack (c : Chip) (n : Nat) : Chip :=
  (c.tids fun _ t => t.promise.suspended && t.trunks.contains n).foldl Chip.promiseLook c

/-- What the other families do when a trunk enters DATA (R164, R194, R195, R466). -/
def Chip.linkUpRest (c : Chip) (n : Nat) : Chip :=
  let c := (c.tids fun i t => t.state.live && t.outPort = n && !c.flightOk i).foldl (fun c i => c.suspend i 0x03F4 n) c
  let c := ((c.limpCheck n).conditionBack n).delayRecheck
  let c := c.setGear fun g => { g with checkDue := insertSorted n g.checkDue }
  if (c.sealOf n).cfg.auth then c.kxStart n false else c

/-- Transmitters that follow port `fp` slew away from it or back (R95). -/
def Chip.syntony (c : Chip) (fp : Nat) (lost : Bool) : Chip :=
  (List.range 4).foldl (fun c n =>
    let l := c.laneOf n
    if l.following && l.use.followPort == fp && l.syntonyLost != lost && n != fp then
      let c := c.setLane n { l with syntonyLost := lost }
      let c := c.countLane n fun k => { k with followSwitch := sat32 k.followSwitch 1 }
      c.post (if lost then 0x0405 else 0x0406) 0 (n + 256 * fp)
    else c) c |>.setDepths fp

/-- A trunk leaves DATA (R131, R213, Table 05.6): LINK_DOWN is posted, replay state and held cells are dropped, the session ends. -/
def Chip.linkDown (c : Chip) (n reason : Nat) : Chip :=
  let l := c.laneOf n
  match l.phase with
  | .data =>
    let l' := { l with phase := .idle, width := 0, activeRx := 0, activeTx := 0, revision := 0, consecutive := 0 }
    let c := (c.setLane n l').countLane n fun k => { k with linkDown := sat32 k.linkDown 1 }
    let c := c.post 0x0402 reason n
    let c := c.dropReplay n
    let f := c.frmOf n
    let keep : Framing := { cnt := f.cnt, expSeq := f.expSeq, upgradeAuto := f.upgradeAuto, degradeRun := f.degradeRun, upgradeHold := f.upgradeHold,
                            widthTurn := f.widthTurn, widthReason := f.widthReason, noUpgrade := f.noUpgrade, fill := f.fill }
    let c := c.setFrm n keep
    let c := match f.wcMine with
      | some w => if w.handle = 0 then c else c.complete w.handle stAborted 0x0421 0
      | none => c
    let c := match l.eyeOpen with
      | some (h, _, _) => (c.setLane n { c.laneOf n with eyeOpen := none }).complete h stAborted 0 0
      | none => c
    let c := c.endSession (trunkSession n)
    let c := { c with cmd := { c.cmd with queues := c.cmd.queues.erase (trunkQKey n) } }
    (c.syntony n true).linkDownRest n reason
  | _ => c

/-- A trunk enters DATA (R115, R131): LINK_UP is posted. -/
def Chip.linkUp (c : Chip) (n : Nat) : Chip :=
  let l := c.laneOf n
  let rx := l.rx.mapAll fun _ x => { x with fomLow := x.fom }
  let c := c.setLane n { l with phase := .data, fails := 0, consecutive := 0, rx }
  let c := c.countLane n fun k => { k with linkUp := sat32 k.linkUp 1 }
  let f := c.frmOf n
  let c := c.setFrm n { f with inData := true, seeking := false, badRun := 0 }
  let c := c.post 0x0401 0 (n + 256 * l.width + 65536 * l.revision + l.flight * 2 ^ 32)
  let c := match l.retrain with
    | some (h, _) => (c.setLane n { c.laneOf n with retrain := none }).complete h stOk 0 0
    | none => c
  ((c.noteUsable n).syntony n false).linkUpRest n

/-- Framing reports a loss of alignment on the lanes that it receives on (DEDUCED: the loss of marker lock, R131). -/
def Chip.alignLosses (c : Chip) (n : Nat) : Chip :=
  let l := c.laneOf n
  let add := fun (t : Tab LaneCount) i =>
    let y := t.get {} i
    if bitOf l.activeRx i then t.set i { y with alignLoss := sat32 y.alignLoss 1 } else t
  c.setLane n { l with laneCnt := (List.range 4).foldl add l.laneCnt }

/-- A far-end loop ends at the looping end: LOOP_ENDED is posted, and the trunk returns to R101 (R119). -/
def Chip.loopEnd (c : Chip) (n : Nat) : Chip :=
  let l := c.laneOf n
  match l.loopSt with
  | none => c
  | some k => (c.setLane n l.unloop).post 0x0408 0 (n + 256 * k.mode)

/-- The high-speed lanes go down under a test loop (R71; DEDUCED): the looping end ends it as R119 says; at the requesting end it is over, and
an open TRUNK_LOOP is aborted. -/
def Chip.loopDown (c : Chip) (n reason : Nat) : Chip :=
  let l := c.laneOf n
  match l.loopSt with
  | none => c
  | some k =>
    if k.requester then
      let c := c.setLane n { l.unloop with loopHandle := none }
      match l.loopHandle with
      | some h => c.complete h stAborted reason 0
      | none => c
    else c.loopEnd n

/-- The trunk's transmitters go idle and any attempt ends without TRAIN_FAIL (R102); a test loop goes on. An open TRUNK_RETRAIN is aborted
with reason ADMIN_DOWN or NO_PEER. -/
def Chip.lanesIdle (c : Chip) (n reason : Nat) : Chip :=
  let c := c.linkDown n reason
  let l := c.laneOf n
  let c := match l.retrain with
    | some (h, _) => (c.setLane n { l with retrain := none }).complete h stAborted (if reason = 0x040C then 0x040C else 0x0401) 0
    | none => c
  let c := c.setFrm n { c.frmOf n with seeking := false }
  let l := c.laneOf n
  c.setLane n (if l.loopSt.isSome then { l with consecutive := 0 }
    else { l with phase := .idle, consecutive := 0, revision := 0, width := 0, activeRx := 0, activeTx := 0 })

/-- Detach: the lanes are idle, and a far-end loop ends at the looping end (R119). -/
def Chip.lanesDetach (c : Chip) (n reason : Nat) : Chip :=
  let c := c.lanesIdle n reason
  match (c.laneOf n).loopSt with
  | some k => if k.requester then c else c.loopEnd n
  | none => c

/-- Every trunk in DATA leaves it with a reason (R71); attempts end. -/
def Chip.trunksLeaveData (c : Chip) (reason : Nat) : Chip :=
  (List.range 4).foldl (fun c n =>
    let c := c.linkDown n reason
    match (c.laneOf n).phase with
    | .train _ | .backoff _ => c.setLane n { c.laneOf n with phase := .idle, consecutive := 0, revision := 0, width := 0, activeRx := 0, activeTx := 0 }
    | .loop => c.loopDown n reason
    | _ => c) c

end Sys2Proof.Machine
end

