-- ==== Sys2Proof/Machine/FrameOps.lean ====
section
/-!
DEFINITION. Chapter 05: width requests (R143 to R150), delivery of V cells (R135, R140, R141) and replay copies (R136 to R138).
-/
namespace Sys2Proof.Machine

/-! ### Width requests -/

/-- QUIET, or on the way into it (R146, R147). -/
def Chip.quieting (c : Chip) : Bool :=
  match c.dev.trans with
  | some t => t.target == .quiet
  | none => c.dev.mode == .quiet

/-- This end makes a width request; a degrade withdraws an upgrade that is open. -/
def Chip.requestWidth (c : Chip) (n kind w rxset reason : Nat) (handle : Nat := 0) : Chip :=
  let up := match (c.frmOf n).wcMine with | some x => x.kind = 2 && kind = 1 | none => false
  let c := if up then c.upgradeAbandon n else c
  c.setFrm n { c.frmOf n with wcMine := some { kind, width := w, rxset, turn := 0, reason, handle }, wcSent := false,
                              wcTxDone := false, wcRxDone := false }

/-- The widest degrade: the width and the own lane set, with both ends' sets usable (R143). -/
def Chip.degradeTo (c : Chip) (n : Nat) : Option (Nat × Nat) :=
  let l := c.laneOf n
  (widest l.goodSet (c.frmOf n).peerRxset (l.widths.filter fun w => decide (w ≤ l.width))).map fun e => (e.1, e.2.1)

/-- An upgrade to width `w` may be proposed (R146): not in QUIET, UPGRADE_HOLD seconds of usable sets at that width, and as long since an
abandoned upgrade. -/
def Chip.upgradeReady (c : Chip) (n w : Nat) : Bool :=
  let f := c.frmOf n
  !c.quieting && decide (f.noUpgrade ≤ c.clk.powerPs) &&
    (match f.usableSince.find w with | some t => decide (t + f.upgradeHold * 10 ^ 12 ≤ c.clk.powerPs) | none => false)

/-- The widest upgrade that may be proposed (R146); `atOnce` without UPGRADE_HOLD (R147). -/
def Chip.upgradeTo (c : Chip) (n : Nat) (atOnce : Bool := false) : Option (Nat × Nat) :=
  let l := c.laneOf n
  (widest l.goodSet (c.frmOf n).peerRxset (l.widths.filter fun w => decide (w > l.width) && (atOnce || c.upgradeReady n w))).map fun e => (e.1, e.2.1)

/-- QUIET entry asks a trunk for one lane (R147). -/
def Chip.quietTrunk (c : Chip) (n : Nat) : Chip :=
  let l := c.laneOf n
  let pend := match (c.frmOf n).wcMine with | some w => w.kind = 1 | none => false
  if l.phase == .data && l.revision = 2 && l.width > 1 && !pend then
    match usable l.goodSet 1 with
    | some rx => c.requestWidth n 1 1 rx 0x042A
    | none => c
  else c

/-- QUIET exit proposes an upgrade at once (R147). -/
def Chip.unquietTrunk (c : Chip) (n : Nat) : Chip :=
  let l := c.laneOf n
  if l.phase == .data && l.revision = 2 && (c.frmOf n).wcMine.isNone then
    match c.upgradeTo n true with
    | some (w, rx) => c.requestWidth n 2 w rx 0x042A
    | none => c
  else c

/-- A width target lies within 16 turns of an open shift's target (R146). -/
def Chip.nearShift (c : Chip) (turn : Nat) : Bool :=
  match c.gear.shift with
  | none => false
  | some x =>
    let d := (x.target + 2 ^ 32 - turn % 2 ^ 32) % 2 ^ 32
    decide (d ≤ 16) || decide (2 ^ 32 - d ≤ 16)

/-! ### Targets of a width change (R144, R146, R518) -/

/-- `a` is before `b` among turns of 32 bits and spokes. -/
def posBefore (a b : Nat × Nat) : Bool := if a.1 = b.1 then decide (a.2 < b.2) else seqBefore 32 a.1 b.1

/-- Spokes between the boundaries at which a width change may happen: 2 for a degrade, 16 for an upgrade (R518). -/
def boundaryUnit (kind : Nat) : Nat := if kind = 1 then 2 else 16

/-- The turn, of 32 bits, and spoke of the eligible boundary nearest to a time, ps after the start of turn 0. -/
def nearestBoundary (kind : Nat) (ps : Int) : Nat × Nat :=
  let u := boundaryUnit kind * spokePs
  let k := ((ps + (u / 2 : Nat)) / (u : Nat)).toNat * boundaryUnit kind
  ((k / 16) % 2 ^ 32, k % 16)

/-- Time is set at both ends of a trunk, so that the turns coincide (R258, R518). -/
def Chip.turnsAgree (c : Chip) (n : Nat) : Bool := c.timeSet && (c.frmOf n).peerStamp.1 % 8 != 0

/-- The own boundary of a target that the peer names in its own numbering (R518): its instant is placed by the last marker's TXSTAMP and the
measured clock offset. -/
def Chip.mapOwn (c : Chip) (n kind : Nat) (t : Nat × Nat) : Nat × Nat :=
  let f := c.frmOf n
  if c.turnsAgree n then t
  else
    let d := signed 32 ((t.1 + 2 ^ 32 - f.rxMark.1 % 2 ^ 32) % 2 ^ 32)
    nearestBoundary kind ((f.rxMark.2.2 : Int) + (d * 16 + (t.2 : Int) - (f.rxMark.2.1 : Int)) * (spokePs : Int) + f.peerOffset)

/-- The peer's boundary, in the peer's numbering, of a target that this end names in its own (R518). -/
def Chip.mapPeer (c : Chip) (n kind : Nat) (t : Nat × Nat) : Nat × Nat :=
  let f := c.frmOf n
  if c.turnsAgree n then t
  else
    let d := signed 32 ((t.1 + 2 ^ 32 - c.turn % 2 ^ 32) % 2 ^ 32)
    let inst : Int := ((c.turn : Int) + d) * (turnPs : Int) + (t.2 : Int) * (spokePs : Int)
    nearestBoundary kind (((f.rxMark.1 * 16 + f.rxMark.2.1) * spokePs : Nat) + (inst - f.peerOffset - (f.rxMark.2.2 : Int)))

/-- An agreed width change: the width, the lane sets, the boundaries of the two directions in the numbering of each direction's transmitter,
and the own request behind it. -/
structure WidthPlan where
  width : Nat
  rx : Nat
  tx : Nat
  txAt : Nat × Nat
  rxAt : Nat × Nat
  own : Option WidthReq
  degrade : Bool
  deriving DecidableEq, Repr

/-- What the width requests of the two ends come to (R144, R146): a degrade by either end, at the earlier target and the narrower width when
both ask; an upgrade when each end has carried KIND 2 with the same width, at the later target, each having had the other's at least 2 turns
before it. -/
def Chip.widthPlan (c : Chip) (n : Nat) : Option WidthPlan :=
  let f := c.frmOf n
  let mine := match f.wcMine with | some a => if f.wcSent then some a else none | none => none
  let lanes := fun m w => (usable m w).getD 1
  match mine, f.wcPeer with
  | some a, some b =>
    let ta := (a.turn, a.spoke)
    let tb := (b.turn, b.spoke)
    if a.kind = 1 && b.kind = 1 then
      let w := Nat.min a.width b.width
      let first := !posBefore tb ta
      some { width := w, rx := if a.width = w then a.rxset else lanes f.sentRxset w, tx := if b.width = w then b.rxset else lanes f.peerRxset w,
             txAt := if first then ta else tb, rxAt := if first then c.mapPeer n 1 ta else b.raw, own := some a, degrade := true }
    else if a.kind = 1 then
      some { width := a.width, rx := a.rxset, tx := lanes f.peerRxset a.width, txAt := ta, rxAt := c.mapPeer n 1 ta, own := some a, degrade := true }
    else if b.kind = 2 && a.width = b.width then
      let late := posBefore ta tb
      let at' := if late then tb else ta
      if signed 32 ((at'.1 + 2 ^ 32 - b.seen) % 2 ^ 32) < 2 then none
      else some { width := a.width, rx := a.rxset, tx := lanes b.rxset a.width, txAt := at', rxAt := if late then b.raw else c.mapPeer n 2 ta,
                  own := some a, degrade := false }
    else none
  | some a, none =>
    if a.kind = 1 then
      some { width := a.width, rx := a.rxset, tx := lanes f.peerRxset a.width, txAt := (a.turn, a.spoke),
             rxAt := c.mapPeer n 1 (a.turn, a.spoke), own := some a, degrade := true }
    else none
  | none, some b =>
    if b.kind = 1 then
      some { width := b.width, rx := lanes f.sentRxset b.width, tx := b.rxset, txAt := (b.turn, b.spoke), rxAt := b.raw, own := none, degrade := true }
    else none
  | none, none => none

/-- An upgrade that this end has carried is not agreed at least 2 turns before its target (R146). -/
def Chip.upgradeLate (c : Chip) (n : Nat) : Bool :=
  let f := c.frmOf n
  match f.wcMine with
  | some a => a.kind = 2 && f.wcSent && !f.wcTxDone && !f.wcRxDone &&
      (match f.wcPeer with | none => seqBefore 32 a.turn ((c.turn + 2) % 2 ^ 32) | some _ => (c.widthPlan n).isNone)
  | none => false

/-- Both directions have switched (R144, R146, R195): WIDTH_CHANGED is posted, and the request is over. -/
def Chip.widthTake (c : Chip) (n : Nat) (p : WidthPlan) : Chip :=
  let f := c.frmOf n
  let old := f.wcOld
  let reason := match p.own with | some x => x.reason | none => 0x042D
  let c := c.setFrm n { f with wcMine := none, wcPeer := none, wcSent := false, wcTxDone := false, wcRxDone := false, widthTurn := c.turn,
                               widthReason := reason, badRun := 0 }
  let c := c.countFrm n (if p.degrade then 18 else 19) 1
  let c := if p.width < old then c.bump 18 1 else if p.width > old then c.bump 19 1 else c
  let c := c.post 0x0410 reason (n + 256 * old + 65536 * p.width)
  let c := (((c.noteUsable n).limpCheck n).conditionBack n).delayRecheck
  let c := match p.own with
    | some x => if x.handle = 0 then c else c.complete x.handle stOk 0 0
    | none => c
  if c.quieting then c.quietTrunk n else c

/-- The position that follows a received marker's: turn and spoke, by a STEP_NOTICE held for the trunk where one applies (R130, R261). -/
def Chip.nextRx (c : Chip) (n : Nat) (p : Nat × Nat) : Nat × Nat :=
  if p.2 < 15 then (p.1, p.2 + 1)
  else
    let t := (p.1 + 1) % 2 ^ 48
    match c.time.notices.find n with
    | some (at', new, _, _) => if at' = t then (new, 0) else (t, 0)
    | none => (t, 0)

/-- The turn and spoke of the marker to send now (R126, R131): the first opens the spoke the clock is at. -/
def Chip.nextTx (c : Chip) (n : Nat) : Nat × Nat :=
  match (c.frmOf n).txPos with
  | none => (c.turn, c.spoke)
  | some (t, s) => if s < 15 then (t, s + 1) else (if c.spoke = 0 then c.turn else (t + 1) % 2 ^ 48, 0)

/-- A position among turns of 32 bits has come to a target. -/
def reached (pos target : Nat × Nat) : Bool := !posBefore (pos.1 % 2 ^ 32, pos.2) target

/-- The transmit direction switches when its next marker opens the target spoke (R144). -/
def Chip.widthSwitchTx (c : Chip) (n : Nat) (p : WidthPlan) : Chip :=
  let f := c.frmOf n
  let l := c.laneOf n
  if !f.wcTxDone && f.txPos.isSome && reached (c.nextTx n) p.txAt then
    (c.setLane n { l with width := p.width, activeTx := p.tx }).setFrm n { f with wcTxDone := true, wcOld := l.width }
  else c

/-- The receive direction switches when the next marker it awaits opens the target spoke of the peer's transmitter (R144, R518). -/
def Chip.widthSwitchRx (c : Chip) (n : Nat) (p : WidthPlan) : Chip :=
  let f := c.frmOf n
  let l := c.laneOf n
  let due := match f.lastRx with | some q => reached (c.nextRx n q) p.rxAt | none => false
  if !f.wcRxDone && due then
    (c.setLane n { l with activeRx := p.rx }).setFrm n { f with wcRxDone := true, wcOld := if f.wcTxDone then f.wcOld else l.width }
  else c

/-- What is due of a trunk's width change at the positions that its two directions have reached (R144, R146, R518). -/
def Chip.widthStep (c : Chip) (n : Nat) : Chip :=
  if !c.inData n then c
  else if c.upgradeLate n then c.upgradeAbandon n
  else match c.widthPlan n with
    | none => c
    | some p =>
      let c := (c.widthSwitchTx n p).widthSwitchRx n p
      if (c.frmOf n).wcTxDone && (c.frmOf n).wcRxDone then c.widthTake n p else c

/-! ### Delivery of received cells (R129, R140, R141) -/

/-- A received cell goes on to the switch core; in a sealed turn a VERIFY_FIRST cell waits for the turn's tag (R472). -/
def Chip.deliver (c : Chip) (n : Nat) (x : Cell) : Chip :=
  let y := c.sealOf n
  match y.rx with
  | none => c.fabricIn n x
  | some r =>
    if x.tid ≥ 2 && bitOf (c.tunOf x.tid).oflags 0 && x.ctype != 6 then c.setSeal n { y with rx := some { r with held := r.held ++ [x] } }
    else
      let d := if x.tid < 2 || r.delivered.contains x.tid then r.delivered else r.delivered ++ [x.tid]
      (c.setSeal n { y with rx := some { r with delivered := d } }).fabricIn n x

/-- Deliver the held cells of a tunnel that are now in sequence (R140); `fuel` bounds them. -/
def Chip.releaseSeq (c : Chip) (n tid : Nat) : Nat → Chip
  | 0 => c
  | fuel + 1 =>
    let f := c.frmOf n
    let e := f.expSeq.get 0 tid
    match f.held.find? fun h => h.cell.tid == tid && h.cell.seq == e with
    | none => c
    | some h =>
      let c := c.setFrm n { f with held := f.held.erase h, expSeq := f.expSeq.set tid ((e + 1) % 65536) }
      (c.deliver n h.cell).releaseSeq n tid fuel

/-- Held cells in order of SEQ from the expected one. -/
def insertHeld (e : Nat) (h : HeldCell) : List HeldCell → List HeldCell
  | [] => [h]
  | a :: r =>
    if (h.cell.seq + 65536 - e) % 65536 < (a.cell.seq + 65536 - e) % 65536 then h :: a :: r else a :: insertHeld e h r

/-- Release the held cells that satisfy `p`, in SEQ order per tunnel, leaving gaps (R140, R141); the others stay held. -/
def Chip.releaseHeld (c : Chip) (n : Nat) (p : HeldCell → Bool) : Chip :=
  let f := c.frmOf n
  let tids := (f.held.filter p).foldl (fun l h => if l.contains h.cell.tid then l else l ++ [h.cell.tid]) ([] : List Nat)
  tids.foldl (fun c tid =>
    let f := c.frmOf n
    let e := f.expSeq.get 0 tid
    let out := (f.held.filter fun h => p h && h.cell.tid == tid).foldr (insertHeld e) []
    let c := c.setFrm n { f with held := f.held.filter fun h => !(p h && h.cell.tid == tid) }
    let c := out.foldl (fun c h =>
      let f := c.frmOf n
      (c.setFrm n { f with expSeq := f.expSeq.set tid ((h.cell.seq + 1) % 65536) }).deliver n h.cell) c
    c) c

/-- A class V cell's SEQ decides (R140). -/
def Chip.cellV (c : Chip) (n cwsn : Nat) (x : Cell) : Chip :=
  let f := c.frmOf n
  let e := f.expSeq.get 0 x.tid
  if x.seq = e then
    let c := c.setFrm n { f with expSeq := f.expSeq.set x.tid ((e + 1) % 65536) }
    (c.deliver n x).releaseSeq n x.tid f.held.length
  else if (x.seq + 65536 - e) % 65536 ≥ 32768 then (c.countFrm n 10 1).dropCell n x
  else if f.naks.isEmpty then
    (c.setFrm n { f with expSeq := f.expSeq.set x.tid ((x.seq + 1) % 65536) }).deliver n x
  else
    if f.held.any fun h => h.cell.tid == x.tid && h.cell.seq == x.seq then (c.countFrm n 10 1).dropCell n x
    else match c.contractedPool x.tid with
      | none => (c.countPort (c.tunOf x.tid).outPort 7 1).dropCell n x
      | some pool =>
        let c := c.countFrm n 9 1
        let f := c.frmOf n
        c.setFrm n { f with held := f.held ++ [{ cwsn, cell := x, pool }] }

/-- One cell of a corrected codeword (R129, R222). -/
def Chip.cellRx (c : Chip) (n cwsn : Nat) (x : Cell) : Chip :=
  let t := c.tunOf x.tid
  if x.ctype = 0 then c
  else if x.ctype ≥ 8 then (c.countFrm n 6 1).capture 2 n x
  else if x.len = 0 || x.len > 56 then (c.countFrm n 7 1).capture 2 n x
  else if x.tid < 2 then c.deliver n x
  else if !t.state.live || (if x.ctype = 6 then !((t.outPort == n && t.index != t.hops) || (t.inPort == n && t.index != 0)) else t.index = 0 || t.inPort != n) then (c.countFrm n 8 1).capture 2 n x
  else if x.ctype = 6 then c.deliver n x
  else if c.contracted x.tid then
    if t.cls = 1 then c.cellV n cwsn x else c.deliver n x
  else
    let f := c.frmOf n
    let g := groupOfPort t.outPort
    if f.unused g = 0 then (c.setPot fun s => { s with creditOverrun := sat32 s.creditOverrun 1 }).dropCell n x
    else (c.setFrm n { f with rcvdFw := f.rcvdFw.set g ((f.rcvdFw.get 0 g + 1) % 2 ^ 32) }).deliver n x

/-! ### Replay copies (R136 to R138) -/

/-- A CWSN lies in a range. -/
def ReplayRange.has (r : ReplayRange) (x : Nat) : Bool := decide ((x + 2 ^ 24 - r.start) % 2 ^ 24 < r.count)

/-- The copies that satisfy `p` are released, and leave the replay queue. -/
def Framing.dropCopies (f : Framing) (p : CopyRec → Bool) : Framing :=
  let gone := (f.copies.filter p).map fun k => (k.cwsn, k.slot)
  { f with copies := f.copies.filter fun k => !p k, replayQ := f.replayQ.filter fun k => !gone.contains k }

/-- Keys of copies in order of CWSN from `start`, then slot. -/
def insertKey (start : Nat) (k : Nat × Nat) : List (Nat × Nat) → List (Nat × Nat)
  | [] => [k]
  | a :: r =>
    let d := fun (x : Nat × Nat) => (x.1 + 2 ^ 24 - start) % 2 ^ 24 * 8 + x.2
    if d k < d a then k :: a :: r else a :: insertKey start k r

/-- A NAK range in a received marker queues its V cells' copies (R137); what is resolved or queued already is skipped. -/
def Framing.nakRx (f : Framing) (start count now : Nat) : Framing :=
  let sent := (f.txCwsn + 2 ^ 24 - start) % 2 ^ 24
  let count := if sent < 2 ^ 23 then Nat.min count sent else 0
  let skip := fun x => seqBefore 24 x f.resolved || f.ranges.any fun r => r.has x
  let xs := ((List.range count).map fun i => (start + i) % 2 ^ 24).filter fun x => !skip x
  match xs with
  | [] => f
  | a :: _ =>
    let len := (xs.getLastD a + 2 ^ 24 - a) % 2 ^ 24 + 1
    let r : ReplayRange := { start := a, count := len, at' := now }
    let ks := (f.copies.filter fun k => xs.contains k.cwsn && !f.replayQ.contains (k.cwsn, k.slot)).map fun k => (k.cwsn, k.slot)
    { f with ranges := f.ranges ++ [r], replayQ := f.replayQ ++ ks.foldr (insertKey a) [] }

/-- RESOLVED_CWSN moves past the ranges that are done, in order (R138); their copies are released. -/
def Framing.resolveRanges (f : Framing) : List ReplayRange → Framing
  | [] => { f with ranges := [] }
  | r :: rest =>
    if r.ended || !(f.replayQ.any fun k => r.has k.1) then
      let e := (r.start + r.count) % 2 ^ 24
      let f := f.dropCopies fun k => r.has k.cwsn
      ({ f with resolved := if seqBefore 24 f.resolved e then e else f.resolved }).resolveRanges rest
    else { f with ranges := r :: rest }

/-- The NAK entries of a marker: START and COUNT, adjacent CWSNs together (R139). -/
def nakEntries : List Nat → List (Nat × Nat)
  | [] => []
  | x :: r =>
    match nakEntries r with
    | (a, n) :: t => if (x + 1) % 2 ^ 24 = a then (x, n + 1) :: t else (x, 1) :: (a, n) :: t
    | [] => [(x, 1)]

/-- At most four entries; the fourth covers the rest (R139). -/
def nakFour (l : List (Nat × Nat)) : List (Nat × Nat) :=
  if l.length ≤ 4 then l
  else
    let four := l.getD 3 (0, 0)
    let last := l.getLastD (0, 0)
    l.take 3 ++ [(four.1, (last.1 + last.2 + 2 ^ 24 - four.1) % 2 ^ 24)]

end Sys2Proof.Machine
end

