-- ==== Sys2Proof/Machine/Zeroize.lean ====
section
/-!
DEFINITION. Zeroization of keys and blobs (R463 to R465).
-/
namespace Sys2Proof.Machine

/-- ZEROIZED (0x0E04): reason, scope and slot. -/
def Chip.postZeroized (c : Chip) (reason scope slot : Nat) : Chip := c.post 0x0E04 reason (scope + 256 * slot)

/-- The slots that satisfy `p` become EMPTY (R463). -/
def Chip.zeroizeSlots (c : Chip) (p : Nat → KeySlot → Bool) : Chip :=
  c.setKeys fun k => { k with slots := k.slots.filter fun e => !p e.1 e.2 }

/-- The link keys of a trunk are zeroized: a sealed trunk leaves DATA with reason ZEROIZED (R465). -/
def Chip.zeroizeLink (c : Chip) (n : Nat) : Chip :=
  let x := c.sealOf n
  let busy := x.phase == .hello || x.phase == .cert || x.phase == .proof
  let c := c.setSeal n { x with eph := [], fin := [], newKeys := none, keys := none, next := none, prev := none, tx := none, rx := none,
                                phase := if busy then .idle else x.phase }
  if x.keys.isSome then c.linkDown n 0x0E16 else c

/-- WRAP_SALT, then every blob, is erased; with the Crock not running, or when LOCKDOWN follows, the mark in CONFIG stands for it (R464). -/
def Chip.eraseStore (c : Chip) (mark : Bool) : Chip :=
  if mark || !c.storeReady then { c with flash := { c.flash with zeroizePending := true } }
  else { c with csys := { c.csys with salt := none, blobs := [] } }

/-- Scope ALL, or ALL_PERSIST with `blobs` (R463). -/
def Chip.zeroizeAll (c : Chip) (blobs mark : Bool) (reason : Nat) (slot : Nat := 0) : Chip :=
  let c := c.zeroizeSlots fun _ _ => true
  let c := (c.setKeys fun k => { k with nonces := [] }).nextFresh
  let c := (List.range 4).foldl Chip.zeroizeLink c
  let c := if blobs then c.eraseStore mark else c
  c.postZeroized reason (if blobs then 3 else 2) slot

/-- Scope OWNER (R463). -/
def Chip.zeroizeOwner (c : Chip) (vi reason slot : Nat) : Chip :=
  (c.zeroizeSlots fun _ k => k.owner == vi).postZeroized reason 1 slot

/-- The erasure that a mark in CONFIG asks for is completed at the Crock's start (R464). -/
def Chip.finishErasure (c : Chip) : Chip :=
  if c.flash.zeroizePending then
    { c with flash := { c.flash with zeroizePending := false }, csys := { c.csys with salt := none, blobs := [] } }
  else c

end Sys2Proof.Machine
end

