-- ==== Sys2Proof/Machine/InstOps.lean ====
section
/-!
DEFINITION. Chapter 11: what quiescing, resetting and link loss do to an instance's work in every engine (R286 to R290, Table 11.10).
-/
namespace Sys2Proof.Machine

/-- A handle was issued on a queue of VI `vi`. -/
def Chip.handleOf (c : Chip) (vi h : Nat) : Bool :=
  match c.rec? h with
  | none => false
  | some r => match r.sess with | .pcie v _ => v == vi | _ => false

/-- The tunnels in whose name an instance's engine work runs; of VI 0, which owns the tunnels of every transport, only those that start at
F4. -/
def Chip.workTunnels (c : Chip) (vi : Nat) : List Nat := (c.tunnelsOf vi).filter fun t => vi != 0 || (c.tunOf t).inPort == 4

/-- A read is a display fetch. -/
def ReadFor.display : ReadFor → Bool
  | .layer _ _ _ _ => true
  | _ => false

/-- Host DMA or display fetch reads of an instance are outstanding. -/
def Chip.readsOf (c : Chip) (vi : Nat) (display : Bool) : Bool :=
  c.host.reads.any fun e => e.2.2.1 == vi && e.2.1.display == display

/-- The Crock still holds an instance's work: requests of its BLOCK tunnels, staged blocks of theirs, and its flushes. -/
def Chip.crockWork (c : Chip) (vi : Nat) : Bool :=
  let ts := c.workTunnels vi
  (ts.any fun t => match c.crock.tun.find t with | some b => !b.reqs.isEmpty | none => false) ||
    (c.crock.staged.any fun s => match s.by' with | some e => ts.contains e.1 | none => false) ||
    (c.crock.flushes.any fun f => c.handleOf vi f.1)

/-- ENGINES of GET_INSTANCE: the engines that still hold work of an instance (Table 11.14). -/
def Chip.engines (c : Chip) (vi : Nat) : Nat :=
  b2n (c.readsOf vi false) + 2 * b2n (c.keys.jobs.any fun j => c.handleOf vi j.handle) + 4 * b2n (c.crockWork vi) +
    8 * b2n (c.readsOf vi true) + 16 * b2n (c.legBusy vi)

/-- Crypto operations of an instance queued behind the one that SEC has started are aborted. -/
def Chip.cryptoQuiesce (c : Chip) (vi reason : Nat) : Chip :=
  let gone := (c.keys.jobs.drop 1).filter fun j => c.handleOf vi j.handle
  let c := c.setKeys fun k => { k with jobs := k.jobs.take 1 ++ (k.jobs.drop 1).filter fun j => !gone.contains j }
  gone.foldl (fun c j => c.complete j.handle stAborted reason 0) c

/-- Requests of an instance's BLOCK tunnels that are not started, all but the oldest of each, are aborted (Table 11.10). A WRITE in progress, whose
further data messages do not come any more, ends once its blocks in staging are written (DEDUCED, log entry 66). -/
def Chip.crockQuiesce (c : Chip) (vi reason : Nat) : Chip :=
  (c.workTunnels vi).foldl (fun c tid =>
    match c.crock.tun.find tid with
    | none => c
    | some t =>
      let gone := t.reqs.drop 1
      let cut := fun (r : BlkReq) => r.op == 2 && decide (r.next < r.count) && r.fail.isNone
      let rx := t.rx.map fun r => if t.reqs.any fun g => g.tag == r.1 && g.op == 2 then (r.1, r.2.1, true) else r
      let c := c.setBlk tid { t with reqs := (t.reqs.take 1).map fun r => if cut r then { r with fail := some (stAborted, reason) } else r, rx, buf := [] }
      (gone.foldl (fun c r => c.blkRespond tid r.tag stAborted reason 0 r.lba) c).blkGo tid) c

/-- The transmit rings of an instance take no further descriptor; cells already handed to the fabric drain in order (R229). -/
def Chip.txQuiesce (c : Chip) (vi reason : Nat) (now : Bool) : Chip :=
  (c.host.rings.keysWhere fun _ r => r.vi == vi && r.dir == 0).foldl (fun c k => c.txAbort k reason now) c

/-- An ACTIVE instance is quiesced by command or by link loss (R286, R287, R289). -/
def Chip.quiesceVi (c : Chip) (vi reason : Nat) (loss : Bool) : Chip :=
  let c := c.instState vi .quiescing reason
  let c := c.setInst vi { c.inst vi with linkLoss := loss }
  (((c.txQuiesce vi reason loss).cryptoQuiesce vi reason).crockQuiesce vi reason).legQuiesce vi reason

/-- A DMA read will never complete: what waited for it fails (R289, R291). -/
def Chip.readLost (c : Chip) (f : ReadFor) (cmdSt cmdReason txReason : Nat) : Chip :=
  match f with
  | .params _ p => c.fetchFailed p cmdSt cmdReason
  | .txData k _ => c.txFail k txReason
  | .inbound tid xtag len => c.inboundRead tid xtag len none
  | .sq _ _ _ | .desc _ _ _ | .layer _ _ _ _ => c

/-- The instances in a state. -/
def Chip.visIn (c : Chip) (st : InstState) : List Nat := (List.range 64).filter fun vi => (c.inst vi).state == st

/-- Every instance that is ACTIVE among `vis` is quiesced as R289 states. -/
def Chip.lossVis (c : Chip) (vis : List Nat) : Chip :=
  vis.foldl (fun c vi => if (c.inst vi).state == .active then c.quiesceVi vi 0x060C true else c) c

/-- HOST_LINK (0x0603). -/
def Chip.postHostLink (c : Chip) : Chip := c.post 0x0603 0 (b2n c.host.linkUp + 16 * c.host.width + 256 * c.host.rate)

/-- The data link goes down: DMA stops, and what waited for reads fails. -/
def Chip.hostDown (c : Chip) : Chip :=
  let reads := c.host.reads
  let c := (c.setHost fun h => { h with linkUp := false, width := 0, rate := 0, reads := [] }).postHostLink
  reads.foldl (fun c e => c.readLost e.2.1 stAborted 0x060C 0x060C) c

/-- The data link goes down without PE_PERST_L (R289). -/
def Chip.hostLost (c : Chip) : Chip := if c.host.linkUp then c.hostDown.lossVis (List.range 64) else c

/-! ### Resets (R288, R290) -/

/-- Queue pairs, event queues and rings of an instance are deleted, each ring as it would be unbound (R292: a message in progress ends under
R279); QP0_UP and QCTL0.ENABLE read 0. -/
def Chip.dropQueues (c : Chip) (vi : Nat) : Chip :=
  let c := (c.host.qps.keysWhere fun k _ => k / 64 == vi).foldl (fun c k => c.deleteQp vi (k % 64)) c
  let c := (c.host.evqs.keysWhere fun k _ => k / 32 == vi).foldl (fun c k => c.deleteEvq vi (k % 32)) c
  let c := (c.host.rings.keysWhere fun _ r => r.vi == vi).foldl Chip.unbindRing c
  let i := c.inst vi
  c.setInst vi { i with qp0Up := false, qctl0 := i.qctl0 % 2 ^ 31 }

/-- An instance's handle records are released; open handles complete with STATUS_ABORTED to the log (R288). -/
def Chip.dropHandles (c : Chip) (vi reason : Nat) : Chip :=
  let mine := fun (r : HandleRec) => r.handle / 2 ^ 24 == vi
  let c := { c with cmd := { c.cmd with handles := c.cmd.handles.map fun (r : HandleRec) => if mine r then { r with logOnly := true } else r } }
  let c := c.abortWhere mine reason
  { c with
    cmd := { c.cmd with handles := c.cmd.handles.filter fun r => !mine r }
    keys := { c.keys with outputs := c.keys.outputs.filter fun e => e.1 / 2 ^ 24 != vi } }

/-- Engine work is aborted without waiting for retirement (R288): later read completions are discarded. -/
def Chip.engineKill (c : Chip) (vi reason : Nat) : Chip :=
  let started := match c.keys.jobs with | [] => false | j :: _ => c.handleOf vi j.handle
  let gone := c.keys.jobs.filter fun j => c.handleOf vi j.handle
  let c := c.setKeys fun k => { k with jobs := k.jobs.filter fun j => !gone.contains j }
  let c := if started then c.cryptoStart else c
  let c := c.legQuiesce vi reason
  c.setHost fun h => { h with reads := h.reads.filter fun e => e.2.2.1 != vi }

/-- Tunnels that a reset of the instance closes; a host reset leaves those with no end at F4 (R290). -/
def Chip.resetTunnels (c : Chip) (vi : Nat) (hostReset : Bool) : List Nat :=
  (c.tunnelsOf vi).filter fun t =>
    let x := c.tunOf t
    !hostReset || (x.index = 0 && x.inPort = 4) || (x.index = x.hops && x.outPort = 4)

/-- What a reset takes from an instance (R288): handles, tunnels, queues, rings and key slots; trivets it holds are released (R399). -/
def Chip.instClear (c : Chip) (vi reason : Nat) (handle : Option Nat) (hostReset : Bool) : Chip :=
  let c := c.dropHandles vi reason
  let c := (c.resetTunnels vi hostReset).foldl (fun c t => c.abortClose t 0x020B handle) c
  ((c.dropQueues vi).zeroizeOwner vi reason 0).trivetsOf (0x1000 + vi)

/-- An instance is gone: its grants return to the pools (R282). -/
def Chip.instGone (c : Chip) (vi reason : Nat) : Chip :=
  (c.instState vi .absent reason).setHost fun h => { h with inst := h.inst.erase vi }

/-- Complete an instance's open quiesce or reset handle with STATUS_ABORTED. -/
def Chip.qhandleAbort (c : Chip) (vi reason : Nat) : Chip :=
  let i := c.inst vi
  if i.qhandle = 0 then c else (c.setInst vi { i with qhandle := 0, resetting := false }).complete i.qhandle stAborted reason 0

/-- PE_PERST_L (R290): instances 1 to 63 are destroyed, VI 0's queues and rings are deleted, and the configuration returns to reset
values. -/
def Chip.hostReset (c : Chip) : Chip :=
  let c := if c.host.linkUp then c.hostDown else c
  let c := ((List.range 64).drop 1).foldl (fun c vi =>
    if (c.inst vi).state == .absent then c
    else (((c.qhandleAbort vi 0x060B).engineKill vi 0x060B).instClear vi 0x060B none true).instGone vi 0x060B) c
  let c := c.dropQueues 0
  let c := if (c.inst 0).state == .active then c else c.instState 0 .active 0x060B
  c.setHost fun h => { h with inst := h.inst.erase 0, busMaster := false, pasidEnable := false, msixEnable := false, msixMask := false,
                              d3hot := false, vecs := [], turnLatch := 0, reads := [] }

end Sys2Proof.Machine
end

