-- ==== Sys2Proof/Machine/Hooks.lean ====
section
/-!
DEFINITION. Effects of one family on others that several families call.
-/
namespace Sys2Proof.Machine

/-- Trunk `n` carries contracted tunnels and the active gear holds no variant of geometry `g` for it (R70, R150). -/
def Chip.limpMissingAt (c : Chip) (n g : Nat) : Bool :=
  (match c.activeGear with | none => false | some k => (k.sec? n g).isNone) &&
    !(c.tids fun i t => t.state.live && t.outPort == n && c.contracted i).isEmpty
/-- Some trunk carries contracted tunnels and the active gear holds no 1-lane variant for it (R70). -/
def Chip.limpMissing (c : Chip) : Bool := (List.range 4).any fun n => c.limpMissingAt n 1
/-- The handle of the open shift. -/
def Chip.shiftHandle (c : Chip) : Option Nat := c.gear.shift.map fun x => x.handle
/-- QUIET entry degrades every trunk to one lane and puts the heads into self-refresh (R69, R147, R312). -/
def Chip.quietEnter (c : Chip) : Chip := (List.range 4).foldl Chip.quietTrunk c.headsRest
/-- QUIET exit upgrades the trunks and ends the heads' self-refresh (R69, R147, R312). -/
def Chip.quietLeave (c : Chip) : Chip := (List.range 4).foldl Chip.unquietTrunk c.headsResume
/-- An island has started: with CROCK the Crock reads its parameter pages and completes the erasure that a mark asks for (R329, R464); with
USB the dock port presents itself. -/
def Chip.islandStarted (c : Chip) (step : Nat) (pages : List OnfiPage) (lostVols : List Nat) : Chip :=
  if step = 8 then c.finishErasure.crockStart pages lostVols else if step = 9 then c.usbStart else c
/-- The islands above START-UP's first lose power: the Crock stops, Ethernet ports go DOWN and the legacy bridge leaves its bus. -/
def Chip.islandsOff (c : Chip) : Chip := c.crockStop.ethAllDown.legOff

end Sys2Proof.Machine
end

