-- ==== Sys2Proof/Machine/ModeCtl.lean ====
section
/-!
DEFINITION. Chapter 03: mode transitions (R67 to R71), which other families trigger too.
-/
namespace Sys2Proof.Machine

/-- Table 03.2 allows the transition from the present mode (R67, R69). -/
def Chip.transAllowed (c : Chip) (target : Mode) : Bool :=
  match c.dev.mode, target with
  | _, .boot => true
  | .lockdown, .lockdown => false
  | _, .lockdown => true
  | .boot, .hub => c.inRole .hub
  | .boot, .dock => c.inRole .dock
  | .boot, .relay => c.inRole .relay
  | .boot, .keepalive => c.inRole .dock || c.inRole .relay
  | .boot, .recovery => true
  | .hub, .quiet => true
  | .dock, .quiet => true
  | .relay, .quiet => true
  | .quiet, .hub => c.inRole .hub
  | .quiet, .dock => c.inRole .dock
  | .quiet, .relay => c.inRole .relay
  | .dock, .keepalive => true
  | .relay, .keepalive => true
  | .quiet, .keepalive => c.inRole .dock || c.inRole .relay
  | .keepalive, .dock => c.inRole .dock
  | .keepalive, .relay => c.inRole .relay
  | .hub, .recovery => true
  | .dock, .recovery => true
  | .relay, .recovery => true
  | .quiet, .recovery => true
  | .keepalive, .recovery => true
  | _, _ => false

/-- A trigger that is a condition still holds (R68). -/
def Chip.triggerHolds (c : Chip) (t : Trans) : Bool :=
  if !t.condition then true
  else match t.target with
    | .keepalive => !c.localFeedValid && c.contractsSafeOrAbsent
    | _ => if t.reason = 0x0112 then c.contractReady else c.localFeedValid

/-- A transition begins: QUIET entry degrades the trunks and self-refreshes the heads, QUIET exit undoes it, and leaving KEEPALIVE
continues the island start from step 3 (R69). An ENTER_RECOVERY that waited is answered now (R68). -/
def Chip.beginTrans (c : Chip) (t : Trans) : Chip :=
  let from_ := c.dev.mode
  let c := { c with dev := { c.dev with trans := some t } }.commitPoint t.handle
  let c := match t.reply with
    | none => c
    | some (x, tag) => c.postReply { sess := x, status := stOk, tag }
  match t.target with
  | .quiet => { c with dev := { c.dev with quietFrom := from_ } }.quietEnter
  | .hub | .dock | .relay =>
    if from_ == .quiet then c.quietLeave
    else if from_ == .keepalive then { c with dev := { c.dev with starting := true } }
    else c
  | _ => c

/-- A trigger that R68 drops: its handle or its waiting reply gets STATUS_STATE with reason MODE. -/
def Chip.dropTrans (c : Chip) (t : Trans) : Chip :=
  let c := if t.handle = 0 then c else c.complete t.handle stState 0x000B 0
  match t.reply with
  | none => c
  | some (x, tag) => c.postReply { sess := x, status := stState, reason := reasonFor (c.version x) 0x000B, tag }

/-- A trigger of a transition other than LOCKDOWN (R68): it waits while one is in progress. -/
def Chip.trigger (c : Chip) (t : Trans) : Chip :=
  match c.dev.trans with
  | some _ => { c with dev := { c.dev with waiting := c.dev.waiting ++ [t] } }
  | none => if c.transAllowed t.target && c.triggerHolds t then c.beginTrans t else c.dropTrans t

/-- A LOCKDOWN trigger takes precedence over every transition (R68, R71): keys are zeroized, open handles complete with
STATUS_ABORTED and the cause, an open shift and an IMAGE_COMMIT are over, forwarding stops (Chip.forwards) and the high-speed lanes go down.
A COMMIT_ROLLBACK goes on blowing its fuses (DESIGN CHOICE, log entry 25). -/
def Chip.lockdown (c : Chip) (reason : Nat) : Chip :=
  if c.dev.mode == .lockdown then c
  else
    let c := c.zeroizeAll (reason == 0x010C) true reason
    let c := c.shiftAbort reason 0xFF
    let c := c.abortWhere (fun _ => true) reason
    let c := if c.dev.mode.serves then c.trunksLeaveData reason else c
    { c with dev := { c.dev with trans := some { target := .lockdown, reason }, starting := false, commit := none, stagingOwner := none,
                                 staged := 0 } }

/-- A self-test fails: LOCKDOWN with reason SELF_TEST. -/
def Chip.selftestFail (c : Chip) : Chip := c.lockdown 0x010B

/-- A pairwise test of an ephemeral key that failed ends in LOCKDOWN. -/
def Chip.settlePairwise (c : Chip) : Chip :=
  if c.keys.pairFailed then (c.setKeys fun k => { k with pairFailed := false }).selftestFail else c

/-- A wake source has fired (Table 03.11): in QUIET, or while QUIET is being entered, an enabled one starts the return. -/
def Chip.wakeEvent (c : Chip) (bit : Nat) : Chip :=
  let entering := match c.dev.trans with | some t => t.target == .quiet | none => false
  if bitOf c.dev.wake bit && (c.dev.mode == .quiet || entering) then
    c.trigger { target := c.dev.quietFrom, reason := 0x0110 }
  else c

/-- A condition triggers a transition, unless the same trigger already waits. -/
def Chip.condTrigger (c : Chip) (target : Mode) (reason : Nat) : Chip :=
  if c.dev.waiting.any fun t => t.condition && t.target == target && t.reason == reason then c
  else c.trigger { target, reason, condition := true }

/-- The power conditions of KEEPALIVE are looked at again after a change of a feed or a contract, and whenever a mode is reached (Table 03.2,
R69): against the mode in force, or against the one that the transition in progress reaches, behind which the trigger waits (R68). -/
def Chip.powerCondition (c : Chip) : Chip :=
  let m := match c.dev.trans with | some t => t.target | none => c.dev.mode
  if (m == .dock || m == .relay || (m == .quiet && !c.inRole .hub)) && !c.localFeedValid && c.contractsSafeOrAbsent then
    c.condTrigger .keepalive 0x0111
  else if m == .keepalive then
    match c.dev.role with
    | none => c
    | some r =>
      if c.contractReady then c.condTrigger r.mode 0x0112
      else if c.localFeedValid then c.condTrigger r.mode 0x0114
      else c
  else c

/-- Evaluate the waiting triggers in order until one begins (R68). -/
def Chip.nextWaiting (c : Chip) : List Trans → Chip
  | [] => { c with dev := { c.dev with waiting := [] } }
  | t :: r =>
    if c.transAllowed t.target && c.triggerHolds t then { c with dev := { c.dev with waiting := r } }.beginTrans t
    else (c.dropTrans t).nextWaiting r

/-- Steps of Table 03.7 that the role uses; HOST when PE_PERST_L is high in DOCK and RELAY. -/
def Chip.islandPlan (c : Chip) : List Nat :=
  match c.dev.role with
  | none => [1, 2]
  | some .hub => [1, 2, 3, 4, 5, 6, 7, 8, 9, 10]
  | some .dock => [1, 2, 3] ++ (if c.host.perst then [] else [4]) ++ [5, 6, 7, 8, 9]
  | some .relay => [1, 2, 3] ++ (if c.host.perst then [] else [4]) ++ [5, 7]

/-- Islands powered in RECOVERY and LOCKDOWN beside the kettle: SEC, CTRL, HOST if PE_PERST_L is high, USB (Table 03.1). -/
def Chip.recoveryIslands (c : Chip) : List Nat := [1, 2] ++ (if c.host.perst then [] else [4]) ++ [9]

/-- The transition in progress completes (R67): the mode changes and MODE_CHANGED is posted; islands that are powered from now on start; the
waiting triggers and the power conditions are looked at against the mode reached (R68). -/
def Chip.arrive (c : Chip) (t : Trans) : Chip :=
  let old := c.dev.mode
  let leaves := old.serves && (t.target == .recovery || t.target == .keepalive)
  let c := if leaves then c.trunksLeaveData t.reason else c
  let isl := match t.target with
    | .recovery | .lockdown => c.recoveryIslands
    | .keepalive => [1, 2]
    | _ => c.dev.islands
  let c := if t.target == .recovery || t.target == .keepalive || t.target == .lockdown then c.islandsOff else c
  let usbUp := isl.contains 9 && !c.dev.islands.contains 9
  let c := { c with dev := { c.dev with mode := t.target, cause := t.reason, trans := none, islands := isl, fwRunning := true } }
  let c := if usbUp then c.usbStart else c
  let c := if isl.contains 9 then c else c.usbOff
  let c := if isl.contains 4 then c else c.hostLost
  let c := if t.target == .recovery then c.bump 7 1 else if t.target == .lockdown then c.bump 6 1 else c
  let c := if t.target.isRole then c.sample 10 (Nat.min 15 (c.clk.upPs / 1000000000 / 100)) else c
  let c := (c.post 0x0101 t.reason (old.code + 256 * t.target.code)).irqCause 0
  let c := if t.handle = 0 then c else c.complete t.handle stOk 0 0
  (c.nextWaiting c.dev.waiting).powerCondition

/-- The transition in progress may complete: a return to a role mode needs its islands. -/
def Chip.mayArrive (c : Chip) (t : Trans) : Bool := !(t.target.isRole && c.dev.starting)

/-- MODE_TRANSITION_DONE (R67, R68). -/
def Chip.transDone (c : Chip) : Chip :=
  match c.dev.trans with
  | none => c
  | some t => if c.mayArrive t then c.arrive t else c

end Sys2Proof.Machine
end

