-- ==== Sys2Proof/Machine/Instances.lean ====
section
/-!
DEFINITION. Chapter 11: the instance opcodes 0x0601 to 0x0609 and the rows in which a quiesce ends (R282, R286 to R288, R292).
-/
namespace Sys2Proof.Machine

/-! ### Pools (Table 11.8) -/

/-- Sum of a grant over the instances that exist. -/
def Chip.granted (c : Chip) (f : Inst → Nat) : Nat :=
  c.host.inst.foldl (fun a e => if e.1 > 0 && e.2.state != .absent then a + f e.2 else a) 0

/-- The fields of INSTANCE_CREATE (Table 11.13). -/
def instOf (b : Bytes) : Inst :=
  { state := .absent, pasidValid := bitOf (fld b 1 1) 0, pasid := fld b 4 4, tunnels := fld b 8 2, keySlots := fld b 10 2,
    msixBase := fld b 12 2, msixCount := fld b 14 2, queueEntries := fld b 16 4, share := fld b 20 4, volumes := fld b 24 1,
    maxQp := fld b 25 1, maxEvq := fld b 26 1, quiesceMs := if fld b 28 2 = 0 then 100 else fld b 28 2 }

/-- The fields lie within their ranges. -/
def Inst.ranges (i : Inst) : Bool :=
  decide (i.pasid < 2 ^ 20) && decide (i.tunnels ≤ 1008) && decide (i.keySlots ≤ 240) && decide (64 ≤ i.msixBase) && decide (i.msixBase ≤ 2047) &&
  decide (1 ≤ i.msixCount) && decide (i.msixBase + i.msixCount ≤ 2048) && decide (i.queueEntries ≤ 57344) && decide (i.share ≤ 94208) &&
  decide (i.volumes ≤ 64) && decide (1 ≤ i.maxQp) && decide (i.maxQp ≤ 64) && decide (1 ≤ i.maxEvq) && decide (i.maxEvq ≤ 32) &&
  decide (i.quiesceMs ≤ 10000)

/-- The pools, and VI 0's remainder with what it has in use, supply a grant; stockpot guarantees that transit tunnels hold are in use too
(R220). -/
def Chip.poolsCover (c : Chip) (i : Inst) : Bool :=
  let overlap := c.host.inst.any fun e => e.1 > 0 && e.2.state != .absent &&
    decide (e.2.msixBase < i.msixBase + i.msixCount) && decide (i.msixBase < e.2.msixBase + e.2.msixCount)
  decide (c.granted (fun j => j.tunnels) + i.tunnels + (c.tunnelsOf 0).length ≤ 1008) &&
  decide (c.granted (fun j => j.keySlots) + i.keySlots + (c.keys.slots.filter fun e => decide (e.1 ≥ 16) && e.2.owner == 0).length ≤ 240) &&
  decide (c.granted (fun j => j.queueEntries) + i.queueEntries ≤ 57344) &&
  decide (c.granted (fun j => j.share) + i.share + c.guaranteesOf (fun t => t.index > 0 || t.owner ≥ 0xE0) ≤ 94208) &&
  decide (c.granted (fun j => j.volumes) + i.volumes + (c.nand.vols.filter fun e => e.2.owner == 0).length ≤ 64) && !overlap

/-- INSTANCE_CREATE (R281, R282). -/
def bodyInstanceCreate (x : Ctx) (c : Chip) : Ans × Chip :=
  let vi := fld x.ps 0 1
  let i := instOf x.ps
  if vi = 0 || vi > 63 || fld x.ps 1 1 > 1 || !rsvd x.ps 2 2 || !rsvd x.ps 27 1 || !rsvd x.ps 30 18 || !i.ranges then no c stParam
  else if (c.inst vi).state != .absent then no c stState 0x0604
  else if i.pasidValid && !c.host.pasidEnable then no c stState 0x0606
  else if !c.poolsCover i then no c stNoResource 0x0602
  else (ok, (c.setInst vi i).instState vi .active 0)

def execInstanceCreate (p : Packet) (s : State) : Host.Outcome State Fault Refusal := runCommand 0x0601 p s bodyInstanceCreate

/-- The VI that byte 0 names, or the refusal of Table 11.15. -/
def Chip.namedVi (c : Chip) (x : Ctx) : Except (Nat × Nat) Nat :=
  let vi := fld x.ps 0 1
  if vi = 0 || vi > 63 || !rsvd x.ps 1 3 then .error (stParam, 0)
  else if x.lvl = 2 && vi != x.iss then .error (stDenied, 0x0002)
  else if (c.inst vi).state == .absent then .error (stState, 0x0605)
  else .ok vi

/-- INSTANCE_DESTROY (R282, R288). -/
def bodyInstanceDestroy (x : Ctx) (c : Chip) : Ans × Chip :=
  match c.namedVi x with
  | .error e => no c e.1 e.2
  | .ok vi => if (c.inst vi).state != .quiesced then no c stState 0x0603 else (ok, (c.instClear vi 0x060A none false).instGone vi 0)

def execInstanceDestroy (p : Packet) (s : State) : Host.Outcome State Fault Refusal := runCommand 0x0602 p s bodyInstanceDestroy

/-- QUIESCE_INSTANCE (R287): it is past its commit point from its acceptance. -/
def bodyQuiesceInstance (x : Ctx) (c : Chip) : Ans × Chip :=
  match c.namedVi x with
  | .error e => no c e.1 e.2
  | .ok vi =>
    let i := c.inst vi
    if i.qhandle != 0 then (busyWith i.qhandle, c)
    else if i.state != .active then no c stState 0x0610
    else ({ accepted with committed := true }, (c.setInst vi { i with qhandle := x.handle, resetting := false }).quiesceVi vi 0x0609 false)

def execQuiesceInstance (p : Packet) (s : State) : Host.Outcome State Fault Refusal := runCommand 0x0603 p s bodyQuiesceInstance

/-- QUIESCE_DONE (R286, R287): no engine holds work of the instance any more. -/
def execQuiesceDone (vi : Fin 64) (s : State) : Host.Outcome State Fault Refusal :=
  onChip s fun c =>
    let i := c.inst vi
    if i.state != .quiescing || c.engines vi != 0 then c
    else
      let c := c.instState vi .quiesced (if i.linkLoss then 0x060C else 0x0609)
      if i.qhandle = 0 || i.resetting then c else (c.setInst vi { c.inst vi with qhandle := 0 }).complete i.qhandle stOk 0 0

/-- QUIESCE_TIMEOUT (R287): QUIESCE_MS has passed; the instance stays QUIESCING. -/
def execQuiesceTimeout (vi : Fin 64) (s : State) : Host.Outcome State Fault Refusal :=
  onChip s fun c =>
    let i := c.inst vi
    if i.state != .quiescing || i.qhandle = 0 || i.resetting then c
    else (c.setInst vi { i with qhandle := 0 }).complete i.qhandle stTimeout 0 (c.engines vi)

/-- A reset begins under the command's handle; with no CLOSE to be answered it ends at once (R288). -/
def Chip.resetVi (c : Chip) (x : Ctx) (vi : Nat) : Ans × Chip :=
  let c := c.setInst vi { c.inst vi with qhandle := x.handle, resetting := true }
  let c := c.instClear vi 0x060A (some x.handle) false
  if c.fab.closes.any fun k => k.handle == x.handle then (accepted, c)
  else ({ accepted with done := some (stOk, 0, 0) }, c.resetEnd vi 0 0x060A)

/-- RESET_INSTANCE (R288). -/
def bodyResetInstance (x : Ctx) (c : Chip) : Ans × Chip :=
  match c.namedVi x with
  | .error e => no c e.1 e.2
  | .ok vi =>
    let i := c.inst vi
    if i.qhandle != 0 then (busyWith i.qhandle, c)
    else if i.state != .quiesced then no c stState 0x0603
    else c.resetVi x vi

def execResetInstance (p : Packet) (s : State) : Host.Outcome State Fault Refusal := runCommand 0x0604 p s bodyResetInstance

/-- FORCE_RESET (R288): an open quiesce completes with reason FORCED. -/
def bodyForceReset (x : Ctx) (c : Chip) : Ans × Chip :=
  match c.namedVi x with
  | .error e => no c e.1 e.2
  | .ok vi =>
    let i := c.inst vi
    if i.qhandle != 0 && i.resetting then (busyWith i.qhandle, c)
    else ((c.qhandleAbort vi 0x060D).engineKill vi 0x060A).resetVi x vi

def execForceReset (p : Packet) (s : State) : Host.Outcome State Fault Refusal := runCommand 0x0605 p s bodyForceReset

/-- The response of GET_INSTANCE (Table 11.14). -/
def Chip.instRecord (c : Chip) (vi : Nat) : Bytes :=
  let i := c.inst vi
  let keys := (c.keys.slots.filter fun e => decide (e.1 ≥ 16) && e.2.owner == vi).length
  le 1 vi ++ le 1 i.state.code ++ le 1 (b2n i.pasidValid + 2 * b2n i.linkLoss) ++ le 1 (c.engines vi) ++ le 4 i.pasid ++
    le 2 i.tunnels ++ le 2 (c.tunnelsOf vi).length ++ le 2 i.keySlots ++ le 2 keys ++ le 2 i.msixBase ++ le 2 i.msixCount ++
    le 4 i.queueEntries ++ le 4 (c.queueEntries vi) ++ le 4 i.share ++ le 4 (c.guaranteesOf fun t => t.index = 0 && t.owner = vi) ++
    le 1 i.volumes ++ le 1 (c.nand.vols.filter fun e => e.2.owner == vi).length ++ le 1 (c.host.qps.keysWhere fun k _ => k / 64 == vi).length ++
    le 1 (c.host.evqs.keysWhere fun k _ => k / 32 == vi).length ++ le 2 (c.host.rings.keysWhere fun _ r => r.vi == vi).length ++
    le 2 i.quiesceMs ++ le 4 i.qhandle ++ le 4 i.latched ++ le 4 i.quiesceDiscards ++ le 4 i.hostStall ++ zeros 4

/-- GET_INSTANCE. -/
def bodyGetInstance (x : Ctx) (c : Chip) : Ans × Chip :=
  match c.namedVi x with
  | .error e => no c e.1 e.2
  | .ok vi => (ok (c.instRecord vi), c)

def execGetInstance (p : Packet) (s : State) : Host.Outcome State Fault Refusal := runCommand 0x0606 p s bodyGetInstance

/-! ### Queues and rings (R272, R273, R282, R292) -/

/-- The VI of a PCIe session; the queue opcodes arrive on no other transport. -/
def viOf : Session → Nat
  | .pcie vi _ => vi
  | _ => 0

/-- A vector relative to the instance's range, or none. -/
def Chip.vectorOk (c : Chip) (vi v : Nat) : Bool := v == 0xFFFF || decide (v < (c.inst vi).msixCount)

/-- The ranges and alignments of a queue pair. -/
def QueuePair.ranges (q : QueuePair) : Bool :=
  decide (7 ≤ q.sqLog2) && decide (q.sqLog2 ≤ 12) && decide (7 ≤ q.cqLog2) && decide (q.cqLog2 ≤ 14) && decide (12 ≤ q.rbLog2) &&
    decide (q.rbLog2 ≤ 20) && q.sqBase % 64 == 0 && q.cqBase % 64 == 0 && q.rbBase % 4096 == 0

/-- The ranges and alignments of an event queue. -/
def EventRing.ranges (r : EventRing) : Bool := decide (6 ≤ r.log2) && decide (r.log2 ≤ 14) && r.base % 64 == 0 && r.piAddr % 8 == 0

/-- `n` more queue entries lie within the instance's grant (R282). -/
def Chip.entriesFit (c : Chip) (vi n : Nat) : Bool := decide (c.queueEntries vi + n ≤ (c.inst vi).queueEntries)

/-- Entries of a queue pair's rings. -/
def QueuePair.entries (q : QueuePair) : Nat := 2 ^ q.sqLog2 + 2 ^ q.cqLog2

/-- Put a new event queue in place. -/
def Chip.addEvq (c : Chip) (vi i : Nat) (r : EventRing) : Chip :=
  ({ c with cmd := { c.cmd with queues := c.cmd.queues.erase (vqKey vi i) } }).setHost fun h => { h with evqs := h.evqs.set (vqKey vi i) r }

/-- QUEUE_CREATE: the queue belongs to the instance whose queue pair carries the command. -/
def bodyQueueCreate (x : Ctx) (c : Chip) : Ans × Chip :=
  let vi := viOf x.sess
  let kind := fld x.ps 0 1
  let i := fld x.ps 1 1
  let vector := fld x.ps 6 2
  let co := fld x.ps 8 2
  let q : QueuePair := { sqLog2 := fld x.ps 2 1, cqLog2 := fld x.ps 3 1, rbLog2 := fld x.ps 4 1, sqBase := fld x.ps 16 8, cqBase := fld x.ps 24 8,
                         rbBase := fld x.ps 32 8, vector, coalesceUs := co }
  let r : EventRing := { log2 := fld x.ps 2 1, base := fld x.ps 16 8, piAddr := fld x.ps 24 8, vector, coalesceUs := co }
  if kind > 1 || i = 0 || !rsvd x.ps 5 1 || !rsvd x.ps 10 6 || !rsvd x.ps 40 8 || co > 1000 || !c.vectorOk vi vector then no c stParam
  else if kind = 0 then
    if i ≥ (c.inst vi).maxQp || !q.ranges then no c stParam
    else if !c.entriesFit vi q.entries then no c stNoResource 0x0601
    else if (c.host.qps.find (64 * vi + i)).isSome then no c stState 0x0607
    else (ok, c.setQp (64 * vi + i) q)
  else if i ≥ (c.inst vi).maxEvq || !r.ranges then no c stParam
  else if !c.entriesFit vi (2 ^ r.log2) then no c stNoResource 0x0601
  else if (c.host.evqs.find (vqKey vi i)).isSome then no c stState 0x0607
  else (ok, c.addEvq vi i r)

def execQueueCreate (p : Packet) (s : State) : Host.Outcome State Fault Refusal := runCommand 0x0607 p s bodyQueueCreate

/-- The bootstrap pair and queue no longer both run. -/
def Chip.qp0Down (c : Chip) (vi i : Nat) : Chip := if i = 0 then c.setInst vi { c.inst vi with qp0Up := false } else c

/-- QUEUE_DELETE (R292). -/
def bodyQueueDelete (x : Ctx) (c : Chip) : Ans × Chip :=
  let vi := viOf x.sess
  let kind := fld x.ps 0 1
  let i := fld x.ps 1 1
  if kind > 1 || !rsvd x.ps 2 2 then no c stParam
  else if kind = 0 then
    if (c.host.qps.find (64 * vi + i)).isNone || i > 63 then no c stParam
    else if x.sess == .pcie vi i then no c stState 0x0607
    else (ok, (c.deleteQp vi i).qp0Down vi i)
  else if (c.host.evqs.find (vqKey vi i)).isNone || i > 31 then no c stParam
  else (ok, (c.deleteEvq vi i).qp0Down vi i)

def execQueueDelete (p : Packet) (s : State) : Host.Outcome State Fault Refusal := runCommand 0x0608 p s bodyQueueDelete

/-- RING_BIND (R292). -/
def bodyRingBind (x : Ctx) (c : Chip) : Ans × Chip :=
  let tid := fld x.ps 0 2
  let dir := fld x.ps 2 1
  let log2 := fld x.ps 3 1
  let vector := fld x.ps 4 2
  let co := fld x.ps 6 2
  let base := fld x.ps 8 8
  let t := c.tunOf tid
  let vi := if dir = 1 then t.f4Vi else if t.owner < 64 then t.owner else 0
  let bound := c.host.rings.filter fun e => e.2.tid == tid
  let mine := x.lvl != 2 || (c.tunnelsOf x.iss).contains tid
  if tid > 1023 || (dir > 1 && dir != 0xFF) || !rsvd x.ps 16 16 then no c stParam
  else if dir = 0xFF then
    match bound with
    | [] => no c stState 0x060F
    | e :: _ => if mine then (ok [] (e.1 % 256), c.unbindTunnel tid) else no c stState 0x060F
  else if log2 < 4 || log2 > 12 || !c.vectorOk vi vector || co > 1000 || base % 64 != 0 then no c stParam
  else if t.state != .open || !mine || (if dir = 0 then t.index != 0 || t.inPort != 4 else t.index != t.hops || t.outPort != 4)
      || bound.any (fun e => e.2.dir == dir) then no c stState 0x060F
  else if !c.entriesFit vi (2 ^ log2) then no c stNoResource 0x0601
  else match (List.range 256).find? fun i => (c.host.rings.find (ringKey vi i)).isNone with
    | none => no c stNoResource 0x0601
    | some i => (ok [] i, c.setDring (ringKey vi i) { vi, tid, dir, log2, base, vector, coalesceUs := co })

def execRingBind (p : Packet) (s : State) : Host.Outcome State Fault Refusal := runCommand 0x0609 p s bodyRingBind

end Sys2Proof.Machine
end

