-- ==== Sys2Proof/Machine/LifeOps.lean ====
section
/-!
DEFINITION. Chapter 21: the lifetime record, its saves and its restoration (R488 to R493).
-/
namespace Sys2Proof.Machine

/-- Change the recorder. -/
def Chip.setLife (c : Chip) (f : Life → Life) : Chip := { c with life := f c.life }

/-- A snapshot of every counter and bin (R492). -/
def Chip.lifeSnap (c : Chip) (lifecycle rflags seq : Nat) : LifeRec :=
  { counters := c.life.counters, hist := c.life.hist, seq, rflags, fwVersion := c.dev.fwVersion, time := c.stamp, mode := c.dev.mode.code,
    role := c.roleCode, lifecycle }

/-- The bytes of a record up to CHECK (Table 21.3). -/
def LifeRec.body (r : LifeRec) : Bytes :=
  le 4 0x43464C42 ++ le 1 1 ++ le 1 r.rflags ++ zeros 2 ++ le 4 r.seq ++ le 4 r.fwVersion ++ sliceB r.time 0 16 ++ le 1 r.mode ++ le 1 r.role ++
    le 1 r.lifecycle ++ zeros 29 ++ ((List.range 48).map fun i => le 8 (r.counters.get 0 i)).flatten ++
    ((List.range 192).map fun i => le 4 (r.hist.get 0 i)).flatten
/-- The bytes of a record. -/
def LifeRec.bytes (r : LifeRec) : Bytes := r.body ++ le 4 (crc32c r.body)

/-- A save begins with its snapshot; the sector of the slot is erased before it is reached (R491, R492). -/
def Chip.lifeStart (c : Chip) (lifecycle rflags handle : Nat) : Chip :=
  let s := c.life.slot
  c.setLife fun l => { l with
    saving := some { record := c.lifeSnap lifecycle rflags (l.saveSeq + 1), handle }
    journal := if s % 2 = 0 then (l.journal.erase s).erase (s + 1) else l.journal }

/-- A save is asked for: it begins, or follows the one in progress; a power-fail save is the next (R492). -/
def Chip.lifeSave (c : Chip) (lifecycle rflags handle : Nat) : Chip :=
  match c.life.saving with
  | none => c.lifeStart lifecycle rflags handle
  | some _ =>
    let n : LifeSave := { record := { rflags }, handle }
    c.setLife fun l => { l with next := if bitOf rflags 0 then n :: l.next else l.next ++ [n] }

/-- PWRFAIL_L: a save, at most once in 1 s of powered time (R492). -/
def Chip.lifePowerFail (c : Chip) (lifecycle : Nat) : Chip :=
  let soon := match c.life.lastFail with | some t => decide (c.clk.powerPs < t + 10 ^ 12) | none => false
  if soon then c else (c.setLife fun l => { l with lastFail := some c.clk.powerPs }).lifeSave lifecycle 1 0

/-- The journal's valid record with the highest SAVE_SEQ (R493). -/
def bestRecord (j : Tab LifeRec) : Option (Nat × LifeRec) :=
  j.foldl (fun (b : Option (Nat × LifeRec)) e => match b with | some x => if e.2.seq > x.2.seq then some e else b | none => some e) none

/-- At power-on the record is restored from the journal; a record that no power-fail save wrote counts an unsaved loss (R493). -/
def Chip.lifeRestore (c : Chip) : Chip :=
  match bestRecord c.life.journal with
  | none => c.post 0x1001 0x1001 0
  | some (i, r) =>
    let c := c.setLife fun l => { l with counters := r.counters, hist := r.hist, saveSeq := r.seq, slot := (i + 1) % 512, restored := some r }
    let loss := !bitOf r.rflags 0
    let c := if loss then c.bump 5 1 else c
    c.post 0x1001 (if loss then 0x1002 else 0) (r.seq % 2 ^ 32)

/-- Counters or bins gained since the restored values `base`, added to those of `new`. -/
def regain (top : Nat) (live base new : Tab Nat) (n : Nat) : Tab Nat :=
  (List.range n).filterMap fun i =>
    let v := satAdd top (new.get 0 i) (live.get 0 i - base.get 0 i)
    if v = 0 then none else some (i, v)

/-- The Crock's copy, when newer, takes the restored values' place; what has been counted since the power-on reset stays (R493). -/
def Chip.lifeFromCrock (c : Chip) : Chip :=
  match c.life.crockCopy with
  | none => c
  | some r =>
    let base : LifeRec := c.life.restored.getD {}
    if c.life.restored.isSome && r.seq ≤ base.seq then c
    else
      let counted := c.life.restored.isSome && !bitOf base.rflags 0
      let loss := !bitOf r.rflags 0
      let c := c.setLife fun l => { l with
        counters := regain (2 ^ 64 - 1) l.counters base.counters r.counters 48
        hist := regain (2 ^ 32 - 1) l.hist base.hist r.hist 192
        saveSeq := Nat.max l.saveSeq r.seq, restored := some r }
      let c := if loss && !counted then c.bump 5 1 else c
      c.post 0x1001 (if loss then 0x1002 else 0) (r.seq % 2 ^ 32 + 2 ^ 32)

end Sys2Proof.Machine
end

