-- ==== Sys2Proof/Machine/Contract.lean ====
section
/-!
DEFINITION. Chapter 18: trunk power contracts and role swaps.
-/
namespace Sys2Proof.Machine

/-- What follows a change of feeds or contracts: ends seek their roles (R431), an armed sink without a local feed disarms (R445), and the
modes look at their power conditions (R69). -/
def Chip.powerSettle (c : Chip) : Chip :=
  let c := (List.range 4).foldl (fun c n =>
    let x := c.tpOf n
    if x.armed && x.prole == 2 && !c.localFeedValid then (c.setTp n { x with armed := false }).vsel n 0 else c) c.refreshBias
  c.powerCondition

/-- A row of the power unit. -/
def onPower (s : State) (f : Chip → Chip) : Host.Outcome State Fault Refusal := onChip s fun c => (f c).powerSettle

/-- A frame whose body has not its type's length is discarded and counted (Table 18.11). -/
def Chip.sbBad (c : Chip) (n : Nat) : Chip :=
  let x := c.tpOf n
  c.setTp n { x with frameErrors := sat32 x.frameErrors 1 }

/-- A frame of a type, with its body's length checked. -/
def Chip.sbIn (c : Chip) (n len : Nat) (body : Bytes) (f : Chip → Chip) : Chip := if body.length = len then f c else c.sbBad n

/-- The sideband is not served: HARD_RESET is under way, or the trunk is FAULTED (R443, R444). -/
def TrunkPower.deaf (x : TrunkPower) : Bool := x.pstate == .hardReset || x.faulted

/-- A frame that has no meaning in the present state is answered SOFT_RESET (R438). -/
def Chip.noMeaning (c : Chip) (n : Nat) : Chip := if (c.tpOf n).asks 0x0B then c else c.sbAsk n 0x0B []

/-- The frame is one already answered, sent again (R430). -/
def TrunkPower.repeats (x : TrunkPower) (type id : Nat) : Bool :=
  match x.lastRx with | some (t, i, _) => t == type && i == id | none => false

/-- Act once on a frame that expects an answer, and repeat the answer when the same TYPE and MSGID come again (R430). -/
def Chip.answerOnce (c : Chip) (n type id : Nat) (f : Chip → Chip × Option (Nat × Bytes)) : Chip :=
  let x := c.tpOf n
  let again : Option (Option (Nat × Bytes)) := if x.repeats type id then x.lastRx.map fun e => e.2.2 else none
  match again with
  | some (some (t, b)) => c.sbPeer n t b
  | some none => c
  | none =>
    let r := f c
    let c := match r.2 with | some (t, b) => r.1.sbPeer n t b | none => r.1
    c.setTp n { c.tpOf n with lastRx := some (type, id, r.2) }

/-- ACCEPT, REJECT and WAIT (Table 18.4). -/
def sbAccept (ref : Nat) : Option (Nat × Bytes) := some (0x04, le 1 ref ++ zeros 3)
def sbReject (ref reason : Nat) : Option (Nat × Bytes) := some (0x05, le 1 ref ++ zeros 1 ++ le 2 reason)
def sbWait (ref ms : Nat) : Option (Nat × Bytes) := some (0x06, le 1 ref ++ zeros 1 ++ le 2 ms)

/-- Fast swap is disarmed (R445); an armed sink's converter is let go. -/
def Chip.disarm (c : Chip) (n : Nat) : Chip :=
  let x := c.tpOf n
  let c := c.setTp n { x with armed := false, fsDetect := false }
  if x.armed && x.prole == 2 then c.vsel n 0 else c

/-- CABLE_GET's answer (R447): TRUNK, VALID, and the last CABLE_INFO body. -/
def Chip.cableBytes (c : Chip) (n : Nat) : Bytes :=
  let x := c.tpOf n
  le 1 n ++ le 1 (b2n x.cableValid) ++ zeros 2 ++ sliceB x.cable 0 32

/-- The CABLE_GETs that wait for the cable are answered. -/
def Chip.cableReply (c : Chip) (n : Nat) : Chip :=
  let x := c.tpOf n
  let b := c.cableBytes n
  x.cableDue.foldl (fun (c : Chip) e => c.postReply { sess := e.1, status := stOk, tag := e.2, data := b }) (c.setTp n { x with cableDue := [] })

/-- POWER_ATTACH. -/
def Chip.postAttach (c : Chip) (n : Nat) (on : Bool) : Chip :=
  c.post 0x0D01 0 (n + 256 * b2n on + 512 * (if on then (c.tpOf n).prole else 0))

/-- The end takes the source role and starts the safe rail (R431). -/
def Chip.becomeSource (c : Chip) (n : Nat) : Chip :=
  let x := c.tpOf n
  ((c.setTp n { x with prole := 1, attach := 1 }).safeRail n).postAttach n true

/-- ATTACH_DETECTED (R431): a biasing end has seen ATTACHED for ATTACH_MS. -/
def execAttachDetected (n : Fin 4) (s : State) : Host.Outcome State Fault Refusal :=
  onPower s fun c =>
    let x := c.tpOf n
    if x.bias && x.prole = 0 && !x.deaf then c.becomeSource n else c

/-- SOURCE_SEEN (R427, R435): a powered terminating end sees a source and sends GET_CAPS at once. -/
def execSourceSeen (n : Fin 4) (s : State) : Host.Outcome State Fault Refusal :=
  onPower s fun c =>
    let x := c.tpOf n
    if x.bias || x.prole != 0 || x.deaf then c
    else
      let c := c.setTp n { x with prole := 2, attach := 2, pstate := .safe, volt := 1, limit := 500, op := 500, cableDone := false, chooseDue := false }
      ((c.trunkLimits n 500 12000 12000 110).postAttach n true).sbAsk n 0x02 []

/-- The trunk's state after its peer has gone or its contract was reset: roles are open again. -/
def TrunkPower.open (x : TrunkPower) : TrunkPower :=
  { cfg := x.cfg, bias := x.bias, cid := x.cid, lastReason := x.lastReason, cable := x.cable, msgId := x.msgId, hardTimes := x.hardTimes,
    faulted := x.faulted, handle := x.handle, contracts := x.contracts, hardResets := x.hardResets, fastSwaps := x.fastSwaps,
    frameErrors := x.frameErrors, pstate := if x.faulted then .faulted else .detached }

/-- SIDEBAND_DETACH (R434, R437): the trunk channel is off without a trip, the contract ends and the lanes hear of it (R102). -/
def execSidebandDetach (n : Fin 4) (s : State) : Host.Outcome State Fault Refusal :=
  onPower s fun c =>
    let x := c.tpOf n
    if x.prole = 0 && x.peer.isNone && x.attach = 0 then c
    else
      let c := ((c.disarm n).trunkOff n).contractEnd n 0x0D06
      let c := ((c.powerDone n stAborted 0x0D06).vsel n 0).cableReply n
      let c := (c.setTp n (c.tpOf n).open).postAttach n false
      c.lanesDetach n 0x0401

/-- GET_CAPS_TIMER (R432): an end that seeks a peer sends GET_CAPS. -/
def execGetCapsTimer (n : Fin 4) (s : State) : Host.Outcome State Fault Refusal :=
  onPower s fun c =>
    let x := c.tpOf n
    if x.prole = 0 && !x.deaf && x.pstate == .detached then (c.setTp n { x with attach := 3 }).sbAsk n 0x02 [] else c

/-- The low 8 bytes of SERIAL (Table 18.4). -/
def Fuses.serialLow (f : Fuses) : Bytes := sliceB f.serialNo 0 8

/-- CAPS_TX_TIMER (R435 step 1): CAPS goes out until a REQUEST arrives; after 2 s without one CONTRACT_ENDED is posted once. -/
def execCapsTxTimer (n : Fin 4) (s : State) : Host.Outcome State Fault Refusal :=
  onPower s fun c =>
    let x := c.tpOf n
    if x.prole = 1 && x.capsDue && !x.deaf && (c.chan (2 + n)).state == .on then
      let c := c.setTp n { x with capsSent := x.capsSent + 1, pstate := if x.pstate == .safe then .negotiating else x.pstate }
      let c := c.sbPeer n 0x01 (c.capsBody n s.fuses.serialLow)
      if x.capsSent + 1 = 20 then (c.setTp n { c.tpOf n with lastReason := 0x0D09 }).post 0x0D03 0x0D09 n else c
    else c

/-- Two biasing ends decide their roles (R432): true when this end sources. -/
def Chip.winsSource (c : Chip) (n : Nat) (serialLow : Nat) (p : PeerCaps) : Bool :=
  let m := c.prec n
  if m != p.prec then decide (m > p.prec)
  else
    let hub := c.devRole == 0
    let peerHub := p.devRole == 0
    if hub != peerHub then hub else decide (serialLow < p.serialLow)

/-- SB_CAPS_RX (R432, R435, R438). -/
def execSbCapsRx (n : Fin 4) (body : Bytes) (s : State) : Host.Outcome State Fault Refusal :=
  onPower s fun c => c.sbIn n 36 body fun c =>
    let x := c.tpOf n
    if x.deaf then c
    else
      let p := parseCaps body
      let x := { x with peer := some p, exch := if x.asks 0x02 || x.asks 0x03 then none else x.exch,
                        deferred := x.deferred.filter fun d => d.1 != 0x03 }
      let c := c.setTp n x
      if x.prole = 2 then
        if x.pstate == .transition || x.pstate == .swapping then c
        else
          let r := c.sinkChoose n
          if r.2 then r.1 else r.1.powerDoneIf n 1 stAborted 0x0D01
      else if x.prole = 1 then
        if x.cfg.noPower && bitOf p.cflags 2 && !x.contractOn then c.setTp n { x with pstate := .noPower } |>.powerDoneIf n 4 stOk 0 else c
      else if x.bias then
        if c.winsSource n (leNat s.fuses.serialLow) p then c else (c.setTp n { x with yields := true }).setBias n false
      else if x.cfg.noPower && bitOf p.cflags 2 then (c.setTp n { x with pstate := .noPower }).powerDoneIf n 4 stOk 0
      else c

/-- SB_GET_CAPS_RX (R435): answered with CAPS. -/
def execSbGetCapsRx (n : Fin 4) (id : Nat) (s : State) : Host.Outcome State Fault Refusal :=
  onPower s fun c =>
    if (c.tpOf n).deaf then c else c.answerOnce n 0x02 id fun c => (c, some (0x01, c.capsBody n s.fuses.serialLow))

/-! ### HARD_RESET (R443, R444) -/

/-- From the first copy on (R443): every sequence is aborted, the channel is off, the contract ends, and the lanes reset (R439). -/
def Chip.hardEnter (c : Chip) (n : Nat) (reason : Nat) (mine : Bool) : Chip :=
  let x := c.tpOf n
  let keep := mine && (match x.handle with | some (_, o) => o == 4 | none => false)
  let c := ((c.disarm n).trunkOff n).cableReply n
  let c := if keep then c else c.powerDone n stAborted 0x0D07
  let x := c.tpOf n
  let c := c.setTp n { x.open with pstate := .hardReset, prole := x.prole, attach := x.attach, hardResets := sat32 x.hardResets 1,
                                   lastReason := reason, lastTx := x.lastTx }
  let c := (c.bump 37 1).vsel n 0
  let c := (c.setChan (2 + n) { c.chan (2 + n) with tripPending := none })
  let c := c.post 0x0D03 0x0D07 n
  c.lanesIdle n 0x0D07

/-- This end sends HARD_RESET, three times (R443); three of the counted causes within 60 s end in FAULTED (R444). -/
def Chip.hardSend (c : Chip) (n reason : Nat) : Chip :=
  let id := (c.tpOf n).msgId
  let c := c.sbSend n false 0x0C []
  let c := (c.emit (sbOut n false 0x0C id [])).emit (sbOut n false 0x0C id [])
  let counts := reason == 0x0D0A || reason == 0x0D05 || reason == 0x0D0B
  let now := c.clk.powerPs
  let x := c.tpOf n
  let ts := if counts then (x.hardTimes ++ [now]).filter (fun t => decide (now < t + 60 * 10 ^ 12)) else x.hardTimes
  let c := c.setTp n { x with hardTimes := ts, faulted := x.faulted || decide (ts.length ≥ 3) }
  c.hardEnter n reason true

/-- SB_HARD_RESET_RX (R443): the first copy counts. -/
def execSbHardResetRx (n : Fin 4) (s : State) : Host.Outcome State Fault Refusal :=
  onPower s fun c => if (c.tpOf n).deaf then c else c.hardEnter n 0x0D07 false

/-- HARD_RESET_RECOVERY (R443, R444): the ends return to their default roles, or the trunk is FAULTED. -/
def execHardResetRecovery (n : Fin 4) (s : State) : Host.Outcome State Fault Refusal :=
  onPower s fun c =>
    let x := c.tpOf n
    if x.pstate != .hardReset then c
    else
      let c := c.setTp n { x.open with attach := 3 }
      if x.faulted then (c.setBias n false).powerDone n stAborted 0x0D0F else c.setBias n (c.wantsBias n)

/-! ### The contract (R435 to R438) -/

/-- The source's line goes to a voltage with new limits (R435 step 5, R436). -/
def Chip.startTransition (c : Chip) (n volt limit op : Nat) : Chip :=
  let x := c.tpOf n
  let old := voltMv x.volt
  let new := voltMv volt
  let c := c.setTp n { x with pstate := .transition, pend := some (volt, limit, op), offersChanged := false, capsDue := false }
  let c := c.trunkLimits n (if x.prole = 1 then limit else op) (Nat.min old new) (Nat.max old new) 105
  let c := c.setChan (2 + n) { c.chan (2 + n) with pgMv := new * 9 / 10 }
  if x.prole = 1 then c.vsel n volt else c

/-- SB_REQUEST_RX (R435 step 4, R438). -/
def execSbRequestRx (n : Fin 4) (id : Nat) (body : Bytes) (s : State) : Host.Outcome State Fault Refusal :=
  onPower s fun c => c.sbIn n 4 body fun c =>
    let x := c.tpOf n
    if x.deaf then c
    else if (x.prole != 1 || x.pstate == .swapping) && !x.repeats 0x03 id then c.noMeaning n
    else c.answerOnce n 0x03 id fun c =>
      let c := c.setTp n { x with capsDue := false, offersChanged := false }
      let i := fld body 0 1
      let op := fld body 2 2
      let o := nth (0, 0) x.cfg.offers i
      if x.asks 0x08 || x.asks 0x0B then (c, sbWait 0x03 100)
      else if x.pstate == .transition then (c, sbReject 0x03 0x0D0E)
      else if i > 5 || o.1 = 0 || op = 0 || op > o.2 then (c, sbReject 0x03 0x0D01)
      else if o.1 > x.cableLimit.1 || o.2 > x.cableLimit.2 then (c, sbReject 0x03 0x0D02)
      else (((c.disarm n).contractEnd n 0).startTransition n o.1 o.2 op, sbAccept 0x03)

/-- The swap begins (R442 steps 1 and 2). -/
def Chip.swapStart (c : Chip) (n : Nat) : Chip :=
  let c := (c.disarm n).trunkOff n
  let x := c.tpOf n
  let c := c.setTp n { x with pstate := .swapping, swap := if x.prole = 1 then 1 else 2, contractOn := false, req := none, capsDue := false }
  if x.prole = 1 then c.vsel n 0 else c

/-- SOFT_RESET takes effect (R438): MSGID state is cleared, both return to step 1 of R435 and power stays as it is. -/
def Chip.softReset (c : Chip) (n : Nat) : Chip :=
  let x := c.tpOf n
  c.setTp n { x with exch := none, deferred := none, waits := 0, lastRx := none, msgId := 0, req := none, pend := none, swap := 0, capsDue := x.prole == 1,
                     capsSent := 0, pstate := x.base }

/-- SB_ACCEPT_RX (R436, R437, R442, R445). -/
def execSbAcceptRx (n : Fin 4) (body : Bytes) (s : State) : Host.Outcome State Fault Refusal :=
  onPower s fun c => c.sbIn n 4 body fun c =>
    let x := c.tpOf n
    let ref := fld body 0 1
    if x.deaf then c
    else if !x.asks ref then c.noMeaning n
    else
      let c := c.setTp n { x with exch := none, waits := 0, deferred := none }
      if ref = 0x03 then
        match x.req with
        | none => c.noMeaning n
        | some (_, v, lim, op) =>
          let c := match x.handle with | some (h, 1) => c.commitPoint h | _ => c
          ((c.disarm n).contractEnd n 0).startTransition n v lim op
      else if ref = 0x08 then
        let c := match x.handle with | some (h, 2) => c.commitPoint h | _ => c
        c.swapStart n
      else if ref = 0x09 then
        ((c.setTp n { c.tpOf n with armed := true, fsMa := x.cfg.fsMa }).vsel n x.volt).powerDoneIf n 5 stOk 0
      else if ref = 0x0B then
        let c := c.powerDoneIf n 3 stOk 0
        (c.powerDone n stAborted 0x0D08).softReset n
      else c.noMeaning n

/-- SB_REJECT_RX (R447): the exchange ends, and an open TRUNK_POWER_OP is aborted with the REJECT's reason. -/
def execSbRejectRx (n : Fin 4) (body : Bytes) (s : State) : Host.Outcome State Fault Refusal :=
  onPower s fun c => c.sbIn n 4 body fun c =>
    let x := c.tpOf n
    let reason := fld body 2 2
    if x.deaf then c
    else if !x.asks (fld body 0 1) then c.noMeaning n
    else (c.setTp n { x with exch := none, req := none, waits := 0, deferred := none, lastReason := reason, pstate := x.base }).powerDone n stAborted reason

/-- SB_WAIT_RX (R438, R447): the request waits; after three WAITs an open TRUNK_POWER_OP times out. -/
def execSbWaitRx (n : Fin 4) (body : Bytes) (s : State) : Host.Outcome State Fault Refusal :=
  onPower s fun c => c.sbIn n 4 body fun c =>
    let x := c.tpOf n
    if x.deaf then c
    else match x.exch with
      | none => c.noMeaning n
      | some e =>
        if e.frame.type != fld body 0 1 then c.noMeaning n
        else if x.waits + 1 ≥ 3 && x.handle.isSome then
          (c.setTp n { x with exch := none, waits := 0, deferred := none, lastReason := 0x0D09, pstate := x.base }).powerDone n stTimeout 0x0D09
        else c.setTp n { x with exch := none, waits := x.waits + 1, deferred := some (e.frame.type, e.frame.body) }

/-- WAIT_DELAY_EXPIRY (R438): the request is sent again. -/
def execWaitDelayExpiry (n : Fin 4) (s : State) : Host.Outcome State Fault Refusal :=
  onPower s fun c =>
    let x := c.tpOf n
    match x.deferred with
    | none => c
    | some (t, b) => if x.deaf then c else
      let c := c.sbAsk n t b
      c.setTp n { c.tpOf n with waits := x.waits }

/-- The contract is in force at this end (R436, R437): CONTRACT_READY. -/
def Chip.contractMake (c : Chip) (n volt limit op cid : Nat) : Chip :=
  let x := c.tpOf n
  let lim := if x.prole = 1 then limit else op
  let c := c.setTp n { x with pstate := .contract, contractOn := true, sinking := x.prole == 2, volt, limit, op, cid, pend := none, contracts := sat32 x.contracts 1 }
  let c := c.trunkLimits n lim (voltMv volt) (voltMv volt) 110
  c.post 0x0D02 0 (n + 256 * x.prole + 65536 * volt + 2 ^ 24 * limit + 2 ^ 40 * cid)

/-- The line is back at the safe rail without a contract (R433, R447). -/
def Chip.toSafe (c : Chip) (n : Nat) : Chip :=
  let x := c.tpOf n
  (c.setTp n { x with pstate := .safe, sinking := false, volt := 1, limit := 500, op := 500, pend := none }).trunkLimits n 500 12000 12000 110

/-- READY's body (Table 18.4). -/
def readyBody (volt cid limit : Nat) : Bytes := le 1 volt ++ le 1 cid ++ le 2 limit

/-- VOLTAGE_SETTLED (R435 step 6): the source sends READY. -/
def execVoltageSettled (n : Fin 4) (s : State) : Host.Outcome State Fault Refusal :=
  onPower s fun c =>
    let x := c.tpOf n
    match x.pend with
    | none => c
    | some (v, lim, op) =>
      if x.prole != 1 || x.pstate != .transition then c
      else if op = 0 then
        let c := c.toSafe n
        (c.setTp n { c.tpOf n with capsDue := true, capsSent := 0 }).sbPeer n 0x07 (readyBody 1 x.cid 500)
      else
        let cid := (x.cid + 1) % 256
        (c.sbPeer n 0x07 (readyBody v cid lim)).contractMake n v lim op cid

/-- The role swap is complete (R442 step 3): ROLE_SWAPPED. -/
def Chip.swapDone (c : Chip) (n : Nat) : Chip :=
  let x := c.tpOf n
  let c := (c.setTp n { x with swap := 0, pstate := .safe, cableDone := false }).post 0x0D04 0 (n + 256 * x.prole)
  c.powerDoneIf n 2 stOk 0

/-- The safe rail is up at a trunk channel (R435, R442, R447). -/
def Chip.railUp (c : Chip) (n : Nat) : Chip :=
  let x := c.tpOf n
  let c := if x.swap = 4 then (c.sbPeer n 0x07 (readyBody 1 x.cid 500)).swapDone n else c
  if x.prole != 0 && !x.deaf then c.powerDoneIf n 4 stOk 0 else c

/-- FAST_SWAP_ARM goes out after READY from a sink that allows it and has a local feed (R445). -/
def Chip.autoArm (c : Chip) (n : Nat) : Chip :=
  let x := c.tpOf n
  if x.cfg.fsAllow && c.localFeedValid then c.sbAsk n 0x09 (le 1 x.volt ++ zeros 1 ++ le 2 x.cfg.fsMa) else c

/-- SB_READY_RX (R435, R436, R442, R447). -/
def execSbReadyRx (n : Fin 4) (body : Bytes) (s : State) : Host.Outcome State Fault Refusal :=
  onPower s fun c => c.sbIn n 4 body fun c =>
    let x := c.tpOf n
    let volt := fld body 0 1
    let cid := fld body 1 1
    let limit := fld body 2 2
    if x.deaf then c
    else if x.pstate == .swapping then
      if x.swap = 2 && volt = 0 then
        let c := (c.setTp n { x with prole := 1, attach := 1, swap := 4, cid }).setBias n true
        let c := c.safeRail n
        c.setTp n { c.tpOf n with pstate := .swapping }
      else if x.swap = 3 && volt = 1 then
        let c := (c.setTp n { x with volt := 1, limit := 500, op := 500, cid }).swapDone n
        (c.trunkLimits n 500 12000 12000 110)
      else c.noMeaning n
    else if x.prole = 2 then
      match x.pend with
      | some (v, _, op) =>
        if v = volt then ((c.contractMake n volt limit op cid).powerDoneIf n 1 stOk 0).autoArm n else c.noMeaning n
      | none =>
        if volt = 1 && limit = 500 then
          let had := x.contractOn
          let c := (c.disarm n).contractEnd n 0x0D09
          let c := if had then c.trunkOff n else c
          c.toSafe n
        else c.noMeaning n
    else c.noMeaning n

/-- TRANSITION_TIMEOUT (R435, R442): HARD_RESET with TRANSITION_TIMEOUT, or OVERSHOOT when the 5 % limit was crossed. -/
def execTransitionTimeout (n : Fin 4) (overshoot : Bool) (s : State) : Host.Outcome State Fault Refusal :=
  onPower s fun c =>
    let x := c.tpOf n
    if x.pstate == .transition || x.pstate == .swapping then c.hardSend n (if overshoot && x.pstate == .transition then 0x0D0B else 0x0D05) else c

/-- TRUNK_TRIP_CONFIRM (R437): the trip is recorded and HARD_RESET CHANNEL_TRIP goes out. -/
def execTrunkTripConfirm (n : Fin 4) (s : State) : Host.Outcome State Fault Refusal :=
  onPower s fun c =>
    match (c.chan (2 + n)).tripPending with
    | none => c
    | some cause =>
      let c := c.setChan (2 + n) { c.chan (2 + n) with tripPending := none }
      let c := c.recordTrip (2 + n) cause false
      if (c.tpOf n).prole = 0 || (c.tpOf n).deaf then c
      else c.hardSend n 0x0D0A

/-- REQUEST_WAIT_TIMEOUT (R447): the line returns to the safe rail through a transition. -/
def execRequestWaitTimeout (n : Fin 4) (s : State) : Host.Outcome State Fault Refusal :=
  onPower s fun c =>
    let x := c.tpOf n
    if x.offersChanged && x.prole = 1 && x.pstate == .contract then ((c.disarm n).contractEnd n 0x0D09).startTransition n 1 500 0 else c

/-! ### Role swap and fast swap (R442, R445, R446) -/

/-- SB_SWAP_ROLE_RX (R442, R438). -/
def execSbSwapRoleRx (n : Fin 4) (id : Nat) (s : State) : Host.Outcome State Fault Refusal :=
  onPower s fun c =>
    let x := c.tpOf n
    if x.deaf then c
    else if (x.prole = 0 || x.pstate == .swapping) && !x.repeats 0x08 id then c.noMeaning n
    else c.answerOnce n 0x08 id fun c =>
      let feed : Bool := if x.prole = 2 then c.localFeedValid else match x.peer with | some p => bitOf p.cflags 0 | none => true
      if x.prole = 1 && x.exch.isSome then (c, sbWait 0x08 100)
      else if x.pstate == .transition then (c, sbReject 0x08 0x0D0E)
      else if !x.cfg.swapAllow then (c, sbReject 0x08 0x0D04)
      else if !feed then (c, sbReject 0x08 0x0D03)
      else (c.swapStart n, sbAccept 0x08)

/-- LINE_DISCHARGED (R442 steps 2 and 3): the old source sends READY with VOLT 0 and terminates. -/
def execLineDischarged (n : Fin 4) (s : State) : Host.Outcome State Fault Refusal :=
  onPower s fun c =>
    let x := c.tpOf n
    if x.pstate == .swapping && x.swap = 1 then
      let c := c.sbPeer n 0x07 (readyBody 0 x.cid 0)
      (c.setTp n { c.tpOf n with volt := 0, limit := 0, op := 0, prole := 2, attach := 2, swap := 3 }).setBias n false
    else c

/-- SB_FAST_SWAP_ARM_RX (R445, Table 18.11). -/
def execSbFastSwapArmRx (n : Fin 4) (id : Nat) (body : Bytes) (s : State) : Host.Outcome State Fault Refusal :=
  onPower s fun c => c.sbIn n 4 body fun c =>
    let x := c.tpOf n
    if x.deaf then c
    else if (x.prole != 1 || !x.contractOn || x.pstate != .contract) && !x.repeats 0x09 id then c.noMeaning n
    else c.answerOnce n 0x09 id fun c =>
      let ma := fld body 2 2
      if !x.cfg.fsAllow then (c, sbReject 0x09 0x0D04)
      else if fld body 0 1 != x.volt || ma = 0 || ma > 5000 then (c, sbReject 0x09 0x0D01)
      else if ma > x.cableLimit.2 then (c, sbReject 0x09 0x0D02)
      else (c.setTp n { x with armed := true, fsMa := ma }, sbAccept 0x09)

/-- FAST_SWAP_DETECT (R446): the source's gate goes low; the sink's takeover follows. -/
def execFastSwapDetect (n : Fin 4) (s : State) : Host.Outcome State Fault Refusal :=
  onPower s fun c =>
    let x := c.tpOf n
    if !x.armed || x.pstate != .contract then c
    else
      let c := c.setTp n { x with fsDetect := true }
      if x.prole = 1 then c.gateLow (2 + n) .standby else c

/-- FAST_SWAP_DONE (R446). -/
def Chip.fastSwapPost (c : Chip) (n us : Nat) : Chip :=
  let x := c.tpOf n
  (c.setTp n { x with fastSwaps := sat32 x.fastSwaps 1 }).post 0x0D05 0 (n + 256 * x.prole + us % 2 ^ 32 * 2 ^ 32)

/-- FAST_SWAP_TAKEOVER (R446): `us` microseconds after the loss the line is restored; the sink is source. -/
def execFastSwapTakeover (n : Fin 4) (us : Nat) (s : State) : Host.Outcome State Fault Refusal :=
  onPower s fun c =>
    let x := c.tpOf n
    if !(x.armed && x.fsDetect && x.prole = 2) || (c.chan (2 + n)).state == .damaged then c
    else
      let c := if c.pwr.selected == some (2 + n) then c.openFeed 0x0C04 else c
      let c := c.trunkLimits n x.fsMa (voltMv x.volt) (voltMv x.volt) 110
      let c := (c.setTp n { x with prole := 1, attach := 1, armed := false, fsDetect := false, sinking := false, contractOn := false, pstate := .safe, limit := x.fsMa,
                                   capsDue := true, capsSent := 0, cableDone := false }).chanOn (2 + n)
      let c := (c.sbPeer n 0x0A []).setBias n true
      c.fastSwapPost n us

/-- SB_FAST_SWAP_RX (R446): the old source is sink, and its channel a feed candidate at once. -/
def execSbFastSwapRx (n : Fin 4) (us : Nat) (s : State) : Host.Outcome State Fault Refusal :=
  onPower s fun c =>
    let x := c.tpOf n
    if x.deaf then c
    else if !(x.armed && x.prole = 1) then c.noMeaning n
    else
      let c := c.gateLow (2 + n) .standby
      let c := c.setTp n { c.tpOf n with prole := 2, attach := 2, armed := false, fsDetect := false, sinking := true, contractOn := false, pstate := .safe, capsDue := false,
                                         cableDone := false }
      (c.setBias n false).fastSwapPost n us

/-- SB_SOFT_RESET_RX (R438): ACCEPT, and both return to step 1. -/
def execSbSoftResetRx (n : Fin 4) (id : Nat) (s : State) : Host.Outcome State Fault Refusal :=
  onPower s fun c =>
    if (c.tpOf n).deaf then c
    else c.answerOnce n 0x0B id fun c =>
      if (c.tpOf n).prole = 1 && (c.tpOf n).asks 0x0B then ((c.powerDoneIf n 3 stOk 0).softReset n, sbAccept 0x0B)
      else ((c.powerDone n stAborted 0x0D08).softReset n, sbAccept 0x0B)

/-! ### The cable marker (R440, R441) -/

/-- SB_CABLE_QUERY_RX (R440): the marker on the trunk's cable answers CABLE_INFO; the 32 bytes are as it stores them for the source's plug,
`known` its orientation, and ASYM_PS is turned to the querier's side. -/
def execSbCableQueryRx (n : Fin 4) (prole : Nat) (known : Bool) (info : Bytes) (s : State) : Host.Outcome State Fault Refusal :=
  onChip s fun c =>
    let asym := sfld info 8 4
    let turned := if !known then 0 else if prole = 0 then asym else -asym
    c.emit (.cableAnswer n (sliceB info 0 2 ++ le 1 (b2n known) ++ sliceB info 3 5 ++ le 4 (unsigned 32 turned) ++ sliceB info 12 20))

/-- The cable has been asked (R441): CABLE_READ; a sink that waited for it chooses. -/
def Chip.cableRead (c : Chip) (n : Nat) (valid : Bool) : Chip :=
  let x := c.tpOf n
  let c := c.setTp n { x with cableExch := none, cableDone := true, cableValid := valid }
  let c := (c.post 0x0D06 0 (n + 256 * c.cableClass n + 4096 * b2n valid)).cableReply n
  if x.chooseDue then (c.sinkChoose n).1 else c

/-- SB_CABLE_INFO_RX (R441). -/
def execSbCableInfoRx (n : Fin 4) (body : Bytes) (s : State) : Host.Outcome State Fault Refusal :=
  onPower s fun c => c.sbIn n 32 body fun c =>
    let x := c.tpOf n
    if x.deaf then c
    else if fld body 0 1 != 1 then c.cableRead n false
    else (c.setTp n { x with cable := body }).cableRead n true

/-- CABLE_QUERY_TIMER (R441). -/
def execCableQueryTimer (n : Fin 4) (s : State) : Host.Outcome State Fault Refusal :=
  onPower s fun c =>
    let x := c.tpOf n
    if x.prole != 0 && !x.deaf && x.pstate != .swapping then c.sbCableQuery n else c

/-- SIDEBAND_FRAME_BAD: a bad CRC, a LEN above 64 or a reserved TYPE, those of R98 included (R429). -/
def execSidebandFrameBad (n : Fin 4) (s : State) : Host.Outcome State Fault Refusal := onChip s fun c => c.sbBad n

/-- SIDEBAND_COLLISION (R429): counted, and the frame is sent again after its back-off. -/
def execSidebandCollision (n : Fin 4) (s : State) : Host.Outcome State Fault Refusal :=
  onChip s fun c =>
    match (c.tpOf n).lastTx with
    | none => c.sbBad n
    | some f => (c.sbBad n).emit (sbOut n f.marker f.type f.id f.body)

/-- An exchange with the peer has had no answer (R430). -/
def Chip.noResponse (c : Chip) (n : Nat) (e : SbExch) : Chip :=
  let x := c.tpOf n
  let c := c.setTp n { x with exch := none, lastReason := 0x0D09, pstate := if e.frame.type = 0x03 then x.base else x.pstate }
  if e.frame.type = 0x0B then c.hardSend n 0x0D08
  else if e.frame.type = 0x02 then c
  else c.powerDone n stTimeout 0x0D09

/-- SIDEBAND_RETRY_TIMER (R430): sent again, three times at most. -/
def execSidebandRetryTimer (n : Fin 4) (cable : Bool) (s : State) : Host.Outcome State Fault Refusal :=
  onPower s fun c =>
    let x := c.tpOf n
    match (if cable then x.cableExch else x.exch) with
    | none => c
    | some e =>
      if e.tries < 3 then
        let e' := { e with tries := e.tries + 1 }
        (c.setTp n (if cable then { x with cableExch := some e' } else { x with exch := some e' })).emit
          (sbOut n cable e.frame.type e.frame.id e.frame.body)
      else if cable then c.cableRead n false
      else c.noResponse n e

/-! ### Commands (R447) -/

/-- Offers within their ranges: VOLT codes at most 3 and distinct, MAX_MA at most 5,000. -/
def offersOk (b : Bytes) : Bool :=
  let l := offersOf b
  let vs := (l.map Prod.fst).filter (· != 0)
  l.all (fun o => decide (o.1 ≤ 3) && decide (o.2 ≤ 5000)) && decide (vs.eraseDups.length = vs.length) &&
    ((List.range 6).all fun i => rsvd b (4 * i + 1) 1)

/-- TRUNK_POWER_SET (R447). -/
def bodyTrunkPowerSet (x : Ctx) (c : Chip) : Ans × Chip :=
  let n := fld x.ps 0 1
  let pf := fld x.ps 1 1
  let ob := sliceB x.ps 8 24
  let ch := c.chan (2 + n)
  let scale := ch.conf.iFs * 100 / ch.conf.severePct
  if n > 3 || pf > 63 || fld x.ps 2 1 > 15 || !rsvd x.ps 3 5 || !offersOk ob || fld x.ps 32 1 > 7 || !rsvd x.ps 33 1 || fld x.ps 34 2 = 0
      || fld x.ps 34 2 > 5000 || fld x.ps 36 2 = 0 || fld x.ps 36 2 > 5000 || !rsvd x.ps 38 2 then no c stParam
  else if (offersOf ob).any fun o => o.1 != 0 && decide (o.2 > scale) then no c stParam 0x0C01
  else
    let t := c.tpOf n
    let cfg : TPowerCfg := { srcEn := bitOf pf 0, sinkEn := bitOf pf 1, swapAllow := bitOf pf 2, fsAllow := bitOf pf 3, noPower := bitOf pf 4,
                             prec := some (fld x.ps 2 1), offers := offersOf ob, sinkVolts := fld x.ps 32 1, sinkMa := fld x.ps 34 2, fsMa := fld x.ps 36 2 }
    let changed := cfg.offers != t.cfg.offers && t.prole == 1 && !t.deaf
    let c := c.setTp n { t with cfg, offersChanged := if changed then t.contractOn else t.offersChanged }
    let c := if changed then c.sbPeer n 0x01 (c.capsBody n x.fuses.serialLow) else c
    let c := if bitOf pf 5 then c.storeConfig fun s => { s with tpower := s.tpower.set n cfg } else c
    (ok, c.powerSettle)

def execTrunkPowerSet (p : Packet) (s : State) : Host.Outcome State Fault Refusal := runCommand 0x0D01 p s bodyTrunkPowerSet

/-- The operation of TRUNK_POWER_OP starts (R447). -/
def Chip.powerOp (c : Chip) (n op h : Nat) : Ans × Chip :=
  let t := c.tpOf n
  let c' := c.setTp n { t with handle := some (h, op) }
  if op = 1 then
    if t.peer.isNone then (accepted, c'.sbAsk n 0x02 [])
    else
      let r := c'.sinkChoose n
      if r.2 then (accepted, r.1) else ({ accepted with done := some (stAborted, 0x0D01, 0) }, r.1.setTp n { r.1.tpOf n with handle := none })
  else if op = 2 then (accepted, c'.sbAsk n 0x08 [])
  else if op = 3 then (accepted, c'.sbAsk n 0x0B [])
  else if op = 4 then ({ accepted with committed := true }, c'.hardSend n 0x0D07)
  else if op = 5 then
    if !t.cfg.fsAllow then ({ accepted with done := some (stAborted, 0x0D04, 0) }, c)
    else if !c.localFeedValid then ({ accepted with done := some (stAborted, 0x0D03, 0) }, c)
    else (accepted, c'.autoArm n)
  else if op = 6 then ({ accepted with done := some (stOk, 0, 0) }, c.disarm n)
  else
    let c := c.setTp n { t.open with faulted := false, hardTimes := [], pstate := .detached }
    ({ accepted with done := some (stOk, 0, 0) }, c)

/-- TRUNK_POWER_OP (R447, Table 18.9). -/
def bodyTrunkPowerOp (x : Ctx) (c : Chip) : Ans × Chip :=
  let n := fld x.ps 0 1
  let op := fld x.ps 1 1
  let t := c.tpOf n
  if n > 3 || op = 0 || op > 7 || !rsvd x.ps 2 6 then no c stParam
  else if t.faulted && op != 7 then no c stState 0x0D0F
  else if op = 7 && !t.faulted then no c stState 0x0D0D
  else if op != 7 && !c.peerThere n && t.pstate != .hardReset then no c stState 0x0D0D
  else if (op = 1 || op = 5) && t.prole != 2 then no c stState 0x0D0D
  else match t.handle with
    | some (h, _) => no c stBusy 0 h
    | none =>
      if (op ≤ 3 || op = 5) && (t.pstate == .transition || t.pstate == .swapping || t.pstate == .hardReset) then no c stState 0x0D0E
      else
        let r := c.powerOp n op x.handle
        (r.1, r.2.powerSettle)

def execTrunkPowerOp (p : Packet) (s : State) : Host.Outcome State Fault Refusal := runCommand 0x0D02 p s bodyTrunkPowerOp

/-- PSTATE codes (R447). -/
def PState.code : PState → Nat
  | .detached => 0 | .safe => 1 | .negotiating => 2 | .transition => 3 | .contract => 4 | .swapping => 5 | .hardReset => 6 | .faulted => 7 | .noPower => 8

/-- TRUNK_POWER_STATUS (R447). -/
def bodyTrunkPowerStatus (x : Ctx) (c : Chip) : Ans × Chip :=
  let n := fld x.ps 0 1
  let t := c.tpOf n
  let ch := c.chan (2 + n)
  let peerFs := match t.peer with | some p => bitOf p.cflags 4 | none => false
  if n > 3 || !rsvd x.ps 1 3 then no c stParam
  else (ok (le 1 n ++ le 1 t.attach ++ le 1 t.prole ++ le 1 t.pstate.code ++ le 1 t.volt ++ le 1 (b2n t.armed + 2 * b2n peerFs) ++
      le 1 (c.cableClass n) ++ le 1 (match t.peer with | some p => p.devRole | none => 0) ++ le 2 t.limit ++ le 2 t.op ++ le 4 ch.vMv ++ le 4 ch.iMa ++
      le 1 (match t.peer with | some p => p.prec | none => 0) ++ zeros 1 ++ le 2 t.lastReason ++
      offerBytes (match t.peer with | some p => p.offers | none => []) ++ le 4 t.contracts ++ le 4 t.hardResets ++ le 4 t.fastSwaps ++ le 4 t.frameErrors), c)

def execTrunkPowerStatus (p : Packet) (s : State) : Host.Outcome State Fault Refusal := runCommand 0x0D03 p s bodyTrunkPowerStatus

/-- CABLE_GET (R441, R447): with REQUERY the cable is asked first, and the reply follows its answer. -/
def bodyCableGet (x : Ctx) (c : Chip) : Ans × Chip :=
  let n := fld x.ps 0 1
  let g := fld x.ps 1 1
  if n > 3 || g > 1 || !rsvd x.ps 2 2 then no c stParam
  else
    let t := c.tpOf n
    if g = 1 && t.prole != 0 && !t.deaf then
      let c := c.sbCableQuery n
      ({ hold := true }, c.setTp n { c.tpOf n with cableDue := (c.tpOf n).cableDue ++ [(x.sess, x.tag)] })
    else (ok (c.cableBytes n), c)

def execCableGet (p : Packet) (s : State) : Host.Outcome State Fault Refusal := runCommand 0x0D04 p s bodyCableGet

end Sys2Proof.Machine
end

