-- ==== Sys2Proof/Machine/Power.lean ====
section
/-!
DEFINITION. Chapter 17: power channels, hot insertion and feeds.
-/
namespace Sys2Proof.Machine

/-- IN_LIMIT_CHANGE (R413, R415): in ON the fault timer starts with IN_LIMIT and clears with it. -/
def execInLimitChange (ch : Fin 14) (set : Bool) (s : State) : Host.Outcome State Fault Refusal :=
  onPower s fun c =>
    let x := c.chan ch
    if x.state == .on then
      if set then (c.setChan ch { x with inLimit := true, timer := some (x.timer.getD x.conf.faultUs) }).powerGood ch false
      else c.setChan ch { x with inLimit := false, timer := none }
    else if x.state == .start then c.setChan ch { x with inLimit := set }
    else c

/-- FAULT_TIMER_EXPIRY (R412, R413): the channel trips with cause TIMER, or SEVERE when that fires in the same cycle (R414). -/
def execFaultTimerExpiry (ch : Fin 14) (severe : Bool) (s : State) : Host.Outcome State Fault Refusal :=
  onPower s fun c => if (c.chan ch).timer.isSome then c.trip ch (if severe then 2 else 1) else c

/-- SEVERE_TRIP (R414). -/
def execSevereTrip (ch : Fin 14) (s : State) : Host.Outcome State Fault Refusal :=
  onPower s fun c =>
    let x := c.chan ch
    if x.state == .start || x.state == .on then c.trip ch 2 else c

/-- VSNS_PG_REACHED (R412): START ends and the channel is ON; a trunk's safe rail is up. -/
def execVsnsPgReached (ch : Fin 14) (s : State) : Host.Outcome State Fault Refusal :=
  onPower s fun c =>
    let c := c.setChan ch { c.chan ch with vPg := true }
    let c := if (c.chan ch).state == .start then c.chanOn ch else c
    if isTrunkCh ch then c.railUp (ch - 2) else c

/-- POWER_GOOD_ASSERT (R415). -/
def execPowerGoodAssert (ch : Fin 14) (s : State) : Host.Outcome State Fault Refusal :=
  onPower s fun c =>
    let x := c.chan ch
    if x.state == .on && !x.inLimit && x.timer.isNone && x.vPg then c.powerGood ch true else c

/-- VSNS_SAG (R415). -/
def execVsnsSag (ch : Fin 14) (s : State) : Host.Outcome State Fault Refusal :=
  onPower s fun c => (c.setChan ch { c.chan ch with vPg := false }).powerGood ch false

/-- GATE_RISE_TIMEOUT (R417). -/
def execGateRiseTimeout (ch : Fin 14) (s : State) : Host.Outcome State Fault Refusal :=
  onPower s fun c =>
    let x := c.chan ch
    if x.state == .on && x.gateWin && !x.gateGood then c.damage ch 3 else c

/-- SHORT_DETECT (R417). -/
def execShortDetect (ch : Fin 14) (s : State) : Host.Outcome State Fault Refusal :=
  onPower s fun c =>
    let x := c.chan ch
    if x.gate || x.state == .damaged || !x.scaled ch then c else c.damage ch 4

/-- The fault count has reached RETRY_MAX (Table 17.2): a channel that is turned on again stays LATCHED until CLEAR. -/
def PowerChan.latches (x : PowerChan) (n : Nat) : Bool :=
  !isTrunkCh n && x.conf.retryMax != 255 && decide (x.faultCount > 0) && decide (x.faultCount ≥ x.conf.retryMax)

/-- A channel that is admin on goes on from its resting state: a slot starts when its board is there, a feed may be selected. -/
def Chip.proceed (c : Chip) (n : Nat) : Chip :=
  let x := c.chan n
  let latch := x.state == .off && x.admin && x.scaled n && x.latches n
  let c := c.setChan n { x with state := if latch then .latched else c.restState n }
  if latch then c
  else if isSlotCh n then c.startSlot n else if n < 6 then
    (if isTrunkCh n && (c.tpOf (n - 2)).prole == 1 && (c.tpOf (n - 2)).pstate == .safe then c.trunkStart (n - 2) else c.feedCame) else c

/-- RETRY_TIMER (R416, R419): START when the start condition holds, else ABSENT or STANDBY. -/
def execRetryTimer (ch : Fin 14) (s : State) : Host.Outcome State Fault Refusal :=
  onPower s fun c =>
    if (c.chan ch).state != .retryWait then c
    else if c.slotReady ch then c.startSlot ch
    else c.proceed ch

/-- FAULT_COUNT_CLEAR (R416). -/
def execFaultCountClear (ch : Fin 14) (s : State) : Host.Outcome State Fault Refusal :=
  onPower s fun c => if (c.chan ch).pg then c.setChan ch { c.chan ch with faultCount := 0 } else c

/-- SLOT_INSERT (R418). -/
def execSlotInsert (slot : Fin 8) (s : State) : Host.Outcome State Fault Refusal :=
  onPower s fun c =>
    let n := 6 + slot.val
    let x := c.chan n
    if x.present then c
    else
      let c := (c.setChan n { x with present := true }).post 0x0C06 0 (n + 256)
      if x.state == .absent then c.startSlot n else c

/-- SLOT_REMOVE (R418): the gate goes low without a trip; a fault timer that expires in the same cycle counts its trip. -/
def execSlotRemove (slot : Fin 8) (expired : Bool) (s : State) : Host.Outcome State Fault Refusal :=
  onPower s fun c =>
    let n := 6 + slot.val
    if !(c.chan n).present then c
    else
      let c := if expired && (c.chan n).timer.isSome then c.trip n 1 else c
      let x := c.chan n
      let c := (c.setChan n { x with present := false }).post 0x0C06 0 n
      if x.state == .start || x.state == .on then c.gateLow n .absent else c

/-- SLOT_REMOVE_LONG (R419). -/
def execSlotRemoveLong (slot : Fin 8) (s : State) : Host.Outcome State Fault Refusal :=
  onPower s fun c =>
    let n := 6 + slot.val
    let x := c.chan n
    if x.present then c
    else c.setChan n { x with faultCount := 0, state := if x.state == .latched || x.state == .retryWait then .absent else x.state }

/-- STAGGER_TIMER (R420). -/
def execStaggerTimer (s : State) : Host.Outcome State Fault Refusal := onPower s fun c => c.staggerNext c.pwr.waiting

/-- FEED_VALID_TIMER (R421): a candidate has lain in its window for VALID_MS. -/
def execFeedValidTimer (feed : Fin 6) (s : State) : Host.Outcome State Fault Refusal :=
  onPower s fun c => if c.candidate feed then (c.setChan feed { c.chan feed with inWindow := true }).feedCame else c

/-- FEED_INVALID (R421, R422). -/
def execFeedInvalid (feed : Fin 6) (s : State) : Host.Outcome State Fault Refusal :=
  onPower s fun c => (c.setChan feed { c.chan feed with inWindow := false }).feedWent feed 0x0C04

/-- FEED_DEAD_TIME_END (R422). -/
def execFeedDeadTimeEnd (s : State) : Host.Outcome State Fault Refusal :=
  onPower s fun c => match c.pwr.dead with | none => c | some d => c.selectFeed (some d)

/-- FEED_RESTORE_TIMER (R422). -/
def execFeedRestoreTimer (feed : Fin 6) (s : State) : Host.Outcome State Fault Refusal :=
  onPower s fun c =>
    match c.pwr.selected with
    | none => c
    | some n =>
      if c.pwr.feed.revert && c.feedValid feed && decide (nth 0 c.pwr.feed.prio feed > nth 0 c.pwr.feed.prio n) then c.openFeed 0x0C05 else c

/-- One conversion on a scale (Table 22.12: 12 bits over 1.2 V). -/
def adcScale (code fs : Nat) : Nat := code % 4096 * fs / 4096

/-- ADC_FRAME (R410): every channel's current, and the voltage and gate of the channel whose turn it is. -/
def execAdcFrame (isns : List Nat) (vsns gate : Nat) (s : State) : Host.Outcome State Fault Refusal :=
  onChip s fun c =>
    let c := (List.range 14).foldl (fun c n =>
      let x := c.chan n
      c.setChan n { x with iMa := adcScale (nth 0 isns n) x.conf.iFs }) c
    let n := c.pwr.adcNext
    let x := c.chan n
    let good := x.gateGood || (x.gate && decide (gate % 4096 ≥ 3072))
    let c := c.setChan n { x with vMv := adcScale vsns x.conf.vFs, gateCode := gate % 4096, gateGood := good, gateWin := x.gateWin && !good }
    c.setPwr fun p => { p with adcNext := (n + 1) % 14 }

/-! ### Commands (R426) -/

/-- The fields of PWR_CHANNEL_SET. -/
def chanCfgOf (b : Bytes) : ChanCfg :=
  { admin := bitOf (fld b 1 1) 0, shed := bitOf (fld b 1 1) 1, retryMax := fld b 2 1, iFs := fld b 4 4, vFs := fld b 8 4, limit := fld b 12 4,
    inrush := fld b 16 4, severePct := fld b 20 2, gateUs := fld b 22 2, faultUs := fld b 24 4, startFaultUs := fld b 28 4, retryMs := fld b 32 2,
    pgDelay := fld b 34 2, pgMv := fld b 36 4, uvMv := fld b 40 4, ovMv := fld b 44 4 }

/-- Fields of PWR_CHANNEL_SET within their ranges (Table 17.4). -/
def ChanCfg.ranges (k : ChanCfg) : Bool :=
  (decide (k.retryMax ≤ 15) || k.retryMax == 255) && (k.iFs == 0 || (decide (100 ≤ k.iFs) && decide (k.iFs ≤ 200000))) &&
  decide (1000 ≤ k.vFs) && decide (k.vFs ≤ 100000) && decide (150 ≤ k.severePct) && decide (k.severePct ≤ 400) &&
  decide (100 ≤ k.gateUs) && decide (k.gateUs ≤ 10000) && decide (50 ≤ k.faultUs) && decide (k.faultUs ≤ 100000) &&
  decide (50 ≤ k.startFaultUs) && decide (k.startFaultUs ≤ 100000) && decide (10 ≤ k.retryMs) && decide (k.retryMs ≤ 10000) &&
  decide (1 ≤ k.pgDelay) && decide (k.pgDelay ≤ 1000)

/-- The limits agree with each other and with the scales (Table 17.6); UV_MV and OV_MV matter to feeds. -/
def ChanCfg.limits (k : ChanCfg) (n : Nat) : Bool :=
  (k.iFs == 0 || (decide (1 ≤ k.limit) && decide (k.limit ≤ k.iFs * 100 / k.severePct) && decide (1 ≤ k.inrush) && decide (k.inrush ≤ k.limit))) &&
  decide (k.pgMv < k.vFs) && (n ≥ 2 || (decide (k.uvMv < k.ovMv) && decide (k.ovMv ≤ k.vFs)))

/-- New settings take effect on a channel (R426). -/
def Chip.applyChan (c : Chip) (n : Nat) (k : ChanCfg) : Chip :=
  let x := c.chan n
  let c := c.setChan n { x with cfg := some k, admin := k.admin }
  let running := x.state == .start || x.state == .on
  if !(k.admin && k.iFs != 0) then
    if x.state == .damaged || (isTrunkCh n && running) then c else c.chanDown n .off
  else if x.state == .off then c.proceed n
  else if running then
    let x := c.chan n
    c.setIlim n (x.ilim n (if x.state == .start then x.inrushMa n else x.limitMa n))
  else c

/-- PWR_CHANNEL_SET (R426). -/
def bodyPwrChannelSet (x : Ctx) (c : Chip) : Ans × Chip :=
  let n := fld x.ps 0 1
  let k := chanCfgOf x.ps
  if n > 13 || fld x.ps 1 1 > 7 || !rsvd x.ps 3 1 || !k.ranges then no c stParam
  else if !isTrunkCh n && !k.limits n then no c stParam 0x0C01
  else
    let c := c.applyChan n k
    let c := if bitOf (fld x.ps 1 1) 2 then c.storeConfig fun s => { s with channels := s.channels.set n k } else c
    (ok, c.powerSettle)

def execPwrChannelSet (p : Packet) (s : State) : Host.Outcome State Fault Refusal := runCommand 0x0C01 p s bodyPwrChannelSet

/-- PWR_CHANNEL_CTRL (R426). -/
def bodyPwrChannelCtrl (x : Ctx) (c : Chip) : Ans × Chip :=
  let n := fld x.ps 0 1
  let op := fld x.ps 1 1
  let k := c.chan n
  if n > 13 || op > 2 || !rsvd x.ps 2 2 then no c stParam
  else if op < 2 && isTrunkCh n then no c stState 0x0C02
  else if op = 1 && k.state == .damaged then no c stState 0x0C03
  else if op = 1 && k.conf.iFs = 0 then no c stState 0x0C08
  else
    let c :=
      if op = 0 then
        let c := c.setChan n { k with admin := false }
        if k.state == .damaged then c else c.chanDown n .off
      else if op = 1 then
        let c := c.setChan n { k with admin := true }
        if k.state == .off then c.proceed n else c
      else
        let c := c.setChan n { k with faultCount := 0 }
        if k.state == .latched || k.state == .damaged then c.proceed n else c
    (ok, c.powerSettle)

def execPwrChannelCtrl (p : Packet) (s : State) : Host.Outcome State Fault Refusal := runCommand 0x0C02 p s bodyPwrChannelCtrl

/-- New feed settings: selection runs again at once, break before make (R426). -/
def Chip.applyFeed (c : Chip) (f : FeedCfg) : Chip :=
  let c := c.setPwr fun p => { p with feed := f }
  match c.pwr.selected with
  | some n => if c.feedValid n && c.bestFeed == some n then c else c.feedWent n 0x0C07
  | none => if c.pwr.dead.isNone then c.feedCame else c

/-- PWR_FEED_SET (R426). -/
def bodyPwrFeedSet (x : Ctx) (c : Chip) : Ans × Chip :=
  let prio := (sliceB x.ps 0 6).map BitVec.toNat
  let dead := fld x.ps 6 1
  let ff := fld x.ps 7 1
  let valid := fld x.ps 8 2
  let restore := fld x.ps 10 2
  let stagger := fld x.ps 12 2
  let pres := fld x.ps 14 2
  if !(prio.all fun p => decide (p ≤ 15)) || dead < 2 || dead > 50 || ff > 3 || valid = 0 || valid > 1000 || restore < 10 || restore > 60000
      || stagger > 1000 || pres < 10 || pres > 1000 then no c stParam
  else
    let f : FeedCfg := { prio, deadUs := dead, revert := bitOf ff 0, validMs := valid, restoreMs := restore, staggerMs := stagger, presenceMs := pres }
    let c := c.applyFeed f
    let c := if bitOf ff 1 then c.storeConfig fun s => { s with feed := some f } else c
    (ok, c.powerSettle)

def execPwrFeedSet (p : Packet) (s : State) : Host.Outcome State Fault Refusal := runCommand 0x0C03 p s bodyPwrFeedSet

/-- State codes of Table 17.2. -/
def ChanState.code : ChanState → Nat
  | .off => 0 | .absent => 1 | .standby => 2 | .start => 3 | .on => 4 | .retryWait => 5 | .latched => 6 | .damaged => 7 | .shed => 8

/-- The record of a channel (Table 17.5). -/
def Chip.chanRecord (c : Chip) (n : Nat) : Bytes :=
  let x := c.chan n
  le 1 x.state.code ++ le 1 (b2n x.pg + 2 * b2n x.inLimit + 4 * b2n x.present + 8 * b2n (c.pwr.selected == some n) + 16 * b2n (c.feedValid n) +
      32 * b2n x.gateGood + 64 * b2n x.admin) ++
    le 1 x.faultCount ++ le 1 x.cause ++ le 4 x.iMa ++ le 4 x.vMv ++ le 2 x.gateCode ++ le 2 x.trips

/-- PWR_STATUS (R426). -/
def bodyPwrStatus (_x : Ctx) (c : Chip) : Ans × Chip :=
  let p := c.pwr
  (ok (le 1 (p.selected.getD 0xFF) ++ le 1 (b2n p.pwrfail + 2 * b2n p.lost) ++ zeros 2 ++ le 4 p.feedSwitches ++ le 4 p.powerFails ++ zeros 4 ++
    ((List.range 14).map c.chanRecord).flatten), c)

def execPwrStatus (p : Packet) (s : State) : Host.Outcome State Fault Refusal := runCommand 0x0C04 p s bodyPwrStatus

end Sys2Proof.Machine
end

