-- ==== Sys2Proof/Machine/Board.lean ====
section
/-!
DEFINITION. What the board does to the whole part: PWRFAIL_L (R424), reference clocks (R507) and supplies (R499).
-/
namespace Sys2Proof.Machine

/-- PWRFAIL_ASSERT (R424, R347, R492). -/
def execPwrfailAssert (s : State) : Host.Outcome State Fault Refusal :=
  onPower s fun c =>
    if c.pwr.pwrfail then c
    else
      let c := (c.setPwr fun p => { p with pwrfail := true, powerFails := sat32 p.powerFails 1 }).bump 35 1
      let c := (List.range 14).foldl (fun c n =>
        let x := c.chan n
        if isSlotCh n && x.conf.shed && (x.state == .start || x.state == .on) then c.gateLow n .shed else c) c
      (c.crockPowerFail.lifePowerFail s.fuses.lifecycle).post 0x0C07 0 1

/-- PWRFAIL_RELEASE (R424, R420, R347). -/
def execPwrfailRelease (s : State) : Host.Outcome State Fault Refusal :=
  onPower s fun c =>
    if !c.pwr.pwrfail then c
    else
      let c := c.setPwr fun p => { p with pwrfail := false }
      let c := (List.range 14).foldl (fun c n =>
        if (c.chan n).state != .shed then c
        else if c.slotReady n then c.startSlot n
        else c.setChan n { c.chan n with state := c.restState n }) c
      c.crockResume.post 0x0C07 0 0

/-- A trunk whose transmitters run from REFCLK_TRK stops (R507). -/
def Chip.trunkNoClock (c : Chip) (n : Nat) : Chip :=
  let l := c.laneOf n
  match l.phase with
  | .data => if l.following then c else c.linkDown n 0x0402
  | .train _ => if l.following then c else c.failAttempt n 0x0402 true
  | _ => c

/-- REFCLK_FAIL (R507): 0 REFCLK_TRK, 1 REFCLK_ETH, 2 PE_REFCLK. -/
def execRefclkFail (ref : Fin 3) (s : State) : Host.Outcome State Fault Refusal :=
  onChip s fun c =>
    let k := ref.val
    if c.dev.refFailed.contains k then c
    else
      let c := { c with dev := { c.dev with refFailed := insertSorted k c.dev.refFailed } }
      if k = 0 then (List.range 4).foldl Chip.trunkNoClock c else if k = 1 then c.ethAllDown else c.hostLost

/-- REFCLK_RESTORE (R507). -/
def execRefclkRestore (ref : Fin 3) (s : State) : Host.Outcome State Fault Refusal :=
  onChip s fun c => { c with dev := { c.dev with refFailed := c.dev.refFailed.filter (· != ref.val) } }

/-- SUPPLY_EXCURSION (R499): SUPPLY_UV or SUPPLY_OV. -/
def execSupplyExcursion (low : Bool) (s : State) : Host.Outcome State Fault Refusal :=
  onChip s fun c => c.bump (if low then 11 else 12) 1

end Sys2Proof.Machine
end

