-- ==== Sys2Proof/Machine/Cancel.lean ====
section
/-!
DEFINITION. CANCEL (R56): what stops at once when a handle is cancelled before its commit point.
-/
namespace Sys2Proof.Machine

/-- A cancelled operation that needs nothing undone completes at once. -/
def Chip.cancelEnd (c : Chip) (h : Nat) (reason : Nat := 0x0007) : Chip := c.complete h stAborted reason 0

/-- The trunks whose lane port satisfies `p`. -/
def Chip.trunksWhere (c : Chip) (p : Nat → Bool) : List Nat := (List.range 4).filter p

/-- TUNNEL_OPEN (R208): the open fails with reason CANCELLED. -/
def Chip.cancelOpen (c : Chip) (h : Nat) : Chip :=
  (c.tids fun _ t => t.openHandle == some h).foldl (fun c t => c.openFail t stAborted 0x0211) c

/-- A transition that waits is dropped. -/
def Chip.cancelMode (c : Chip) (h : Nat) : Chip :=
  if c.dev.waiting.any fun t => t.handle == h then
    { c with dev := { c.dev with waiting := c.dev.waiting.filter fun t => t.handle != h } }.cancelEnd h
  else c

/-- TRUNK_RETRAIN: the trunk's training goes on without the handle. -/
def Chip.cancelRetrain (c : Chip) (h : Nat) : Chip :=
  ((c.trunksWhere fun n => match (c.laneOf n).retrain with | some e => e.1 == h | none => false).foldl (fun c n =>
    c.setLane n { c.laneOf n with retrain := none }) c).cancelEnd h

/-- TRUNK_LOOP: the far-end loop that was asked for is taken back. -/
def Chip.cancelLoop (c : Chip) (h : Nat) : Chip :=
  ((c.trunksWhere fun n => (c.laneOf n).loopHandle == some h).foldl (fun c n =>
    (c.sbPeer n 0x46 (le 1 0 ++ le 1 0)).setLane n { (c.laneOf n).unloop with loopHandle := none }) c).cancelEnd h

/-- TRUNK_WIDTH: a request that no marker has carried is dropped (R150). -/
def Chip.cancelWidth (c : Chip) (h : Nat) : Chip :=
  ((c.trunksWhere fun n => match (c.frmOf n).wcMine with | some w => w.handle == h | none => false).foldl (fun c n =>
    c.setFrm n { c.frmOf n with wcMine := none, wcSent := false }) c).cancelEnd h

/-- HEAD_MODE_SET before its latch, and SELF_REFRESH before it takes effect (R312). -/
def Chip.cancelHead (c : Chip) (h : Nat) : Chip :=
  ((List.range 4).foldl (fun c n =>
    let x := c.hub n
    let x := match x.pend with | some (_, _, k) => if k = h then { x with pend := none } else x | none => x
    let x := match x.srReq with | some (_, k) => if k = h then { x with srReq := none } else x | none => x
    c.setHub n x) c).cancelEnd h

/-- TRUNK_POWER_OP: REQUEST and SWAP_ROLE are taken back before ACCEPT; the other operations lose their handle only. -/
def Chip.cancelPower (c : Chip) (h : Nat) : Chip :=
  ((List.range 4).foldl (fun (c : Chip) n =>
    let x := c.tpOf n
    match x.handle with
    | some (k, op) =>
      if k != h then c
      else
        let x := { x with handle := none }
        if op = 1 || op = 2 then
          let x := { x with exch := none, req := none, chooseDue := false }
          c.setTp n { x with pstate := x.base }
        else c.setTp n x
    | none => c) c).cancelEnd h

/-- REKEY with FRESH before its announcement: the handshake goes on without the handle. -/
def Chip.cancelRekey (c : Chip) (h : Nat) : Chip :=
  ((c.trunksWhere fun n => (c.sealOf n).rekey == some h).foldl (fun c n => c.setSeal n { c.sealOf n with rekey := none }) c).cancelEnd h

/-- The operation of an open handle that is before its commit point is stopped; what runs until a row of its own ends then, with the
cancellation recorded. -/
def Chip.cancelOp (c : Chip) (h op : Nat) : Chip :=
  if op = 0x0102 || op = 0x0103 then c.cancelMode h
  else if op = 0x0201 then c.cancelOpen h
  else if op = 0x0304 then c.shiftAbort 0x031A 0xFF
  else if op = 0x0403 then c.cancelRetrain h
  else if op = 0x0404 then c.cancelLoop h
  else if op = 0x0412 then c.cancelWidth h
  else if op = 0x0701 || op = 0x0705 then c.cancelHead h
  else if op = 0x0807 then (c.setCrock fun x => { x with flushes := x.flushes.filter fun f => f.1 != h }).cancelEnd h
  else if op = 0x0D02 then c.cancelPower h
  else if op = 0x0E0F then c.cancelRekey h
  else if op = 0x0E11 then (c.setKeys fun k => { k with jobs := k.jobs.filter fun j => j.handle != h }).cancelEnd h
  else c

/-- CANCEL (R56, Table 02.19). -/
def bodyCancel (x : Ctx) (c : Chip) : Ans × Chip :=
  let h := fld x.ps 0 4
  match c.rec? h with
  | none => no c stNoHandle
  | some r =>
    if x.lvl != 1 && h / 2 ^ 24 != x.iss then no c stDenied 0x0002
    else if r.complete then no c stState 0x0006
    else if r.committed then no c stState 0x0005
    else (ok, (c.updRec h fun (y : HandleRec) => { y with cancelled := true }).cancelOp h r.opcode)

def execCancel (p : Packet) (s : State) : Host.Outcome State Fault Refusal := runCommand 0x0005 p s bodyCancel

end Sys2Proof.Machine
end

