-- ==== Sys2Proof/Machine/SealOps.lean ====
section
/-!
DEFINITION. Chapters 05 and 19: the management channel's receiving side (R45, R132, R133) and the sealing of turns (R469 to R473).
-/
namespace Sys2Proof.Machine

/-! ### The management channel, received (R132, R133) -/

/-- A whole management packet (R45): a command runs only for an authenticated peer, a handshake message goes to the key store; replies
and events are consumed by firmware. -/
def Chip.mgmtPacket (c : Chip) (n lifecycle mtype : Nat) (b : Bytes) : Chip :=
  if mtype = 1 then
    let p := parsePacket (trunkSession n) b
    if (c.sealOf n).authentic then c.receive p.1 p.2 else c.discardPacket (trunkSession n)
  else if mtype = 4 then c.kxRx n lifecycle b
  else c

/-- A whole packet has arrived: in a sealed turn it waits for the turn's tag (R472). -/
def Chip.mgmtWhole (c : Chip) (n lifecycle mtype : Nat) (b : Bytes) : Chip :=
  let y := c.sealOf n
  match y.rx with
  | none => c.mgmtPacket n lifecycle mtype b
  | some r => c.setSeal n { y with rx := some { r with packets := r.packets ++ [(mtype, b)] } }

/-- The packets of a turn whose tag failed are answered and not executed (Table 19.12). -/
def Chip.mgmtFailed (c : Chip) (n mtype : Nat) (b : Bytes) : Chip :=
  if mtype = 1 && (c.sealOf n).authentic then
    let p := (parsePacket (trunkSession n) b).2
    c.postReply { sess := trunkSession n, status := stCertFail, reason := reasonFor p.version.toNat 0x0E10, tag := p.tag.toNat }
  else c

/-- A management packet is discarded and counted (R133); a command among the discarded packets of GET_CMD_COUNTERS too. -/
def Chip.mgmtDiscard (c : Chip) (n mtype : Nat) : Chip :=
  let f := c.frmOf n
  let c := (c.setFrm n { f with mgmtIn := f.mgmtIn.erase mtype }).countFrm n 17 1
  if mtype = 1 then c.discardPacket (trunkSession n) else c

/-- A segment accepted in order joins its packet. -/
def Chip.mgmtJoin (c : Chip) (n lifecycle : Nat) (g : MgmtSeg) : Chip :=
  let f := c.frmOf n
  let c := if g.first && (f.mgmtIn.find g.mtype).isSome then c.mgmtDiscard n g.mtype else c
  let f := c.frmOf n
  let dropping := !g.first && (f.mgmtDrop.find g.mtype).isSome
  let f := { f with mgmtDrop := if g.first || g.last then f.mgmtDrop.erase g.mtype else f.mgmtDrop }
  let c := c.setFrm n f
  if dropping then c
  else if !g.first && (f.mgmtIn.find g.mtype).isNone then c
  else
    let b := (if g.first then [] else f.mgmtIn.get [] g.mtype) ++ g.payload
    let known := b.length ≥ 12
    let want := 32 + fld b 8 4
    if g.mtype = 1 && g.first && known && want > 16384 then
      let c := if g.last then c else c.setFrm n { f with mgmtDrop := f.mgmtDrop.set g.mtype 1 }
      c.mgmtWhole n lifecycle 1 (sliceB b 0 32)
    else if g.mtype = 1 && known && b.length > want then
      let c := c.mgmtDiscard n g.mtype
      if g.last then c else c.setFrm n { c.frmOf n with mgmtDrop := f.mgmtDrop.set g.mtype 1 }
    else if g.last then
      if g.mtype = 1 && b.length != want then c.mgmtDiscard n g.mtype
      else (c.setFrm n { f with mgmtIn := f.mgmtIn.erase g.mtype }).mgmtWhole n lifecycle g.mtype b
    else c.setFrm n { f with mgmtIn := f.mgmtIn.set g.mtype b }

/-- The segment of a good marker (R132, R133): MACK frees segments sent; a segment out of order, or too long, is discarded. -/
def Chip.mgmtSegment (c : Chip) (n lifecycle : Nat) (b : Bytes) : Chip :=
  let mseq := fld b 0 1
  let mack := fld b 1 1
  let ty := fld b 2 1
  let len := fld b 3 1
  let f := c.frmOf n
  let left := f.mgmtOut.filter fun g => !decide ((mack + 256 - g.mseq) % 256 < 128)
  let f := if left.length = f.mgmtOut.length then f else { f with mgmtOut := left, mgmtStall := 0, mgmtResend := none }
  let c := c.setFrm n f
  if ty % 8 = 0 then c
  else if mseq != (f.mgmtRx + 1) % 256 || len > 60 then c
  else
    (c.setFrm n { f with mgmtRx := mseq }).mgmtJoin n lifecycle
      { mseq, mtype := ty % 8, first := bitOf ty 6, last := bitOf ty 7, payload := sliceB b 4 len }

/-- The next segment to send, 64 bytes (R132): one sent again, else the next waiting one, else an empty one. -/
def MgmtSeg.bytes (g : MgmtSeg) (mack : Nat) : Bytes :=
  le 1 g.mseq ++ le 1 mack ++ le 1 (g.mtype + 64 * b2n g.first + 128 * b2n g.last) ++ le 1 g.payload.length ++ sliceB g.payload 0 60

/-- With nothing waiting, the next reply or event of the trunk's session enters the channel (R47). -/
def Chip.mgmtRefill (c : Chip) (n : Nat) : Chip :=
  if !(c.frmOf n).mgmtQ.isEmpty then c
  else
    let s := trunkSession n
    match c.cmd.replies.find? fun r => r.sess == s with
    | some r =>
      let c := { c with cmd := { c.cmd with replies := c.cmd.replies.erase r } }
      c.mgmtSend n 2 (r.head ++ r.data)
    | none =>
      let k := trunkQKey n
      let q := c.cmd.queues.get {} k
      match q.recs with
      | [] => c
      | e :: rest =>
        let c := { c with cmd := { c.cmd with queues := c.cmd.queues.set k { q with recs := rest } } }
        (c.flushOverflow k).mgmtSend n 3 e.bytes

/-- Choose the segment of a marker. -/
def Chip.mgmtNext (c : Chip) (n : Nat) : Chip × Bytes :=
  let c := c.mgmtRefill n
  let f := c.frmOf n
  let f := if f.mgmtOut.isEmpty then f else { f with mgmtStall := f.mgmtStall + 1 }
  let again := match f.mgmtResend with | none => none | some i => f.mgmtOut[i]?
  match again with
  | some g =>
    let i := f.mgmtResend.getD 0
    ((c.setFrm n { f with mgmtResend := if i + 1 < f.mgmtOut.length then some (i + 1) else none }).countFrm n 16 1, g.bytes f.mgmtRx)
  | none =>
    match f.mgmtQ with
    | g :: rest =>
      if f.mgmtOut.length ≥ 16 then (c.setFrm n f, ({} : MgmtSeg).bytes f.mgmtRx)
      else
        let g := { g with mseq := (f.mgmtTx + 1) % 256 }
        (c.setFrm n { f with mgmtQ := rest, mgmtOut := f.mgmtOut ++ [g], mgmtTx := g.mseq }, g.bytes f.mgmtRx)
    | [] => (c.setFrm n f, ({} : MgmtSeg).bytes f.mgmtRx)

/-! ### Sealing (R469 to R473) -/

/-- The IV of a turn (R470). -/
def sealIv (turn : Nat) (dir : Bool) : Bytes := be 6 turn ++ le 1 (if dir then 0 else 1) ++ zeros 5

/-- The tag of a turn's contents; the payloads kept are those in clear for the transmitter (`clear`), ciphertext for the receiver. -/
def SealTurn.tag (t : SealTurn) (dir clear : Bool) : Bytes :=
  let iv := sealIv t.turn dir
  sliceB (Config.gcmTag t.key iv t.aad (if clear then sliceB (Config.gcmCrypt t.key iv t.data) 0 t.data.length else t.data)) 0 16

/-- Payload bytes under a turn's key, those before them being `t.data`. -/
def SealTurn.crypt (t : SealTurn) (dir : Bool) (b : Bytes) : Bytes :=
  sliceB (Config.gcmCrypt t.key (sealIv t.turn dir) (t.data ++ b)) t.data.length b.length

/-- Keys by the low 8 bits of the epoch (R471): the present ones, the next, the ones before. -/
def Seal.keysOf (x : Seal) (epoch : Nat) : Option LinkKeys :=
  let ok := fun (k : LinkKeys) => k.epoch % 256 = epoch
  match x.keys with
  | some k => if ok k then some k else
      match x.next with
      | some (k, _) => if ok k then some k else old ok
      | none => old ok
  | none => none
where
  /-- the keys before the present ones -/
  old (ok : LinkKeys → Bool) : Option LinkKeys :=
    match x.prev with
    | some (k, _) => if ok k then some k else none
    | none => none

/-- SEAL_STATE (0x0E02). -/
def Chip.postSeal (c : Chip) (n epoch : Nat) : Chip := c.post 0x0E02 0 (n + 256 + epoch * 2 ^ 32)

/-- The next epoch takes over at a turn (R471) and the old CHAIN is zeroized (R468); a REKEY that asked for it completes. -/
def Chip.sealRotate (c : Chip) (n : Nat) : Chip :=
  let x := c.sealOf n
  match x.next, x.keys with
  | some (k, first), some old =>
    let c := c.setSeal n { x with keys := some k, prev := some ({ old with chain := [] }, first), next := none, turnsUsed := 0, rekey := none }
    let c := c.postSeal n k.epoch
    match x.rekey with
    | some h => c.complete h stOk 0 0
    | none => c
  | _, _ => c

/-- The transmitter's turn ends and the next begins (R469, R470, R471). -/
def Chip.sealTxTurn (c : Chip) (n turn : Nat) : Chip :=
  let x := c.sealOf n
  let x := match x.tx with
    | some t => { x with txTag := some (t.tag x.initiator true), lastSealed := t.turn, tx := none }
    | none => { x with txTag := none }
  let go := match x.txFirst with | some s => !seqBefore 48 turn s && x.keys.isSome | none => false
  if !go then c.setSeal n x
  else
    let ended := x.txTag.isSome
    let x := match x.next, x.keys with
      | none, some k =>
        if ended && !seqBefore 48 x.lastSealed turn then { x with next := some (k.next x.initiator, turn) }
        else if x.turnsUsed + 64 ≥ 2 ^ 32 then { x with next := some (k.next x.initiator, (turn + 9) % 2 ^ 48) }
        else x
      | some (k, _), _ => if ended && !seqBefore 48 x.lastSealed turn then { x with next := some (k, turn) } else x
      | _, _ => x
    let c := c.setSeal n x
    let c := match x.next with
      | some (_, first) => if seqBefore 48 turn first then c else c.sealRotate n
      | none => c
    let x := c.sealOf n
    match x.keys with
    | none => c
    | some k =>
      let fresh := !x.sealedOn
      let c := c.setSeal n { x with sealedOn := true, turnsUsed := x.turnsUsed + 1, tx := some { turn, epoch := k.epoch, key := k.kTx } }
      if fresh then (c.postSeal n k.epoch).conditionBack n else c

/-- PROTECT of a marker (Table 19.11). -/
def Seal.protect (x : Seal) (spoke : Nat) : Bytes :=
  let change := match x.next with
    | some (_, t) => t
    | none => if x.tx.isSome then 0 else x.txFirst.getD 0
  let flags := b2n x.tx.isSome + 2 * b2n (spoke = 0 && x.txTag.isSome) + 4 * b2n x.next.isSome + 8 * b2n (x.cfg.mode == 1)
  le 1 flags ++ le 1 (match x.tx with | some t => t.epoch | none => 0) ++ be 6 change

/-- The outcome of a received turn's tag (Table 19.12); `tag` is none when its turn marker was lost. -/
def Chip.sealOutcome (c : Chip) (n lifecycle : Nat) (t : SealTurn) (tag : Option Bytes) : Chip :=
  let x := c.sealOf n
  let c := c.setSeal n { x with rx := none }
  let good := !t.bad && tag == some (t.tag (!x.initiator) false)
  if good then
    let c := c.setSeal n { c.sealOf n with failRun := 0 }
    let c := t.held.foldl (fun c y => c.fabricIn n y) c
    t.packets.foldl (fun c p => c.mgmtPacket n lifecycle p.1 p.2) c
  else
    let unver := t.bad || tag.isNone
    let c := c.sealPoison n unver t
    let c := t.packets.foldl (fun c p => c.mgmtFailed n p.1 p.2) c
    let x := c.sealOf n
    if !unver && x.failRun ≥ x.cfg.tagFailMax then c.linkDown n 0x0E10 else c

/-- A sealed codeword or marker of the turn being received was lost (R472). -/
def Chip.sealBad (c : Chip) (n : Nat) : Chip :=
  let x := c.sealOf n
  match x.rx with
  | none => c
  | some t => c.setSeal n { x with rx := some { t with bad := true } }

/-- A good marker under seal: the turn before is checked at spoke 0, the turn it opens begins, and its bytes join the additional data
(R470 to R472). -/
def Chip.sealRxMarker (c : Chip) (n lifecycle turn spoke : Nat) (d : Bytes) : Chip :=
  let flags := fld d 120 1
  let epoch := fld d 121 1
  let change := fldBe d 122 6
  let x := c.sealOf n
  let last := x.rx.map fun t => t.turn
  let c := if spoke = 0 then
      (match x.rx with
       | some t => c.sealOutcome n lifecycle t (if bitOf flags 1 then some (sliceB d 192 16) else none)
       | none => c)
    else c
  if !c.inData n then c
  else
    let x := c.sealOf n
    let x := if !bitOf flags 0 && change != 0 && x.rxFirst.isNone then { x with rxFirst := some change } else x
    let x := match x.keys, x.next with
      | some k, none =>
        if bitOf flags 2 && change != 0 && k.epoch % 256 = epoch then { x with next := some (k.next x.initiator, change) }
        else match last with
          | some t => if spoke = 0 && bitOf flags 0 && !seqBefore 48 t turn && k.epoch % 256 != epoch then
              { x with next := some (k.next x.initiator, turn) } else x
          | none => x
      | _, some (k, t) => if bitOf flags 2 && change != 0 && seqBefore 48 change t then { x with next := some (k, change) } else x
      | _, _ => x
    let c := c.setSeal n x
    if !bitOf flags 0 then c
    else
      let x := if spoke = 0 then
          (match x.keysOf epoch with
           | some k => { x with rxFirst := some (x.rxFirst.getD turn), rx := some { turn, epoch := k.epoch, key := k.kRx } }
           | none => x)
        else x
      match x.rx with
      | none => c.setSeal n x
      | some t => c.setSeal n { x with rx := some { t with aad := t.aad ++ sliceB d 0 192 ++ sliceB d 208 108 } }

end Sys2Proof.Machine
end

