-- ==== Sys2Proof/Machine/Chainring.lean ====
section
/-!
DEFINITION. Chapters 06 and 08: cells presented by endpoints, link slots, fabric spokes, the promise and the chainring's commands.
-/
namespace Sys2Proof.Machine

/-! ### Presenting cells (R19, R214, R215, R221, R239, R240) -/

/-- Bring a tunnel's policer up to date: POLICE_RATE cells per 125 µs, capped at POLICE_DEPTH (R239). -/
def Tun.police (t : Tun) (rate depth now : Nat) : Tun :=
  let num := rate * 65536 * (now - t.tokensAt) + t.tokensFrac
  let tk := t.tokens + num / turnPs
  if tk ≥ depth * 65536 then { t with tokens := depth * 65536, tokensFrac := 0, tokensAt := now }
  else { t with tokens := tk, tokensFrac := num % turnPs, tokensAt := now }

/-- The source sends no cell now: FLOW_CTL's window is used up, or a DRAIN has finished its unit (R203, R209). -/
def Tun.heldBack (t : Tun) : Bool :=
  (match t.creditSeq with | some k => !seqBefore 16 t.nextSeq k | none => false) || (t.state == .closing && !t.draining)

/-- Take the first waiting cell of a tunnel out of a source. -/
def takeFirst (tid : Nat) : List Cell → List Cell
  | [] => []
  | x :: r => if x.tid = tid then r else x :: takeFirst tid r

/-- The presented cell has been taken: it leaves its source and its SEQ is used. -/
def Chip.tookCell (c : Chip) (p : Nat) (x : Cell) : Chip :=
  let rest := takeFirst x.tid (c.fab.src.get [] p)
  let c := { c with fab := { c.fab with src := if rest.isEmpty then c.fab.src.erase p else c.fab.src.set p rest } }
  let t := c.tunOf x.tid
  c.setTun x.tid { t with nextSeq := (t.nextSeq + 1) % 65536, unitOpen := !x.l }

/-- A contracted cell that conforms is presented: it takes a link slot within its output's budget, before the trunk inputs; beyond the
budget only when no trunk cell waits there (R214). -/
def Chip.presentConform (c : Chip) (p : Nat) (x : Cell) : Chip :=
  (c.tookCell p x).linkCell (c.tunOf x.tid).outPort { cell := x, pool := .reserve }

/-- Count a policed cell of a tunnel (Table 09.6). -/
def Chip.countPoliced (c : Chip) (tid : Nat) (f : FwQueue → FwQueue) : Chip :=
  let p := (c.tunOf tid).outPort
  c.setFw p tid (f (c.fwOf p tid))

/-- An endpoint presents the first waiting cell of a tunnel at its port (R214): it is written and linked, or left at the source, as it is
where the output's link slot goes to a trunk cell, where the port is not there (R14), or where cells are not forwarded (R71). Each
CELL_PRESENT is one link cycle of the output with one endpoint presenting (DEDUCED, log entry 48). -/
def Chip.presentCell (c : Chip) (p tid : Nat) : Chip :=
  let t := c.tunOf tid
  match (c.fab.src.get [] p).find? fun x => x.tid == tid with
  | none => c
  | some x =>
    if !(c.portOn p && c.forwards) || !(t.state == .open || t.state == .closing) || t.index != 0 || t.inPort != p || t.heldBack then c
    else
      let x := { x with seq := t.nextSeq }
      let rec? := c.certRec tid
      let slot := !c.backlogged t.outPort
      if c.contracted tid then
        let pol := match rec? with | some r => r.source | none => false
        if !pol || t.polMode = 2 then
          if !slot && !c.budgetLeft t.outPort then c
          else (if pol then c.countPoliced tid fun f => { f with conform := sat32 f.conform 1 } else c).presentConform p x
        else
          let r : Nat × Nat := match rec? with | some r => (r.policeRate, r.policeDepth) | none => (0, 0)
          let t := t.police r.1 r.2 c.clk.powerPs
          if t.tokens ≥ 65536 then
            if !slot && !c.budgetLeft t.outPort then c
            else ((c.setTun tid { t with tokens := t.tokens - 65536 }).countPoliced tid fun f => { f with conform := sat32 f.conform 1 }).presentConform p x
          else if t.polMode = 1 then
            (((c.setTun tid t).countPoliced tid fun f => { f with dropped := sat32 f.dropped 1 }).tookCell p x).dropCell t.outPort x
          else
            let c := c.setTun tid t
            match (if slot then c.bestEffortPool tid true else none) with
            | none => c
            | some pool =>
              ((c.countPoliced tid fun f => { f with demoted := sat32 f.demoted 1 }).tookCell p x).linkCell t.outPort { cell := x, pool, demoted := true }
      else
        match (if !slot then none else if p = 10 then c.systemPool else c.bestEffortPool tid false) with
        | none => c
        | some pool => (c.tookCell p x).linkCell t.outPort { cell := x, pool }

/-- CELL_PRESENT (R214): the endpoint at `port` presents the next waiting cell of tunnel `tid`, which may finish the unit of a DRAIN (R209);
at F9 this makes room in the inbound buffer (R397). -/
def execCellPresent (port : Fin 11) (tid : Nat) (s : State) : Host.Outcome State Fault Refusal :=
  onChip s fun c =>
    let c := (c.drainWaiting.presentCell port.val tid).drainCheck tid
    if port.val = 9 then c.inboundRoom else c

/-- BACKLOG_LINK (R214): one link slot of an output takes a waiting trunk cell. -/
def execBacklogLink (port : Fin 11) (s : State) : Host.Outcome State Fault Refusal :=
  onChip s fun c => c.linkSlot port.val

/-- FABRIC_SPOKE_START (R159): the clock reaches the next fabric spoke; every output's budget is whole again; at a turn
boundary the suspended tunnels are counted (Table 21.1), and a pending step may be put off (R262). -/
def execFabricSpokeStart (s : State) : Host.Outcome State Fault Refusal :=
  onChip s fun c =>
    let c := c.pass c.toSpoke
    let c := match c.clk.adj with
      | some (_, _, e) => if c.clk.localPs ≥ e then { c with clk := { c.clk with adj := none } } else c
      | none => c
    let c := if c.spoke = 0 then c.bump 30 (c.tids fun i t => t.state.live && t.promise.suspended && c.contracted i).length else c
    let c := if c.spoke = 0 then c.stepDefer else c
    { c with fab := { c.fab with ports := c.fab.ports.mapAll fun _ o => { o with spent := 0 } } }

/-! ### The promise (R167) -/

/-- The turn boundary at which a promise may be restored has come: the second after the turn of its last cause, or in which a condition came
to hold again (R167). -/
def Chip.restoreDue (c : Chip) (p : Promise) : Bool := c.spoke = 0 && !seqBefore 48 c.turn ((p.lastTurn + 2) % 2 ^ 48)

/-- PROMISE_RESTORE (R167): at such a boundary, when every condition holds. -/
def execPromiseRestore (tid : Nat) (s : State) : Host.Outcome State Fault Refusal :=
  onChip s fun c =>
    let t := c.tunOf tid
    let c := c.promiseLook tid
    let p := (c.tunOf tid).promise
    if p.suspended && t.state.live && c.restoreDue p && c.promiseHolds tid then
      let c := c.setTun tid { t with promise := { p with suspended := false, since := c.turn } }
      let d := promiseDetail p.port tid c.turn
      ((c.post 0x03E1 p.cause d).postTun tid (c.event 0x03E1 p.cause d)).sample 7 (logBin ((c.turn + 2 ^ 48 - p.since) % 2 ^ 48))
    else c

/-- The geometry of the variant in use that carries a contracted tunnel, 0 for none (Table 06.12). -/
def Chip.variantOf (c : Chip) (tid : Nat) : Nat :=
  match c.certRec tid, c.activeGear with
  | some r, some g =>
    if r.hop = 0 then g.full
    else if c.inData r.outPort && g.carries r.outPort (c.geom r.outPort) tid then c.geom r.outPort else 0
  | _, _ => 0

/-- An L2 issuer's own tunnel. -/
def Chip.ownsTunnel (c : Chip) (iss tid : Nat) : Bool :=
  let t := c.tunOf tid
  t.state != .free && t.index = 0 && t.owner = iss

/-- GET_PROMISE (Tables 06.11 to 06.13). -/
def bodyGetPromise (x : Ctx) (c : Chip) : Ans × Chip :=
  let tid := fld x.ps 0 2
  let t := c.tunOf tid
  let p := t.promise
  if tid > 1023 || !rsvd x.ps 2 2 then no c stParam
  else if x.lvl = 2 && !c.ownsTunnel x.iss tid then no c stDenied 0x0002
  else if !t.state.live then (ok (le 2 tid ++ [0xFF, 0] ++ le 2 0 ++ [0xFF] ++ zeros 25), c)
  else
    let kept := c.contracted tid
    let ps := if !kept then 0 else if p.suspended then 2 else 1
    let v := if kept then c.variantOf tid else 0
    let bound := match c.certRec tid with | some r => if v = 0 then 0 else (r.var v).bound | none => 0
    (ok (le 2 tid ++ le 1 t.cls ++ le 1 ps ++ le 2 p.cause ++ le 1 p.port ++ le 1 v ++ le 6 p.since ++ zeros 2 ++ le 4 p.suspensions ++
      le 4 p.causes ++ le 4 bound ++ zeros 4), c)

def execGetPromise (p : Packet) (s : State) : Host.Outcome State Fault Refusal := runCommand 0x03F0 p s bodyGetPromise

/-- GET_CHAINRING_COUNTERS (R121). -/
def bodyGetChainringCounters (x : Ctx) (c : Chip) : Ans × Chip :=
  let p := fld x.ps 0 1
  let ctl := fld x.ps 1 1
  if p > 10 || ctl > 1 || !rsvd x.ps 2 2 then no c stParam
  else if ctl = 1 && x.lvl != 1 then no c stDenied 0x0002
  else
    let o := c.port p
    let d := ((List.range 8).map fun i => le 8 (if p ≥ 4 && 1 ≤ i && i ≤ 5 then 0 else o.cnt.get 0 i)).flatten
    (ok d, if ctl = 1 then c.setPort p { o with cnt := [] } else c)

def execGetChainringCounters (p : Packet) (s : State) : Host.Outcome State Fault Refusal := runCommand 0x03F1 p s bodyGetChainringCounters

end Sys2Proof.Machine
end

