-- ==== Sys2Proof/Machine/Tunnels.lean ====
section
/-!
DEFINITION. Chapter 08: control cells, tunnel timers, the sieve and the tunnel commands.
-/
namespace Sys2Proof.Machine

/-- A cell at F10 that firmware acts on now: one that waits there is taken out (R200). -/
def Chip.takeF10 (c : Chip) (n : Nat) (x : Cell) : Chip :=
  { c with fab := { c.fab with f10 := c.fab.f10.erase (n, x) } }

/-- The version that the destination of a type chooses, the highest in both ranges (R207). -/
def OpenReq.version (r : OpenReq) : Nat := Nat.min r.maxVer (typeMaxVer r.ty)

/-- OPEN_CELL_RX (R205): an OPEN from trunk `n` is checked, refused upstream, forwarded, or answered by the destination. -/
def Chip.openRx (c : Chip) (n : Nat) (x : Cell) : Chip :=
  let c := c.takeF10 n x
  let r := openOfCell n x.payload
  let i := r.index
  match c.checkOpen r i none with
  | some (st, rs) => c.sendFw n (ctlCell 0 3 (ackPayload r.tid st rs 0 i r.openId (zeros 16)))
  | none =>
    let c := c.newContext r.tid (r.context i 0xFF)
    if i < r.hops then c.sendFw (r.out i) (ctlCell 0 2 (r.payload (i + 1)))
    else
      let ans := (c.endpointAnswer (r.dst 0xFF)).2
      let c := c.tunnelOpened r.tid r.version
      c.sendFw n (ctlCell 0 3 (ackPayload r.tid 0 0 r.version 0xFF r.openId ans))

def execOpenCellRx (n : Fin 4) (cell : Cell) (s : State) : Host.Outcome State Fault Refusal :=
  onChip s fun c => c.openRx n.val cell

/-- OPEN_ACK_RX (R208, R519): contexts on the way open or are quarantined; device 0's handle completes. -/
def Chip.openAckRx (c : Chip) (n : Nat) (x : Cell) : Chip :=
  let c := c.takeF10 n x
  let b := x.payload
  let tid := fldBe b 0 2 % 1024
  let st := fldBe b 2 2
  let rs := fldBe b 4 2
  let ver := fldBe b 6 1
  let fail := fldBe b 7 1
  let t := c.tunOf tid
  if t.state == .quarantine || t.state == .free then
    { c with fab := { c.fab with strayAcks := sat32 c.fab.strayAcks 1 } }
  else if !(t.state == .opening) || t.outPort != n || t.openId != fldBe b 8 4 then c
  else
    let c := c.setTun tid { t with answer := if t.index = 0 then sliceB b 12 16 else [] }
    let c := if st = stOk then c.tunnelOpened tid ver else (c.clearSrc tid).quarantine tid rs
    if t.index > 0 then c.sendFw t.inPort (ctlCell 0 3 b)
    else match t.openHandle with
      | none => c
      | some h => (c.setTun tid { c.tunOf tid with openHandle := none }).complete h st rs (ver % 256 + fail * 256)

def execOpenAckRx (n : Fin 4) (cell : Cell) (s : State) : Host.Outcome State Fault Refusal :=
  onChip s fun c => c.openAckRx n.val cell

/-- CLOSE_CELL_RX (R209 to R211): a CLOSE is acted on, forwarded the way it travels, and answered at the ends. -/
def Chip.closeRx (c : Chip) (n : Nat) (x : Cell) : Chip :=
  let c := c.takeF10 n x
  let b := x.payload
  let tid := fldBe b 0 2 % 1024
  let mode := fldBe b 2 1
  let cause := fldBe b 4 2
  let id := fldBe b 8 4
  let t := c.tunOf tid
  if !t.state.live then
    (if mode = 1 && t.index = 0 then c.drainAborted tid cause else c).sendFw n (ctlCell 0 5 (closeAckPayload tid id 0))
  else if mode = 0 then
    if t.state == .open && t.index > 0 && t.inPort = n then c.startDrain tid cause (fldBe b 6 2) id (fldBe b 12 1) else c
  else
    let down := decide (t.index > 0) && t.inPort == n
    let c := c.abortHere tid cause
    if down then
      if t.index < t.hops then c.sendFw t.outPort (ctlCell 0 4 b)
      else c.sendFw n (ctlCell 0 5 (closeAckPayload tid id (c.tunOf tid).discarded))
    else if t.index > 0 then c.sendFw t.inPort (ctlCell 0 4 b)
    else c.sendFw n (ctlCell 0 5 (closeAckPayload tid id (c.tunOf tid).discarded))

def execCloseCellRx (n : Fin 4) (cell : Cell) (s : State) : Host.Outcome State Fault Refusal :=
  onChip s fun c => c.closeRx n.val cell

/-- CLOSE_ACK_RX (R209, R210): the originator's handle counts it; other devices pass it on. -/
def Chip.closeAckRx (c : Chip) (n : Nat) (x : Cell) : Chip :=
  let c := c.takeF10 n x
  let b := x.payload
  let tid := fldBe b 0 2 % 1024
  let id := fldBe b 2 4
  let t := c.tunOf tid
  match c.fab.closes.find? fun k => k.tid == tid && k.handle == id with
  | some k =>
    let bit := if k.out == some n then 0 else 1
    let acks := if bitOf k.acks bit then k.acks - 2 ^ bit else k.acks
    let rest := c.fab.closes.filter fun y => y != k
    if acks = 0 then ({ c with fab := { c.fab with closes := rest } }).closeDone k.handle stOk 0
    else { c with fab := { c.fab with closes := rest ++ [{ k with acks }] } }
  | none =>
    if t.state == .free || t.aborter then c
    else if t.index > 0 && t.inPort = n then (if t.index < t.hops then c.sendFw t.outPort (ctlCell 0 5 b) else c)
    else if t.index > 0 then c.sendFw t.inPort (ctlCell 0 5 b)
    else c

def execCloseAckRx (n : Fin 4) (cell : Cell) (s : State) : Host.Outcome State Fault Refusal :=
  onChip s fun c => c.closeAckRx n.val cell

/-- FLOW_CELL_RX (R203): a FLOW cell reaches the source, or goes on upstream; one that comes from upstream has no effect (DEDUCED, log
entry 48: the spec gives FLOW no use there). -/
def Chip.flowRx (c : Chip) (n : Nat) (x : Cell) : Chip :=
  let c := c.takeF10 n x
  let t := c.tunOf x.tid
  if !t.state.live || t.outPort != n then c
  else if t.index = 0 then
    if t.creditSeq.isSome then c.setTun x.tid { t with creditSeq := some (fldBe x.payload 0 2) } else c
  else c.sendFw t.inPort x

def execFlowCellRx (n : Fin 4) (cell : Cell) (s : State) : Host.Outcome State Fault Refusal :=
  onChip s fun c => c.flowRx n.val cell

/-- OPEN_TIMEOUT (R208). -/
def execOpenTimeout (tid : Nat) (s : State) : Host.Outcome State Fault Refusal :=
  onChip s fun c =>
    let t := c.tunOf tid
    if t.state == .opening && t.index = 0 then c.openFail tid stTimeout 0x0209 else c

/-- OPENING_TIMEOUT (R519). -/
def execOpeningTimeout (tid : Nat) (s : State) : Host.Outcome State Fault Refusal :=
  onChip s fun c =>
    let t := c.tunOf tid
    if t.state == .opening && t.index > 0 then c.abortClose tid 0x0209 else c

/-- DRAIN_TURNS_EXPIRY (R209): the rest of the tunnel's cells is discarded. -/
def execDrainTurnsExpiry (tid : Nat) (s : State) : Host.Outcome State Fault Refusal :=
  onChip s fun c =>
    if (c.tunOf tid).state == .closing && !(c.tunOf tid).draining then ((c.dropTunnel tid 0x020D).clearSrc tid).drainEnd tid 0x020D else c

/-- CLOSE_TIMEOUT (R209, R210): a close handle without its answers; a DRAIN's time runs from its CLOSE. -/
def execCloseTimeout (handle : Nat) (s : State) : Host.Outcome State Fault Refusal :=
  onChip s fun c =>
    match c.fab.closes.find? fun k => k.handle == handle && !(k.drain && (c.tunOf k.tid).openId == handle && (c.tunOf k.tid).draining) with
    | none => c
    | some k =>
      ({ c with fab := { c.fab with closes := c.fab.closes.filter fun y => y.handle != handle } }).closeDone handle stTimeout (if k.drain then 0x020D else 0)

/-- QUARANTINE_END (R202): the context is FREE. -/
def execQuarantineEnd (tid : Nat) (s : State) : Host.Outcome State Fault Refusal :=
  onChip s fun c =>
    if (c.tunOf tid).state == .quarantine then { c with fab := { c.fab with tun := c.fab.tun.erase tid } } else c

/-- SF_TIMEOUT (R225, R248): the unfinished message of a store-and-forward queue is discarded; waiting MESSAGE captures are written. -/
def execSfTimeout (port : Fin 11) (tid : Nat) (s : State) : Host.Outcome State Fault Refusal :=
  onChip s fun c =>
    let c := c.flushMsgs port.val tid
    match openMsg (c.queue port.val tid) with
    | x :: _ => if x.sf then c.sfDiscard port.val tid else c
    | [] => c

/-- The lines of lost lists that satisfy `p`. -/
def lostLines (l : List LostList) (p : LostList → Bool) : Nat := (l.filter p).foldl (fun a k => a + k.lines) 0

/-- The owner of a lost list is live (R226): a queue whose tunnel is, or the replay of a trunk in DATA. -/
def Chip.ownerLive (c : Chip) (owner : Nat) : Bool :=
  if owner ≥ 16384 then c.inData (owner - 16384) else owner % 1024 < 2 || (c.tunOf (owner % 1024)).state.live

/-- Live owners whose depth counter misses lines that descriptors still give them (R226). -/
def Chip.mismatches (c : Chip) : Nat :=
  (c.fab.pot.lost.foldl (fun (l : List Nat) k => if k.lines > 0 && c.ownerLive k.owner then insertSorted k.owner l else l) []).length

/-- SIEVE_AUDIT (R226, R227): lines lost with a descriptor are on no list; they are found leaked in the second audit that flags them, and
counted then. A live owner that still holds some by its descriptors is an ACCOUNTING mismatch. -/
def execSieveAudit (s : State) : Host.Outcome State Fault Refusal :=
  onChip s fun c =>
    let p := c.fab.pot
    let found := lostLines p.lost fun k => decide (k.audits ≥ 1)
    let new := lostLines p.lost fun k => k.audits = 1
    let back := if p.reclaim then found else 0
    let left := (if p.reclaim then p.lost.filter fun k => k.audits = 0 else p.lost).map fun k => { k with audits := k.audits + 1 }
    let bad := c.mismatches
    let c := c.setPot fun k => { k with leaked := sat32 k.leaked new, reclaimed := sat32 k.reclaimed back, accounting := sat32 k.accounting bad,
                                        lost := left }
    if found = 0 then c else c.post 0x0203 0 (found + back * 2 ^ 32)

/-! ### Commands -/

/-- The fields of TUNNEL_OPEN (Table 08.9) as an OPEN. -/
def openOfParams (b : Bytes) (handle : Nat) : OpenReq :=
  { tid := fld b 0 2, ty := fld b 2 1, cls := fld b 3 1, minVer := fld b 4 1, maxVer := fld b 5 1, oflags := fld b 6 2, partner := fld b 8 2,
    hops := fld b 10 1, index := 0, inPort := fld b 11 1, route := (sliceB b 12 9).map BitVec.toNat, window := fld b 28 2, openId := handle,
    guarantee := fld b 24 4, params := sliceB b 32 16, drainTurns := if fld b 30 2 = 0 then 8 else fld b 30 2 }

/-- Bytes of TYPE_PARAMS that the destination endpoint's chapter uses, for a type ending at a port (R283, R299, R325, R349, R360, R403); the
rest are reserved. A firmware destination, and F7 for a type it does not serve, define none and reserve none. -/
def typeParamsUsed (ty port : Nat) : Nat :=
  match port with
  | 4 => 1 | 5 => 3 | 6 => 1 | 7 => if ty = 2 then 2 else 16 | 8 => 2 | 9 => 1 | _ => 16

/-- A field of TUNNEL_OPEN is outside its range, or a reserved bit set (Table 08.9, R10). -/
def openParamsBad (b : Bytes) (r : OpenReq) : Bool :=
  let alpha := sfld b 21 1
  let flow := bitOf r.oflags 2
  decide (r.tid > 1023) || decide (r.oflags > 15) || decide (alpha < -4) || decide (alpha > 3) || decide (r.guarantee > 65536)
    || (r.cls < 2 && r.guarantee != 0) || (flow && (r.window < 1 || r.window > 4096)) || (!flow && r.window != 0) || decide (r.drainTurns > 4096)
    || !rsvd b 22 2 || !rsvd b 48 16 || (let used := typeParamsUsed r.ty (r.out r.hops)
      !rsvd r.params used (16 - used))

/-- TUNNEL_OPEN (R205, R208). -/
def bodyTunnelOpen (x : Ctx) (c : Chip) : Ans × Chip :=
  let r := openOfParams x.ps x.handle
  if r.tid < 16 then no c stParam 0x0201
  else if openParamsBad x.ps r then no c stParam
  else if x.lvl = 2 && r.inPort != 4 then no c stDenied 0x0002
  else match c.checkOpen r 0 (some x.iss) with
    | some (st, rs) => no c st rs
    | none =>
      if x.iss < 64 && c.tunnelsSpent x.iss then no c stNoResource 0x0601
      else
      let t : Tun := { r.context 0 x.iss with sess := some x.sess, evq := x.evq, alpha := sfld x.ps 21 1, openHandle := some x.handle }
      let c := c.newContext r.tid t
      if r.hops = 0 then
        let ans := (c.endpointAnswer (r.dst x.iss)).2
        let c := c.setTun r.tid { c.tunOf r.tid with openHandle := none, answer := ans }
        ({ accepted with done := some (stOk, 0, r.version + 0xFF00) }, c.tunnelOpened r.tid r.version)
      else (accepted, c.sendFw (r.out 0) (ctlCell 0 2 (r.payload 1)))

def execTunnelOpen (p : Packet) (s : State) : Host.Outcome State Fault Refusal := runCommand 0x0201 p s bodyTunnelOpen

/-- Device 0 begins a DRAIN (R209): the unit in progress is finished first; only its cells are still sent. -/
def Chip.drainHere (c : Chip) (tid h : Nat) : Chip :=
  let t := c.tunOf tid
  let k : CloseRec := { tid, handle := h, acks := 1, drain := true, out := if t.hops > 0 then some t.outPort else none }
  let c := { c with fab := { c.fab with closes := c.fab.closes ++ [k] } }
  (c.setTun tid { t with state := .closing, closeCause := 0x0213, openId := h, draining := true }).drainCheck tid

/-- TUNNEL_CLOSE (R209 to R211, R230). -/
def bodyTunnelClose (x : Ctx) (c : Chip) : Ans × Chip :=
  let tid := fld x.ps 0 2
  let mode := fld x.ps 2 1
  let t := c.tunOf tid
  if tid > 1023 || mode > 1 || !rsvd x.ps 3 1 then no c stParam
  else if tid < 16 then no c stParam 0x0201
  else if x.lvl = 2 && !c.ownsTunnel x.iss tid then no c stDenied 0x0002
  else if !t.state.live then no c stState 0x020F
  else if mode = 0 then
    if t.index > 0 then no c stParam 0x0210
    else if t.state == .opening then no c stState 0x020F
    else if t.state == .closing then
      (busyWith (match c.fab.closes.find? fun k => k.tid == tid && k.drain && k.handle == t.openId with | some k => k.handle | none => 0), c)
    else
      let c := c.drainHere tid x.handle
      let ended := !(c.fab.closes.any fun k => k.handle == x.handle)
      ({ accepted with committed := true, done := if ended then some (stOk, 0, 0) else none }, c)
  else
    let c := c.abortClose tid 0x0213 (some x.handle)
    ({ accepted with committed := true, done := if t.hops = 0 then some (stOk, 0, 0) else none }, c)

def execTunnelClose (p : Packet) (s : State) : Host.Outcome State Fault Refusal := runCommand 0x0202 p s bodyTunnelClose

/-- State code of a context (Table 08.3). -/
def TState.code : TState → Nat
  | .free => 0 | .opening => 1 | .open => 2 | .closing => 3 | .quarantine => 4

/-- GET_TUNNEL's response (Table 08.11). -/
def Chip.tunnelRecord (c : Chip) (tid : Nat) : Bytes :=
  let t := c.tunOf tid
  if t.state == .free then le 2 tid ++ zeros 62
  else
    let held := c.frm.foldl (fun a e => a + (e.2.held.filter fun h => h.cell.tid == tid).length) 0
    let copies := c.frm.foldl (fun a e => a + (e.2.copies.filter fun h => h.cell.tid == tid).length) 0
    le 2 tid ++ le 1 t.state.code ++ le 1 t.ty ++ le 1 t.cls ++ le 1 (c.served tid) ++ le 1 t.version ++ le 1 t.hops ++ le 1 t.index ++
      le 1 t.inPort ++ le 1 t.outPort ++ le 1 t.owner ++ le 2 t.oflags ++ le 2 t.partner ++ le 2 t.evq ++
      le 1 (b2n (bitOf (c.port t.outPort).fwd t.cls)) ++ le 1 (unsigned 8 t.alpha) ++ le 2 t.nextSeq ++ le 2 t.window ++ le 4 t.guarantee ++
      le 4 (c.queue t.outPort tid).length ++ le 4 held ++ le 4 copies ++ le 6 t.openTurn ++ le 2 t.drainTurns ++ le 8 t.cellsOut ++
      le 4 t.discarded ++ le 4 t.gaps

/-- GET_TUNNEL (R230). -/
def bodyGetTunnel (x : Ctx) (c : Chip) : Ans × Chip :=
  let tid := fld x.ps 0 2
  if tid > 1023 || !rsvd x.ps 2 2 then no c stParam
  else if x.lvl = 2 && !c.ownsTunnel x.iss tid then no c stDenied 0x0002
  else (ok (c.tunnelRecord tid), c)

def execGetTunnel (p : Packet) (s : State) : Host.Outcome State Fault Refusal := runCommand 0x0203 p s bodyGetTunnel

/-- LIST_TUNNELS (R230). -/
def bodyListTunnels (x : Ctx) (c : Chip) : Ans × Chip :=
  let from_ := fld x.ps 0 2
  let n := fld x.ps 2 2
  if from_ > 1023 || n < 1 || n > 1024 then no c stParam
  else
    let es := ((c.fab.tun.filter fun e => decide (e.1 ≥ from_) && e.2.state != .free).take n).map fun e =>
      le 2 e.1 ++ le 1 e.2.state.code ++ le 1 e.2.ty ++ le 1 e.2.cls ++ le 1 e.2.inPort ++ le 1 e.2.outPort ++ le 1 e.2.owner
    (ok es.flatten, c)

def execListTunnels (p : Packet) (s : State) : Host.Outcome State Fault Refusal := runCommand 0x0204 p s bodyListTunnels

/-- SET_FORWARDING (R224). -/
def bodySetForwarding (x : Ctx) (c : Chip) : Ans × Chip :=
  let p := fld x.ps 0 1
  let fwd := fld x.ps 1 1
  let t := fld x.ps 2 2
  if p > 10 || fwd > 7 || t < 1 || t > 10000 then no c stParam
  else if p < 4 && fwd % 4 != 0 then no c stParam 0x020E
  else (ok, c.setPort p { c.port p with fwd, sfTimeout := t })

def execSetForwarding (p : Packet) (s : State) : Host.Outcome State Fault Refusal := runCommand 0x0205 p s bodySetForwarding

/-- GET_STOCKPOT (Table 08.12). -/
def bodyGetStockpot (_ : Ctx) (c : Chip) : Ans × Chip :=
  let p := c.fab.pot
  let free := 524288 - c.stored.length - p.retired.length - lostLines p.lost fun _ => true
  (ok (le 4 c.res ++ le 4 c.guarantees ++ le 4 p.retired.length ++ le 4 c.sEff ++ le 4 (c.poolUsed .shared) ++ le 4 free ++ le 4 p.auditMs ++
    le 1 (b2n p.reclaim + 2 * b2n p.svPersist) ++ zeros 3 ++ le 8 p.corrected ++ le 8 p.poisoned ++ le 8 p.evicted ++ le 4 p.leaked ++
    le 4 p.reclaimed ++ le 4 p.accounting ++ le 4 p.descLost ++ le 4 p.creditOverrun ++ le 4 p.sfIncomplete ++ le 4 p.systemDrops), c)

def execGetStockpot (p : Packet) (s : State) : Host.Outcome State Fault Refusal := runCommand 0x0206 p s bodyGetStockpot

/-- SIEVE_CTRL (R226, R227). -/
def bodySieveCtrl (x : Ctx) (c : Chip) : Ans × Chip :=
  let ms := fld x.ps 0 2
  let fl := fld x.ps 2 1
  if ms < 1 || ms > 1000 || fl > 3 || !rsvd x.ps 3 1 then no c stParam
  else
    let c := c.setPot fun p => { p with auditMs := ms, reclaim := bitOf fl 0, svPersist := bitOf fl 1 }
    (ok, if bitOf fl 1 then c.storeConfig fun k => { k with sieve := some (ms, bitOf fl 0) } else c)

def execSieveCtrl (p : Packet) (s : State) : Host.Outcome State Fault Refusal := runCommand 0x0207 p s bodySieveCtrl

end Sys2Proof.Machine
end

