-- ==== Sys2Proof/Machine/LadleCmd.lean ====
section
/-!
DEFINITION. Chapter 09: the freewheel and ladle commands, and the ladle's writes.
-/
namespace Sys2Proof.Machine

/-- RATE_KBPS and BURST are within R236's ranges. -/
def shaperOk (rate burst : Nat) : Bool := decide (1 ≤ rate) && decide (rate ≤ 400000000) && decide (120 ≤ burst) && decide (burst ≤ 16777216)

/-- FW_QUEUE_SET (R237). -/
def bodyFwQueueSet (x : Ctx) (c : Chip) : Ans × Chip :=
  let tid := fld x.ps 0 2
  let fl := fld x.ps 2 1
  let w := fld x.ps 4 2
  let rate := fld x.ps 8 4
  let burst := fld x.ps 12 4
  let t := c.tunOf tid
  if tid > 1023 || fl > 3 || !rsvd x.ps 3 1 || w = 0 || !rsvd x.ps 6 2 || !rsvd x.ps 16 8 || (bitOf fl 1 && !shaperOk rate burst) then no c stParam
  else if !t.state.live || c.contracted tid then no c stState 0x0220
  else
    let f := c.fwOf t.outPort tid
    (ok, c.setFw t.outPort tid { f with weight := w, shaper := { f.shaper with write := some (bitOf fl 1, rate, burst, bitOf fl 0) } })

def execFwQueueSet (p : Packet) (s : State) : Host.Outcome State Fault Refusal := runCommand 0x0220 p s bodyFwQueueSet

/-- FW_PORT_SET (R231, R234, R237, R244). -/
def bodyFwPortSet (x : Ctx) (c : Chip) : Ans × Chip :=
  let p := fld x.ps 0 1
  let fl := fld x.ps 1 1
  let oh := sfld x.ps 2 1
  let dw := fld x.ps 4 2
  let rate := fld x.ps 8 4
  let burst := fld x.ps 12 4
  let limits := (List.range 4).map fun i => fld x.ps (16 + 2 * i) 2
  if p > 10 || fl > 7 || oh < -32 || oh > 64 || !rsvd x.ps 3 1 || dw = 0 || !rsvd x.ps 6 2 || !rsvd x.ps 24 8
      || (bitOf fl 1 && !shaperOk rate burst) || (p ≥ 4 && limits.any fun l => l != 0) then no c stParam
  else
    let o := c.port p
    let c := c.setPort p { o with overhead := oh, demoteWeight := dw, limits,
                                  shaper := { o.shaper with write := some (bitOf fl 1, rate, burst, bitOf fl 0) } }
    let cfg : FwPortCfg := { overhead := oh, demoteWeight := dw, on := bitOf fl 1, rate, burst, limits }
    (ok, if bitOf fl 2 then c.storeConfig fun k => { k with fwPort := k.fwPort.set p cfg } else c)

def execFwPortSet (p : Packet) (s : State) : Host.Outcome State Fault Refusal := runCommand 0x0221 p s bodyFwPortSet

/-- The tunnel is policed here: the active gear's record has SOURCE (R239). -/
def Chip.policed (c : Chip) (tid : Nat) : Bool := match c.certRec tid with | some r => r.source | none => false

/-- POLICER_SET (R240). -/
def bodyPolicerSet (x : Ctx) (c : Chip) : Ans × Chip :=
  let tid := fld x.ps 0 2
  let m := fld x.ps 2 1
  if tid > 1023 || m > 2 || !rsvd x.ps 3 1 then no c stParam
  else if !c.policed tid then no c stState 0x0221
  else (ok, c.setTun tid { c.tunOf tid with polMode := m })

def execPolicerSet (p : Packet) (s : State) : Host.Outcome State Fault Refusal := runCommand 0x0222 p s bodyPolicerSet

/-- FW_QUEUE_GET (R245, Table 09.6). -/
def bodyFwQueueGet (x : Ctx) (c : Chip) : Ans × Chip :=
  let tid := fld x.ps 0 2
  if tid > 1023 || !rsvd x.ps 2 2 then no c stParam
  else if x.lvl = 2 && !c.ownsTunnel x.iss tid then no c stDenied 0x0002
  else
    let t := c.tunOf tid
    let p := t.outPort
    let f := c.fwOf p tid
    let sh := f.shaper.refresh c.clk.powerPs
    let st := (c.fwRefresh p).qstate p tid
    let d := le 2 tid ++ le 1 p ++ le 1 st ++ le 2 f.weight ++ le 1 (if c.policed tid then t.polMode else 0xFF) ++ zeros 1 ++
      le 4 (if sh.on then sh.rate else 0) ++ le 4 sh.burst ++ le 4 (sh.tokens / 65536) ++ le 4 (c.queue p tid).length ++ le 4 f.depthHwm ++
      le 4 f.sojournHwm ++ le 8 f.cellsOut ++ le 8 f.accBytes ++ le 4 f.conform ++ le 4 f.demoted ++ le 4 f.dropped ++ zeros 4
    (ok d, c.setFw p tid { f with depthHwm := 0, sojournHwm := 0 })

def execFwQueueGet (p : Packet) (s : State) : Host.Outcome State Fault Refusal := runCommand 0x0223 p s bodyFwQueueGet

/-- FW_PORT_GET (R245, Table 09.6). -/
def bodyFwPortGet (x : Ctx) (c : Chip) : Ans × Chip :=
  let p := fld x.ps 0 1
  if p > 10 || !rsvd x.ps 1 3 then no c stParam
  else
    let o := c.port p
    let fr := c.frmOf p
    let avail := (List.range 4).map fun g =>
      le 2 (if p < 4 && fr.credit g then Nat.min 65535 ((fr.grantRx.get 0 g + 2 ^ 32 - fr.sentFw.get 0 g) % 2 ^ 32) else 0)
    let held := (List.range 4).map fun g =>
      le 2 (if p < 4 then Nat.min 65535 (fr.unused g + c.fab.q.foldl (fun a e => a + (e.2.filter fun y => y.credit == some (p, g)).length) 0
        + c.fab.backlog.foldl (fun a e => a + (e.2.filter fun y => y.credit == some (p, g)).length) 0) else 0)
    let d := le 1 p ++ zeros 1 ++ le 1 (unsigned 8 o.overhead) ++ zeros 1 ++ le 4 (c.fwTids p).length ++ le 4 (c.portDepth p) ++ le 4 o.depthHwm ++
      le 4 o.sojournHwm ++ zeros 4 ++ avail.flatten ++ held.flatten ++ le 8 o.fwCells ++ le 8 o.creditBlocked ++ zeros 8
    (ok d, c.setPort p { o with depthHwm := 0, sojournHwm := 0 })

def execFwPortGet (p : Packet) (s : State) : Host.Outcome State Fault Refusal := runCommand 0x0224 p s bodyFwPortGet

/-! ### The ladle's commands (R246 to R251) -/

/-- LADLE_FILTER_SET. -/
def bodyLadleFilterSet (x : Ctx) (c : Chip) : Ans × Chip :=
  let b := x.ps
  let i := fld b 0 1
  let f : LadleFilter := { enable := fld b 1 1 == 1, ring := fld b 2 1, points := fld b 3 1, ports := fld b 4 2, classes := fld b 6 1,
                           fflags := fld b 7 1, ctypes := fld b 8 2, tidLo := fld b 10 2, tidHi := fld b 12 2, sampleN := fld b 14 1,
                           limit := fld b 16 4 }
  if i > 15 || fld b 1 1 > 1 || f.ring > 7 || f.points > 7 || f.ports > 2047 || f.classes > 15 || f.fflags > 7 || f.tidLo > 1023 || f.tidHi > 1023
      || f.tidHi < f.tidLo || f.sampleN > 16 || !rsvd b 15 1 || !rsvd b 20 12 then no c stParam
  else (ok, { c with fab := { c.fab with ladle := { c.fab.ladle with filters := c.fab.ladle.filters.set i f } } })

def execLadleFilterSet (p : Packet) (s : State) : Host.Outcome State Fault Refusal := runCommand 0x0225 p s bodyLadleFilterSet

/-- LADLE_RING_SET: the ring's records are discarded, those that wait or gather among them (R251). -/
def bodyLadleRingSet (x : Ctx) (c : Chip) : Ans × Chip :=
  let b := x.ps
  let i := fld b 0 1
  let mode := fld b 1 1
  let log2 := fld b 2 1
  let owner := fld b 3 1
  if i > 7 || mode > 2 || !rsvd b 4 4 || (i > 0 && (log2 < 6 || log2 > 16 || owner > 63)) then no c stParam
  else if fld b 8 8 % 4096 != 0 || fld b 16 8 % 8 != 0 then no c stParam 0x0222
  else if i > 0 && owner > 0 && (c.inst owner).state == .absent then no c stState 0x0224
  else
    let r : LadleRing := { mode, log2 := if i = 0 then 6 else log2, owner := if i = 0 then 0 else owner, base := fld b 8 8, piAddr := fld b 16 8 }
    let c := { c with fab := { c.fab with ladle := { c.fab.ladle with
                queue := c.fab.ladle.queue.filter fun y => y.ring != i,
                msgs := c.fab.ladle.msgs.filter fun m => (c.filterOf m.filter).ring != i } } }
    (ok, c.setRing i r)

def execLadleRingSet (p : Packet) (s : State) : Host.Outcome State Fault Refusal := runCommand 0x0226 p s bodyLadleRingSet

/-- Records a ring holds. -/
def LadleRing.size (r : LadleRing) (i : Nat) : Nat := if i = 0 then 5461 else 2 ^ r.log2

/-- LADLE_READ (R251). -/
def bodyLadleRead (x : Ctx) (c : Chip) : Ans × Chip :=
  let i := fld x.ps 0 1
  let n := fld x.ps 2 2
  let from_ := fld x.ps 4 4
  if i > 7 || !rsvd x.ps 1 1 || n < 1 || n > 5461 then no c stParam
  else if i != 0 || (c.ring 0).mode = 0 then no c stState 0x0223
  else
    let r := c.ring 0
    if (from_ + 2 ^ 32 - r.rseq) % 2 ^ 32 < 2 ^ 31 then (ok, c)
    else
      let oldest := match r.recs with | e :: _ => e.1 | [] => r.rseq
      let gap := decide ((from_ + 2 ^ 32 - oldest) % 2 ^ 32 ≥ 2 ^ 31)
      let start := if gap then oldest else from_
      let es := (r.recs.filter fun e => decide ((e.1 + 2 ^ 32 - start) % 2 ^ 32 < 2 ^ 31)).take n
      ({ data := (es.map Prod.snd).flatten, gap }, c)

def execLadleRead (p : Packet) (s : State) : Host.Outcome State Fault Refusal := runCommand 0x0227 p s bodyLadleRead

/-- LADLE_CONSUME (R250, R251). -/
def bodyLadleConsume (x : Ctx) (c : Chip) : Ans × Chip :=
  let i := fld x.ps 0 1
  let upto := fld x.ps 4 4
  if i > 7 || !rsvd x.ps 1 3 then no c stParam
  else
    let r := c.ring i
    if r.mode = 0 then no c stState 0x0223
    else
      let seen := if seqBefore 32 r.rseq upto then r.rseq else upto
      let seen := if seqBefore 32 r.consumer seen then seen else r.consumer
      (ok, c.setRing i { r with consumer := seen, fullPosted := false, recs := r.recs.filter fun e => !seqBefore 32 e.1 seen })

def execLadleConsume (p : Packet) (s : State) : Host.Outcome State Fault Refusal := runCommand 0x0228 p s bodyLadleConsume

/-- Write one record to its ring (R247, R249, R250). -/
def Chip.ladleWrite (c : Chip) (k : LadleRec) : Chip :=
  let i := k.ring
  let r := c.ring i
  if r.mode = 0 then c
  else
    let size := r.size i
    let used := (r.rseq + 2 ^ 32 - r.consumer) % 2 ^ 32
    if r.mode = 1 && used ≥ size then c.setRing i { r with lost := sat32 r.lost 1, gap := true }
    else
      let b := if r.gap then patch k.bytes 22 [BitVec.ofNat 8 ((nth 0 k.bytes 22).toNat + 1)] else k.bytes
      let b := patch b 28 (le 4 r.rseq)
      let recs := if i = 0 then r.recs ++ [(r.rseq, b)] else r.recs
      let recs := if recs.length > size then recs.drop (recs.length - size) else recs
      let full := r.mode = 1 && used + 1 = size
      let r' := { r with rseq := (r.rseq + 1) % 2 ^ 32, gap := false, recs, fullPosted := full }
      let c := if i = 0 then c else c.dmaWrite r.owner (r.base + 96 * (r.rseq % size)) b
      let c := c.setRing i r'
      if full then c.postVi r.owner 0x0220 0 (i + r'.rseq * 2 ^ 32) else c

/-- LADLE_RECORD_WRITE (R249): the queued records are written, then PI_ADDR of each ring in memory that took one. -/
def execLadleRecordWrite (s : State) : Host.Outcome State Fault Refusal :=
  onChip s fun c =>
    let q := c.fab.ladle.queue
    let c := { c with fab := { c.fab with ladle := { c.fab.ladle with queue := [] } } }
    let c := q.foldl Chip.ladleWrite c
    ((List.range 8).filter fun i => i > 0 && q.any fun k => k.ring == i).foldl (fun c i =>
      let r := c.ring i
      if r.mode = 0 then c else c.dmaWrite r.owner r.piAddr (le 4 r.rseq ++ le 4 r.lost)) c

end Sys2Proof.Machine
end

