-- ==== Sys2Proof/Machine/Gears.lean ====
section
/-!
DEFINITION. Chapter 07: staging, verification, shifts and restoration of gears.
-/
namespace Sys2Proof.Machine

/-- State code of a gear slot (Table 07.1). -/
def Chip.slotState (c : Chip) (i : Nat) : Nat :=
  let g := c.gslot i
  if g.verifying.isSome then 1
  else if c.gear.active == some i then 3
  else if (match c.gear.shift with | some x => x.slot == i | none => false) then 4
  else if g.img.isSome then 2 else 0

/-- The handle that holds a slot: its verification's or the open shift's. -/
def Chip.slotHolder (c : Chip) (i : Nat) : Nat :=
  match (c.gslot i).verifying with
  | some (h, _, _) => h
  | none => match c.gear.shift with | some x => x.handle | none => 0

/-- GEAR_STAGE (R197). -/
def bodyGearStage (x : Ctx) (c : Chip) : Ans × Chip :=
  let off := fld x.ps 0 4
  let data := x.ps.drop 8
  if !rsvd x.ps 4 4 then no c stParam
  else
    let owned := match c.gear.stageOwner with | some o => o != x.sess | none => false
    if owned then no c stState 0x031D
    else if off + data.length > 1048568 then no c stLength 0x0009
    else if off != 0 && (c.gear.stageOwner.isNone || off != c.gear.staged.length) then no c stParam 0x031C
    else
      let g := c.gkCommand x 1 (Config.gearStagingBase + off) data.length
      if !g.2 then (err stDenied 0x0F04, g.1)
      else
        let old := if off = 0 then [] else c.gear.staged
        (ok, c.setGear fun k => { k with stageOwner := some x.sess, staged := old ++ data })

def execGearStage (p : Packet) (s : State) : Host.Outcome State Fault Refusal := runCommand 0x0301 p s bodyGearStage

/-- GEAR_VERIFY (R171, R197): the derailleur's pass begins. -/
def bodyGearVerify (x : Ctx) (c : Chip) : Ans × Chip :=
  let i := fld x.ps 0 1
  let fl := fld x.ps 1 1
  let staged := bitOf fl 0
  if i > 3 || fl > 7 || !rsvd x.ps 2 6 then no c stParam
  else if staged && x.ps.length != 8 then no c stLength 0x0009
  else if bitOf fl 2 && !bitOf fl 1 then no c stParam 0x0321
  else if staged && (match c.gear.stageOwner with | some o => o != x.sess | none => false) then no c stState 0x031D
  else if staged && c.gear.stageOwner.isNone then no c stState 0x0320
  else if c.slotState i = 3 then no c stState 0x0313
  else if c.slotState i = 1 || c.slotState i = 4 then (busyWith (c.slotHolder i), c)
  else if bitOf fl 1 && c.inRole .relay then no c stNoResource 0x031E
  else
    let img := if staged then c.gear.staged else x.ps.drop 8
    (accepted, c.setGslot i { c.gslot i with verifying := some (x.handle, img, fl) })

def execGearVerify (p : Packet) (s : State) : Host.Outcome State Fault Refusal := runCommand 0x0302 p s bodyGearVerify

/-- The end of a verification: a GEAR_VERIFY completes, a restoration posts GEAR_RESTORED; staging ends with a staged one. -/
def Chip.verifyEnd (c : Chip) (i h fl st rs res : Nat) : Chip :=
  let c := if bitOf fl 0 then c.setGear fun k => { k with stageOwner := none, staged := [] } else c
  if h = 0 then c.post 0x0304 rs i st else c.complete h st rs res

/-- DERAILLEUR_PASS_DONE (R171, R184, R198): the pass over a slot's image ends. -/
def Chip.passDone (c : Chip) (i : Nat) : Chip :=
  let g := c.gslot i
  match g.verifying with
  | none => c
  | some (h, b, fl) =>
    let c := c.setGslot i { g with verifying := none }
    if c.cancelled h then c.verifyEnd i h fl stAborted 0x0007 0
    else match c.derailleur b with
      | (none, some img) =>
        let persist := bitOf fl 1
        let boot := bitOf fl 2
        let c := if boot then
            let c := if h = 0 then c else { c with csys := { c.csys with gears := c.csys.gears.mapAll fun _ e => (e.1, false) } }
            c.setGear fun k => { k with slots := k.slots.mapAll fun _ s => { s with boot := false } }
          else c
        let c := c.setGslot i { img := some img, since := c.turn, persist, boot, verifying := none }
        let c := if persist && h != 0 then { c with csys := { c.csys with gears := c.csys.gears.set i (b, boot) } } else c
        let c := if h = 0 && boot then c.setGear fun k => { k with bootShift := some i } else c
        let c := if h = 0 then c else c.bump 27 1
        c.verifyEnd i h fl stOk 0 0
      | (some (st, rs, off), _) => (if h = 0 then c else c.bump 28 1).verifyEnd i h fl st rs off
      | (none, none) => c

def execDerailleurPassDone (slot : Fin 4) (s : State) : Host.Outcome State Fault Refusal :=
  onChip s fun c => c.passDone slot.val

/-- GEAR_CLEAR (Table 07.14). -/
def bodyGearClear (x : Ctx) (c : Chip) : Ans × Chip :=
  let i := fld x.ps 0 1
  if i > 3 || !rsvd x.ps 1 3 then no c stParam
  else if c.slotState i = 3 then no c stState 0x0313
  else if c.slotState i = 1 || c.slotState i = 4 then (busyWith (c.slotHolder i), c)
  else
    let c := c.setGear fun k => { k with slots := k.slots.erase i }
    (ok, { c with csys := { c.csys with gears := c.csys.gears.erase i } })

def execGearClear (p : Packet) (s : State) : Host.Outcome State Fault Refusal := runCommand 0x0303 p s bodyGearClear

/-- A record's gear carries its tunnel at this device: with HOP 0 always, else some variant has teeth for it (R179; DEDUCED: a record all of
whose variants have TEETH = 0 carries it under none). -/
def CertRec.carriesHere (r : CertRec) : Bool := r.hop = 0 || r.var4.teeth > 0 || r.var2.teeth > 0 || r.var1.teeth > 0

/-- R186's conditions on a SHIFT to slot `i` (4 for NONE) at turn `t`. -/
def Chip.shiftRefused (c : Chip) (i t : Nat) : Option Ans :=
  let d := (t + 2 ^ 48 - c.turn) % 2 ^ 48
  let wide := (List.range 4).find? fun n => (c.frmOf n).wcMine.isSome || (c.frmOf n).wcPeer.isSome
  match c.gear.shift, wide with
  | some x, _ => some (busyWith x.handle)
  | none, some n => some (busyWith (match (c.frmOf n).wcMine with | some w => w.handle | none => 0))
  | none, none =>
    if i < 4 && c.slotState i != 2 then some (err stState 0x0314)
    else if d < 24 || d ≥ 2 ^ 47 then some (err stParam 0x0315)
    else if d > 1048576 then some (err stParam 0x0316)
    else if !c.timeSet && c.anyData then some (err stTimeUnset)
    else
      let new := if i < 4 then (c.gslot i).img else none
      let burst := match c.activeGear, new with
        | some a, some b => a.recs.any fun r => match b.rec? r.tid with
          | some k => decide (r.outPort < 4) && r.carriesHere && k.carriesHere && (decide (k.burst < r.burst) || decide (k.reserve < r.reserve))
          | none => false
        | _, _ => false
      if burst then some (err stCertFail 0x0317) else none

/-- A shift opens: the slot becomes TARGET (R186). -/
def Chip.openShift (c : Chip) (i t h : Nat) : Chip :=
  let c := c.setGear fun k => { k with shift := some { slot := i, target := t, handle := h }, lastSlot := i, lastTarget := t, aborting := none }
  (List.range 4).foldl Chip.shiftMatch c

/-- SHIFT (R186). -/
def bodyShift (x : Ctx) (c : Chip) : Ans × Chip :=
  let i := fld x.ps 0 1
  let t := fld x.ps 2 6
  if i > 4 || !rsvd x.ps 1 1 then no c stParam
  else match c.shiftRefused i t with
    | some a => (a, c)
    | none => (accepted, c.openShift i t x.handle)

def execShift (p : Packet) (s : State) : Host.Outcome State Fault Refusal := runCommand 0x0304 p s bodyShift

/-- SHIFT_DECIDE (R188): at boundary T - 16 the shift is committed, or aborted. -/
def execShiftDecide (s : State) : Host.Outcome State Fault Refusal :=
  onChip s fun c =>
    match c.gear.shift with
    | none => c
    | some x =>
      if x.committed then c
      else if c.cancelled x.handle then c.shiftAbort 0x031A 0xFF
      else match (List.range 4).find? fun n => c.inData n && !(bitOf x.matched n && bitOf x.peerConf n) with
        | some n => c.shiftAbort 0x0318 n
        | none => (c.setGear fun k => { k with shift := some { x with committed := true } }).commitPoint x.handle

/-- SHIFT_APPLY (R190): at boundary T a committed shift takes place. -/
def execShiftApply (s : State) : Host.Outcome State Fault Refusal :=
  onChip s fun c =>
    match c.gear.shift with
    | some x => if x.committed then c.shiftApply else c
    | none => c

/-- One slot record of GET_GEAR_SLOTS (Table 07.15). -/
def Chip.slotRecord (c : Chip) (i : Nat) : Bytes :=
  let g := c.gslot i
  match g.img with
  | none => le 1 (c.slotState i) ++ zeros 31
  | some m =>
    le 1 (c.slotState i) ++ le 1 m.format ++ le 1 (b2n g.persist + 2 * b2n g.boot) ++ zeros 1 ++ le 4 m.gearId ++ le 4 m.setId ++ le 4 m.hashLow ++
      le 2 m.recs.length ++ zeros 2 ++ le 4 m.total ++ le 6 g.since ++ zeros 2

/-- GET_GEAR_SLOTS. -/
def bodyGetGearSlots (_ : Ctx) (c : Chip) : Ans × Chip :=
  let sh := match c.gear.shift with
    | some x => le 1 (if x.committed then 2 else 1) ++ le 1 x.slot ++ le 1 x.matched ++ le 1 x.peerConf ++ le 4 x.handle
    | none => le 1 0 ++ le 1 c.gear.lastSlot ++ zeros 6
  (ok (((List.range 4).map c.slotRecord).flatten ++ sh ++ le 6 c.gear.lastTarget ++ le 2 c.gear.lastReason ++ zeros 16), c)

def execGetGearSlots (p : Packet) (s : State) : Host.Outcome State Fault Refusal := runCommand 0x0305 p s bodyGetGearSlots

/-- GEAR_RESTORE (R198): each persisted image is verified again into its slot, once the keys are back (R462). -/
def execGearRestore (s : State) : Host.Outcome State Fault Refusal :=
  onChip s fun c =>
    if !c.dev.mode.isRole || !c.storeReady || !c.keys.restored then c
    else c.csys.gears.foldl (fun c e =>
      if c.slotState e.1 = 0 then c.setGslot e.1 { c.gslot e.1 with verifying := some (0, e.2.1, 2 + 4 * b2n e.2.2) } else c) c

/-- BOOT_SHIFT_ISSUE (R198): the SHIFT to the BOOT image, a long command of VI 0 without a session, as soon as R186 allows. -/
def execBootShiftIssue (s : State) : Host.Outcome State Fault Refusal :=
  onChip s fun c =>
    match c.gear.bootShift with
    | none => c
    | some i =>
      let t := (c.turn + 24) % 2 ^ 48
      if (c.shiftRefused i t).isSome || !c.recordFree 0 then c
      else
        let h := c.newHandle 0
        let c := c.makeRoom 0
        let r : HandleRec := { handle := h, opcode := 0x0304, sess := .spi, tag := 0, evq := 0, logcopy := false, logOnly := true }
        let c := { c with cmd := { c.cmd with serial := c.cmd.serial.set 0 (h % 2 ^ 24), handles := c.cmd.handles ++ [r] } }
        (c.setGear fun k => { k with bootShift := none }).openShift i t h

end Sys2Proof.Machine
end

