-- ==== Sys2Proof/Machine/KeyStore.lean ====
section
/-!
DEFINITION. Chapter 19: slots, logins, lifecycle, certificates and anchors (R449 to R463).
-/
namespace Sys2Proof.Machine

/-! ### Shared checks (R449, R456, R474) -/

/-- What a key opcode does, from its context: refusals carry no effect. The service indicator is bit 31 of RESULT (Table 19.2). -/
def keyBody (login : Bool) (f : Ctx → Chip → Ans × Chip) (x : Ctx) (c : Chip) : Ans × Chip :=
  if login && c.approved && !c.keys.logged.contains x.sess.key then no c stDenied 0x0E07
  else
    let r := f x c
    if r.1.st = stOk && c.approved then ({ r.1 with result := setBit r.1.result 31 true }, r.2) else r

/-- The VI that a key opcode acts for. -/
def Ctx.vi (x : Ctx) : Nat := if x.lvl = 2 then x.iss else 0

/-- The issuer may name a slot: L1 any, L2 its own (R449). -/
def Ctx.ownsKey (x : Ctx) (k : KeySlot) : Bool := x.lvl = 1 || k.owner == x.iss

/-- A persisted slot that has not been restored yet (R462). -/
def Chip.keyRestoring (c : Chip) (i : Nat) : Bool := !c.keys.restored && (c.csys.blobs.find i).isSome

/-- Slots that VI `vi` holds in the instance pool (R456, Table 11.8). -/
def Chip.keyUsed (c : Chip) (vi : Nat) : Nat := (c.keys.slots.filter fun e => decide (e.1 ≥ 16) && e.2.owner == vi).length

/-- The pool's slots granted to VI `vi`; VI 0 holds the remainder. -/
def Chip.keyGrant (c : Chip) (vi : Nat) : Nat :=
  if vi = 0 then 240 - c.host.inst.foldl (fun a e => if e.1 > 0 && e.2.state != .absent then a + e.2.keySlots else a) 0
  else if (c.inst vi).state == .absent then 0 else (c.inst vi).keySlots

/-- Why slot `i` cannot be used by the issuer: restoring, empty, another owner's (R462, R474, R449). -/
def Chip.useKey (c : Chip) (x : Ctx) (i : Nat) : Except (Nat × Nat) KeySlot :=
  if c.keyRestoring i then .error (stState, 0x0E17)
  else match c.kslot i with
    | none => .error (stState, 0x0E02)
    | some k => if x.ownsKey k then .ok k else .error (stDenied, 0x0002)

/-- Why slot `i` cannot be filled for owner `vi`: ZEROIZE_L held, restoring, not empty, not the issuer's to fill, quota (R463, R456, R282). -/
def Chip.fillCheck (c : Chip) (x : Ctx) (i vi : Nat) : Option (Nat × Nat) :=
  if c.keys.zeroizeL then some (stState, 0x0E0E)
  else if c.keyRestoring i then some (stState, 0x0E17)
  else if (c.kslot i).isSome then some (stState, 0x0E01)
  else if i < 16 && vi != 0 then (if x.lvl = 2 then some (stDenied, 0x0002) else some (stParam, 0))
  else if i ≥ 16 && c.keyUsed vi ≥ c.keyGrant vi then some (stNoResource, 0x0601)
  else none

/-- A second LOGIN key of an owner (R456). -/
def Chip.loginTaken (c : Chip) (vi : Nat) : Bool := c.keys.slots.any fun e => e.2.owner == vi && e.2.login

/-- Put a key into an empty slot, storing it when PERSIST is set (R456, R461): the refusals that come from the attributes first. -/
def Chip.fillSlot (c : Chip) (i vi attr origin : Nat) (key label : Bytes) (parent : Nat) : Ans × Chip :=
  if bitOf attr 17 && c.loginTaken vi then no c stParam
  else if bitOf attr 19 && !c.storeReady then no c stNoResource 0x0E0B
  else
    let attr := attr % 2 ^ 21 + origin * 2 ^ 21 + bitsOf attr 23 3 * 2 ^ 23 + vi * 2 ^ 26
    let c := c.setKeys fun k => { k with slots := k.slots.set i { attr, key, label := sliceB label 0 16, parent } }
    (ok, if bitOf attr 19 then c.storeSlot i else c)

/-- Reserved bits of ATTR as a command gives it (Table 19.14). -/
def attrReserved (attr : Nat) : Bool := bitsOf attr 7 10 != 0 || bitsOf attr 21 2 != 0 || bitsOf attr 26 6 != 0

/-- The owner that a filling command names: L2 the issuer, L1 its OWNER byte. -/
def Ctx.fillOwner (x : Ctx) : Nat := if x.lvl = 2 then x.iss else fld x.ps 1 1

/-! ### KEY_STATUS -/

/-- SSTATE of a trunk. -/
def Seal.sstate (x : Seal) : Nat :=
  if x.sealedOn then 3
  else match x.phase with
    | .idle => 0 | .hello | .cert | .proof => 1 | .done => if x.authentic || x.anonymous then 2 else 1 | .refused => 4

/-- A trunk record of the summary. -/
def Seal.record (x : Seal) : Bytes :=
  le 1 x.sstate ++ le 1 x.peer ++ le 2 x.reason ++ le 4 (match x.keys with | some k => k.epoch | none => 0) ++ le 4 x.tagFails ++ le 4 x.unverified

/-- The 180-byte summary (R475). -/
def Chip.keySummary (c : Chip) (x : Ctx) : Bytes :=
  let k := c.keys
  let fl := b2n k.zeroizeL + 2 * b2n (k.lockout.contains x.iss) + 4 * b2n (k.logged.contains x.sess.key) +
    8 * b2n (!k.restored && !c.csys.blobs.isEmpty) + 16 * b2n c.flash.zeroizePending
  le 1 x.fuses.lifecycle ++ le 1 (b2n c.approved) ++ le 1 (b2n c.flash.config.approved) ++ le 1 fl ++ le 2 k.slots.length ++ zeros 2 ++
    le 6 k.selftestTurn ++ zeros 2 ++ (if identityOk x.fuses.lifecycle then sliceB (Config.p384Pub c.identityKey) 0 97 else zeros 97) ++ zeros 3 ++
    (c.sealOf 0).record ++ (c.sealOf 1).record ++ (c.sealOf 2).record ++ (c.sealOf 3).record

/-- KEY_STATUS (R456, R475). -/
def bodyKeyStatus (x : Ctx) (c : Chip) : Ans × Chip :=
  let i := fld x.ps 1 1
  if fld x.ps 0 1 > 1 || !rsvd x.ps 2 2 then no c stParam
  else if fld x.ps 0 1 = 0 then (ok (c.keySummary x), c)
  else if x.lvl = 3 then no c stDenied 0x0002
  else if c.keyRestoring i then no c stState 0x0E17
  else match c.kslot i with
    | none => (ok (zeros 32), c)
    | some k =>
      if !x.ownsKey k then no c stDenied 0x0002
      else (ok (le 4 k.attr ++ sliceB k.label 0 16 ++ le 4 k.gen ++ zeros 8), c)

def execKeyStatus (p : Packet) (s : State) : Host.Outcome State Fault Refusal := runCommand 0x0E01 p s (keyBody false bodyKeyStatus)

/-! ### Filling slots (R457 to R460) -/

/-- KEY_GENERATE (R452, R456, R474): a key pair passes its pairwise test, or the part enters LOCKDOWN. -/
def bodyKeyGenerate (x : Ctx) (c : Chip) : Ans × Chip :=
  let i := fld x.ps 0 1
  let vi := x.fillOwner
  let attr := fld x.ps 4 4
  let ty := bitsOf attr 23 3
  if !rsvd x.ps 2 2 || attrReserved attr || vi > 63 then no c stParam
  else match c.fillCheck x i vi with
    | some e => no c e.1 e.2
    | none =>
      if !attrOk attr || ty = 5 then no c stParam 0x0E05
      else
        let key := if ty ≤ 2 then c.freshBytes (keyLen ty) else p384Scalar (c.freshBytes 56)
        if ty ≥ 3 && !Config.pairwisePass c.clk.fresh then (err stInternal 0x010B, c.nextFresh.lockdown 0x010B)
        else
          let r := c.fillSlot i vi attr 0 key (sliceB x.ps 8 16) 0xFFFF
          (r.1, r.2.nextFresh)

def execKeyGenerate (p : Packet) (s : State) : Host.Outcome State Fault Refusal := runCommand 0x0E02 p s (keyBody true bodyKeyGenerate)

/-- The parent's key for a derivation by owner `vi`, or the refusal (R458, R453). -/
def Chip.parentFor (c : Chip) (x : Ctx) (parent vi : Nat) : Except (Nat × Nat) Bytes :=
  if parent = 0xFFFF then (if identityOk x.fuses.lifecycle then .ok Config.rootSecret else .error (stState, 0x0E0A))
  else match c.useKey x (parent % 256) with
    | .error e => .error e
    | .ok k =>
      if k.owner != vi then .error (stDenied, 0x0002)
      else if k.ty != 4 then
        (if parent / 256 != 0 then .error (stParam, 0) else if k.use 3 then .ok k.key else .error (stDenied, 0x0E04))
      else match c.useKey x (parent / 256) with
        | .error e => .error e
        | .ok q =>
          if q.owner != vi then .error (stDenied, 0x0002)
          else if q.ty != 5 then .error (stParam, 0x0E05)
          else if !k.use 3 then .error (stDenied, 0x0E04)
          else .ok (sliceB (Config.ecdh k.key q.key) 0 48)

/-- KEY_DERIVE (R457, R458). -/
def bodyKeyDerive (x : Ctx) (c : Chip) : Ans × Chip :=
  let i := fld x.ps 0 1
  let vi := x.fillOwner
  let parent := fld x.ps 2 2
  let attr := fld x.ps 4 4
  let ty := bitsOf attr 23 3
  let label := sliceB x.ps 8 16
  if attrReserved attr || vi > 63 then no c stParam
  else match c.fillCheck x i vi with
    | some e => no c e.1 e.2
    | none =>
      if !attrOk attr || ty = 5 then no c stParam 0x0E05
      else match c.parentFor x parent vi with
        | .error e => no c e.1 e.2
        | .ok ki => c.fillSlot i vi attr 1 (c.deriveKey ki label vi ty (bitOf attr 18)) label parent

def execKeyDerive (p : Packet) (s : State) : Host.Outcome State Fault Refusal := runCommand 0x0E03 p s (keyBody true bodyKeyDerive)

/-- KEY_LOAD_CLEAR (R459, Table 19.7). -/
def bodyKeyLoadClear (x : Ctx) (c : Chip) : Ans × Chip :=
  let i := fld x.ps 0 1
  let vi := x.fillOwner
  let attr := fld x.ps 4 4
  if x.sess == .usb && c.approved then no c stDenied 0x0E06
  else if x.fuses.lifecycle = 3 then no c stState 0x0E0A
  else if !rsvd x.ps 2 2 || attrReserved attr || vi > 63 then no c stParam
  else match c.fillCheck x i vi with
    | some e => no c e.1 e.2
    | none =>
      if !attrOk attr || x.ps.length != 24 + keyLen (bitsOf attr 23 3) then no c stParam 0x0E05
      else c.fillSlot i vi attr 2 (x.ps.drop 24) (sliceB x.ps 8 16) 0xFFFF

def execKeyLoadClear (p : Packet) (s : State) : Host.Outcome State Fault Refusal := runCommand 0x0E04 p s (keyBody true bodyKeyLoadClear)

/-- A wrap slot that owner `vi` may use (R460). -/
def Chip.wrapKey (c : Chip) (x : Ctx) (i vi : Nat) : Except (Nat × Nat) Bytes :=
  match c.useKey x i with
  | .error e => .error e
  | .ok k => if k.owner != vi then .error (stDenied, 0x0002) else if !k.use 4 then .error (stDenied, 0x0E04) else .ok k.key

/-- KEY_IMPORT (R460). -/
def bodyKeyImport (x : Ctx) (c : Chip) : Ans × Chip :=
  let i := fld x.ps 0 1
  let vi := x.vi
  let b := sliceB x.ps 8 176
  if !rsvd x.ps 2 6 then no c stParam
  else match c.fillCheck x i vi with
    | some e => no c e.1 e.2
    | none => match c.wrapKey x (fld x.ps 1 1) vi with
      | .error e => no c e.1 e.2
      | .ok w => match (if fld b 0 4 = 0x4B534C42 && fld b 5 1 = 2 then Config.kwUnwrap w (sliceB b 40 136) else none) with
        | none => no c stCertFail 0x0E0C
        | some plain =>
          let k := slotOfPlain plain
          if !attrOk k.attr then no c stParam 0x0E05
          else c.fillSlot i vi k.attr k.origin k.key k.label k.parent

def execKeyImport (p : Packet) (s : State) : Host.Outcome State Fault Refusal := runCommand 0x0E05 p s (keyBody true bodyKeyImport)

/-- KEY_EXPORT (R460). -/
def bodyKeyExport (x : Ctx) (c : Chip) : Ans × Chip :=
  let i := fld x.ps 0 1
  if !rsvd x.ps 2 2 then no c stParam
  else match c.useKey x i with
    | .error e => no c e.1 e.2
    | .ok k =>
      if (c.kslot (fld x.ps 1 1)).isNone then no c stState 0x0E02
      else if k.locked then no c stState 0x0E03
      else match c.wrapKey x (fld x.ps 1 1) k.owner with
        | .error e => no c e.1 e.2
        | .ok w => (ok (k.blob i 2 k.gen w), c)

def execKeyExport (p : Packet) (s : State) : Host.Outcome State Fault Refusal := runCommand 0x0E06 p s (keyBody true bodyKeyExport)

/-! ### Zeroization and attributes (R461, R463) -/

/-- KEY_ZEROIZE (R463). -/
def bodyKeyZeroize (x : Ctx) (c : Chip) : Ans × Chip :=
  let i := fld x.ps 0 1
  let scope := fld x.ps 1 1
  if scope > 3 || !rsvd x.ps 2 2 then no c stParam
  else if scope ≥ 2 then
    (if x.lvl != 1 then no c stDenied 0x0002 else (ok, c.zeroizeAll (scope = 3) false 0x010F i))
  else match c.useKey x i with
    | .error e => no c e.1 e.2
    | .ok k =>
      if scope = 0 then (ok, (c.zeroizeSlots fun j _ => j == i).postZeroized 0x010F 0 i)
      else (ok, c.zeroizeOwner k.owner 0x010F i)

def execKeyZeroize (p : Packet) (s : State) : Host.Outcome State Fault Refusal := runCommand 0x0E07 p s (keyBody true bodyKeyZeroize)

/-- KEY_SET_ATTR (R456, R461). -/
def bodyKeySetAttr (x : Ctx) (c : Chip) : Ans × Chip :=
  let i := fld x.ps 0 1
  let sets := fld x.ps 1 1
  if sets > 7 || !rsvd x.ps 2 6 then no c stParam
  else match c.useKey x i with
    | .error e => no c e.1 e.2
    | .ok k =>
      let persist := if bitOf sets 2 then bitOf sets 1 else k.persist
      if !c.storeReady && (persist || k.persist) && (bitOf sets 2 || bitOf sets 0) then no c stNoResource 0x0E0B
      else
        let attr := setBit (setBit k.attr 20 (k.locked || bitOf sets 0)) 19 persist
        let c := c.setKeys fun s => { s with slots := s.slots.set i { k with attr } }
        (ok, if attr = k.attr then c
             else if persist then c.storeSlot i
             else if k.persist then { c with csys := { c.csys with blobs := c.csys.blobs.erase i } } else c)

def execKeySetAttr (p : Packet) (s : State) : Host.Outcome State Fault Refusal := runCommand 0x0E08 p s (keyBody true bodyKeySetAttr)

/-- ZEROIZE_L low for 1 µs (R463). -/
def execZeroizeLAssert (s : State) : Host.Outcome State Fault Refusal :=
  onChip s fun c => ({ c with keys := { c.keys with zeroizeL := true } }).zeroizeAll true (c.dev.mode == Mode.lockdown) 0x0E16

/-- ZEROIZE_L high again (R463). -/
def execZeroizeLRelease (s : State) : Host.Outcome State Fault Refusal :=
  onChip s fun c => { c with keys := { c.keys with zeroizeL := false } }

/-! ### Logins (R449, R450) -/

/-- KEY_CHALLENGE. -/
def bodyKeyChallenge (x : Ctx) (c : Chip) : Ans × Chip :=
  let n := c.freshBytes 48
  (ok n, (c.setKeys fun k => { k with nonces := k.nonces.set x.sess.key n }).nextFresh)

def execKeyChallenge (p : Packet) (s : State) : Host.Outcome State Fault Refusal := runCommand 0x0E09 p s (keyBody false bodyKeyChallenge)

/-- KEY_LOGIN: eight failures in a row lock the issuer code out. -/
def bodyKeyLogin (x : Ctx) (c : Chip) : Ans × Chip :=
  if c.keys.lockout.contains x.iss then no c stDenied 0x0E08
  else
    let nonce := c.keys.nonces.find x.sess.key
    let c := c.setKeys fun k => { k with nonces := k.nonces.erase x.sess.key }
    match (c.keys.slots.find? fun e => e.2.owner == x.vi && e.2.login) with
    | none => no c stState 0x0E02
    | some (_, k) =>
      let good := match nonce with
        | none => false
        | some n => sliceB x.ps 0 48 == sliceB (Config.hmac384 k.key (n ++ le 1 x.iss)) 0 48
      if good then
        (ok, c.setKeys fun s => { s with logged := insertSorted x.sess.key s.logged, fails := s.fails.set x.iss 0 })
      else
        let n := c.keys.fails.get 0 x.iss + 1
        (err stDenied 0x0E09, c.setKeys fun s =>
          if n ≥ 8 then { s with fails := s.fails.set x.iss 0, lockout := insertSorted x.iss s.lockout }
          else { s with fails := s.fails.set x.iss n })

def execKeyLogin (p : Packet) (s : State) : Host.Outcome State Fault Refusal := runCommand 0x0E0A p s (keyBody false bodyKeyLogin)

/-- LOGIN_LOCKOUT_END (R450): 60 s have passed since the eighth failure of an issuer code. -/
def execLoginLockoutEnd (iss : Nat) (s : State) : Host.Outcome State Fault Refusal :=
  onChip s fun c => c.setKeys fun k => { k with lockout := k.lockout.filter (· != iss) }

/-! ### Lifecycle (R451, R453, R454) -/

/-- KEY_LIFECYCLE. -/
def bodyKeyLifecycle (x : Ctx) (c : Chip) : Ans × Chip :=
  let op := fld x.ps 0 1
  if op < 1 || op > 5 || fld x.ps 4 4 != 0x4C435943 || !rsvd x.ps 1 3 then no c stParam
  else match c.keys.lifeOp with
    | some (h, _) => no c stBusy 0 h
    | none =>
      if op ≤ 3 && x.fuses.lifecycle + 1 != op then no c stState 0x0E0A
      else (accepted, c.setKeys fun k => { k with lifeOp := some (x.handle, op) })

def execKeyLifecycle (p : Packet) (s : State) : Host.Outcome State Fault Refusal := runCommand 0x0E0B p s (keyBody true bodyKeyLifecycle)

/-- The lifecycle fuses advance, never back (R453). -/
def Fuses.advance (f : Fuses) (l : Nat) : Fuses := { f with lifecycle := Nat.max f.lifecycle l }

/-- KEY_LIFECYCLE_DONE: the zeroization, the fuse or the flag, then the completion, while no self-test is in progress (R452). -/
def execKeyLifecycleDone (s : State) : Host.Outcome State Fault Refusal :=
  match (if s.chip.keys.selftest.isSome then none else s.chip.keys.lifeOp) with
  | none => .next s
  | some (h, op) =>
    let c := s.chip.setKeys fun k => { k with lifeOp := none }
    if c.cancelled h then .next { s with chip := c.complete h stAborted 0x0007 0 }
    else if op ≥ 4 then
      let c := c.storeConfig fun k => { k with approved := op == 4 }
      .next { s with chip := c.complete h stOk 0 0 }
    else
      let c := c.commitPoint h
      let c := if op = 3 then (c.zeroizeAll true false 0x010F).setKeys fun k => { k with approved := false } else c
      .next { s with chip := c.complete h stOk 0 0, fuses := s.fuses.advance op }

/-! ### Certificates and anchors (R455, R467) -/

/-- IDCERT_WRITE (R455, under R86 sequencing; Table 19.4). -/
def bodyIdcertWrite (x : Ctx) (c : Chip) : Ans × Chip :=
  let off := fld x.ps 0 4
  let data := x.ps.drop 8
  let owned := match c.keys.certOwner with | some o => o != x.sess | none => false
  if !rsvd x.ps 4 4 then no c stParam
  else if x.fuses.lifecycle != 1 then no c stState 0x0E0A
  else if owned then no c stState 0x0106
  else if off + data.length > 65536 then no c stLength 0x0009
  else if off != 0 && (c.keys.certOwner.isNone || off != c.keys.certStaged) then no c stParam 0x0105
  else
    let g := c.gkCommand x 1 (0x20010000 + off) data.length
    if !g.2 then (err stDenied 0x0F04, g.1)
    else
      let old := if off = 0 then [] else c.flash.idcert
      (ok, { c with flash := { c.flash with idcert := old ++ data },
                    keys := { c.keys with certOwner := some x.sess, certStaged := off + data.length } })

def execIdcertWrite (p : Packet) (s : State) : Host.Outcome State Fault Refusal := runCommand 0x0E0C p s (keyBody true bodyIdcertWrite)

/-- ANCHOR_SET (R467). -/
def bodyAnchorSet (x : Ctx) (c : Chip) : Ans × Chip :=
  let i := fld x.ps 0 1
  let fl := fld x.ps 1 1
  if i > 7 || fl > 3 || !rsvd x.ps 2 2 then no c stParam
  else
    let put := fun (t : Tab Bytes) => if bitOf fl 0 then t.set i (sliceB x.ps 4 48) else t.erase i
    let c := c.setKeys fun k => { k with anchors := put k.anchors }
    (ok, if bitOf fl 1 then c.storeConfig fun k => { k with anchors := put k.anchors } else c)

def execAnchorSet (p : Packet) (s : State) : Host.Outcome State Fault Refusal := runCommand 0x0E0D p s (keyBody true bodyAnchorSet)

/-! ### Restoration (R462, R198) -/

/-- The slot that a blob restores, or the refusal. -/
def Chip.unwrapBlob (c : Chip) (f : Fuses) (b : Bytes) : Except (Nat × Nat) KeySlot :=
  let salt := c.csys.salt.getD []
  let w := sliceB b 40 136
  let plain := match Config.kwUnwrap (c.storeKey salt false) w with
    | some p => some p
    | none => Config.kwUnwrap (c.storeKey salt true) w
  match plain with
  | none => .error (stCertFail, if c.csys.salt.isSome then 0x0E0D else 0x0E0C)
  | some p =>
    let k := { slotOfPlain p with gen := fld b 8 4 }
    if fld b 5 1 != 1 then .ok k
    else if k.parent = 0xFFFF && !identityOk f.lifecycle then .error (stState, 0x0E0A)
    else match c.parentKey k.parent with
      | none => .error (stState, 0x0E02)
      | some ki => .ok { k with key := c.deriveKey ki k.label k.owner k.ty k.meas }

/-- Restore one slot: KEY_RESTORED carries the outcome. -/
def Chip.restoreSlot (f : Fuses) (c : Chip) (e : Nat × Bytes) : Chip :=
  match c.unwrapBlob f e.2 with
  | .error r => c.post 0x0E05 r.2 e.1 r.1
  | .ok k => (c.setKeys fun s => { s with slots := s.slots.set e.1 k, gen := Nat.max s.gen k.gen }).post 0x0E05 0 e.1

/-- Insert by GEN. -/
def insertGen (e : Nat × Bytes) : List (Nat × Bytes) → List (Nat × Bytes)
  | [] => [e]
  | y :: r => if fld e.2 8 4 < fld y.2 8 4 then e :: y :: r else y :: insertGen e r

/-- KEY_RESTORE (R462): the volume table has been read; persisted slots come back in GEN order, before GEAR_RESTORE has the gears verified
again. -/
def execKeyRestore (s : State) : Host.Outcome State Fault Refusal :=
  onChip s fun c =>
    if !c.storeReady || c.keys.restored then c
    else
      let c := (c.csys.blobs.foldl (fun l e => insertGen e l) []).foldl (Chip.restoreSlot s.fuses) c
      c.setKeys fun k => { k with restored := true }

end Sys2Proof.Machine
end

