-- ==== Sys2Proof/Machine/KeyLinks.lean ====
section
/-!
DEFINITION. Chapter 19: sealing settings, rekeying, handshake timers, self-tests and crypto operations (R452, R466, R471 to R475).
-/
namespace Sys2Proof.Machine

/-! ### Self-tests (R452) -/

/-- KEY_SELFTEST. -/
def bodyKeySelftest (x : Ctx) (c : Chip) : Ans × Chip :=
  match c.keys.selftest with
  | some h => no c stBusy 0 h
  | none => ({ accepted with committed := true }, c.setKeys fun k => { k with selftest := some x.handle })

def execKeySelftest (p : Packet) (s : State) : Host.Outcome State Fault Refusal := runCommand 0x0E10 p s (keyBody false bodyKeySelftest)

/-- SELFTEST_PERIODIC: 24 h of powered time have passed since the last run. -/
def execSelftestPeriodic (s : State) : Host.Outcome State Fault Refusal :=
  onChip s fun c => if c.keys.selftest.isSome then c else c.setKeys fun k => { k with selftest := some 0 }

/-- SELFTEST_DONE. -/
def execSelftestDone (pass : Bool) (s : State) : Host.Outcome State Fault Refusal :=
  onChip s fun c =>
    match c.keys.selftest with
    | none => c
    | some h =>
      let c := c.setKeys fun k => { k with selftest := none, selftestTurn := c.turn }
      if !pass then c.selftestFail else if h = 0 then c else c.complete h stOk 0 0

/-- ENTROPY_HEALTH_FAIL. -/
def execEntropyHealthFail (s : State) : Host.Outcome State Fault Refusal := onChip s Chip.selftestFail

/-! ### Sealing (R466, R471, R473) -/

/-- A SEALED or VERIFY_FIRST tunnel crosses the trunk (R473). -/
def Chip.sealNeeded (c : Chip) (n : Nat) : Bool :=
  !(c.tids fun _ t => t.state.live && t.trunks.contains n && (bitOf t.oflags 0 || bitOf t.oflags 1)).isEmpty

/-- SEAL_SET (R473): the settings apply from the next handshake. -/
def bodySealSet (x : Ctx) (c : Chip) : Ans × Chip :=
  let n := fld x.ps 0 1
  let mode := fld x.ps 1 1
  let fl := fld x.ps 2 1
  let tf := fld x.ps 3 1
  if n > 3 || mode > 1 || fl > 15 || !rsvd x.ps 5 3 then no c stParam
  else
    let y := c.sealOf n
    if y.cfg.mode = 1 && mode = 0 && c.sealNeeded n then no c stState 0x0E0F
    else
      let k : SealCfg := { mode, auth := bitOf fl 0, anonOk := bitOf fl 1, requireTime := bitOf fl 2,
                           tagFailMax := if tf = 0 then 4 else tf, anchors := fld x.ps 4 1 }
      let c := c.setSeal n { y with cfg := k }
      (ok, if bitOf fl 3 then c.storeConfig fun s => { s with sealing := s.sealing.set n k } else c)

def execSealSet (p : Packet) (s : State) : Host.Outcome State Fault Refusal := runCommand 0x0E0E p s (keyBody true bodySealSet)

/-- REKEY (R471, R474): a derived epoch is announced at once; FRESH runs a new handshake. -/
def bodyRekey (x : Ctx) (c : Chip) : Ans × Chip :=
  let n := fld x.ps 0 1
  let fresh := fld x.ps 1 1
  if n > 3 || fresh > 1 || !rsvd x.ps 2 2 then no c stParam
  else
    let y := c.sealOf n
    match y.rekey, y.keys with
    | some h, _ => no c stBusy 0 h
    | none, none => no c stState 0x0E19
    | none, some k =>
      if !y.sealedOn then no c stState 0x0E19
      else if fresh = 1 then (accepted, ((c.setSeal n { y with rekey := some x.handle }).kxStart n true).settlePairwise)
      else
        let next := match y.next with | some e => some e | none => some (k.next y.initiator, (c.turn + 9) % 2 ^ 48)
        ({ accepted with committed := true }, c.setSeal n { y with rekey := some x.handle, next })

def execRekey (p : Packet) (s : State) : Host.Outcome State Fault Refusal := runCommand 0x0E0F p s (keyBody true bodyRekey)

/-- KX_TIMEOUT (R466): 500 ms after LINK_UP the exchange is not complete. -/
def execKxTimeout (n : Fin 4) (s : State) : Host.Outcome State Fault Refusal :=
  onChip s fun c =>
    let x := c.sealOf n.val
    if c.inData n.val && x.cfg.auth && x.phase != .done && x.phase != .refused then c.kxRefuse n.val 0x0E15 else c

/-- KX_RETRY_TIMER (R466): every 10 s a failed exchange is repeated while the trunk stays in DATA. -/
def execKxRetryTimer (n : Fin 4) (s : State) : Host.Outcome State Fault Refusal :=
  onChip s fun c =>
    let x := c.sealOf n.val
    if c.inData n.val && x.cfg.auth && x.phase == .refused then (c.kxStart n.val x.keys.isSome).settlePairwise else c

/-- EPOCH_CHANGE (R471): at CHANGE_TURN, after the sealing engine's known-answer test (R452), the next epoch takes over. -/
def execEpochChange (n : Fin 4) (katPass : Bool) (s : State) : Host.Outcome State Fault Refusal :=
  onChip s fun c =>
    match (c.sealOf n.val).next with
    | none => c
    | some (_, first) =>
      if seqBefore 48 c.turn first then c else if katPass then c.sealRotate n.val else c.selftestFail

/-! ### Crypto operations (R474, R475) -/

/-- The slot type and USE bit that an operation needs; none for SHA-384 and random. -/
def cryptoNeeds (op : Nat) : Option (Nat × Nat) :=
  if op = 1 then some (1, 0) else if op = 2 then some (1, 1) else if op = 3 || op = 4 then some (2, 2) else if op = 6 then some (3, 2)
  else if op = 7 then some (5, 2) else none

/-- Bytes that a check takes from the end of the data. -/
def cryptoTail (op : Nat) : Nat := if op = 2 then 16 else if op = 4 then 48 else if op = 7 then 96 else 0

/-- Output length of an operation on `n` data bytes. -/
def cryptoOut (op n : Nat) (approved : Bool) : Nat :=
  if op = 1 then n + 16 + (if approved then 12 else 0) else if op = 2 then n - 16 else if op = 3 || op = 5 then 48 else if op = 6 then 96
  else if op = 8 then n else 0

/-- Unreleased outputs, held or still to come, in bytes (R475). -/
def Chip.cryptoHeld (c : Chip) : Nat :=
  (c.keys.outputs.filter fun e => (c.rec? e.1).isSome).foldl (fun a e => a + e.2.length) 0 +
    c.keys.jobs.foldl (fun a j => a + cryptoOut j.op (if j.op = 8 then j.want else j.input.length - j.aadLen) c.approved) 0

/-- CRYPTO_OP. -/
def bodyCryptoOp (x : Ctx) (c : Chip) : Ans × Chip :=
  let op := fld x.ps 0 1
  let slot := fld x.ps 1 1
  let aad := fld x.ps 2 2
  let dlen := fld x.ps 4 4
  let gcm := op = 1 || op = 2
  let want := 24 + aad + (if op = 8 then 0 else dlen)
  if op < 1 || op > 8 || aad > 4096 || (!gcm && aad != 0) || !rsvd x.ps 20 4 || (op = 8 && (dlen < 1 || dlen > 65536))
      || (op != 8 && dlen < cryptoTail op) then no c stParam
  else if x.ps.length < want then no c stLength 0x0008
  else if x.ps.length > want then no c stLength 0x0009
  else
    let use := match cryptoNeeds op with
      | none => none
      | some (ty, b) => match c.useKey x slot with
        | .error e => some e
        | .ok k => if k.ty = ty && k.use b then none else some (stDenied, 0x0E04)
    match use with
    | some e => no c e.1 e.2
    | none =>
      if c.cryptoHeld + cryptoOut op dlen c.approved > 4194304 then no c stNoResource 0x0E1A
      else
        let job : CryptoJob := { handle := x.handle, op, slot, aadLen := aad, iv := sliceB x.ps 8 12, input := x.ps.drop 24,
                                 want := if op = 8 then dlen else 0 }
        ({ accepted with committed := c.keys.jobs.isEmpty }, c.setKeys fun k => { k with jobs := k.jobs ++ [job] })

def execCryptoOp (p : Packet) (s : State) : Host.Outcome State Fault Refusal := runCommand 0x0E11 p s (keyBody true bodyCryptoOp)

/-- What an operation gives: its output, or none for a failed check; `slot` is the key as it stands when the operation runs. -/
def Chip.cryptoRun (c : Chip) (j : CryptoJob) (key : Bytes) : Option Bytes :=
  let aad := j.input.take j.aadLen
  let data := j.input.drop j.aadLen
  let n := data.length - cryptoTail j.op
  let body := data.take n
  let tail := data.drop n
  if j.op = 1 then
    let iv := if c.approved then c.freshBytes 12 else j.iv
    let ct := sliceB (Config.gcmCrypt key iv data) 0 data.length
    some ((if c.approved then iv else []) ++ ct ++ sliceB (Config.gcmTag key iv aad ct) 0 16)
  else if j.op = 2 then
    if sliceB (Config.gcmTag key j.iv aad body) 0 16 == tail then some (sliceB (Config.gcmCrypt key j.iv body) 0 n) else none
  else if j.op = 3 then some (sliceB (Config.hmac384 key data) 0 48)
  else if j.op = 4 then if sliceB (Config.hmac384 key body) 0 48 == tail then some [] else none
  else if j.op = 5 then some (sliceB (Config.sha384 data) 0 48)
  else if j.op = 6 then some (sliceB (Config.ecdsaSign key data c.clk.fresh) 0 96)
  else if j.op = 7 then if Config.ecdsaVerify key body tail then some [] else none
  else some (c.freshBytes j.want)

/-- CRYPTO_OP_DONE: the operation at the front of the queue ends, while no self-test is in progress (R452). A slot zeroized meanwhile leaves it without a key (STATUS_STATE). -/
def execCryptoOpDone (s : State) : Host.Outcome State Fault Refusal :=
  onChip s fun c =>
    match (if c.keys.selftest.isSome then [] else c.keys.jobs) with
    | [] => c
    | j :: rest =>
      let c1 := (c.setKeys fun k => { k with jobs := rest }).nextFresh
      let key := match cryptoNeeds j.op with
        | none => some []
        | some _ => (c.kslot j.slot).map fun k => k.key
      (if (c.openRec? j.handle).isNone then c1
       else if c.cancelled j.handle then c1.complete j.handle stAborted 0x0007 0
       else match key with
       | none => c1.complete j.handle stState 0x0E02 0
       | some key => match c.cryptoRun j key with
         | none => c1.complete j.handle stCertFail 0 0
         | some out =>
           let c1 := if j.op = 4 || j.op = 7 then c1 else c1.setKeys fun k => { k with outputs := k.outputs.set j.handle out }
           c1.complete j.handle stOk 0 out.length).cryptoStart

/-- CRYPTO_RESULT. -/
def bodyCryptoResult (x : Ctx) (c : Chip) : Ans × Chip :=
  let h := fld x.ps 0 4
  let off := fld x.ps 4 4
  let len := fld x.ps 8 3
  let rel := fld x.ps 11 1
  if rel > 1 || len < 1 || len > 1048576 then no c stParam
  else match c.rec? h with
    | none => no c stNoHandle
    | some r =>
      if x.lvl != 1 && h / 2 ^ 24 != x.iss then no c stDenied 0x0002
      else match c.keys.outputs.find h with
        | none => no c stState 0x0E1B
        | some o =>
          if !r.complete then no c stState 0x0E1B
          else
            let d := (o.drop off).take len
            let c' := if rel = 1 then
                { c with keys := { c.keys with outputs := c.keys.outputs.erase h },
                         cmd := { c.cmd with handles := c.cmd.handles.filter fun y => y.handle != h } } else c
            (ok d (o.length - (off + d.length)), c')

def execCryptoResult (p : Packet) (s : State) : Host.Outcome State Fault Refusal := runCommand 0x0E12 p s (keyBody true bodyCryptoResult)

end Sys2Proof.Machine
end

