-- ==== Sys2Proof/Machine/Crock.lean ====
section
/-!
DEFINITION. Chapter 14: NAND completions, census, maintenance and the Crock commands.
-/
namespace Sys2Proof.Machine

/-! ### NAND completions -/

/-- The read-disturb limit (R339). -/
def Chip.readLimit (c : Chip) : Nat := match c.crock.media with | some m => if m.tlc && !c.fmt.slc then 100000 else 1000000 | none => 0

/-- Put an erase block at the end of the refresh queue (R340). -/
def Chip.queueRefresh (c : Chip) (e : Nat) : Chip :=
  if c.crock.refreshQ.contains e || c.crock.rebuiltQ.contains e then c else c.setCrock fun x => { x with refreshQ := x.refreshQ ++ [e] }

/-- Page reads are counted, and the read-disturb limit queues the block (R339). -/
def Chip.countReads (c : Chip) (e : Nat) (r : NandRead) : Chip :=
  let levels := match c.crock.media with | some m => Nat.min 8 m.retryLevels | none => 0
  let n := match r with | .good | .marginal => 1 | .retry k => 1 + Nat.min k levels | .rebuilt | .lost => 1 + levels
  let c := c.setEb e fun b => { b with reads := b.reads + n }
  if (c.ebOf e).reads ≥ c.readLimit then c.queueRefresh e else c

/-- CENSUS_BLOCK_CLASSIFY (R342). -/
def Chip.classify (c : Chip) (e : Nat) (r : NandRead) : Chip :=
  let k := c.crock.census
  let c := c.setCrock fun x => { x with censusLeft := x.censusLeft.filter (· != e), census := { k with checked := sat32 k.checked 1 } }
  let k := c.crock.census
  match r with
  | .good => c.setCrock fun x => { x with census := { k with good := sat32 k.good 1 } }
  | .marginal | .retry _ => (c.queueRefresh e).setCrock fun x => { x with census := { k with refresh := sat32 k.refresh 1 } }
  | .rebuilt => c.setCrock fun x => { x with census := { k with rebuilt := sat32 k.rebuilt 1 }, rebuiltQ := x.rebuiltQ ++ [e] }
  | .lost =>
    let c := c.setCrock fun x => { x with census := { k with lostEb := sat32 k.lostEb 1 } }
    (c.unitsIn e).foldl (fun c u => c.nandOp (.censusUnit u.1 u.2)) c

/-- Maintenance has emptied its erase block. -/
def Chip.moveCheck (c : Chip) : Chip :=
  match c.crock.moving with
  | none => c
  | some e =>
    if (c.unitsIn e).isEmpty then (c.setCrock fun x => { x with moving := none }).reclaim e else c

/-- NAND_READ_DONE (R331): the page of operation `op` has been decoded as `r` says. -/
def Chip.nandRead (c : Chip) (op : Nat) (r : NandRead) : Chip :=
  match c.crock.ops.find op with
  | none => c
  | some k =>
    let take := c.setCrock fun x => { x with ops := x.ops.erase op }
    match k with
    | .request tid tag vol lba =>
      let b := c.nand.map.get {} (blkKey vol lba)
      let c : Chip := match b.eb with | some e => take.countReads e r | none => take
      let c : Chip := match b.eb with
        | some e => if c.crock.state == .census && c.crock.censusLeft.contains e then (c.classify e r).censusNext else c
        | none => c
      let lost := r == .lost
      let c : Chip := if lost && !b.lost then (c.markLost vol lba).postLost vol 1 lba else c
      match c.blkOf tid with
      | none => c
      | some t =>
        match t.reqs with
        | q :: rest =>
          if q.tag = tag && q.op = 1 then
            ((c.blkData tid tag q.next b.data lost).setBlk tid { t with reqs := q.sent lost :: rest }).blkGo tid
          else c
        | [] => c
    | .census e => ((take.countReads e r).classify e r).censusNext
    | .censusUnit vol lba =>
      let c : Chip := if r == .lost then
          let n := take.crock.lostRun.get (0, lba) vol
          (take.markLost vol lba).setCrock fun x => { x with lostRun := x.lostRun.set vol (n.1 + 1, n.2) }
        else take
      if c.nandBusy fun k => match k with | .censusUnit _ _ => true | _ => false then c
      else c.crock.lostRun.foldl (fun c e => c.postLost e.1 e.2.1 e.2.2) (c.setCrock fun x => { x with lostRun := [] })
    | .move vol lba =>
      let b := c.nand.map.get {} (blkKey vol lba)
      let c : Chip := match b.eb with | some e => take.countReads e r | none => take
      if b.lost || (c.nand.map.find (blkKey vol lba)).isNone then c.moveCheck
      else if r == .lost then ((c.markLost vol lba).postLost vol 1 lba).moveCheck
      else (c.setCrock fun x => { x with staged := x.staged ++ [{ id := b.seq, vol, lba, data := b.data }] }).crockGo
    | _ => c

def execNandReadDone (op : Nat) (r : NandRead) (s : State) : Host.Outcome State Fault Refusal := onChip s fun c => c.nandRead op r

/-- A program failed and no spare block is left (Tables 14.3, 14.7): the write and the flushes of its volume fail. -/
def Chip.programLost (c : Chip) (s : Staged) : Chip :=
  let c := c.setCrock fun x => { x with staged := x.staged.filter fun y => y.id != s.id }
  let hit := c.crock.flushes.filter fun f => f.2.1 == s.vol && decide (s.id < f.2.2)
  let c := c.setCrock fun x => { x with flushes := x.flushes.filter fun f => !hit.contains f }
  let c := hit.foldl (fun c f => c.complete f.1 stMedia 0x0810 0) c
  match s.by' with
  | none => c
  | some (tid, tag) =>
    match c.blkOf tid with
    | none => c
    | some t =>
      let reqs := t.reqs.map fun (r : BlkReq) => if r.tag = tag && r.op = 2 && r.fail.isNone then { r with fail := some (stMedia, 0x0810), next := r.done } else r
      let rx := match t.rx with | some (g, n, d) => some (g, n, d || g == tag) | none => none
      let c := c.setCrock fun x => { x with staged := x.staged.filter fun y => y.by' != some (tid, tag) || y.running }
      (c.setBlk tid { t with reqs, rx }).blkGo tid

/-- NAND_PROGRAM_DONE (R336, R345, R348). -/
def Chip.nandProgram (c : Chip) (op : Nat) (good : Bool) : Chip :=
  match c.crock.ops.find op with
  | none => c
  | some k =>
    let take := c.setCrock fun x => { x with ops := x.ops.erase op }
    match k with
    | .program id e =>
      match take.crock.staged.find? fun s => s.id == id with
      | none => take
      | some s =>
        if good then (take.programOk s (some e)).moveCheck
        else
          let none_ := take.fmt.spare.isEmpty
          let c := take.retireEb e
          if none_ then (c.programLost s).censusNext
          else (c.setCrock fun x => { x with staged := x.staged.map fun y => if y.id = id then { y with running := false } else y }).crockGo
    | .parity e => if good then take.reclaim e else (take.retireEb e).crockGo
    | _ => c

def execNandProgramDone (op : Nat) (good : Bool) (s : State) : Host.Outcome State Fault Refusal := onChip s fun c => c.nandProgram op good

/-- NAND_ERASE_DONE (R336, R338, R490). -/
def Chip.nandErase (c : Chip) (op : Nat) (good : Bool) : Chip :=
  match c.crock.ops.find op with
  | some (.erase e) =>
    let c := c.setCrock fun x => { x with ops := x.ops.erase op }
    if !good then (c.retireEb e).crockGo
    else
      let c := c.setEb e fun b => { cycles := b.cycles + 1 }
      let rated := match c.crock.media with | some m => m.peRated | none => 0
      let c := c.sample 9 (if rated = 0 then 15 else Nat.min 15 ((c.ebOf e).cycles * 16 / rated))
      (c.setCrock fun x => { x with erased := insertSorted e x.erased }).crockGo
  | _ => c

def execNandEraseDone (op : Nat) (good : Bool) (s : State) : Host.Outcome State Fault Refusal := onChip s fun c => c.nandErase op good

/-- CENSUS_DONE (R342, R344): every volume is ONLINE, and the Crock READY. -/
def execCensusDone (s : State) : Host.Outcome State Fault Refusal :=
  onChip s fun c =>
    let busy := c.nandBusy fun k => match k with | .census _ => true | .censusUnit _ _ => true | _ => false
    if c.crock.state != .census || !c.crock.censusLeft.isEmpty || busy then c
    else
      let d := Nat.min 0xFFFFFFFF ((c.clk.powerPs - c.crock.census.startAt) / 1000000)
      let c := (c.setCrock fun x => { x with state := .ready, reason := 0, census := { x.census with durationUs := d } }).setNand fun n => { n with censusOpen := false }
      let c := c.post 0x0802 0 (d + 2 ^ 32 * c.crock.census.lostBlocks)
      let r := c.volRest
      ((c.nand.vols.map Prod.fst).foldl (fun c v => match (c.nand.vols.get { owner := 0 } v).state with
        | .census => c.volState v r.1 r.2
        | _ => c) c).crockGo

/-- Erase blocks of the data area that hold data. -/
def Chip.usedEbs (c : Chip) : List Nat := (c.nand.eb.filter fun e => c.isData e.1 && decide (e.2.used > 0)).map Prod.fst

/-- The block with the fewest or most cycles of a list. -/
def Chip.byCycles (c : Chip) (most : Bool) (l : List Nat) : Option Nat :=
  l.foldl (fun (b : Option Nat) e => match b with
    | none => some e
    | some m => if (if most then (c.ebOf e).cycles > (c.ebOf m).cycles else (c.ebOf e).cycles < (c.ebOf m).cycles) then some e else b) none

/-- Static wear levelling (R338): the least-worn block's data go onto the most-worn free block when the spread passes 10 % of the rated cycles. -/
def Chip.wearLevel (c : Chip) : Option (Nat × Nat) :=
  let used := c.usedEbs
  let rated := match c.crock.media with | some m => m.peRated | none => 0
  let free := (List.range c.ebTotal).filter fun e => c.isData e && (c.ebOf e).used = 0
  match c.byCycles false (used.filter fun e => c.crock.openEb != some e), c.byCycles true used, c.byCycles true free with
  | some lo, some hi, some f => if 10 * ((c.ebOf hi).cycles - (c.ebOf lo).cycles) > rated then some (lo, f) else none
  | _, _, _ => none

/-- BACKGROUND_MAINTENANCE (R340): REBUILT blocks first, then refreshes and relocations, then wear levelling; without a free block the one with
the least valid data is moved. -/
def execBackgroundMaintenance (s : State) : Host.Outcome State Fault Refusal :=
  onChip s fun c =>
    if c.crock.moving.isSome || !(c.crock.state == .ready || c.crock.state == .census) || c.crock.halted then c
    else match c.crock.rebuiltQ, c.crock.refreshQ with
      | e :: r, _ => (c.setCrock fun x => { x with rebuiltQ := r }).startMove e
      | [], e :: r => (c.setCrock fun x => { x with refreshQ := r }).startMove e
      | [], [] =>
        match c.wearLevel with
        | some (lo, f) => (c.setCrock fun x => { x with openEb := some f }).startMove lo
        | none =>
          if c.freeEb.isSome then c
          else
            let full := c.usedEbs.filter fun e => c.crock.openEb != some e && decide ((c.unitsIn e).length < c.ebUnits)
            match full.foldl (fun (b : Option Nat) e => match b with
              | none => some e
              | some m => if (c.unitsIn e).length < (c.unitsIn m).length then some e else b) none with
            | none => c
            | some e => c.startMove e

/-- RETENTION_DAYS in seconds: 365 days for SLC, 90 for TLC (R341). -/
def Chip.retentionS (c : Chip) : Nat := match c.crock.media with | some m => (if m.tlc && !c.fmt.slc then 90 else 365) * 86400 | none => 0

/-- RETENTION_AGE_EXPIRY (R341): the powered age of a block that holds data exceeds RETENTION_DAYS. -/
def execRetentionAgeExpiry (eb : Nat) (s : State) : Host.Outcome State Fault Refusal :=
  onChip s fun c => if (c.unitsIn eb).isEmpty || decide (c.poweredS - (c.ebOf eb).at' ≤ c.retentionS) then c else c.queueRefresh eb

/-! ### Commands (R353) -/

/-- CSTATE codes of Table 14.6. -/
def CrockState.code : CrockState → Nat
  | .noMedia => 0 | .unformatted => 1 | .census => 2 | .ready => 3 | .failed => 4

/-- The refusal of Table 14.7 by CSTATE. -/
def Chip.crockRefuses (c : Chip) : Option Nat :=
  match c.crock.state with
  | .noMedia | .failed => some 0x0801
  | .unformatted => some 0x0803
  | _ => none

/-- Logical blocks not assigned to volumes. -/
def Chip.freeBlocks (c : Chip) : Nat := c.fmt.logical - c.nand.vols.foldl (fun a e => a + e.2.blocks) 0

/-- CROCK_GET_INFO (Table 14.6). -/
def bodyCrockGetInfo (_x : Ctx) (c : Chip) : Ans × Chip :=
  let k := c.crock
  let f := c.fmt
  let m : OnfiPage := k.media.getD ⟨0, 0, 0, 0, 0, 0, false, 0, 0, 0, false⟩
  let used := c.usedEbs
  let sum := used.foldl (fun a e => a + (c.ebOf e).cycles) 0
  let res := k.tun.foldl (fun a e => a + e.2.reserve) 0
  (ok (le 1 k.state.code ++ le 1 k.channels ++ le 1 k.targets ++ le 1 m.luns ++ le 1 (b2n m.tlc) ++ le 1 (b2n (decide (k.lunCount < 16))) ++ le 2 k.reason ++
    le 8 (k.lunCount * m.blocksPerLun * m.pagesPerBlock * m.pageBytes) ++ le 8 f.logical ++ le 8 c.freeBlocks ++ le 4 f.spare.length ++ le 4 f.spareFormat ++
    le 4 c.holdupNeed ++ le 4 k.holdup ++ le 4 (maxOf (used.map fun e => (c.ebOf e).cycles)) ++ le 4 (if used.isEmpty then 0 else sum / used.length) ++
    le 4 m.peRated ++ le 2 (2048 - res) ++ le 2 c.nand.grown.length), c)

def execCrockGetInfo (p : Packet) (s : State) : Host.Outcome State Fault Refusal := runCommand 0x0801 p s bodyCrockGetInfo

/-- A BLOCK tunnel ends at F7. -/
def Chip.blockTunnel (c : Chip) : Bool := c.fab.tun.any fun e => e.2.state.live && e.2.ty == 2 && e.2.index == e.2.hops && e.2.outPort == 7

/-- CROCK_FORMAT (R353): it commits at its first erase, which begins at once. -/
def bodyCrockFormat (x : Ctx) (c : Chip) : Ans × Chip :=
  let pct := fld x.ps 4 1
  if fld x.ps 0 4 != 0x464F524D || (pct != 0 && (pct < 2 || pct > 28)) || fld x.ps 5 1 > 1 || !rsvd x.ps 6 2 then no c stParam
  else if c.crock.state == .noMedia || c.crock.state == .failed then no c stState 0x0801
  else match c.crock.format with
    | some (h, _, _) => no c stBusy 0 h
    | none =>
      if c.blockTunnel then no c stBusy
      else
        let c := (c.setNand fun n => { n with formatting := true, map := [], censusOpen := false }).crockState .unformatted 0x0803
        let c := c.setCrock fun k => { k with format := some (x.handle, if pct = 0 then 7 else pct, fld x.ps 5 1 == 1), staged := [], ops := [], openEb := none,
                                              censusLeft := [], rebuiltQ := [], refreshQ := [], moving := none, erased := [], stripe := 0, lostRun := [] }
        ({ accepted with committed := true }, c)

def execCrockFormat (p : Packet) (s : State) : Host.Outcome State Fault Refusal := runCommand 0x0802 p s bodyCrockFormat

/-- The layout that a format gives (R334 to R337), from the bad blocks it found: the system area first, the spare pool last. -/
def Chip.layout (c : Chip) (bad : List Nat) (pct : Nat) (slc : Bool) : CrockFormat :=
  match c.crock.media with
  | none => {}
  | some m =>
    let total := c.ebTotal
    let isGood := fun e => !bad.contains e
    let goods := (List.range total).filter isGood
    let per := onfiUnits m true
    let sys := if per = 0 then 0 else (131072 + per - 1) / per
    let sysTop := match goods.drop sys with | e :: _ => e | [] => total
    let rest := goods.drop sys
    let n := goods.length * pct / 100
    let spare := rest.drop (rest.length - n)
    let data := rest.length - spare.length
    { slc, sysTop, bad, spare, spareFormat := spare.length, logical := data * onfiUnits m slc * 15 / 16 }

/-- CROCK_FORMAT_DONE (R336, R337, R353): the bad blocks found, and whether every program and erase was covered by a spare. -/
def execCrockFormatDone (bad : List Nat) (good : Bool) (s : State) : Host.Outcome State Fault Refusal :=
  onChip s fun c =>
    match c.crock.format with
    | none => c
    | some (h, pct, slc) =>
      let c := c.setCrock fun k => { k with format := none }
      if !good then c.complete h stMedia 0x0810 0
      else
        let f := c.layout bad pct slc
        let c := c.setNand fun n => { n with fmt := some f, formatting := false, grown := [], map := [], eb := n.eb.mapAll fun _ b => { cycles := b.cycles + 1 } }
        let c := c.crockState .ready 0
        let r := c.volRest
        let c := (c.nand.vols.map Prod.fst).foldl (fun c v => c.volState v r.1 (if r.1 == .readOnly then r.2 else 0)) c
        c.complete h stOk 0 0

/-- The volume that a command names, with the L2 rule (Table 14.4). -/
def Chip.volFor (c : Chip) (x : Ctx) (v : Nat) : Except (Nat × Nat) Volume :=
  match c.crockRefuses with
  | some r => .error (stState, r)
  | none =>
    match c.vol? v with
    | none => .error (stState, 0x0805)
    | some y => if x.lvl = 2 && y.owner != x.iss then .error (stDenied, 0x0002) else .ok y

/-- Volumes granted to an owner (Table 11.8). -/
def Chip.volGrant (c : Chip) (vi : Nat) : Nat :=
  if vi = 0 then 64 - c.host.inst.foldl (fun a e => if e.1 > 0 && e.2.state != .absent then a + e.2.volumes else a) 0
  else if (c.inst vi).state == .absent then 0 else (c.inst vi).volumes

/-- VOLUME_CREATE (R335). -/
def bodyVolumeCreate (x : Ctx) (c : Chip) : Ans × Chip :=
  let v := fld x.ps 0 1
  let o := fld x.ps 1 1
  let n := fld x.ps 8 8
  if v > 63 || o > 63 || fld x.ps 2 1 > 3 || !rsvd x.ps 3 5 || n = 0 then no c stParam
  else match c.crockRefuses with
    | some r => no c stState r
    | none =>
      if x.lvl = 2 && o != x.iss then no c stDenied 0x0002
      else if (c.nand.vols.find v).isSome then no c stState 0x0806
      else if (c.nand.vols.filter fun e => e.2.owner == o).length ≥ c.volGrant o then no c stNoResource 0x0601
      else if n > c.freeBlocks then no c stNoResource 0x0807
      else
        let st : VolState := if c.crock.state == .census then .census else c.volRest.1
        (ok, c.setVol v { owner := o, vflags := fld x.ps 2 1, blocks := n, state := st })

def execVolumeCreate (p : Packet) (s : State) : Host.Outcome State Fault Refusal := runCommand 0x0803 p s bodyVolumeCreate

/-- VOLUME_DELETE (R353). -/
def bodyVolumeDelete (x : Ctx) (c : Chip) : Ans × Chip :=
  let v := fld x.ps 0 1
  if v > 63 || !rsvd x.ps 1 3 then no c stParam
  else match c.volFor x v with
    | .error e => no c e.1 e.2
    | .ok y =>
      if c.attached v true + c.attached v false > 0 then no c stBusy
      else ({ accepted with committed := true }, c.setVol v { y with deleting := some x.handle })

def execVolumeDelete (p : Packet) (s : State) : Host.Outcome State Fault Refusal := runCommand 0x0804 p s bodyVolumeDelete

/-- Every block of a volume is trimmed. -/
def Chip.trimVol (c : Chip) (v : Nat) : Chip :=
  let ebs := (c.nand.map.filterMap fun e => if e.1 / 2 ^ 48 = v then e.2.eb else none).foldl (fun l e => insertSorted e l) []
  let c := (c.setNand fun n => { n with map := n.map.filter fun e => e.1 / 2 ^ 48 != v }).setCrock fun x =>
    { x with staged := x.staged.filter fun s => s.vol != v || s.by'.isNone }
  ebs.foldl Chip.reclaim c

/-- VOLUME_DELETE_DONE (R353). -/
def execVolumeDeleteDone (volume : Nat) (s : State) : Host.Outcome State Fault Refusal :=
  onChip s fun c =>
    match c.nand.vols.find volume with
    | none => c
    | some y =>
      match y.deleting with
      | none => c
      | some h => (((c.trimVol volume).setNand fun n => { n with vols := n.vols.erase volume }).flushCheck).complete h stOk 0 0

/-- VOLUME_SET (R335, R346). -/
def bodyVolumeSet (x : Ctx) (c : Chip) : Ans × Chip :=
  let v := fld x.ps 0 1
  let back := fld x.ps 1 1
  if v > 63 || back > 1 || fld x.ps 2 1 > 3 || !rsvd x.ps 3 5 then no c stParam
  else match c.volFor x v with
    | .error e => no c e.1 e.2
    | .ok y =>
      if back = 1 && c.crock.holdup < c.holdupNeed then no c stState 0x0812
      else (ok, (c.setVol v { y with back := back == 1, unback := false, vflags := fld x.ps 2 1 }).blkAll)

def execVolumeSet (p : Packet) (s : State) : Host.Outcome State Fault Refusal := runCommand 0x0805 p s bodyVolumeSet

/-- VOLUME_GET. -/
def bodyVolumeGet (x : Ctx) (c : Chip) : Ans × Chip :=
  let v := fld x.ps 0 1
  if v > 63 || !rsvd x.ps 1 3 then no c stParam
  else match c.volFor x v with
    | .error e => no c e.1 e.2
    | .ok y =>
      let lost := (c.nand.map.filter fun e => e.1 / 2 ^ 48 == v && e.2.lost).length
      (ok (le 1 v ++ le 1 y.state.code ++ le 1 y.owner ++ le 1 y.vflags ++ le 1 (b2n y.back) ++ zeros 1 ++ le 2 y.reason ++ le 8 y.blocks ++
        le 4 (Nat.min 0xFFFFFFFF lost) ++ le 1 (Nat.min 255 (c.attached v false)) ++ le 1 (Nat.min 255 (c.attached v true)) ++ zeros 2 ++
        le 4 y.windowOverrun ++ le 4 y.discarded), c)

def execVolumeGet (p : Packet) (s : State) : Host.Outcome State Fault Refusal := runCommand 0x0806 p s bodyVolumeGet

/-- CROCK_FLUSH (R345). -/
def bodyCrockFlush (x : Ctx) (c : Chip) : Ans × Chip :=
  let v := fld x.ps 0 1
  if v > 63 || !rsvd x.ps 1 3 then no c stParam
  else match c.volFor x v with
    | .error e => no c e.1 e.2
    | .ok _ =>
      if c.unflushed v c.nand.seq then (accepted, c.setCrock fun k => { k with flushes := k.flushes ++ [(x.handle, v, c.nand.seq)] })
      else ({ accepted with done := some (stOk, 0, 0) }, c)

def execCrockFlush (p : Packet) (s : State) : Host.Outcome State Fault Refusal := runCommand 0x0807 p s bodyCrockFlush

/-- CENSUS_GET. -/
def bodyCensusGet (_x : Ctx) (c : Chip) : Ans × Chip :=
  match c.crockRefuses with
  | some r => no c stState r
  | none =>
    let k := c.crock.census
    let pend := c.crock.rebuiltQ.length + c.crock.refreshQ.length
    (ok (le 6 k.startTurn ++ zeros 2 ++ le 4 k.durationUs ++ le 4 k.checked ++ le 4 k.good ++ le 4 k.refresh ++ le 4 k.rebuilt ++ le 4 k.lostEb ++
      le 4 k.lostBlocks ++ le 4 pend ++ le 4 (b2n k.interrupted) ++ zeros 4), c)

def execCensusGet (p : Packet) (s : State) : Host.Outcome State Fault Refusal := runCommand 0x0808 p s bodyCensusGet

/-- CROCK_CTRL (R346): WRITE_BACK volumes return to WRITE_THROUGH after their flush when the hold-up falls below the need. -/
def bodyCrockCtrl (x : Ctx) (c : Chip) : Ans × Chip :=
  let h := fld x.ps 0 4
  let r := fld x.ps 4 1
  if h > 1000000 || r = 0 || r > 50 || fld x.ps 5 1 > 1 || !rsvd x.ps 6 2 then no c stParam
  else match c.crockRefuses with
    | some e => no c stState e
    | none =>
      let c := c.setCrock fun k => { k with holdup := h, refreshShare := r }
      let c : Chip := if fld x.ps 5 1 = 1 then c.storeConfig fun s => { s with crock := some (h, r) } else c
      let c : Chip := if h < c.holdupNeed then
          (c.nand.vols.filter fun e => e.2.back).foldl (fun c e => c.setVol e.1 { e.2 with unback := true }) c
        else c
      (ok, c.flushCheck)

def execCrockCtrl (p : Packet) (s : State) : Host.Outcome State Fault Refusal := runCommand 0x0809 p s bodyCrockCtrl

end Sys2Proof.Machine
end

