-- ==== Sys2Proof/Machine/Display.lean ====
section
/-!
DEFINITION. Chapter 12: fetch, composition, raster emission, the dock's output and the display commands.
-/
namespace Sys2Proof.Machine

/-! ### Layers (R296) -/

/-- Bytes per pixel of a layer format's first plane (Table 12.2). -/
def fmtBytes (f : Nat) : Nat := if f < 2 then 4 else if f = 2 then 2 else 1

/-- Why a layer is not valid (R296). -/
def LayerCfg.fault (l : LayerCfg) (idx : Nat) : Option Nat :=
  let two := decide (l.format = 3)
  let k := if l.replicate then 2 else 1
  if l.format > 3 || (l.replicate && idx != 0) then some 0x0702
  else if l.addr0 % 64 != 0 || (two && l.addr1 % 64 != 0) || l.stride0 % 64 != 0 || (two && l.stride1 % 64 != 0)
      || l.stride0 > 262144 || (two && l.stride1 > 262144) || l.srcW = 0 || l.srcH = 0 || l.srcW * k > 5120 || l.srcH * k > 2880
      || (two && (l.srcW % 2 = 1 || l.srcH % 2 = 1)) || l.stride0 < l.srcW * fmtBytes l.format || (two && l.stride1 < l.srcW)
      || l.dstX > 5119 || l.dstY > 2879 then some 0x0701
  else none

/-- Source columns of a layer inside the active area; none shows nothing. -/
def LayerCfg.cols (l : LayerCfg) (m : HeadMode) : Nat :=
  let k := if l.replicate then 2 else 1
  let shown := Nat.min (l.srcW * k) (m.hactive - l.dstX)
  (shown + k - 1) / k
/-- The source row that an output line shows. -/
def LayerCfg.row (l : LayerCfg) (m : HeadMode) (y : Nat) : Option Nat :=
  let k := if l.replicate then 2 else 1
  if y < l.dstY || y - l.dstY ≥ l.srcH * k || y ≥ m.vactive || l.cols m = 0 then none else some ((y - l.dstY) / k)
/-- The rows of the planes that an output line needs: plane, row, address, bytes. -/
def LayerCfg.needs (l : LayerCfg) (m : HeadMode) (y : Nat) : List (Nat × Nat × Nat × Nat) :=
  match l.row m y with
  | none => []
  | some r =>
    (0, r, l.addr0 + l.stride0 * r, l.cols m * fmtBytes l.format) ::
      (if l.format = 3 then [(1, r / 2, l.addr1 + l.stride1 * (r / 2), (l.cols m + 1) / 2 * 2)] else [])

/-- The owner of a layer. -/
def HubHead.ownerOf (x : HubHead) (l : Nat) : Nat := nth 0xFF x.owner l
/-- A layer as it is latched. -/
def HubHead.layer (x : HubHead) (l : Nat) : LayerCfg := x.layers.get {} l
/-- A layer is on: enabled, owned, and set by its present owner (R315). -/
def HubHead.layerOn (x : HubHead) (l : Nat) : Bool :=
  (x.layer l).enable && x.ownerOf l != 0xFF && !x.waitOwner.contains l && ((x.layer l).fault l).isNone

/-! ### Composition (R296) -/

/-- `n / d` rounded to nearest. -/
def rnd (n d : Nat) : Nat := (2 * n + d) / (2 * d)
/-- A component of `top` levels at 12 bits. -/
def to12 (v top : Nat) : Nat := rnd (v * 4095) top
/-- `n / d` clamped to 0..1, at 12 bits. -/
def clamp12 (n : Int) (d : Nat) : Nat := if n ≤ 0 then 0 else Nat.min 4095 (rnd (n.toNat * 4095) d)

/-- YCbCr to RGB at 12 bits by BT.709 or BT.601, limited or full range. -/
def yuv12 (c709 full : Bool) (y cb cr : Nat) : Nat × Nat × Nat :=
  let kr : Int := if c709 then 2126 else 2990
  let kb : Int := if c709 then 722 else 1140
  let kg : Int := 10000 - kr - kb
  let yn : Int := if full then y else ((y : Int) - 16) * 224
  let bn : Int := if full then (cb : Int) - 128 else ((cb : Int) - 128) * 219
  let rn : Int := if full then (cr : Int) - 128 else ((cr : Int) - 128) * 219
  let d : Nat := if full then 255 else 219 * 224
  (clamp12 (yn * 10000 + 2 * (10000 - kr) * rn) (d * 10000),
   clamp12 (yn * kg * 10000 - 2 * kr * (10000 - kr) * rn - 2 * kb * (10000 - kb) * bn) (d * kg.toNat * 10000),
   clamp12 (yn * 10000 + 2 * (10000 - kb) * bn) (d * 10000))

/-- Pixel `i` of a source row: red, green, blue at 12 bits, and alpha of 255. -/
def LayerCfg.pixel (l : LayerCfg) (p0 p1 : Bytes) (i : Nat) : (Nat × Nat × Nat) × Nat :=
  let w := fld p0 (i * fmtBytes l.format) (fmtBytes l.format)
  match l.format with
  | 0 => ((to12 (bitsOf w 16 8) 255, to12 (bitsOf w 8 8) 255, to12 (bitsOf w 0 8) 255), bitsOf w 24 8)
  | 1 => ((to12 (bitsOf w 20 10) 1023, to12 (bitsOf w 10 10) 1023, to12 (bitsOf w 0 10) 1023), 255)
  | 2 => ((to12 (bitsOf w 11 5) 31, to12 (bitsOf w 5 6) 63, to12 (bitsOf w 0 5) 31), 255)
  | _ => (yuv12 l.c709 l.full w (fld p1 (i / 2 * 2) 1) (fld p1 (i / 2 * 2 + 1) 1), 255)

/-- One component over the layer beneath: straight alpha, or with PREMULT. -/
def blend (premult : Bool) (a g s d : Nat) : Nat :=
  Nat.min 4095 (rnd ((if premult then s * g * 255 else s * a * g) + d * (65025 - a * g)) 65025)

/-- The background at 12 bits. -/
def bg12 (bg : Nat) : Nat × Nat × Nat := (to12 (bitsOf bg 20 10) 1023, to12 (bitsOf bg 10 10) 1023, to12 (bitsOf bg 0 10) 1023)

/-- A pixel in raster format (R300). -/
def rasterPx (rformat : Nat) (p : Nat × Nat × Nat) : Bytes :=
  if rformat = 0 then le 1 (rnd (p.1 * 255) 4095) ++ le 1 (rnd (p.2.1 * 255) 4095) ++ le 1 (rnd (p.2.2 * 255) 4095)
  else be 4 (rnd (p.1 * 1023) 4095 * 2 ^ 20 + rnd (p.2.1 * 1023) 4095 * 2 ^ 10 + rnd (p.2.2 * 1023) 4095)

/-- A fetched row of a layer. -/
def HubHead.rowOf (x : HubHead) (l plane row : Nat) : Option Bytes :=
  (x.fetch.find? fun f => f.layer == l && f.plane == plane && f.row == row).bind fun f => f.data

/-- Line `y` of the picture, in raster format. -/
def HubHead.compose (x : HubHead) (m : HeadMode) (y : Nat) : Bytes :=
  let on := (List.range 4).filter fun l => x.layerOn l && !x.off.contains l
  let rows := on.filterMap fun l => (((x.layer l).row m y).bind fun r => (x.rowOf l 0 r).map fun b => (x.layer l, b, (x.rowOf l 1 (r / 2)).getD []))
  ((List.range m.hactive).map fun px =>
    rasterPx m.rformat (rows.foldl (fun (d : Nat × Nat × Nat) (e : LayerCfg × Bytes × Bytes) =>
      let l := e.1
      let k := if l.replicate then 2 else 1
      if px < l.dstX || px - l.dstX ≥ l.srcW * k then d
      else
        let s := l.pixel e.2.1 e.2.2 ((px - l.dstX) / k)
        (blend l.premult s.2 l.alpha s.1.1 d.1, blend l.premult s.2 l.alpha s.1.2.1 d.2.1, blend l.premult s.2 l.alpha s.1.2.2 d.2.2)) (bg12 m.bg))).flatten

/-! ### Fetch (R297, R298) -/

/-- Issue the reads of the rows that an output line needs and that are not fetched yet; a layer of an instance that is not ACTIVE starts none
(R287, Table 11.10). -/
def Chip.fetchLine (c : Chip) (h : Nat) (m : HeadMode) (y : Nat) : Chip :=
  (List.range 4).foldl (fun c l =>
    let x := c.hub h
    if !x.layerOn l || x.off.contains l || (c.inst (x.ownerOf l)).state != .active then c
    else ((x.layer l).needs m y).foldl (fun c n =>
      let x := c.hub h
      if x.fetch.any fun f => f.layer == l && f.plane == n.1 && f.row == n.2.1 then c
      else (c.setHub h { x with fetch := x.fetch ++ [{ layer := l, plane := n.1, row := n.2.1 }] }).dmaRead (x.ownerOf l) n.2.2.1 n.2.2.2
        (.layer h l n.2.1 n.1)) c) c

/-- Fetch runs up to four lines ahead of composition: after line `upto` is asked for, nothing more is. -/
def Chip.fetchGo (c : Chip) (h : Nat) : Chip :=
  let x := c.hub h
  match x.mode with
  | none => c
  | some m =>
    let leaving := match x.srReq with | some (false, _) => true | _ => false
    let limit := if x.line ≥ m.vactive then x.line + 6 - m.vtotal else x.line + 6
    let upto := Nat.min m.vactive limit
    if !x.enable || (x.sr && !leaving) || x.latchDue || (x.line < m.vactive && !x.live) then c
    else
      let c := ((List.range (upto - x.fetchNext)).map (x.fetchNext + ·)).foldl (fun c y => c.fetchLine h m y) c
      let x := c.hub h
      c.setHub h { x with fetchNext := Nat.max x.fetchNext upto }

/-- UNDERRUN, once per frame and head: to the log, the manager and the layers' owners (R298). -/
def Chip.postUnderrun (c : Chip) (h : Nat) (gone : List Nat) (frame : Nat) : Chip :=
  let x := c.hub h
  let d := h + 256 * gone.foldl (fun a l => a + 2 ^ l) 0 + frame * 2 ^ 32
  let c := c.post 0x0702 0x0712 d
  let owners := (gone.map x.ownerOf).foldl (fun l v => insertSorted v l) []
  (owners.filter fun v => v != 0 && v < 64).foldl (fun c v => c.postInst v (c.event 0x0702 0x0712 d)) c

/-- Layers are switched off until the end of the frame, each counted as an underrun; UNDERRUN is posted once per frame and head (R298). -/
def Chip.layersOff (c : Chip) (h frame : Nat) (gone : List Nat) : Chip :=
  let x := c.hub h
  if gone.isEmpty then c
  else
    let c := c.setHub h { x with off := x.off ++ gone, under := gone.foldl (fun t l => t.set l (sat32 (t.get 0 l) 1)) x.under, underPosted := true }
    if x.underPosted then c else c.postUnderrun h gone frame

/-- FETCH_UNDERRUN (R298): layers without complete data for line `y` at its deadline. -/
def Chip.underrun (c : Chip) (h y frame : Nat) (m : HeadMode) : Chip :=
  let x := c.hub h
  c.layersOff h frame ((List.range 4).filter fun l =>
    x.layerOn l && !x.off.contains l && ((x.layer l).needs m y).any fun n => (x.rowOf l n.1 n.2.1).isNone)

/-- At a line start, the layers on surfaces of instances that are not ACTIVE are switched off, as an underrun (Table 11.10); in the blanking this
belongs to the frame that follows. -/
def Chip.quiescedOff (c : Chip) (h : Nat) (m : HeadMode) : Chip :=
  let x := c.hub h
  if !x.enable || x.sr then c
  else c.layersOff h (if x.line < m.vactive then x.frameNo else (x.frameNo + 1) % 2 ^ 32)
    ((List.range 4).filter fun l => x.layerOn l && !x.off.contains l && (c.inst (x.ownerOf l)).state != .active)

/-! ### FRAME records (Table 12.4) -/

/-- The turn in which local time `t` ps falls, and its offset in ns. -/
def Chip.turnOf (c : Chip) (t : Nat) : Nat × Nat :=
  match c.clk.adj with
  | some (n, a, e) => if t < e then (n, (t - a) / 1000) else ((n + 1 + (t - e) / turnPs) % 2 ^ 48, (t - e) % turnPs / 1000)
  | none => ((t / turnPs) % 2 ^ 48, t % turnPs / 1000)

/-- A FRAME record's payload. -/
def frameRecord (m : HeadMode) (gen frameNo turn ns flags : Nat) : Bytes :=
  be 2 gen ++ le 1 m.rformat ++ le 1 m.sync ++ be 4 (m.pclk * 1000) ++ (m.timing.map (be 2)).flatten ++ be 4 m.bg ++ be 4 frameNo ++
    be 6 turn ++ be 4 ns ++ le 1 flags ++ zeros 13

/-- The raster tunnel of a hub head carries cells. -/
def Chip.rasterUp (c : Chip) (h : Nat) : Bool :=
  let t := c.tunOf (c.hub h).tid
  (t.state == .open || t.state == .closing) && t.index == 0 && t.inPort == 5 && t.rasterAt 0 1 h

/-- Send the FRAME record of frame `no` at the start of the line before line 0 (R301). -/
def Chip.sendRecord (c : Chip) (h : Nat) (m : HeadMode) (no : Nat) (srEnter first : Bool) : Chip :=
  if !c.rasterUp h then c
  else
    let x := c.hub h
    let t := c.turnOf (c.clk.localPs + m.tLine)
    c.pushSrc 5 { tid := x.tid, f := true, l := true, len := 56, aux := 64 + no % 16, xtag := 0xFFFF,
                  payload := frameRecord m x.gen no t.1 t.2 (b2n c.timeSet + 2 * b2n srEnter + 4 * b2n first) }

/-! ### The end of a frame (R313) -/

/-- FRAME_CRC_CHECK (R313): the frame's CRC is kept, and FREEZE_SUSPECT posted once when it has not changed for FREEZE_N frames in which a
CONTENT_SEQ has. -/
def Chip.frameEnd (c : Chip) (h : Nat) : Chip :=
  let x := c.hub h
  let crc := x.crc ^^^ 0xFFFFFFFF
  let seqs := (List.range 4).map fun l => if (x.layer l).enable then some (x.layer l).seq else none
  let moved := (List.zip x.seqs seqs).any fun e => match e.1, e.2 with | some a, some b => a != b | _, _ => false
  let same := match x.crcs with | (_, k) :: _ => k == crc | [] => false
  let run := if same then x.crcRun + 1 else 1
  let since := if moved then 0 else x.sinceSeq + 1
  let suspect := decide (run ≥ x.freezeN) && decide (since + 1 < x.freezeN)
  let posted := same && x.freezePosted
  let fire := suspect && !posted
  let c := c.setHub h { x with crcs := ((x.frameNo, crc) :: x.crcs).take 16, crcRun := run, sinceSeq := since, seqs,
                               freezePosted := posted || fire, freeze := if fire then sat32 x.freeze 1 else x.freeze }
  if fire then c.post 0x0703 0x0713 (h + x.frameNo * 2 ^ 32) else c

/-! ### HUB_LINE_START -/

/-- R302: whether the line that begins is emitted, the accumulator after it. -/
def Chip.skipLine (c : Chip) (h : Nat) (m : HeadMode) : Bool × Nat :=
  let x := c.hub h
  match c.teethNow x.tid with
  | none => (false, 0)
  | some t =>
    if m.need ≤ t then (false, 0)
    else
      let want := m.cells * m.pclk
      let acc := Nat.min (2 * want) (x.skipAcc + (t - 1) * m.htotal * 8)
      if acc ≥ want then (false, acc - want) else (true, acc)

/-- The composed line becomes the line that is emitted, unless it is skipped (R301, R302). -/
def Chip.beginLine (c : Chip) (h L : Nat) (m : HeadMode) : Chip :=
  let x := c.hub h
  match x.next with
  | some (y, b) =>
    if y != L then c.setHub h { x with cur := none, next := none }
    else
      let s := c.skipLine h m
      if s.1 then c.setHub h { x with cur := none, next := none, skipAcc := s.2, skipped := sat32 x.skipped 1 }
      else c.setHub h { x with cur := some { line := y, frame := x.frameNo, bytes := b }, next := none, skipAcc := s.2 }
  | none => c.setHub h { x with cur := none }

/-- Compose line `y` of frame `no`: its deadline is now (R297). -/
def Chip.composeLine (c : Chip) (h y no : Nat) (m : HeadMode) : Chip :=
  let c := c.underrun h y no m
  let x := c.hub h
  let b := x.compose m y
  let gone := fun (f : FetchRow) => match (x.layer f.layer).row m (y + 1) with
    | some r => decide (f.row < (if f.plane = 0 then r else r / 2))
    | none => false
  c.setHub h { x with next := some (y, b), crc := b.foldl (crcByte 0x82F63B78) (if y = 0 then 0xFFFFFFFF else x.crc), fetch := x.fetch.filter fun f => !gone f }

/-- Self-refresh and the FRAME record at the start of the line before line 0 (R301, R312). -/
def Chip.lastLine (c : Chip) (h : Nat) (m : HeadMode) : Chip :=
  let x := c.hub h
  let no := (x.frameNo + 1) % 2 ^ 32
  match x.srReq with
  | some (true, k) =>
    let c := if x.live then c.sendRecord h m no true false else c
    let c := c.setHub h { c.hub h with sr := true, srReq := none, live := false, next := none, cur := none, fetch := [] }
    if k = 0 then c else c.complete k stOk 0 0
  | r =>
    let leave := match r with | some (false, k) => some k | _ => none
    let x := match leave with | some k => { x with sr := false, srReq := none, srExit := some k, first := true } | none => x
    let live := x.enable && !x.sr
    let c := c.setHub h { x with live, first := x.first && !live }
    if live then (c.sendRecord h m no false x.first).composeLine h 0 no m else c

/-- HUB_LINE_START (R287, R297, R301, R309, R312). -/
def Chip.hubLine (c : Chip) (h : Nat) : Chip :=
  let x := c.hub h
  match x.mode with
  | none => c
  | some m =>
    let L := (x.line + 1) % m.vtotal
    let c := c.setHub h { x with line := L, live := x.live && x.enable }
    let c := if L = 0 then
        let x := c.hub h
        let c := c.setHub h { x with frameNo := (x.frameNo + 1) % 2 ^ 32, opened := none, srExit := none }
        let c := match x.opened with | some k => c.complete k stOk 0 0 | none => c
        match x.srExit with | some 0 => c | some k => c.complete k stOk 0 0 | none => c
      else c
    let c := if L = m.vactive then c else c.quiescedOff h m
    let c := if (c.hub h).live && L < m.vactive then c.beginLine h L m else c.setHub h { c.hub h with cur := none }
    let c := if (c.hub h).live && L + 1 < m.vactive then c.composeLine h (L + 1) (c.hub h).frameNo m else c
    let c := if L = m.vactive then
        let live := (c.hub h).live
        let c := if live then c.frameEnd h else c
        let c := c.dropReads fun f => match f with | .layer k _ _ _ => k == h | _ => false
        (c.setHub h { c.hub h with latchDue := true, off := [], underPosted := false, fetch := [], next := none }).quiescedOff h m
      else c
    let c := if L + 1 = m.vtotal then c.lastLine h m else c
    c.fetchGo h

def execHubLineStart (head : Fin 4) (s : State) : Host.Outcome State Fault Refusal := onChip s fun c => c.hubLine head.val

/-! ### VBLANK_LATCH (R309, R311, R315) -/

/-- FLIP_DONE of one flip: to the log, the manager and the layer's owner. -/
def Chip.flipDone (c : Chip) (h l reason : Nat) : Chip :=
  let x := c.hub h
  let v := x.ownerOf l
  c.postVi (if v < 64 then v else 0) 0x0701 reason (h + 256 * l + x.frameNo * 2 ^ 32)

/-- The shadow is latched. -/
def Chip.vblank (c : Chip) (h : Nat) : Chip :=
  let x := c.hub h
  if !x.latchDue && !(x.mode.isNone && x.pend.isSome) then c
  else
    let fresh := fun l => nth 0xFF (x.ownerNext.getD x.owner) l
    let wait := (List.range 4).filter fun l => (x.waitOwner.contains l || fresh l != x.ownerOf l) && x.setBy.find l != some (fresh l)
    let flips := x.flips
    let y : HubHead := { x with layers := x.shadow, owner := x.ownerNext.getD x.owner, ownerNext := none, waitOwner := wait, setBy := [], flips := [],
                                latchDue := false, fetchNext := 0, fetch := [] }
    let c := match x.pend with
      | none => c.setHub h y
      | some (m, tid, k) =>
        (c.setHub h { y with mode := some m, tid, pend := none, opened := some k, first := true, gen := (x.gen + 1) % 65536, line := m.vactive }).commitPoint k
    let c := flips.foldl (fun c e => ((List.range (e.2 - 1)).foldl (fun c _ => c.flipDone h e.1 0x070F) c).flipDone h e.1 0) c
    c.fetchGo h

def execVblankLatch (head : Fin 4) (s : State) : Host.Outcome State Fault Refusal := onChip s fun c => c.vblank head.val

/-! ### RASTER_CELL_EMIT (R300, R301) -/

/-- The next cell of the line is presented at F5. -/
def Chip.rasterEmit (c : Chip) (h : Nat) : Chip :=
  let x := c.hub h
  match x.cur, x.mode with
  | some e, some m =>
    if e.idx ≥ m.cells || !x.enable then c
    else
      let b := (e.bytes.drop (56 * e.idx)).take 56
      let last := decide (e.idx + 1 = m.cells)
      let c := if c.rasterUp h then
          c.pushSrc 5 { tid := x.tid, f := e.idx == 0, l := last, len := b.length, aux := e.frame % 16, xtag := e.line, payload := sliceB b 0 56 }
        else c
      c.setHub h { x with cur := if last then none else some { e with idx := e.idx + 1 } }
  | _, _ => c

def execRasterCellEmit (head : Fin 4) (s : State) : Host.Outcome State Fault Refusal := onChip s fun c => c.rasterEmit head.val

/-! ### REPORT_RX (R314) -/

/-- A report is compared with the hub's own CRC. -/
def Chip.reportRx (c : Chip) (h : Nat) : Chip :=
  let x := c.hub h
  match x.reports with
  | [] => c
  | r :: rest =>
    let x := { x with reports := rest }
    let no := beFld r.payload 0 4
    if beFld r.payload 8 2 > 0 then c.setHub h { x with lossy := sat32 x.lossy 1 }
    else match x.crcs.find? fun e => e.1 == no with
      | none => c.setHub h { x with discards := sat32 x.discards 1 }
      | some (_, k) =>
        if k = beFld r.payload 4 4 then c.setHub h { x with misRun := 0, misPosted := false }
        else
          let fire := decide (x.misRun + 1 ≥ x.freezeN) && !x.misPosted
          let c := c.setHub h { x with mismatch := sat32 x.mismatch 1, misRun := x.misRun + 1, misPosted := x.misPosted || fire }
          if fire then c.post 0x0704 0x0714 (h + no * 2 ^ 32) else c

def execReportRx (head : Fin 4) (s : State) : Host.Outcome State Fault Refusal := onChip s fun c => c.reportRx head.val

/-! ### The dock's output (R303, R304, R307, R308, R310) -/

/-- Rate of a lane in kb/s. -/
def laneRate (r : Nat) : Nat := if r = 0 then 1620000 else if r = 1 then 2700000 else if r = 2 then 5400000 else 8100000
/-- The configuration with the lowest bandwidth that carries the stream, more lanes on a tie (R307). -/
def DockHead.config (d : DockHead) (s : Sink) (m : HeadMode) : Option (Nat × Nat) :=
  let bits := m.pclk * (if m.rformat = 0 then 24 else 30)
  let all := [4, 2, 1].map fun l => (List.range 4).map fun r => (l, r)
  (all.flatten.filter fun e => decide (e.1 ≤ Nat.min d.maxLanes s.lanes) && decide (e.2 ≤ Nat.min d.maxRate s.rate) &&
      decide (bits * 10 ≤ e.1 * laneRate e.2 * 8)).foldl (fun (b : Option (Nat × Nat)) e =>
    match b with
    | none => some e
    | some k => if e.1 * laneRate e.2 < k.1 * laneRate k.2 then some e else some k) none

/-- Train the main link for the timing in use; `trained` tells whether training at the chosen configuration succeeds. -/
def Chip.trainSink (c : Chip) (h : Nat) (trained : Bool) : Chip :=
  let d := { c.dock h with trainDue := false }
  let c := c.setDock h d
  match d.sink, d.mode with
  | some s, some m =>
    if !d.hpd || d.kind = 0 then c
    else match (if trained then d.config s m else none) with
      | some k => c.setDock h { d with link := some k, main := if (c.headIn h 0).isSome && !d.sr then .video else .idle }
      | none => (c.setDock h { d with link := none, main := .idle }).outputFault h 0x070C
  | _, _ => c

/-- LINK of a report. -/
def DockHead.linkByte (d : DockHead) : Nat := match d.link with | some (l, r) => l + 8 * r | none => 0

/-- Send the REPORT of the frame that has been output (R314). -/
def Chip.sendReport (c : Chip) (h : Nat) : Chip :=
  let d := c.dock h
  let c := c.setDock h { d with lastCrc := if d.active then d.crc ^^^ 0xFFFFFFFF else d.lastCrc }
  let v2 := match c.headIn h 0 with | some t => decide ((c.tunOf t).version ≥ 2) | none => false
  match c.reportTunnel h with
  | some tid =>
    if d.active && v2 then
      c.pushSrc 5 { tid, f := true, l := true, len := 56, aux := 128 + d.frameNo % 16, xtag := 0xFFFF,
                    payload := be 4 d.frameNo ++ be 4 (d.crc ^^^ 0xFFFFFFFF) ++ be 2 (Nat.min 65535 d.frameBg) ++
                      le 1 (b2n (d.main == .video) + 2 * b2n d.hpd + 4 * b2n (d.main == .psr)) ++ le 1 d.linkByte ++ zeros 44 }
    else c
  | none => c

/-- DOCK_FRAME_START (R304, R305, R310, R312): `trained` is the outcome of link training where the timing that begins needs it. -/
def Chip.dockFrame (c : Chip) (h : Nat) (trained : Bool) : Chip :=
  let c := c.sendReport h
  let d := c.dock h
  -- a timing announced by the previous frame's record applies now
  let retrain := d.trainDue || (match d.next, d.sink with | some (m, _), some s => d.config s m != d.link | _, _ => false)
  let d := match d.next with | some (m, g) => { d with mode := some m, gen := g, next := none } | none => d
  let d : DockHead := { d with slots := if d.rec_.isNone then [] else d.slots, read := 0, crc := 0xFFFFFFFF, frameBg := 0, bgFrame := false,
                               resync := false, active := false }
  let c := c.setDock h d
  let c := if retrain then c.trainSink h trained else c
  let d := c.dock h
  match d.rec_ with
  | none =>
    if d.srPending then
      let psr := match d.sink with | some s => s.psr && d.kind == 2 && bitOf d.oflags 0 | none => false
      c.setDock h { d with srPending := false, sr := true, main := if d.main == .off then .off else if psr then .psr else .idle, startAt := none }
    else if d.sr then c
    else match d.mode, d.startAt with
      | some m, some t => c.setDock h { d with active := true, frameNo := (d.frameNo + 1) % 2 ^ 32, startAt := some (t + m.vtotal * m.tLine) }
      | _, _ => c
  | some r =>
    let out := d.sr
    let d : DockHead := { d with rec_ := none, frameNo := r.frameNo, sr := false, srPending := false,
                                 main := if d.main == .off then .off else if d.link.isSome then .video else .idle }
    let fresh := d.mode.isNone || r.gen != d.gen
    let old := d.mode.getD r.mode
    let d := { d with mode := some old, gen := if d.mode.isNone then r.gen else d.gen, next := if fresh && d.mode.isSome then some (r.mode, r.gen) else none,
                      bgFrame := fresh, active := true }
    let due := match d.startAt with | some t => t + old.vtotal * old.tLine | none => r.target
    let err : Int := (r.target : Int) - due
    let far := !out && decide (err.natAbs > 4 * old.tLine)
    let step : Int := (old.vtotal * old.tPx : Nat)
    let start := if far || out then r.target else ((due : Int) + max (-step) (min step err)).toNat
    let d := { d with startAt := some start, bgFrame := d.bgFrame || far, resync := far, resyncs := if far then sat32 d.resyncs 1 else d.resyncs }
    let c := c.setDock h d
    let c := if fresh && d.next.isNone then c.trainSink h trained else c
    let c := if far then c.outputFault h 0x070D else c
    c.delayCheck h r.mode r.marker

def execDockFrameStart (head : Fin 4) (trained : Bool) (s : State) : Host.Outcome State Fault Refusal :=
  onChip s fun c => c.dockFrame head.val trained

/-- A line of background in raster format. -/
def HeadMode.bgLine (m : HeadMode) : Bytes := (List.replicate m.hactive (rasterPx m.rformat (bg12 m.bg))).flatten

/-- DOCK_LINE_READ (R303, R308): the next active line is shown from the buffer, or shows background. -/
def Chip.dockLine (c : Chip) (h : Nat) : Chip :=
  let d := c.dock h
  match d.mode with
  | none => c
  | some m =>
    if !d.active || d.read ≥ m.vactive then c
    else
      let y := d.read
      let shown := if d.bgFrame || d.noRaster then none
        else match d.slots.find (y % 32) with
          | some s => if s.line = y && s.frame = d.frameNo % 16 && s.cells = m.cells && !s.gap && !s.poison then some s.bytes else none
          | none => none
      let b := match shown with | some b => sliceB b 0 (m.hactive * m.bytesPx) | none => m.bgLine
      let n := b2n shown.isNone
      let c := c.setDock h { d with read := y + 1, crc := b.foldl (crcByte 0x82F63B78) d.crc, frameBg := d.frameBg + n, linesBg := sat32 d.linesBg n }
      if d.main == .video then c.emit (.videoLine h y b) else c

def execDockLineRead (head : Fin 4) (s : State) : Host.Outcome State Fault Refusal := onChip s fun c => c.dockLine head.val

/-- NO_RASTER_TIMEOUT (R308): two frame periods without a FRAME record. -/
def execNoRasterTimeout (head : Fin 4) (s : State) : Host.Outcome State Fault Refusal :=
  onChip s fun c =>
    let d := c.dock head.val
    if !d.active || d.noRaster || d.sr || d.srPending || d.rec_.isSome || (c.headIn head.val 0).isNone then c
    else (c.setDock head.val { d with noRaster := true }).outputFault head.val 0x070E

/-- HPD_CHANGED. -/
def Chip.postHpd (c : Chip) (h : Nat) (level : Bool) : Chip := (c.post 0x0705 0 (h + 256 * b2n level)).wakeEvent 3

/-- HPD_RISE (R307): the sink's capabilities are read and the link trained. -/
def execHpdRise (head : Fin 4) (lanes rate : Nat) (psr trained : Bool) (s : State) : Host.Outcome State Fault Refusal :=
  onChip s fun c =>
    if !c.inRole .dock then c
    else
      let d := c.dock head.val
      ((c.setDock head.val { d with hpd := true, sink := some { lanes, rate, psr }, main := if d.kind = 0 then .off else .idle }).trainSink head.val trained).postHpd
        head.val true

/-- HPD_FALL (R307): low for over 2 ms stops the main link. -/
def execHpdFall (head : Fin 4) (s : State) : Host.Outcome State Fault Refusal :=
  onChip s fun c =>
    let d := c.dock head.val
    if !c.inRole .dock || !d.hpd then c
    else (c.setDock head.val { d with hpd := false, sink := none, link := none, main := .off }).postHpd head.val false

/-- IRQ_HPD (R307): link status is read, and a link whose status has failed is trained again. -/
def execIrqHpd (head : Fin 4) (linkOk trained : Bool) (s : State) : Host.Outcome State Fault Refusal :=
  onChip s fun c => if !c.inRole .dock || linkOk then c else c.trainSink head.val trained

/-! ### Commands -/

/-- HEAD of a display command, and the role it needs. -/
def Chip.headArg (c : Chip) (x : Ctx) (role : Role) (go : Nat → Ans × Chip) : Ans × Chip :=
  if !c.inRole role then no c stState 0x000B
  else if fld x.ps 0 1 > 3 then no c stParam
  else go (fld x.ps 0 1)

/-- Pick times of a tunnel's teeth over one turn, in ps, at its outgoing trunk. -/
def Chip.picksOf (c : Chip) (tid : Nat) : List Int :=
  let t := c.tunOf tid
  match c.activeGear with
  | none => []
  | some g => match g.sec? t.outPort (c.geom t.outPort) with
    | none => []
    | some k => (k.teethOf fun r => r.kind == 1 && r.tid == tid).map (toothPick k.geom)

/-- The most cells that emission under R301 presents in a closed time of `w` ps, at any phase. -/
def HeadMode.arrivals (m : HeadMode) (w : Nat) : Nat :=
  let u := w * m.pclk
  let tl := m.htotal * 10 ^ 9
  u / tl * m.cells + Nat.min m.cells (u % tl * m.cells / (m.hactive * 10 ^ 9) + 1)

/-- The most cells queued at a pick point, over the starts and pick points of a turn (R309). -/
def HeadMode.backlogFrom (m : HeadMode) (t0 : Int) : List Int → Nat → Nat → Nat
  | [], _, best => best
  | p :: r, k, best => m.backlogFrom t0 r (k + 1) (Nat.max best (m.arrivals (p - t0).toNat - k))
def HeadMode.backlog (m : HeadMode) (n : Nat) : List Int → Nat → Nat
  | [], best => best
  | t0 :: r, best => if r.length < n then best else m.backlog n r (m.backlogFrom t0 (r.take n) 0 best)
def HeadMode.worst (m : HeadMode) (picks : List Int) : Nat :=
  m.backlog picks.length (picks ++ picks.map (· + 125000000)) 0

/-- A handle of the head that is open: a mode change or self-refresh. -/
def HubHead.busy (x : HubHead) : Option Nat :=
  match x.pend, x.opened, x.srReq, x.srExit with
  | some (_, _, k), _, _, _ => some k
  | none, some k, _, _ => some k
  | none, none, some (_, k), _ => some k
  | none, none, none, some k => some k
  | none, none, none, none => none

/-- HEAD_MODE_SET (R299, R309, R311, R312). -/
def bodyHeadModeSet (x : Ctx) (c : Chip) : Ans × Chip :=
  c.headArg x .hub fun h =>
    let m := modeOf (fld x.ps 1 1) (fld x.ps 2 1) (fld x.ps 4 4) ((List.range 8).map fun i => fld x.ps (8 + 2 * i) 2) (fld x.ps 24 4)
    let tid := fld x.ps 28 2
    let u := c.hub h
    let t := c.tunOf tid
    if !m.ok || tid > 1023 || !rsvd x.ps 3 1 || !rsvd x.ps 30 2 then no c stParam
    else match u.busy with
      | some k => no c stBusy 0 k
      | none =>
        if u.sr then no c stState 0x0706
        else if !(t.state == .open && t.index == 0 && t.inPort == 5 && t.rasterAt 0 1 h) then no c stState 0x0705
        else
          let teeth := c.teethNow tid
          let burst := match c.certRec tid with | some r => r.burst | none => 0
          if (match teeth with | some k => decide (m.need > k) | none => false) then no c stNoResource 0x0703
          else if teeth.isSome && m.worst (c.picksOf tid) > burst then no c stNoResource 0x0704
          else (accepted, c.setHub h { u with pend := some (m, tid, x.handle) })

def execHeadModeSet (p : Packet) (s : State) : Host.Outcome State Fault Refusal := runCommand 0x0701 p s bodyHeadModeSet

/-- An L2 issuer names a layer that it does not own. -/
def Chip.notOwner (c : Chip) (x : Ctx) (h l : Nat) : Bool := x.lvl == 2 && (c.hub h).ownerOf l != x.iss

/-- LAYER_SET (R296, R311). -/
def bodyLayerSet (x : Ctx) (c : Chip) : Ans × Chip :=
  c.headArg x .hub fun h =>
    let n := fld x.ps 1 1
    let fl := fld x.ps 2 1
    let l : LayerCfg := { enable := bitOf fl 0, premult := bitOf fl 1, replicate := bitOf fl 2, c709 := bitOf fl 3, full := bitOf fl 4,
                          format := fld x.ps 3 1, srcW := fld x.ps 4 2, srcH := fld x.ps 6 2, dstX := fld x.ps 8 2, dstY := fld x.ps 10 2,
                          alpha := fld x.ps 12 1, seq := fld x.ps 16 4, stride0 := fld x.ps 20 4, stride1 := fld x.ps 24 4,
                          addr0 := fld x.ps 32 8, addr1 := fld x.ps 40 8 }
    let u := c.hub h
    if n > 3 || fl > 31 || !rsvd x.ps 13 3 || !rsvd x.ps 28 4 || !rsvd x.ps 48 16 then no c stParam
    else if c.notOwner x h n then no c stDenied 0x0002
    else match l.fault n with
      | some r => no c stParam r
      | none => (ok, c.setHub h { u with shadow := u.shadow.set n l, setBy := u.setBy.set n x.iss })

def execLayerSet (p : Packet) (s : State) : Host.Outcome State Fault Refusal := runCommand 0x0702 p s bodyLayerSet

/-- LAYER_FLIP (R296, R311). -/
def bodyLayerFlip (x : Ctx) (c : Chip) : Ans × Chip :=
  c.headArg x .hub fun h =>
    let n := fld x.ps 1 1
    let fl := fld x.ps 2 1
    let u := c.hub h
    if n > 3 || fl > 1 || !rsvd x.ps 3 5 then no c stParam
    else if c.notOwner x h n then no c stDenied 0x0002
    else
      let old := u.shadow.get {} n
      let l := { old with addr0 := fld x.ps 8 8, addr1 := if old.format = 3 then fld x.ps 16 8 else old.addr1,
                          seq := if bitOf fl 0 then old.seq else (old.seq + 1) % 2 ^ 32 }
      match l.fault n with
      | some r => no c stParam r
      | none =>
        let k := u.flips.get 0 n
        (ok, c.setHub h { u with shadow := u.shadow.set n l, flips := u.flips.set n (k + 1),
                                 flipReplaced := if k > 0 then sat32 u.flipReplaced 1 else u.flipReplaced })

def execLayerFlip (p : Packet) (s : State) : Host.Outcome State Fault Refusal := runCommand 0x0703 p s bodyLayerFlip

/-- HEAD_CTRL (R295, R313, R315). -/
def bodyHeadCtrl (x : Ctx) (c : Chip) : Ans × Chip :=
  c.headArg x .hub fun h =>
    let fl := fld x.ps 1 1
    let n := fld x.ps 2 1
    let ow := (List.range 4).map fun i => fld x.ps (4 + i) 1
    let u := c.hub h
    if fl > 1 || n = 1 || !rsvd x.ps 3 1 || !rsvd x.ps 8 8 || (ow.any fun v => v > 63 && v != 0xFF) then no c stParam
    else (ok, c.setHub h { u with enable := bitOf fl 0, live := u.live && bitOf fl 0, freezeN := if n = 0 then 4 else n, ownerNext := some ow })

def execHeadCtrl (p : Packet) (s : State) : Host.Outcome State Fault Refusal := runCommand 0x0704 p s bodyHeadCtrl

/-- SELF_REFRESH (R312). -/
def bodySelfRefresh (x : Ctx) (c : Chip) : Ans × Chip :=
  c.headArg x .hub fun h =>
    let op := fld x.ps 1 1
    let u := c.hub h
    if op > 1 || !rsvd x.ps 2 2 then no c stParam
    else match u.busy with
      | some k => no c stBusy 0 k
      | none =>
        if u.mode.isNone || u.sr == (op == 1) then no c stState 0x0707
        else
          let c := c.setHub h { u with srReq := some (op == 1, x.handle) }
          (accepted, if op = 0 then c.fetchGo h else c)

def execSelfRefresh (p : Packet) (s : State) : Host.Outcome State Fault Refusal := runCommand 0x0705 p s bodySelfRefresh

/-- DOCK_OUTPUT_SET (R305, R307). DESIGN CHOICE (log entry 73): an output changed while a sink is there trains its link at the next frame. -/
def bodyDockOutputSet (x : Ctx) (c : Chip) : Ans × Chip :=
  c.headArg x .dock fun h =>
    let kind := fld x.ps 1 1
    let lanes := fld x.ps 2 1
    let rate := fld x.ps 3 1
    let d0 := fld x.ps 4 1
    let fl := fld x.ps 5 1
    let dl := if d0 = 0 then 16 else d0
    let d := c.dock h
    if kind > 2 || !(lanes = 1 || lanes = 2 || lanes = 4) || rate > 3 || dl < 2 || dl > 30 || fl > 3 || !rsvd x.ps 6 10 then no c stParam
    else if (match d.mode, c.headIn h 0 with | some m, some t => !c.delayOk dl m (c.markerLock t c.timeSet) t | _, _ => false) then
      no c stParam 0x0708
    else
      let changed := kind != 0 && (kind != d.kind || lanes != d.maxLanes || rate != d.maxRate || bitOf fl 1 != bitOf d.oflags 1)
      let d' := { d with trainDue := changed && d.hpd && d.mode.isSome, kind, maxLanes := lanes, maxRate := rate, delay := dl, oflags := fl, delayBad := false,
                         main := if kind = 0 then .off else if d.kind = 0 && d.hpd then .idle else d.main, link := if kind = 0 then none else d.link }
      (ok, c.setDock h d')

def execDockOutputSet (p : Packet) (s : State) : Host.Outcome State Fault Refusal := runCommand 0x0706 p s bodyDockOutputSet

/-- What a sink's answers come to: its data, a NACK, or none in time; a deferred or unanswered request is tried up to seven times more. -/
def auxOutcome : Nat → List AuxAnswer → Nat ⊕ Bytes
  | 0, _ => .inl 0x070B
  | _ + 1, [] => .inl 0x070B
  | _ + 1, .ack d :: _ => .inr d
  | _ + 1, .nack :: _ => .inl 0x070A
  | k + 1, .defer :: r => auxOutcome k r
  | k + 1, .silent :: r => auxOutcome k r

/-- DP_AUX (R315): the sink answers as `sink` says. -/
def bodyDpAux (sink : List AuxAnswer) (x : Ctx) (c : Chip) : Ans × Chip :=
  c.headArg x .dock fun h =>
    let op := fld x.ps 1 1
    let n := fld x.ps 2 1
    let a := fld x.ps 4 4
    if op > 3 || n = 0 || n > 16 || !rsvd x.ps 3 1 || (if op < 2 then a ≥ 2 ^ 20 else a ≥ 65536 || bitOf a 7) then no c stParam
    else if !(c.dock h).hpd then no c stState 0x0709
    else
      let wr := op % 2 = 1
      let c := c.emit (.aux h op a (if wr then sliceB x.ps 8 n else []))
      match auxOutcome 8 sink with
      | .inr d => (ok (if wr then [] else d.take n), c)
      | .inl r => (err (if r = 0x070A then stState else stTimeout) r, c)

def execDpAux (p : Packet) (sink : List AuxAnswer) (s : State) : Host.Outcome State Fault Refusal := runCommand 0x0707 p s (bodyDpAux sink)

/-- GET_HEAD (Table 12.9). -/
def bodyGetHead (x : Ctx) (c : Chip) : Ans × Chip :=
  let h := fld x.ps 0 1
  if h > 3 || !rsvd x.ps 1 3 then no c stParam
  else if c.inRole .dock then
    let d := c.dock h
    let st := if d.kind = 0 || (c.headIn h 0).isNone then 0 else if d.sr then 3 else if d.resync then 4 else if d.next.isSome then 2 else 1
    (ok (le 1 h ++ le 1 st ++ le 1 d.lock ++ le 1 d.linkByte ++ le 2 d.gen ++ le 2 ((c.headIn h 0).getD 0) ++ le 4 d.frameNo ++ le 4 d.lastCrc ++
      zeros 16 ++ le 4 d.linesBg ++ le 4 d.late ++ zeros 16 ++ le 4 d.discards ++ le 4 d.resyncs), c)
  else
    let u := c.hub h
    let st := if u.sr then 3 else if u.pend.isSome || u.opened.isSome then 2 else if u.mode.isNone || !u.enable then 0 else 1
    (ok (le 1 h ++ le 1 st ++ zeros 2 ++ le 2 u.gen ++ le 2 (if u.mode.isNone then 0 else u.tid) ++ le 4 u.frameNo ++
      le 4 (match u.crcs with | (_, k) :: _ => k | [] => 0) ++ ((List.range 4).map fun l => le 4 (u.under.get 0 l)).flatten ++ le 4 u.skipped ++ zeros 4 ++
      le 4 u.lossy ++ le 4 u.mismatch ++ le 4 u.freeze ++ le 4 u.flipReplaced ++ le 4 u.discards ++ zeros 4), c)

def execGetHead (p : Packet) (s : State) : Host.Outcome State Fault Refusal := runCommand 0x0708 p s bodyGetHead

end Sys2Proof.Machine
end

