-- ==== Sys2Proof/Machine/Dock.lean ====
section
/-!
DEFINITION. Chapter 15's rows: the dock port's link, hub requests, functions, packets and commands (R354 to R376).
-/
namespace Sys2Proof.Machine

/-! ### Attachment, reset, suspend (R354, R355, R372 to R374) -/

/-- VBUS_VALID (R355). -/
def execVbusValid (s : State) : Host.Outcome State Fault Refusal :=
  onChip s fun c => (c.setUsb fun u => { u with vbus := true }).usbAttach 0

/-- VBUS_LOST (R355). -/
def execVbusLost (s : State) : Host.Outcome State Fault Refusal :=
  onChip s fun c =>
    let c := c.setUsb fun u => { u with vbus := false }
    if c.usb.attached then fnPorts.foldl Chip.fnConnect (c.usbDetach 0x0A07) else c

/-- SS_TRAINING_FAIL (R354): the port connects on USB 2.0, at high speed or at full speed. -/
def execSsTrainingFail (hs : Bool) (s : State) : Host.Outcome State Fault Refusal :=
  onChip s fun c => if c.usb.attached && c.usb.speed = 3 then c.usbChange 0 fun u => { u with speed := if hs then 2 else 1 } else c

/-- USB_BUS_RESET (R374): a bus, hot or warm reset; `hs` is the outcome of the speed detection on USB 2.0, `aborted` says that a control
transfer was in progress, `partialCmd` that a command had been received in part. -/
def execUsbBusReset (hs aborted partialCmd : Bool) (s : State) : Host.Outcome State Fault Refusal :=
  onChip s fun c =>
    if !c.usb.attached then c
    else
      let c := c.usbCount fun k => { k with busResets := sat32 k.busResets 1, ctrlAborted := sat32 k.ctrlAborted (b2n aborted),
                                            cmdDiscarded := sat32 k.cmdDiscarded (b2n partialCmd) }
      let c := if partialCmd then c.discardPacket .usb else c
      let c := (fnPorts.foldl Chip.fnUnconfigure c).usbStopWake
      let c := fnPorts.foldl (fun (c : Chip) n => c.setVport n { c.vport n with cConn := true, enabled := false, resetting := false, addr := 0 }) c
      let c := c.usbChange 0x0A06 fun u => { u with
        hubAddr := 0, hubConf := false, suspended := false, hubWake := false, wakePending := none
        speed := if u.speed = 3 then 3 else if hs && u.cfg.maxSpeed ≥ 2 then 2 else 1 }
      (fnPorts.foldl Chip.fnConnect c).wakeEvent 1

/-- USB_SUSPEND (R372). -/
def execUsbSuspend (s : State) : Host.Outcome State Fault Refusal :=
  onChip s fun c => if c.usb.attached then c.usbChange 0 fun u => { u with suspended := true } else c

/-- USB_RESUME (R372, R373): a resume by the host or the end of a remote wake; `collision`: the host began it while the port was signalling. -/
def execUsbResume (collision : Bool) (s : State) : Host.Outcome State Fault Refusal :=
  onChip s fun c =>
    if !c.usb.suspended then c
    else
      let w := c.usb.wakePending
      let c := c.usbChange 0 fun u => { u with suspended := false, wakePending := none }
      let now := c.clk.powerPs
      let c := c.setUsb fun u => { u with ports := u.ports.mapAll fun _ (v : VPort) => { v with readyAt := now } }
      let c := match w with
        | none => c
        | some fn =>
          let c := c.drive .usbWake 0
          if collision then c.usbCount fun k => { k with wakeCollisions := sat32 k.wakeCollisions 1 }
          else if c.usb.speed = 3 then c.emit (.usbFunctionWake fn) else c
      c.wakeEvent 1

/-- A suspended function has cells or events to deliver (R372). -/
def Chip.fnPending (c : Chip) (n : Nat) : Bool :=
  (c.tids fun i t => t.state.live && t.index == t.hops && t.outPort == 8 && fld t.typeParams 0 1 == n && !(c.queue 8 i).isEmpty).length > 0
    || (c.usb.inq.any fun e => e.1 / 16 == n)
    || (n == 1 && (!(c.cmd.queues.get {} usbQKey).recs.isEmpty || c.cmd.replies.any fun r => r.sess == .usb))

/-- USB_REMOTE_WAKE (R372). -/
def execUsbRemoteWake (fn : Fin 8) (s : State) : Host.Outcome State Fault Refusal :=
  onChip s fun c =>
    let u := c.usb
    let enabled := if u.speed = 3 then (c.vport fn.val).fnWake else u.hubWake
    if u.suspended && u.cfg.wakeAllow && enabled && u.wakePending.isNone && (c.vport fn.val).configured && c.fnPending fn.val then
      ((c.setUsb fun u => { u with wakePending := some fn.val }).usbCount fun k => { k with wakes := sat32 k.wakes 1 }).drive .usbWake 1
    else c

/-- DEVICE_REMOTE_WAKEUP (R372): the hub's feature on USB 2.0, function remote wake at SuperSpeed. -/
def execDeviceRemoteWakeup (fn : Fin 8) (enable : Bool) (s : State) : Host.Outcome State Fault Refusal :=
  onChip s fun c =>
    if !c.usb.attached then c
    else if fn.val = 0 then c.setUsb fun u => { u with hubWake := enable }
    else if (c.vport fn.val).configured && c.usb.speed = 3 then c.setVport fn.val { c.vport fn.val with fnWake := enable }
    else c

/-! ### Requests of the default control pipes -/

/-- A protocol stall of a default control pipe (R371), endpoint number 15 here. -/
def Chip.ctrlStall (c : Chip) (fn : Nat) : Chip := c.emit (.usbHandshake fn 15 2 0)

/-- USB_SET_ADDRESS (R374): the status stage of SET_ADDRESS of the hub (0) or of a function. -/
def execUsbSetAddress (fn : Fin 8) (addr : Fin 128) (s : State) : Host.Outcome State Fault Refusal :=
  onChip s fun c =>
    if !c.usb.attached then c
    else if fn.val = 0 then c.usbChange 0 fun u => { u with hubAddr := addr.val }
    else
      let v := c.vport fn.val
      if v.conn && v.enabled then c.setVport fn.val { v with addr := addr.val } else c

/-- A function's SET_CONFIGURATION takes effect: port 1's session begins with it (R37). -/
def Chip.fnConfigure (c : Chip) (n value : Nat) : Chip :=
  let c := c.fnUnconfigure n
  if value = 0 then c
  else
    let c := c.setVport n { c.vport n with configured := true, readyAt := c.clk.powerPs }
    let c := if n = 1 then { c with cmd := { c.cmd with sessions := c.cmd.sessions.set 5001 {} } } else c
    c.fnRefresh n

/-- USB_SET_CONFIGURATION (R362): its status stage. -/
def execUsbSetConfiguration (fn : Fin 8) (value : Nat) (s : State) : Host.Outcome State Fault Refusal :=
  onChip s fun c =>
    let n := fn.val
    if !c.usb.attached then c
    else if value > 1 then c.ctrlStall n
    else if n = 0 then
      let c := c.usbChange 0 fun u => { u with hubConf := value == 1 }
      if value = 1 then c
      else
        let c := fnPorts.foldl Chip.fnUnconfigure c
        fnPorts.foldl (fun (c : Chip) k => (c.setVport k { c.vport k with enabled := false, resetting := false, addr := 0 }).fnConnect k) c
    else
      let v := c.vport n
      if v.conn && v.enabled && v.addr != 0 then c.fnConfigure n value else c

/-- USB_SET_INTERFACE (R362): an NCM data interface has alternate settings 0 and 1. -/
def execUsbSetInterface (fn : Fin 8) (iface alt : Nat) (s : State) : Host.Outcome State Fault Refusal :=
  onChip s fun c =>
    let n := fn.val
    let v := c.vport n
    if !v.configured then c
    else if v.cfg.kind = 1 && iface = 1 && alt ≤ 1 then
      ((((c.setVport n { v with alt }).setInq (epKey n .dataIn) []).setInq (16 * n + 12) []).setUsb fun u => { u with
        seqs := (u.seqs.erase (epKey n .dataIn)).erase (epKey n .dataOut) })
    else if alt = 0 then c
    else c.ctrlStall n

/-- USB_SET_HALT (R371). -/
def execUsbSetHalt (fn : Fin 8) (ep : UsbEp) (s : State) : Host.Outcome State Fault Refusal :=
  onChip s fun c =>
    let v := c.vport fn.val
    if v.configured then c.setVport fn.val { v with halts := insertSorted ep.code v.halts } else c

/-- USB_CLEAR_HALT (R371): data queued in an IN endpoint stay; after an invalid command block the halt holds until a Reset Recovery. -/
def execUsbClearHalt (fn : Fin 8) (ep : UsbEp) (s : State) : Host.Outcome State Fault Refusal :=
  onChip s fun c =>
    let v := c.vport fn.val
    if v.cfg.kind = 2 && (c.mscOf fn.val).recovery then c
    else
      (c.setVport fn.val { v with halts := v.halts.filter fun h => h != ep.code }).setUsb fun u => { u with seqs := u.seqs.erase (epKey fn.val ep) }

/-! ### The hub (R357, R358) -/

/-- HUB_PORT_RESET: the function on the port is reset. -/
def execHubPortReset (port : Fin 8) (s : State) : Host.Outcome State Fault Refusal :=
  onChip s fun c =>
    if !c.usb.hubConf || !(c.vport port.val).conn then c
    else
      let c := c.fnUnconfigure port.val
      c.setVport port.val { c.vport port.val with resetting := true, enabled := false, addr := 0 }

/-- HUB_PORT_RESET_DONE: 10 ms after the request; a port whose function has gone ends disabled (R358). -/
def execHubPortResetDone (port : Fin 8) (s : State) : Host.Outcome State Fault Refusal :=
  onChip s fun c =>
    let v := c.vport port.val
    if v.resetting then c.setVport port.val { v with resetting := false, cReset := true, enabled := v.conn } else c

/-- HUB_CLEAR_C_CONNECTION (R358): the host clears C_PORT_CONNECTION, or with `reset` C_PORT_RESET. -/
def execHubClearCConnection (port : Fin 8) (reset : Bool) (s : State) : Host.Outcome State Fault Refusal :=
  onChip s fun c =>
    let v := c.vport port.val
    if !c.usb.hubConf then c
    else if reset then c.setVport port.val { v with cReset := false }
    else (c.setVport port.val { v with cConn := false }).fnConnect port.val

/-- HUB_PORT_POWER (R357): accepted, no effect. -/
def execHubPortPower (_port : Fin 8) (_on : Bool) (s : State) : Host.Outcome State Fault Refusal := .next s

/-- HUB_TT_REQUEST (R357): completes, no effect. -/
def execHubTtRequest (s : State) : Host.Outcome State Fault Refusal := .next s

/-! ### Transfers from the host (R363, R365, R366) -/

/-- A function's endpoint carries transfers. -/
def Chip.epLive (c : Chip) (fn : Nat) (ep : UsbEp) : Bool :=
  let v := c.vport fn
  c.usb.attached && !c.usb.suspended && v.conn && v.configured && !v.halts.contains ep.code

/-- USB_CMD_TRANSFER (R363): one whole bulk OUT transfer. -/
def execUsbCmdTransfer (data : Bytes) (s : State) : Host.Outcome State Fault Refusal :=
  onChip s fun c =>
    if !c.epLive 1 .cmdOut || !c.sessionUp .usb || !c.dev.fwRunning || c.outstanding .usb ≥ 8 then c
    else if data.length < 32 then (c.usbCount fun k => { k with cmdDiscarded := sat32 k.cmdDiscarded 1 }).discardPacket .usb
    else
      let p := parsePacket .usb data
      let plen := p.2.plen.toNat
      if plen > 262112 then c.receive p.1 { p.2 with params := [] }
      else if data.length != 32 + plen then
        (c.count 2 fun k => { k with received := sat32 k.received 1 }).refuse p.2 stParam 0x0A01 0
      else c.receive p.1 p.2

/-- The DOCK gatekeeper's check of a legacy request in a command pipe, in window form (R477): true when every byte is allowed. One that is
refused, even in part, is recorded, and its response goes to the pipe's IN endpoint. -/
def Chip.pipeAllowed (c : Chip) (s : State) (fn : Nat) (ep : UsbEp) (b : Bytes) : Chip × Bool :=
  let op := fld b 0 1
  let kind := if op = 1 then 0 else if op = 2 then 1 else 2
  let lvl := if c.cmd.holder = .usb then 1 else 3
  let n := beNat (sliceB b 4 2)
  let n := Nat.max 1 (if op = 3 && fld b 3 1 % 4 = 2 then n / 2 else n)
  let addr := 2 ^ 48 + fld b 2 1 * 2 ^ 32 + beNat (sliceB b 12 4)
  let v := (s.guard.active.get {} 2).decide' s.fuses.lifecycle lvl kind addr n (kind == 2)
  if v.all then (c, true)
  else
    let c := c.violate 2 { addr, size := n, kind, level := lvl, id := (c.issuer .usb).1, region := v.region, part := !v.nobyte, straddle := v.straddle }
    let k := match ep with | .pipeOut i => epKey fn (.pipeIn i) | e => epKey fn e
    (c.pushIn k (({ bytes := be 2 stDenied ++ be 2 0x0F04 ++ zeros 12 } : UsbEnd).message false), false)

/-- USB_TUNNEL_OUT (R365): one message of a pipe of the command function or of a TUNNEL function. -/
def execUsbTunnelOut (fn : Fin 8) (ep : UsbEp) (data : Bytes) (s : State) : Host.Outcome State Fault Refusal :=
  onChip s fun c =>
    let n := fn.val
    let slot := match ep with | .pipeOut i => some i.val | .dataOut => if (c.vport n).cfg.kind = 3 then some 0 else none | _ => none
    match slot.bind (c.fnOut n) with
    | none => c
    | some tid =>
      let b := data.drop 8
      let g := if (c.vport n).cfg.kind = 4 && c.epLive n ep && !b.isEmpty then c.pipeAllowed s n ep b else (c, true)
      let c := g.1
      if !g.2 || !c.epLive n ep || b.isEmpty then c
      else
        let xtag := fld data 0 2
        let aux := fld data 2 1
        if b.length ≤ 1048576 then c.pushUsb (msgCells tid aux xtag false b)
        else
          let l := (msgCells tid aux xtag false (b.take 1048576)).map fun (x : Cell) => { x with l := false }
          let e : Cell := { tid, l := true, p := true, len := 1, aux, xtag, payload := zeros 56 }
          (c.pushUsb (l ++ [e])).usbCount fun k => { k with tunnelMsgCut := sat32 k.tunnelMsgCut 1 }

/-- The datagrams of an NDP16 of a transfer block: its entries up to the pair of zeros. -/
def ndpEntries (b : Bytes) (o end_ : Nat) : Nat → Option (List Bytes)
  | 0 => none
  | fuel + 1 =>
    if o + 4 > end_ then none
    else
      let i := fld b o 2
      let n := fld b (o + 2) 2
      if i = 0 || n = 0 then some []
      else if i < 12 || i + n > b.length then none
      else (ndpEntries b (o + 4) end_ fuel).map fun l => sliceB b i n :: l

/-- The datagrams of a transfer block's NDPs from offset `o`. -/
def ndpChain (b : Bytes) (o : Nat) : Nat → Option (List Bytes)
  | 0 => none
  | fuel + 1 =>
    let n := fld b (o + 4) 2
    if o % 4 != 0 || o < 12 || o + 16 > b.length || fld b o 4 != 0x304D434E || n < 16 || n % 4 != 0 || o + n > b.length then none
    else
      let next := fld b (o + 6) 2
      match ndpEntries b (o + 8) (o + n) (n / 4) with
      | none => none
      | some l => if next = 0 then some l else (ndpChain b next fuel).map fun r => l ++ r

/-- The datagrams of an NTB-16, none when its headers are inconsistent or beyond R366's limits. -/
def ntbParse (b : Bytes) : Option (List Bytes) :=
  let n := fld b 8 2
  if b.length > 16384 || fld b 0 4 != 0x484D434E || fld b 4 2 != 12 || (n != 0 && n != b.length) then none
  else match ndpChain b (fld b 10 2) 16 with
    | none => none
    | some l => if l.length > 16 then none else some l

/-- NCM_NTB_OUT (R366). -/
def execNcmNtbOut (fn : Fin 8) (ntb : Bytes) (s : State) : Host.Outcome State Fault Refusal :=
  onChip s fun c =>
    let n := fn.val
    let v := c.vport n
    if !c.epLive n .dataOut || v.cfg.kind != 1 || v.alt = 0 then c
    else match ntbParse ntb with
      | none => c.countFrames 1
      | some l => l.foldl (fun (c : Chip) f =>
          match c.fnOut n 0 with
          | none => c.countFrames 1
          | some tid => if f.length > v.cfg.maxSegment then c.countFrames 1 else c.pushUsb (frameCells tid (4 * framePcp f) f)) c

/-! ### Mass storage (R361, R367, R368) -/

/-- What a logical unit makes of a command block. -/
inductive ScsiPlan where
  /-- CHECK CONDITION with this sense -/
  | check (key asc : Nat)
  | none
  | reply (data : Bytes)
  | read (lba n : Nat)
  | write (lba n : Nat) (fua : Bool)
  | flush
  | unmap (len : Nat)
  deriving DecidableEq, Repr

/-- Blocks that a logical unit reports (R367). -/
def Chip.lunBlocks (c : Chip) (tid : Nat) : Nat :=
  let t := c.tunOf tid
  if t.hops = 0 then (match c.nand.vols.find (fld t.typeParams 0 1) with | some v => v.blocks | none => 0)
  else Config.remoteBlocks tid t.openTurn

/-- A big-endian field of a command block. -/
def cdb (b : Bytes) (o n : Nat) : Nat := beNat (sliceB b o n)

/-- REQUEST SENSE data in fixed format. -/
def senseData (key asc : Nat) (info : Option Nat) : Bytes :=
  le 1 (0x70 + 128 * b2n info.isSome) ++ zeros 1 ++ le 1 key ++ be 4 (info.getD 0 % 2 ^ 32) ++ le 1 10 ++ zeros 4 ++ be 2 asc ++ zeros 4

/-- Decide a command block of a logical unit (R361, R367). -/
def Chip.scsiPlan (c : Chip) (n l : Nat) (b : Bytes) : ScsiPlan :=
  let u := (c.mscOf n).lun l
  let op := fld b 0 1
  let tid := (c.fnOut n l).getD 0
  let t := c.tunOf tid
  let ready := c.fnPairOpen n l && (c.fnOut n l).isSome
  let ill := ScsiPlan.check 5 0x2000
  let field := ScsiPlan.check 5 0x2400
  let known := [0x00, 0x25, 0x28, 0x2A, 0x35, 0x88, 0x8A].contains op || (op = 0x9E && fld b 1 1 % 32 = 0x10) || (op = 0x42 && (!ready || t.version ≥ 2))
  if op = 0x12 then
    if fld b 1 1 % 2 = 1 || fld b 2 1 != 0 then field
    else .reply ((zeros 1 ++ le 1 (128 * b2n (c.vport n).cfg.removable) ++ le 1 6 ++ le 1 2 ++ le 1 31 ++ zeros 3 ++ sliceB Config.inquiryText 0 28).take (cdb b 3 2))
  else if op = 0x03 then
    .reply ((if u.attention then senseData 6 0x2800 none else if u.key = 0 && !ready then senseData 2 0x3A00 none
      else senseData u.key u.asc u.info).take (fld b 4 1))
  else if !known && op != 0x1A then ill
  else if op != 0x1A && !ready then .check 2 0x3A00
  else if u.attention then .check 6 0x2800
  else if op = 0x1A then
    .reply ((le 1 3 ++ zeros 1 ++ le 1 (128 * b2n (ready && fld t.typeParams 1 1 == 0) + 16 * b2n (t.version ≥ 3)) ++ zeros 1).take (fld b 4 1))
  else if op = 0x00 then .none
  else if op = 0x25 then
    let k := c.lunBlocks tid - 1
    .reply (be 4 (Nat.min k 0xFFFFFFFF) ++ be 4 4096)
  else if op = 0x9E then
    .reply ((be 8 (c.lunBlocks tid - 1) ++ be 4 4096 ++ zeros 2 ++ le 1 (128 * b2n (t.version ≥ 2)) ++ zeros 17).take (cdb b 10 4))
  else if op = 0x35 then .flush
  else if op = 0x42 then .unmap (cdb b 7 2)
  else
    let long := op = 0x88 || op = 0x8A
    let lba := if long then cdb b 2 8 else cdb b 2 4
    let k := if long then cdb b 10 4 else cdb b 7 2
    let fua := bitOf (fld b 1 1) 3
    if k > 4096 || (fua && t.version < 3) || lba ≥ 2 ^ 48 then field
    else if k = 0 then .none
    else if op = 0x28 || op = 0x88 then .read lba k else .write lba k fua

/-- The ranges of an UNMAP parameter list. -/
def unmapRanges (b : Bytes) : List (Nat × Nat) :=
  ((List.range ((Nat.min (b.length - 8) (cdb b 2 2)) / 16)).map fun i => (cdb b (8 + 16 * i) 8, cdb b (16 + 16 * i) 4)).filter fun r => r.2 != 0

/-- The command ends without BLOCK requests: data for the host, then the CSW; a data-IN stage shorter than expected ends with a halt. -/
def Chip.mscQuick (c : Chip) (n tag expect : Nat) (dirIn : Bool) (data : Bytes) (status : Nat) : Chip :=
  let k := epKey n .dataIn
  let c := if data.isEmpty then c else c.setInq k (c.inq k ++ [.xfer data false false])
  let c := if dirIn && expect > data.length then c.setInq k (c.inq k ++ [.halt]) else c
  c.mscCsw n tag (if status = 2 then expect else expect - data.length) status

/-- A valid and meaningful command block is served: the thirteen cases of the Bulk-Only Transport (R367). -/
def Chip.mscRun (c : Chip) (n : Nat) (cbw data : Bytes) : Chip :=
  let tag := fld cbw 4 4
  let expect := fld cbw 8 4
  let dirIn := bitOf (fld cbw 12 1) 7
  let l := fld cbw 13 1
  let b := sliceB cbw 15 16
  let op := fld b 0 1
  let plan := c.scsiPlan n l b
  let m := c.mscOf n
  let u := m.lun l
  let reports := op = 0x03 || (match plan with | .check 6 0x2800 => true | _ => false)
  let c := c.setMsc n { m with luns := m.luns.set l { u with key := 0, asc := 0, info := none, attention := u.attention && !reports } }
  let quick := fun (d : Bytes) (st : Nat) => c.mscQuick n tag expect dirIn d st
  let start := fun (op : Nat) (fua : Bool) (todo : List (Nat × Nat)) (d : Bytes) =>
    match c.fnOut n l with
    | none => c
    | some tid =>
      let k : MscCmd := { tag, lun := l, expect, op, fua, todo, data := d }
      ((c.setMsc n { c.mscOf n with cmd := some k }).mscIssue n tid 65).mscFinish n
  match plan with
  | .check key asc => (c.mscSense n l key asc).mscQuick n tag expect dirIn [] 1
  | .none => quick [] 0
  | .reply d =>
    if d.isEmpty then quick [] 0
    else if !dirIn || d.length > expect then quick [] 2 else quick d 0
  | .read lba k => if !dirIn || 4096 * k > expect then quick [] 2 else start 1 false [(lba, k)] []
  | .write lba k fua =>
    if (dirIn && expect > 0) || 4096 * k > expect || data.length < 4096 * k then quick [] 2 else start 2 fua [(lba, k)] (data.take (4096 * k))
  | .flush => if expect > 0 then quick [] 0 else start 3 false [(0, 0)] []
  | .unmap len =>
    if len = 0 then quick [] 0
    else if (dirIn && expect > 0) || len > expect || data.length < len then quick [] 2
    else
      let r := unmapRanges (data.take len)
      if r.isEmpty then quick [] 0 else start 4 false r []

/-- MSC_CBW (R367): a command block wrapper, and the bytes of its data-OUT stage. One that is not valid and meaningful halts both bulk
endpoints until a Reset Recovery. -/
def execMscCbw (fn : Fin 8) (cbw data : Bytes) (s : State) : Host.Outcome State Fault Refusal :=
  onChip s fun c =>
    let n := fn.val
    let v := c.vport n
    let m := c.mscOf n
    if !c.epLive n .dataOut || v.cfg.kind != 2 || m.cmd.isSome || m.resetWait || m.recovery then c
    else
      let valid := cbw.length == 31 && fld cbw 0 4 == 0x43425355 && fld cbw 12 1 % 128 == 0 && decide (fld cbw 13 1 < v.cfg.luns) && decide (1 ≤ fld cbw 14 1) && decide (fld cbw 14 1 ≤ 16)
      if valid then c.mscRun n cbw data
      else
        (c.setMsc n { m with recovery := true }).setVport n { v with halts := insertSorted UsbEp.dataIn.code (insertSorted UsbEp.dataOut.code v.halts) }

/-- MSC_RESET (R368): data of outstanding requests are discarded; the status stage is NAKed until they have their responses. -/
def execMscReset (fn : Fin 8) (s : State) : Host.Outcome State Fault Refusal :=
  onChip s fun c =>
    let n := fn.val
    let m := c.mscOf n
    if (c.vport n).cfg.kind != 2 || !(c.vport n).configured then c
    else
      let reqs := m.reqs.map fun (r : MscReq) => { r with live := false }
      (c.setMsc n { m with cmd := none, reqs, resetWait := !reqs.isEmpty, recovery := false }).setInq (epKey n .dataIn) []

/-- MSC_RESET_TIMEOUT (R368): 5 s. -/
def execMscResetTimeout (fn : Fin 8) (s : State) : Host.Outcome State Fault Refusal :=
  onChip s fun c =>
    let m := c.mscOf fn.val
    if m.resetWait then c.setMsc fn.val { m with resetWait := false } else c

/-! ### Packets (R364, R369, R370) -/

/-- Free bytes of an OUT endpoint's 16 KiB buffer. -/
def Chip.outFree (c : Chip) (k : Nat) : Nat := 16384 - c.usb.outUsed.get 0 k

/-- The OUT endpoint accepts data at all: the command endpoint not while 8 commands are outstanding (R363). -/
def Chip.outOpen (c : Chip) (ep : UsbEp) : Bool := ep != .cmdOut || decide (c.outstanding .usb < 8)

/-- USB_OUT_DATA_PACKET (R369, R370): `drained` bytes have left the endpoint's buffer since the last packet. -/
def execUsbOutDataPacket (fn : Fin 8) (ep : UsbEp) (len drained : Nat) (s : State) : Host.Outcome State Fault Refusal :=
  onChip s fun c =>
    let n := fn.val
    let k := epKey n ep
    let v := c.vport n
    if !c.usb.attached || c.usb.suspended || !v.configured then c
    else if v.halts.contains ep.code then c.emit (.usbHandshake n ep.code 2 0)
    else
      let used := c.usb.outUsed.get 0 k - drained
      let c := c.setUsb fun u => { u with outUsed := u.outUsed.set k used }
      let free := c.outFree k
      if !c.outOpen ep || len > free then c.emit (.usbHandshake n ep.code (if c.usb.speed = 3 then 5 else 1) 0)
      else
        let c := c.setUsb fun u => { u with outUsed := u.outUsed.set k (used + len) }.nextSeq k
        let left := free - len
        if c.usb.speed = 3 then c.emit (.usbHandshake n ep.code 0 (Nat.min 16 (left / 1024)))
        else if c.usb.speed = 2 && left < 512 then c.emit (.usbHandshake n ep.code 3 0)
        else c.emit (.usbHandshake n ep.code 0 0)

/-- USB_PING (R370): high speed only. -/
def execUsbPing (fn : Fin 8) (ep : UsbEp) (s : State) : Host.Outcome State Fault Refusal :=
  onChip s fun c =>
    let v := c.vport fn.val
    if !c.usb.attached || c.usb.suspended || !v.configured || c.usb.speed != 2 then c
    else if v.halts.contains ep.code then c.emit (.usbHandshake fn.val ep.code 2 0)
    else c.emit (.usbHandshake fn.val ep.code (if c.outOpen ep && c.outFree (epKey fn.val ep) ≥ 512 then 0 else 1) 0)

/-- wMaxPacketSize of a bulk endpoint (R359). -/
def Usb.mps (u : Usb) : Nat := if u.speed = 3 then 1024 else if u.speed = 2 then 512 else 64

/-- Bytes of an NTB-16 with these datagrams: header, one NDP, datagrams on multiples of 4. -/
def ntbSize (l : List Bytes) : Nat := l.foldl (fun a f => a + 4 * ((f.length + 3) / 4)) (12 + 8 + 4 * (l.length + 1))

/-- Build an NTB-16 (R366). -/
def ntbBuild (seq : Nat) (l : List Bytes) : Bytes :=
  let ndp := 8 + 4 * (l.length + 1)
  let step := l.foldl (fun (a : Bytes × Bytes) f =>
    (a.1 ++ le 2 (12 + ndp + a.2.length) ++ le 2 f.length, a.2 ++ f ++ zeros (4 * ((f.length + 3) / 4) - f.length))) ([], [])
  le 4 0x484D434E ++ le 2 12 ++ le 2 seq ++ le 2 (ntbSize l) ++ le 2 12 ++ le 4 0x304D434E ++ le 2 ndp ++ zeros 2 ++ step.1 ++ zeros 4 ++ step.2

/-- As many of the first frames as one transfer block of 16,384 bytes holds. -/
def ntbTake (acc : List Bytes) : List InItem → List Bytes × List InItem
  | .xfer f m z :: r => if ntbSize (acc ++ [f]) ≤ 16384 then ntbTake (acc ++ [f]) r else (acc, .xfer f m z :: r)
  | l => (acc, l)

/-- Load an empty IN endpoint: the next reply, or a transfer block of the frames that wait. -/
def Chip.loadIn (c : Chip) (n : Nat) (ep : UsbEp) : Chip :=
  let k := epKey n ep
  if !(c.inq k).isEmpty then c
  else if ep = .reply then
    match c.cmd.replies.find? fun r => r.sess == .usb with
    | none => c
    | some r => { c with cmd := { c.cmd with replies := c.cmd.replies.erase r } }.pushIn k (r.head ++ r.data)
  else if ep = .dataIn && (c.vport n).cfg.kind = 1 then
    let t := ntbTake [] (c.inq (16 * n + 12))
    if t.1.isEmpty then c
    else
      let v := c.vport n
      ((c.setInq (16 * n + 12) t.2).setVport n { v with ntbSeq := (v.ntbSeq + 1) % 65536 }).pushIn k (ntbBuild v.ntbSeq t.1)
  else c

/-- Nothing to send: NAK, or NRDY at SuperSpeed. -/
def Chip.inNak (c : Chip) (n : Nat) (ep : UsbEp) : Chip := c.emit (.usbHandshake n ep.code (if c.usb.speed = 3 then 5 else 1) 0)

/-- The next packet of an IN endpoint. -/
def Chip.inPacket (c : Chip) (n : Nat) (ep : UsbEp) : Nat → Chip
  | 0 => c.inNak n ep
  | fuel + 1 =>
    let k := epKey n ep
    match c.inq k with
    | [] => c.inNak n ep
    | .halt :: r =>
      let v := c.vport n
      ((c.setInq k r).setVport n { v with halts := insertSorted ep.code v.halts }).emit (.usbHandshake n ep.code 2 0)
    | .xfer d more zlp :: r =>
      let m := c.usb.mps
      if more && d.length < m then c.inNak n ep
      else if d.isEmpty && !zlp then (c.setInq k r).inPacket n ep fuel
      else
        let b := d.take m
        let rest := d.drop m
        let past := b.length < m || (rest.isEmpty && !more && !zlp)
        ((c.setInq k (if past then r else .xfer rest more zlp :: r)).setUsb fun u => u.nextSeq k).emit (.usbData n ep.code b)

/-- Status-change byte of the hub (R357). -/
def Chip.hubByte (c : Chip) : Nat :=
  fnPorts.foldl (fun a n => setBit a n (let v := c.vport n; v.cConn || v.cReset)) 0

/-- USB_IN_TOKEN (R364): one packet to the host. -/
def execUsbInToken (fn : Fin 8) (ep : UsbEp) (s : State) : Host.Outcome State Fault Refusal :=
  onChip s fun c =>
    let n := fn.val
    let v := c.vport n
    if !c.usb.attached || c.usb.suspended then c
    else if n = 0 then
      if !c.usb.hubConf || ep != .hubStatus then c
      else if c.hubByte = 0 then c.inNak 0 ep else c.emit (.usbData 0 ep.code (le 1 c.hubByte))
    else if !v.configured then c
    else if v.halts.contains ep.code then c.emit (.usbHandshake n ep.code 2 0)
    else match ep with
      | .event =>
        let q := c.cmd.queues.get {} usbQKey
        (match q.recs with
         | [] => c.inNak n ep
         | e :: r =>
           let c := { c with cmd := { c.cmd with queues := c.cmd.queues.set usbQKey { q with recs := r } } }
           ((c.setUsb fun u => u.nextSeq (epKey n ep)).emit (.usbData n ep.code e.bytes)).flushOverflow usbQKey)
      | _ =>
        let held := fun (c : Chip) => (c.usb.inq.filter fun e => e.1 / 16 == n).foldl (fun a e => e.2.foldl (fun b i => b + (match i with | .xfer d _ _ => d.length | .halt => 0)) a) (0 : Nat)
        let before := held c
        let c := (c.loadIn n ep).inPacket n ep 3
        if before ≥ 16384 && held c < 16384 then c.setVport n { c.vport n with readyAt := c.clk.powerPs } else c

/-- USB_LGO_U1U2 (R369). -/
def execUsbLgoU1u2 (s : State) : Host.Outcome State Fault Refusal :=
  onChip s fun c =>
    if !c.usb.attached || c.usb.speed != 3 then c
    else
      let idle := c.usb.inq.isEmpty && c.usb.outUsed.all (fun e => e.2 == 0) && !(c.cmd.replies.any fun r => r.sess == .usb)
      c.emit (.usbLink (c.usb.cfg.u1u2 && idle))

/-! ### Commands (Tables 15.2 to 15.5) -/

/-- DOCK_PORT_SET (R376). -/
def bodyDockPortSet (x : Ctx) (c : Chip) : Ans × Chip :=
  let a := fld x.ps 0 1
  let m := fld x.ps 1 1
  let d := fld x.ps 2 1
  if a > 1 || m = 0 || m > 3 || d > 7 || !rsvd x.ps 3 1 then no c stParam
  else
    let k : UsbCfg := { admin := a == 1, maxSpeed := m, wakeAllow := bitOf d 0, u1u2 := bitOf d 1 }
    let change := k.admin != c.usb.cfg.admin || k.maxSpeed != c.usb.cfg.maxSpeed
    let c := if change && c.usb.attached then fnPorts.foldl Chip.fnConnect (c.usbDetach 0) else c
    let c := (c.usbChange 0 fun u => { u with cfg := k }).usbAttach 0
    (ok, if bitOf d 2 then c.storeConfig fun p => { p with usb := some k } else c)

def execDockPortSet (p : Packet) (s : State) : Host.Outcome State Fault Refusal := runCommand 0x0A01 p s bodyDockPortSet

/-- DOCK_FN_SET (R376). -/
def bodyDockFnSet (x : Ctx) (c : Chip) : Ans × Chip :=
  let n := fld x.ps 0 1
  let f := fld x.ps 3 1
  let k : FnCfg := { kind := fld x.ps 1 1, luns := fld x.ps 2 1, removable := bitOf f 0, mac := sliceB x.ps 4 6, maxSegment := fld x.ps 10 2,
                     pipes := fld x.ps 12 1 }
  if n = 0 || n > 7 then no c stParam
  else if (if n = 1 then k.kind != 0 && k.kind != 4 else k.kind > 3) then no c stParam 0x0A04
  else if f > 3 || !rsvd x.ps 13 3 || k.pipes > 2 || (k.kind = 2 && (k.luns = 0 || k.luns > 8)) || (k.kind = 1 && (k.maxSegment < 60 || k.maxSegment > 9596)) then
    no c stParam
  else if (c.tids fun _ t => t.state.live && t.index == t.hops && t.outPort == 8 && fld t.typeParams 0 1 == n).length > 0 then no c stState 0x0A03
  else
    let c := c.fnDisconnect n
    let c := (c.setVport n { c.vport n with cfg := k }).setMsc n {}
    let c := c.fnConnect n
    (ok, if bitOf f 1 then c.storeConfig fun p => { p with fns := p.fns.set n k } else c)

def execDockFnSet (p : Packet) (s : State) : Host.Outcome State Fault Refusal := runCommand 0x0A02 p s bodyDockFnSet

/-- DOCK_PORT_STATUS (Table 15.4). -/
def bodyDockPortStatus (_ : Ctx) (c : Chip) : Ans × Chip :=
  let u := c.usb
  let k := u.cnt
  let conn := fnPorts.foldl (fun a n => setBit a n (c.vport n).conn) 0
  let wake := u.cfg.wakeAllow && (if u.speed = 3 then fnPorts.any fun n => (c.vport n).fnWake else u.hubWake)
  (ok (le 1 u.state ++ le 1 u.speed ++ le 1 conn ++ le 1 (b2n wake + 2 * b2n u.wakePending.isSome) ++
    (fnPorts.map fun n => BitVec.ofNat 8 (c.vport n).cfg.kind) ++ zeros 1 ++ le 4 k.linkRecoveries ++ le 4 k.busResets ++ le 4 k.cmdDiscarded ++
    le 4 k.repliesLost ++ le 4 k.ctrlAborted ++ le 4 k.framesDiscarded ++ le 4 k.mscErrors ++ le 4 k.tunnelMsgCut ++ le 4 k.usbStall ++
    le 4 k.wakes ++ le 4 k.wakeCollisions ++ zeros 8), c)

def execDockPortStatus (p : Packet) (s : State) : Host.Outcome State Fault Refusal := runCommand 0x0A03 p s bodyDockPortStatus

end Sys2Proof.Machine
end

