-- ==== Sys2Proof/Machine/Legacy.lean ====
section
/-!
DEFINITION. Chapter 16: the aperture, the bus, inbound cycles, interrupts, trivets and the legacy commands.
-/
namespace Sys2Proof.Machine

/-- What a legacy row leaves: drains whose tags have all retired end (R405). -/
def Chip.legSettle (c : Chip) : Chip :=
  (c.tids fun _ t => t.state == .closing && (t.draining || (t.index == t.hops && t.outPort == 9))).foldl Chip.drainCheck c

/-- A row of the bridge: nothing happens while it drives no bus. -/
def onLegacy (s : State) (f : Chip → Chip) : Host.Outcome State Fault Refusal := onChip s fun c => if c.legOn then (f c).legSettle else c

/-! ### The aperture (R386, R390, R400; chapter 20) -/

/-- The runs of allowed bytes: offset and length. -/
def allowedRuns (l : List Bool) : List (Nat × Nat) :=
  (l.zipIdx.foldl (fun (a : List (Nat × Nat)) e =>
    if !e.1 then a
    else match a with
      | (o, n) :: r => if o + n = e.2 then (o, n + 1) :: r else (e.2, 1) :: a
      | [] => [(e.2, 1)]) []).reverse

/-- The HOST gatekeeper's verdict on an access to an instance's aperture (Table 20.1), with a violation recorded. -/
def Chip.apertureCheck (c : Chip) (s : State) (a : ApAccess) (kind : Nat) : Chip × List (Nat × Nat) :=
  let vi := a.vi.val
  let addr := 0x20000 + 0x10000 * (vi - 1) + 0x8000 + a.off
  let v := (s.guard.active.get {} 0).decide' s.fuses.lifecycle 2 kind addr a.len (kind == 2)
  let c := if v.all then c
    else c.violate 0 { addr, size := a.len, kind, level := 2, id := vi, region := v.region, part := !v.nobyte, straddle := v.straddle }
  (c, allowedRuns v.bytes)

/-- The aperture window of an instance and the window offset that an access reaches: enabled, and within SIZE (R386). -/
def Chip.apertureWin (c : Chip) (a : ApAccess) : Option (Nat × LegWin) :=
  if a.vi.val = 0 || !c.legOn then none
  else match c.leg.wins.find? fun e => e.2.aperture && e.2.owner == a.vi.val with
    | some e => if e.2.enable && decide (e.2.slide + a.off + a.len ≤ e.2.size) then some e else none
    | none => none

/-- A checked aperture access takes a tag, or waits in the HOST island (R387); no access of a requester passes an earlier one (R388). -/
def Chip.apertureReq (c : Chip) (r : LegReq) : Chip :=
  if c.leg.apWait.isEmpty && c.leg.tagsKept < 64 then c.legAccept r else c.setLeg fun l => { l with apWait := l.apWait ++ [r] }

/-- The host reaches the aperture: the link is up. -/
def Chip.hostReach (c : Chip) : Bool := c.host.linkUp && !c.host.perst && !c.host.d3hot

/-- APERTURE_WRITE (R386, R390). -/
def execApertureWrite (a : ApAccess) (data : Bytes) (s : State) : Host.Outcome State Fault Refusal :=
  onChip s fun c =>
    let vi := a.vi.val
    if !c.hostReach || (c.inst vi).state == .absent then c
    else
      let g := c.apertureCheck s a 1
      let c := g.1
      if g.2.isEmpty then c
      else match c.apertureWin a with
        | none => c.legCount 2 1
        | some (i, w) =>
          if c.poisoned i then c.discardWrite i
          else (c.apertureReq { client := 0x1000 + vi, xtag := 0, op := 2, posted := true, idx := i, win := w, off := w.slide + a.off, len := a.len,
                                data := sliceB data 0 a.len, parts := g.2 }).legSettle

/-- APERTURE_READ (R386). -/
def execApertureRead (a : ApAccess) (s : State) : Host.Outcome State Fault Refusal :=
  onChip s fun c =>
    let vi := a.vi.val
    if !c.hostReach then c
    else if (c.inst vi).state == .absent then c.emit (.apertureCpl vi a.tag 0 (zeros a.len))
    else
      let g := c.apertureCheck s a 0
      let c := g.1
      if g.2.isEmpty then (c.aerError 3).emit (.apertureCpl vi a.tag 1 [])
      else match c.apertureWin a with
        | none => (c.aerError 3).emit (.apertureCpl vi a.tag 1 [])
        | some (i, w) =>
          (c.apertureReq { client := 0x1000 + vi, xtag := a.tag, op := 1, idx := i, win := w, off := w.slide + a.off, len := a.len, parts := g.2,
                           buf := legBuf a.len g.2 }).legSettle

/-- APERTURE_ATOMIC (R400, R485): FetchAdd, Swap or CAS on 4 or 8 bytes; 128-bit operands are not supported (Table 11.1). -/
def execApertureAtomic (a : ApAccess) (op : Fin 3) (operand : Bytes) (s : State) : Host.Outcome State Fault Refusal :=
  onChip s fun c =>
    let vi := a.vi.val
    let ur := fun (c : Chip) => (c.aerError 3).emit (.apertureCpl vi a.tag 1 [])
    if !c.hostReach then c
    else if (c.inst vi).state == .absent then c.emit (.apertureCpl vi a.tag 0 (zeros a.len))
    else if a.len != 4 && a.len != 8 then ur c
    else
      let g := c.apertureCheck s a 2
      let c := g.1
      if g.2.isEmpty then ur c
      else match c.apertureWin a with
        | none => ur c
        | some (i, w) =>
          if c.strobe && a.len > (if w.width = 0 then 2 else 4) then ur c
          else (c.apertureReq { client := 0x1000 + vi, xtag := a.tag, op := 3, idx := i, win := w, off := w.slide + a.off, len := a.len,
                                data := sliceB operand 0 (if op.val = 2 then 2 * a.len else a.len), atop := op.val, parts := [(0, a.len)],
                                buf := List.replicate a.len 0xFF }).legSettle

/-- LEGACY_TAG_GRANTED (R387): the oldest aperture access takes a freed tag. -/
def execLegacyTagGranted (s : State) : Host.Outcome State Fault Refusal :=
  onLegacy s fun c =>
    match c.leg.apWait with
    | [] => c
    | r :: rest =>
      if c.leg.tagsKept ≥ 64 then c
      else (c.setLeg fun l => { l with apWait := rest }).legAccept r

/-! ### The bus (R379, R381 to R383, R389) -/

/-- BUS_GRANT (R379): the grant daisy chain reaches the bridge at a level; with no request pending there it is passed on. -/
def execBusGrant (level : Fin 4) (s : State) : Host.Outcome State Fault Refusal :=
  onLegacy s fun c =>
    if c.leg.cfg.mode != 1 then c
    else if c.leg.requesting && c.leg.cfg.brLevel = level.val then
      let c := c.setLeg fun l => { l with requesting := false, owned := true }
      (((c.drive (.vmeBrq level.val) 0).drive .vmeBbsy 1).vxFor true none).legKick
    else (c.setLeg fun l => { l with grantedTo := some level.val }).drive (.vmeBgo level.val) 1

/-- BUS_CYCLE_DONE (R389): acknowledge, with a read's data, or VME_BERR_L. -/
def execBusCycleDone (good : Bool) (data : Bytes) (s : State) : Host.Outcome State Fault Refusal :=
  onLegacy s fun c => c.cycleEnd (if good then none else some 1) data

/-- BUS_TIMER_EXPIRY (R381): the bridge's own cycle is recorded BUS_TIMEOUT; as system controller it asserts VME_BERR_L for any cycle. -/
def execBusTimerExpiry (s : State) : Host.Outcome State Fault Refusal :=
  onLegacy s fun c =>
    if c.leg.cfg.mode != 1 then c
    else
      let own := c.leg.running
      let c := (if c.syscon then c.drive .vmeBerr 1 else c).cycleEnd (some 2) []
      if c.syscon && own then c.drive .vmeBerr 0 else c

/-- READY_TIMEOUT (R383). -/
def execReadyTimeout (s : State) : Host.Outcome State Fault Refusal :=
  onLegacy s fun c => if c.strobe && bitOf c.leg.cfg.ready 0 then c.cycleEnd (some 3) [] else c

/-- VME_ARBITRATION (R379): other masters' requests and VME_BBSY_L, and VME_BCLR_L, as they now are. -/
def execVmeArbitration (brq : BitVec 4) (bclr bbsy : Bool) (s : State) : Host.Outcome State Fault Refusal :=
  onLegacy s fun c =>
    if c.leg.cfg.mode != 1 then c
    else
      let l := c.leg
      let c := match l.grantedTo with | some k => if bbsy && !l.bbsy then c.drive (.vmeBgo k) 0 else c | none => c
      let c := if l.bbsy && !bbsy && c.syscon && bitOf l.cfg.sysflags 1 then c.drive .vmeBclr 0 else c
      let c := c.setLeg fun l => { l with brqOthers := brq.toNat, bclr, bbsy }
      let locked := match c.leg.q with | r :: _ => r.op == 3 && r.started | [] => false
      let c := if c.leg.owned && c.leg.cfg.release = 1 && !c.leg.running && !locked && (brq.toNat != 0 || bclr) then c.busRelease else c
      c.arbitrate.legKick

/-- VME_SYSRESET (R382): seen asserted, the cycle in progress ends, reads that hold tags complete with all ones, writes not yet on the bus are
discarded and poison their windows, and BUS_SIGNAL is posted. Released, cycles may run again. -/
def execVmeSysreset (asserted : Bool) (s : State) : Host.Outcome State Fault Refusal :=
  onLegacy s fun c =>
    if !asserted then
      let c := if c.leg.sysresetDrive then c.drive .vmeSysreset 0 else c
      (c.setLeg fun l => { l with sysreset := false, sysresetDrive := false }).legKick
    else
      let c := c.setLeg fun l => { l with sysreset := true }
      let busy := match c.leg.q with | r :: _ => r.op == 2 | [] => false
      let c := if c.leg.running && busy then c.cycleEnd (some 4) [] else c.setLeg fun l => { l with running := false }
      let c := (c.leg.q.filter fun r => r.op == 1 || r.op == 3).foldl (fun (c : Chip) r =>
        let c := (c.atomicEnd r).legFinish { r with buf := List.replicate r.buf.length 0xFF } stAborted 0x0B12
        if r.client ≥ 0x1000 && !r.drop then c.postVi r.win.owner 0x0B03 0x0B12 (r.idx + r.addr % 2 ^ 32 * 2 ^ 32) else c) c
      let ws := c.leg.q.filter fun r => r.op == 2
      let c := ws.foldl (fun (c : Chip) r => (c.legFinish r stAborted 0x0B12).legCount 2 1) c
      let c := ws.foldl (fun (c : Chip) r => c.poison r.idx r.addr r.tag 4) c
      let c := ws.foldl (fun (c : Chip) r => c.setHealth r.idx fun h => { h with discarded := sat32 h.discarded 1 }) c
      let c := c.busRelease
      c.post 0x0B05 0 (b2n c.leg.sysfail + 2 * b2n c.leg.acfail + 4)

/-- VME_SYSFAIL_ACFAIL (R382): the lines as they now are, true for asserted. -/
def execVmeSysfailAcfail (sysfail acfail : Bool) (s : State) : Host.Outcome State Fault Refusal :=
  onLegacy s fun c =>
    if c.leg.cfg.mode != 1 || (c.leg.sysfail == sysfail && c.leg.acfail == acfail) then c
    else (c.setLeg fun l => { l with sysfail, acfail }).post 0x0B05 0 (b2n sysfail + 2 * b2n acfail + 4 * b2n c.leg.sysreset)

/-! ### Inbound cycles (R397, R398, R401) -/

/-- A slave cycle on a TRIVET window (R401): eight 32-bit registers, a read of a FREE one taking it. -/
def Chip.trivetCycle (c : Chip) (off : Nat) (x : SlaveCycle) : Chip :=
  let n := off / 4
  match x with
  | .read len =>
    if off + len > 32 || off % 4 + len > 4 then c.slaveEnd false none
    else
      let t := c.trivetTake n 0xFFFE
      let v := if t.2 then 0 else 0x80000000 + c.trivetOwner n
      (if t.2 then t.1 else c).slaveEnd true (some (sliceB (be 4 v) (off % 4) len))
  | .write data =>
    if off + data.length > 32 || off % 4 + data.length > 4 then c.slaveEnd false none
    else if c.trivetOwner n = 0xFFFE then ((c.trivetFree n).slaveEnd true none).legKick
    else (c.setLeg fun l => { l with trivetWrites := sat32 l.trivetWrites 1 }).slaveEnd true none

/-- A slave cycle on a HOST window (R397): the LEGACY gatekeeper checks it whole at L3, then its allowed parts go as requests to F4. -/
def Chip.hostCycle (c : Chip) (s : State) (i : Nat) (w : LegIn) (am addr : Nat) (x : SlaveCycle) (rmw : Bool) : Chip :=
  let len := match x with | .read n => n | .write d => d.length
  let kind := if rmw then 2 else match x with | .read _ => 0 | .write _ => 1
  let a := (w.target + (addr - w.base)) % 2 ^ 64
  let v := (s.guard.active.get {} 1).decide' s.fuses.lifecycle 3 kind a len rmw
  let c := if v.all then c
    else c.violate 1 { addr := a, size := len, kind, level := 3, master := 1, id := i, am, region := v.region, part := !v.nobyte, straddle := v.straddle }
  let t := c.tunOf w.tid
  if v.nobyte then (c.legCount 6 1).slaveEnd false none
  else if t.state != .open || t.index != 0 || t.inPort != 9 then c.slaveEnd false none
  else
    let parts := allowedRuns v.bytes
    match x with
    | .write d => (c.setLeg fun l => { l with slave := some { win := i, tid := w.tid, len, waiting := parts.map fun p => (a + p.1, sliceB d p.1 p.2) } }).inboundRoom
    | .read n =>
      let reads := parts.zipIdx.map fun e => ((c.leg.nextTag + e.2) % 65536, e.1.1, e.1.2)
      let c := c.setLeg fun l => { l with slave := some { win := i, tid := w.tid, len := n, reads, isRead := true, buf := zeros n } }
      parts.foldl (fun (c : Chip) p => c.inboundSend w.tid 1 (a + p.1) p.2 []) c

/-- INBOUND_CYCLE (R397, R398): the lowest enabled window that decodes the cycle answers it; an outbound side that waits for its grant backs off. -/
def execInboundCycle (am : BitVec 6) (addr : BitVec 32) (x : SlaveCycle) (rmw : Bool) (s : State) : Host.Outcome State Fault Refusal :=
  onLegacy s fun c =>
    let am := am.toNat
    let a := addr.toNat % 2 ^ amSpace am
    let n := match x with | .read n => n | .write d => d.length
    if c.leg.cfg.mode != 1 || n = 0 || c.leg.slave.isSome || c.leg.owned then c
    else match c.decodeIn am a n with
      | none => c
      | some (i, w) =>
        let c := if c.leg.requesting then
            ((c.setLeg fun l => { l with requesting := false, backedOff := true }).drive (.vmeBrq c.leg.cfg.brLevel) 0).legCount 5 1
          else c
        if w.trivet then c.trivetCycle (a - w.base) x else c.hostCycle s i w am a x rmw

/-- INBOUND_RESPONSE (R397): every response of an inbound read has come; VME_DTACK_L is given, or VME_BERR_L for a failed one. -/
def execInboundResponse (s : State) : Host.Outcome State Fault Refusal :=
  onLegacy s fun c =>
    match c.leg.slave with
    | some x => if x.isRead && x.reads.isEmpty then c.slaveEnd (!x.failed) (some x.buf) else c
    | none => c

/-- INBOUND_TIMEOUT (R397): VME_BERR_L; a late response finds no access and is discarded. -/
def execInboundTimeout (s : State) : Host.Outcome State Fault Refusal :=
  onLegacy s fun c => if c.leg.slave.isSome then c.slaveEnd false none else c

/-- INBOUND_CYCLE_END (R398): VME_AS_L has risen; the bridge's answer to the cycle goes with it. -/
def execInboundCycleEnd (s : State) : Host.Outcome State Fault Refusal :=
  onLegacy s fun c => ((((c.drive .vmeDtack 0).drive .vmeBerr 0).setVx 1 none).setLeg fun l => { l with backedOff := false, slave := none }).legKick

/-! ### Interrupts (R402) -/

/-- IRQ_POLL (R402): the levels asserted, the IACK cycle's status/ID, and whether it was acknowledged. -/
def execIrqPoll (levels : BitVec 8) (id : BitVec 32) (good : Bool) (s : State) : Host.Outcome State Fault Refusal :=
  onLegacy s fun c =>
    let l := c.leg
    match [7, 6, 5, 4, 3, 2, 1].find? fun n => levels.getLsbD n && bitOf l.cfg.irqEnable n && !bitOf l.irqMasked n with
    | none => c
    | some n =>
      let w := bitsOf l.cfg.iackWidth (2 * n - 2) 2
      let c := if c.strobe then c else c.emit (.vmeIack n w)
      let c := c.setLeg fun l => { l with irqMasked := setBit l.irqMasked n true }
      let v := if c.strobe || !good then 0 else id.toNat % 2 ^ (8 * 2 ^ w)
      let d := n + 256 * b2n (!c.strobe && !good) + 512 * b2n c.strobe + v * 2 ^ 32
      let o := nth 0xFF l.cfg.irqOwner (n - 1)
      (if o = 0xFF then c.post 0x0B02 0 d else c.postVi o 0x0B02 0 d).wakeEvent 4

/-! ### Prefetch lines and trivets (R394, R399, R400) -/

/-- PREFETCH_EXPIRY (R394): a line has lived PREFETCH_LIFE_US. -/
def execPrefetchExpiry (line : Nat) (s : State) : Host.Outcome State Fault Refusal :=
  onLegacy s fun c => match c.leg.lines[line]? with | some x => c.dropLines (· == x) | none => c

/-- TRIVET_HOLD_EXPIRY (R399). -/
def execTrivetHoldExpiry (n : Fin 8) (s : State) : Host.Outcome State Fault Refusal :=
  onChip s fun c =>
    match c.leg.trivets.find n.val with
    | none => c
    | some o => (((c.trivetFree n.val).post 0x0B04 0x0B10 (n.val + o * 65536)).legKick).legSettle

/-- TRIVET_WAIT_TIMEOUT (R400): the atomic that waits for another owner's trivet fails. -/
def execTrivetWaitTimeout (s : State) : Host.Outcome State Fault Refusal :=
  onLegacy s fun c =>
    match c.leg.q with
    | r :: _ => if r.op = 3 && !r.hasTrivet && !r.dead then (c.legFinish r stBusy 0x0B08).legKick else c
    | [] => c

/-! ### Commands (Tables 16.5 to 16.7, R407) -/

/-- LEGACY_CONFIG's settings in its parameters. -/
def legCfgOf (b : Bytes) : LegCfg :=
  { mode := fld b 0 1, sysflags := fld b 1 1 % 8, brLevel := fld b 2 1, release := fld b 3 1, busTimer := fld b 4 2, inTimeout := fld b 6 2,
    poll := fld b 8 1, irqEnable := fld b 9 1, iackWidth := fld b 10 2, irqOwner := (sliceB b 12 7).map BitVec.toNat,
    strobeT := (sliceB b 20 4).map BitVec.toNat, ready := fld b 24 1, readyTimeout := fld b 26 2, prefetchLife := fld b 28 2,
    trivetHold := fld b 30 2 }

/-- The settings lie in their ranges. -/
def LegCfg.valid (k : LegCfg) : Bool :=
  decide (k.mode ≤ 2) && decide (k.brLevel ≤ 3) && decide (k.release ≤ 1) && decide (4 ≤ k.busTimer) && decide (k.busTimer ≤ 1020) && k.busTimer % 4 == 0
    && decide (1 ≤ k.inTimeout) && decide (k.inTimeout ≤ 500) && decide (1 ≤ k.poll) && decide (k.poll ≤ 100) && !bitOf k.irqEnable 0
    && decide (k.iackWidth < 2 ^ 14) && (List.range 7).all (fun i => bitsOf k.iackWidth (2 * i) 2 != 3)
    && k.irqOwner.all (fun o => decide (o ≤ 63) || o == 0xFF) && decide (k.ready ≤ 3) && decide (1 ≤ k.readyTimeout) && decide (k.readyTimeout ≤ 1000)
    && decide (1 ≤ k.prefetchLife) && decide (k.prefetchLife ≤ 1000) && decide (1 ≤ k.trivetHold) && decide (k.trivetHold ≤ 10000)

/-- Apply settings: with another MODE the old bus is left, and MODE off holds every output inactive (R377); SYSCLK follows its flag. -/
def Chip.legApply (c : Chip) (k : LegCfg) : Chip :=
  let c := if k.mode = c.leg.cfg.mode then c else c.legQuiet
  let c := c.setLeg fun l => { l with cfg := k }
  let c := if k.mode = 0 then c
    else if k.mode = 2 then c.vxFor true none else if c.leg.owned then c else c.vxFor false none
  (c.drive .vmeSysclk (b2n (c.syscon && bitOf k.sysflags 2))).legKick

def bodyLegacyConfig (x : Ctx) (c : Chip) : Ans × Chip :=
  let k := legCfgOf x.ps
  let o := c.leg.cfg
  let fl := fld x.ps 1 1
  if !k.valid || fl > 15 || !rsvd x.ps 19 1 || !rsvd x.ps 25 1 || !rsvd x.ps 32 16 then no c stParam
  else if bitOf fl 0 && k.inTimeout ≥ k.busTimer then no c stParam 0x0B0E
  else if !c.leg.q.isEmpty && (k.mode != o.mode || k.sysflags != o.sysflags || k.brLevel != o.brLevel || k.release != o.release) then no c stState 0x0B0D
  else
    let c := if bitOf fl 3 then c.storeConfig fun p => { p with leg := some k } else c
    (ok, c.legApply k)

def execLegacyConfig (p : Packet) (s : State) : Host.Outcome State Fault Refusal := runCommand 0x0B01 p s bodyLegacyConfig

/-- SIZE and VME_BASE obey R384 for a space of `bits` address bits. -/
def spanOk (base size bits : Nat) : Bool :=
  size % 4096 == 0 && decide (4096 ≤ size) && base % 4096 == 0 && decide (base + size ≤ 2 ^ bits)

def bodyWindowSet (x : Ctx) (c : Chip) : Ans × Chip :=
  let i := fld x.ps 0 1
  let fl := fld x.ps 1 1
  let old := c.legWin i
  let w : LegWin := { enable := bitOf fl 0, posted := bitOf fl 1, prefetch := bitOf fl 2, rmw := bitOf fl 3, aperture := bitOf fl 4, width := fld x.ps 2 1,
                      am := fld x.ps 3 1, owner := fld x.ps 4 1, trivet := fld x.ps 5 1, size := fld x.ps 8 4, base := fld x.ps 12 4,
                      slide := fld x.ps 16 4, gen := if old.gen ≥ 65535 then 1 else old.gen + 1 }
  let second := w.aperture && w.owner != 0 && c.leg.wins.any fun e => e.1 != i && e.2.aperture && e.2.owner == w.owner
  if i > 15 || fl > 127 || w.width > (if c.strobe then 1 else 4) || (!c.strobe && !amOk w.am) || w.owner > 63 || w.trivet > 7
      || !spanOk w.base w.size (if c.strobe then 24 else amSpace w.am) || w.slide % 4096 != 0 || w.slide > w.size - 32768 || second || !rsvd x.ps 20 12 then
    no c stParam
  else if c.poisoned i then no c stState 0x0B04
  else if bitOf fl 5 && fld x.ps 6 2 != old.gen then no c stState 0x0B0F
  else
    let c := (c.dropLines fun l => l.win == i).setLeg fun l => { l with wins := l.wins.set i w }
    let c := if bitOf fl 6 then c.storeConfig fun p => { p with legWins := p.legWins.set i w } else c
    (ok [] w.gen, c)

def execWindowSet (p : Packet) (s : State) : Host.Outcome State Fault Refusal := runCommand 0x0B02 p s bodyWindowSet

/-- A HOST window's tunnel goes from F9 to F4, is open and has its partner (Table 16.7). -/
def Chip.hostTid (c : Chip) (tid : Nat) : Bool :=
  let t := c.tunOf tid
  t.state == .open && t.index == 0 && t.inPort == 9 && t.ty == 5 && nth 0xFF t.route t.hops == 4 &&
    !(c.tids fun _ u => u.state == .open && u.index == u.hops && u.outPort == 9 && u.partner == tid && fld u.typeParams 0 1 == 1).isEmpty

def bodyInboundSet (x : Ctx) (c : Chip) : Ans × Chip :=
  let i := fld x.ps 0 1
  let fl := fld x.ps 1 1
  let w : LegIn := { enable := bitOf fl 0, trivet := bitOf fl 1, amsel := fld x.ps 2 1, tid := fld x.ps 4 2, base := fld x.ps 8 4, size := fld x.ps 12 4,
                     target := fld x.ps 16 8 }
  let span := [(0, 16), (1, 24), (2, 32)].all fun e => !bitOf w.amsel e.1 || spanOk w.base w.size e.2
  if i > 7 || fl > 7 || w.amsel > 127 || w.tid > 1023 || !span || !spanOk w.base w.size 32 || (w.trivet && w.size != 4096)
      || !rsvd x.ps 3 1 || !rsvd x.ps 6 2 || !rsvd x.ps 24 8 then no c stParam
  else if w.enable && !w.trivet && !c.hostTid w.tid then no c stState 0x0B0B
  else
    let c := c.setLeg fun l => { l with ins := l.ins.set i w }
    (ok, if bitOf fl 2 then c.storeConfig fun p => { p with legIns := p.legIns.set i w } else c)

def execInboundSet (p : Packet) (s : State) : Host.Outcome State Fault Refusal := runCommand 0x0B03 p s bodyInboundSet

def bodyWindowSlide (x : Ctx) (c : Chip) : Ans × Chip :=
  let i := fld x.ps 0 1
  let v := fld x.ps 4 4
  let w := c.legWin i
  if i > 15 || !rsvd x.ps 1 3 || v % 4096 != 0 || v > w.size - 32768 then no c stParam
  else if x.lvl = 2 && !(w.aperture && w.owner = x.iss) then no c stDenied 0x0002
  else (ok, c.setLeg fun l => { l with wins := l.wins.set i { w with slide := v } })

def execWindowSlide (p : Packet) (s : State) : Host.Outcome State Fault Refusal := runCommand 0x0B04 p s bodyWindowSlide

def bodyClearWindowError (x : Ctx) (c : Chip) : Ans × Chip :=
  let i := fld x.ps 0 1
  let h := c.legHealth i
  let e := h.poisoned.getD {}
  if i > 15 || !rsvd x.ps 1 3 then no c stParam
  else if x.lvl = 2 && (c.legWin i).owner != x.iss then no c stDenied 0x0002
  else (ok (le 4 e.addr ++ le 1 e.tag ++ le 1 e.cause ++ le 6 e.turn ++ le 4 h.discarded),
        (c.setHealth i fun h => { h with poisoned := none, discarded := 0 }).dropLines fun l => l.win == i)

def execClearWindowError (p : Packet) (s : State) : Host.Outcome State Fault Refusal := runCommand 0x0B05 p s bodyClearWindowError

def bodyLegacyGrant (x : Ctx) (c : Chip) : Ans × Chip :=
  let t := fld x.ps 0 2
  let m := fld x.ps 2 2
  if t > 1023 || !rsvd x.ps 4 4 then no c stParam
  else (ok, c.setLeg fun l => { l with grants := if m = 0 then l.grants.erase t else l.grants.set t m })

def execLegacyGrant (p : Packet) (s : State) : Host.Outcome State Fault Refusal := runCommand 0x0B06 p s bodyLegacyGrant

def bodyIrqRearm (x : Ctx) (c : Chip) : Ans × Chip :=
  let n := fld x.ps 0 1
  if n = 0 || n > 7 || !rsvd x.ps 1 3 then no c stParam
  else if x.lvl = 2 && nth 0xFF c.leg.cfg.irqOwner (n - 1) != x.iss then no c stDenied 0x0002
  else (ok, c.setLeg fun l => { l with irqMasked := setBit l.irqMasked n false })

def execIrqRearm (p : Packet) (s : State) : Host.Outcome State Fault Refusal := runCommand 0x0B07 p s bodyIrqRearm

def bodyTrivet (x : Ctx) (c : Chip) : Ans × Chip :=
  let n := fld x.ps 0 1
  let op := fld x.ps 1 1
  let who := 0x1000 + x.iss
  if n > 7 || op > 2 || !rsvd x.ps 2 2 then no c stParam
  else if op = 2 && x.lvl != 1 then no c stDenied 0x0002
  else if op = 0 then
    let t := c.trivetTake n who
    if t.2 then (ok [] who, t.1) else no c stBusy 0x0B08 (c.trivetOwner n)
  else if c.trivetOwner n = who || (op = 2 && c.trivetOwner n != 0xFFFF) then (ok [] 0xFFFF, ((c.trivetFree n).legKick).legSettle)
  else no c stState 0x0B09 (c.trivetOwner n)

def execTrivet (p : Packet) (s : State) : Host.Outcome State Fault Refusal := runCommand 0x0B08 p s bodyTrivet

def bodyLegacyStatus (x : Ctx) (c : Chip) : Ans × Chip :=
  let l := c.leg
  let bad := (List.range 16).foldl (fun a i => a + (if c.poisoned i then 2 ^ i else 0)) 0
  let own := fun (n : Nat) =>
    let o := c.trivetOwner n
    if x.lvl != 1 && o != 0xFFFF && o != 0x1000 + x.iss then 0xFFFD else o
  (ok (le 1 l.cfg.mode ++ le 1 l.cfg.sysflags ++ le 1 l.q.length ++ le 1 l.irqMasked ++ le 2 bad ++ zeros 2
    ++ ((List.range 16).map fun i => le 2 (c.legWin i).gen).flatten ++ ((List.range 8).map fun n => le 2 (own n)).flatten
    ++ ((List.range 8).map fun i => le 4 (l.cnt.get 0 i)).flatten ++ ((List.range 16).map fun i => le 4 (nth 0 l.ring i)).flatten), c)

def execLegacyStatus (p : Packet) (s : State) : Host.Outcome State Fault Refusal := runCommand 0x0B09 p s bodyLegacyStatus

end Sys2Proof.Machine
end

