-- ==== Sys2Proof/Machine/Endpoints.lean ====
section
/-!
DEFINITION. Chapter 08 and 09: endpoints take cells from their outputs (R232).
-/
namespace Sys2Proof.Machine

/-- The contracted queues at an output whose head is eligible (R224) and can be taken by the endpoint, with the powered time at which it was
linked. -/
def Chip.contractedReady (c : Chip) (p : Nat) : List (Nat × Nat) :=
  c.fab.q.filterMap fun e =>
    let tid := e.1 % 1024
    if e.1 / 1024 != p || c.isFwQueue p tid || !c.takeable p tid then none
    else match e.2 with
      | x :: r => if x.sf && !((x :: r).any fun y => y.cell.l) then none else some (tid, x.linkAt)
      | [] => none

/-- The one linked first, ties to the lower TID. -/
def Chip.contractedChoice (c : Chip) (p : Nat) : Option Nat :=
  ((c.contractedReady p).foldl (fun (b : Option (Nat × Nat)) e =>
    match b with | none => some e | some d => if e.2 < d.2 then some e else some d) none).map Prod.fst

/-- The endpoint behind output `p` receives a cell. -/
def Chip.toEndpoint (c : Chip) (p : Nat) (q : QCell) : Chip :=
  let x := q.cell
  if p = 10 then
    if x.tid < 2 then
      match q.credit with
      | some (n, _) => { c with fab := { c.fab with f10 := c.fab.f10 ++ [(n, x)] } }
      | none => c
    else c
  else if p = 4 then (if c.inboundTun x.tid then c.inboundTake x else c.hostRx q)
  else if p = 5 then c.f5Rx x
  else if p = 6 then c.ethTake q
  else if p = 7 then c.blkRx q
  else if p = 8 then c.usbTake q
  else if p = 9 then (c.legTake x).legSettle
  else c

/-- After a delivery the destination grants a FLOW_CTL source anew (Table 08.5); F7 grants by its staging space (R349). -/
def Chip.flowAfter (c : Chip) (p tid : Nat) : Chip :=
  let t := c.tunOf tid
  if tid < 2 || p = 7 || t.index != t.hops || !t.state.live then c
  else c.flowUpdate tid ((t.outNext + t.window) % 65536) false

/-- ENDPOINT_TAKE (R232): contracted cells first, otherwise the freewheel decision. -/
def execEndpointTake (port : Fin 11) (r : LineRead) (s : State) : Host.Outcome State Fault Refusal :=
  onChip s fun c =>
    let p := port.val
    if p < 4 || !c.portOn p || !c.forwards then c
    else
      let c := if p = 4 then c.rxCuts else c
      let d := match c.contractedChoice p with
        | some tid => c.depart p tid r false
        | none => c.fwDecide p r
      match d.2 with
      | none => d.1
      | some q => (((d.1.toEndpoint p q).flowAfter p q.cell.tid).drainCheck q.cell.tid).settlePairwise

end Sys2Proof.Machine
end

