-- ==== Sys2Proof/Machine/Ethernet.lean ====
section
/-!
DEFINITION. Chapter 13's rows: frames, lock, polarity and the Ethernet commands (R316 to R328), and chapter 10's PTP engine (R266, R267).
-/
namespace Sys2Proof.Machine

/-! ### Link and frames -/

/-- ETH_LOCK_CHANGE (R317): the state of the lock, of Clause 37 and of RS-FEC alignment. -/
def execEthLockChange (port : Fin 4) (lock an rs : Bool) (s : State) : Host.Outcome State Fault Refusal :=
  onChip s fun c =>
    let n := port.val
    let p := c.ethPort n
    let lock := lock && p.on && c.dev.islands.contains 7 && !c.dev.refFailed.contains 1
    let an := an && lock && p.cfg.mode == 1 && bitOf p.cfg.pflags 3
    let c := c.setEthPort n { p with lock, an, rsAligned := rs && lock && p.cfg.mode == 4 }
    c.ethUp n (lock && (p.cfg.mode != 1 || !bitOf p.cfg.pflags 3 || an))

/-- ETH_AUTO_POL_TIMER (R318): 20 ms without lock. -/
def execEthAutoPolTimer (port : Fin 4) (s : State) : Host.Outcome State Fault Refusal :=
  onChip s fun c =>
    let p := c.ethPort port.val
    if p.on && bitOf p.cfg.pflags 2 && p.cfg.loop = 0 && !p.lock then c.setEthPort port.val { p with flipped := !p.flipped } else c

/-- ETH_FRAME_RX (R319, R320, R324): a frame from its destination address to its last byte before the FCS, and the RS-FEC codewords that
carried it. In loops 1 and 2 the receive pads are not heard; in loop 3 the data returns on TX. -/
def execEthFrameRx (port : Fin 4) (frame : Bytes) (fcsOk : Bool) (corrected uncorrectable : Nat) (s : State) : Host.Outcome State Fault Refusal :=
  onChip s fun c =>
    let n := port.val
    let p := c.ethPort n
    if !p.up || p.cfg.loop = 1 || p.cfg.loop = 2 then c
    else
      let c := if p.cfg.mode = 4 then (c.ethCount n 15 corrected).ethCount n 16 uncorrectable else c
      if p.cfg.loop = 3 then c.emit (.ethFrame n (frame ++ le 4 (if fcsOk then fcsOf frame else fcsOf frame ^^^ 0xFFFFFFFF)))
      else c.ethReceive n frame fcsOk

/-- ETH_FRAME_TX (R325, R326). -/
def execEthFrameTx (port : Fin 4) (starved : Bool) (s : State) : Host.Outcome State Fault Refusal :=
  onChip s fun c => c.ethStart port.val starved

/-! ### Commands (Tables 13.3 to 13.5) -/

/-- ETH_PORT_SET (R328). -/
def bodyEthPortSet (x : Ctx) (c : Chip) : Ans × Chip :=
  let n := fld x.ps 0 1
  let k : EthCfg := { admin := fld x.ps 1 1 == 1, mode := fld x.ps 2 1, pflags := fld x.ps 3 1, loop := fld x.ps 4 1, miss := fld x.ps 5 1,
                      missTid := fld x.ps 6 2, maxFrame := fld x.ps 8 2 }
  if n > 3 || fld x.ps 1 1 > 1 || k.mode > 4 || k.loop > 3 || k.miss > 1 || k.missTid ≥ 1024 || k.maxFrame < 64 || k.maxFrame > 9600
      || !rsvd x.ps 10 6 then no c stParam
  else if k.miss = 1 && !c.f6Source k.missTid then no c stState 0x0901
  else
    let p := c.ethPort n
    let down := k.mode != p.cfg.mode || k.loop != p.cfg.loop || bitOf k.pflags 3 != bitOf p.cfg.pflags 3 || !k.admin
    let c := if down then c.ethDown n else c
    let c := c.setEthPort n { c.ethPort n with cfg := k }
    (ok, if bitOf k.pflags 7 then c.storeConfig fun m => { m with eth := m.eth.set n k } else c)

def execEthPortSet (p : Packet) (s : State) : Host.Outcome State Fault Refusal := runCommand 0x0901 p s bodyEthPortSet

/-- An entry's fields are in range (Table 13.2); GEN is ignored. -/
def entryOk (e : Bytes) : Bool :=
  fld e 0 1 < 8 && bitsOf (fld e 0 1) 1 2 != 3 && fld e 1 1 < 16 && fld e 2 2 < 4096 && fld e 4 2 < 4096 && rsvd e 7 1 && fld e 24 1 ≤ 1
    && rsvd e 25 1 && fld e 26 2 < 1024 && rsvd e 30 2

/-- An entry of the table; one never written reads zero. -/
def Chip.classEntry (c : Chip) (i : Nat) : Bytes := c.eth.cls.get (zeros 32) i

/-- ETH_CLASS_WRITE (R321, R322). -/
def bodyEthClassWrite (x : Ctx) (c : Chip) : Ans × Chip :=
  let i := fld x.ps 0 2
  let w := fld x.ps 2 1
  let e := sliceB x.ps 8 32
  let gen := fld (c.classEntry i) 28 2
  if i > 4095 || w > 1 || !rsvd x.ps 3 1 || !rsvd x.ps 6 2 || !entryOk e then no c stParam
  else if fld e 24 1 = 1 && !c.f6Source (fld e 26 2) then no c stState 0x0901
  else if w = 1 && fld x.ps 4 2 != gen then no c stState 0x0902
  else
    let g := if gen ≥ 65535 then 1 else gen + 1
    (ok [] g, c.setEth fun t => { t with cls := t.cls.set i (patch e 28 (le 2 g)) })

def execEthClassWrite (p : Packet) (s : State) : Host.Outcome State Fault Refusal := runCommand 0x0902 p s bodyEthClassWrite

/-- ETH_CLASS_READ (R328). -/
def bodyEthClassRead (x : Ctx) (c : Chip) : Ans × Chip :=
  let i := fld x.ps 0 2
  let n := fld x.ps 2 2
  if i > 4095 || n = 0 || n > 4096 - i then no c stParam
  else (ok ((List.range n).map fun k => c.classEntry (i + k)).flatten, c)

def execEthClassRead (p : Packet) (s : State) : Host.Outcome State Fault Refusal := runCommand 0x0903 p s bodyEthClassRead

/-- STATE of ETH_PORT_STATUS (R328). -/
def EthPort.state (p : EthPort) : Nat := if !p.on then 0 else if p.cfg.loop != 0 then 3 else if p.up then 2 else 1
/-- The receiver's polarity in use is inverted (R318, R319). -/
def EthPort.inverted (p : EthPort) : Bool := p.cfg.loop = 0 && (bitOf p.cfg.pflags 1 != p.flipped)

/-- ETH_PORT_STATUS. -/
def bodyEthPortStatus (x : Ctx) (c : Chip) : Ans × Chip :=
  let n := fld x.ps 0 1
  let p := c.ethPort n
  if n > 3 || !rsvd x.ps 1 3 then no c stParam
  else (ok (le 1 n ++ le 1 p.state ++ le 1 p.cfg.mode ++ le 1 (b2n p.inverted + 2 * b2n p.an + 4 * b2n p.rsAligned) ++ le 2 p.cfg.maxFrame ++
    le 6 p.ups ++ zeros 4), c)

def execEthPortStatus (p : Packet) (s : State) : Host.Outcome State Fault Refusal := runCommand 0x0904 p s bodyEthPortStatus

/-- ETH_COUNTERS (R121, R328). -/
def bodyEthCounters (x : Ctx) (c : Chip) : Ans × Chip :=
  let n := fld x.ps 0 1
  let k := fld x.ps 1 1
  let p := c.ethPort n
  if n > 3 || k > 1 || !rsvd x.ps 2 2 then no c stParam
  else if k = 1 && x.lvl != 1 then no c stDenied 0x0002
  else (ok ((List.range 16).map fun i => le 8 (p.cnt.get 0 (i + 1))).flatten, if k = 1 then c.setEthPort n { p with cnt := [] } else c)

def execEthCounters (p : Packet) (s : State) : Host.Outcome State Fault Refusal := runCommand 0x0905 p s bodyEthCounters

/-! ### PTP (R256, R266, R267): messages of IEEE 1588-2019, which the rules cite -/

/-- A port's PTP settings and engine. -/
def Chip.ptp (c : Chip) (n : Nat) : PtpPort := c.time.ptp.get {} n
/-- Change a port's PTP engine. -/
def Chip.setPtp (c : Chip) (n : Nat) (p : PtpPort) : Chip := c.setTime fun t => { t with ptp := t.ptp.set n p }

/-- A signed log interval in range. -/
def logOk (b : Bytes) (o : Nat) : Bool := let v := sfld b o 1; decide (-7 ≤ v) && decide (v ≤ 4)

/-- PTP_PORT_SET (Table 10.7). -/
def bodyPtpPortSet (x : Ctx) (c : Chip) : Ans × Chip :=
  let n := fld x.ps 0 1
  let mode := fld x.ps 1 1
  let fl := fld x.ps 2 1
  let dom := fld x.ps 3 1
  let tmo := fld x.ps 7 1
  let e := c.ethPort n
  let others := c.time.ptp.any fun k => k.1 != n && k.2.mode != 0 && k.2.domain != dom
  if n > 3 || mode > 3 || fl > 15 || (bitOf fl 1 && bitOf fl 2) || !logOk x.ps 4 || !logOk x.ps 5 || !logOk x.ps 6 || tmo < 2 || tmo > 10
      || !rsvd x.ps 10 2 || !rsvd x.ps 24 8 || (mode != 0 && others) then no c stParam
  else if !e.on then no c stState 0x050A
  else
    let old := c.ptp n
    let p : PtpPort := { old with
      mode, pflags := fl, domain := dom, logSync := sfld x.ps 4 1, logAnnounce := sfld x.ps 5 1, logDelay := sfld x.ps 6 1,
      announceTimeout := tmo, priority1 := fld x.ps 8 1, priority2 := fld x.ps 9 1, ingressAdj := sfld x.ps 12 4, egressAdj := sfld x.ps 16 4,
      asym := sfld x.ps 20 4 }
    let p := if mode = old.mode && dom = old.domain then p
      else { p with lastSync := none, syncDelay := none, lastDelay := none, pdResp := none, pathDelay := 0, parent := none }
    let c := c.setPtp n p
    (ok, if p.parent.isNone && (c.time.data.find (0x20 + n)).isSome then c.sourceLost (0x20 + n) else c)

def execPtpPortSet (p : Packet) (s : State) : Host.Outcome State Fault Refusal := runCommand 0x0504 p s bodyPtpPortSet

/-- A correctionField in ps. -/
def corrPs (b : Bytes) : Int := (signed 64 (beNat (sliceB b 8 8)) * 1000) / 65536
/-- A timestamp of a message body in ps. -/
def bodyPs (b : Bytes) : Int := ((beNat (sliceB b 34 6) * 10 ^ 12 + beNat (sliceB b 40 4) * 1000 : Nat) : Int)
/-- A timestamp of ten bytes. -/
def stampTen (ps : Int) : Bytes := let t := ps.toNat; be 6 (t / 10 ^ 12) ++ be 4 ((t % 10 ^ 12) / 1000)
/-- The part of a time below a nanosecond as a correctionField. -/
def subNs (ps : Int) : Int := ((ps % 1000) * 65536) / 1000

/-- portIdentity of a port: clockIdentity and the port number from 1. -/
def portIdentity (n : Nat) : Bytes := be 8 (Config.ownClock 0 % 2 ^ 64) ++ be 2 (n + 1)

/-- A message: header (majorSdoId 1 in the 802.1AS profile), body and the profile's TLVs, which the cited standard gives. -/
def PtpPort.message (p : PtpPort) (n ty : Nat) (flag0 : Nat) (corr : Int) (seq : Nat) (log : Int) (body : Bytes) (flag1 : Nat := 8) : Bytes :=
  let tlv := if p.mode = 3 then Config.ptpTlv ty else []
  le 1 (16 * b2n (p.mode == 3) + ty) ++ le 1 0x12 ++ be 2 (34 + body.length + tlv.length) ++ le 1 p.domain ++ zeros 1 ++ le 1 flag0 ++
    le 1 flag1 ++ be 8 (unsigned 64 corr) ++ zeros 4 ++ portIdentity n ++ be 2 seq ++ zeros 1 ++ le 1 (unsigned 8 log) ++ body ++ tlv

/-- A peer delay message: Pdelay_Req, Pdelay_Resp, Pdelay_Resp_Follow_Up. -/
def peerDelay (m : Bytes) : Bool := let ty := fld m 0 1 % 16; ty = 2 || ty = 3 || ty = 0xA

/-- The Internet checksum of bytes, as two bytes. -/
def inetSum (b : Bytes) : Nat :=
  let s := (pieces 2 ((b.length + 1) / 2) b).foldl (fun a w => a + beNat (sliceB w 0 2)) 0
  let s := s % 65536 + s / 65536
  65535 - (s % 65536 + s / 65536)

/-- The frame, without FCS, of a PTP message over IEEE 802.3 (IEEE 1588-2019 Annex E; PRESUMED, log entry 54). -/
def ptpOver8023 (n : Nat) (as : Bool) (m : Bytes) : Bytes :=
  be 6 (if as || peerDelay m then 0x0180C200000E else 0x011B19000000) ++ sliceB (Config.ptpMac n) 0 6 ++ be 2 0x88F7 ++ m

/-- The frame, without FCS, of a PTP message over UDP/IPv4 (IEEE 1588-2019 Annex C; PRESUMED, log entry 54): the multicast address and port of
the message's kind, and the header's and the UDP checksum. -/
def ptpOverUdp (n : Nat) (event : Bool) (m : Bytes) : Bytes :=
  let peer := peerDelay m
  let src := sliceB (Config.ptpIp n) 0 4
  let dst := be 4 (if peer then 0xE000006B else 0xE0000181)
  let port := be 2 (if event then 319 else 320)
  let len := 8 + m.length
  let udp := fun (k : Nat) => port ++ port ++ be 2 len ++ be 2 k ++ m
  let k := inetSum (src ++ dst ++ le 1 0 ++ le 1 17 ++ be 2 len ++ udp 0)
  let ip := fun (k : Nat) => le 1 0x45 ++ le 1 (Config.ptpIpField 0 % 256) ++ be 2 (20 + len) ++ be 2 (Config.ptpIpField 1 % 65536) ++
    be 2 (Config.ptpIpField 2 % 65536) ++ le 1 (if peer then 1 else Config.ptpIpField 3 % 256) ++ le 1 17 ++ be 2 k ++ src ++ dst
  be 6 (if peer then 0x01005E00006B else 0x01005E000181) ++ sliceB (Config.ptpMac n) 0 6 ++ be 2 0x0800 ++ ip (inetSum (ip 0)) ++
    udp (if k = 0 then 65535 else k)

/-- Send a message in its encapsulation (R267). -/
def Chip.ptpSend (c : Chip) (n : Nat) (event : Bool) (m : Bytes) : Chip :=
  let p := c.ptp n
  c.ethSend n (if bitOf p.pflags 3 then ptpOverUdp n event m else ptpOver8023 n (p.mode == 3) m) true

/-- Transmit and receive latency of a port mode, ps (Table 10.5). -/
def ethLatency (mode : Nat) : Nat × Nat :=
  if mode = 1 then (312000, 456000) else if mode = 2 then (97280, 128000) else if mode = 3 then (43520, 61440)
  else if mode = 4 then (87040, 240640) else (0, 0)

/-- The time at the pads that a message sent now bears (R266): the mode's latency after its row, and the board's adjustment. -/
def Chip.txPs (c : Chip) (n : Nat) : Int :=
  (c.clk.localPs : Int) + ((ethLatency (c.ethPort n).cfg.mode).1 : Int) + (c.ptp n).egressAdj

/-- The time at the pads of a message whose row came at a local time (R266): the mode's latency before it, and the board's adjustment. -/
def Chip.rxPs (c : Chip) (n at0 : Nat) : Int :=
  (at0 : Int) - ((ethLatency (c.ethPort n).cfg.mode).2 : Int) - (c.ptp n).ingressAdj

/-- A port is a master port (IEEE 1588-2019's state decision): not SLAVE_ONLY and not the source in use. Another port that hears a master is
passive where this part's own clock, of clockClass 1 to 127 or with no source in use, is not better than that master, or where the source in
use has the same grandmaster. -/
def Chip.ptpMaster (c : Chip) (n : Nat) : Bool :=
  let p := c.ptp n
  if bitOf p.pflags 2 then false
  else if bitOf p.pflags 1 then true
  else if c.time.source = 0x20 + n then false
  else match c.time.data.find (0x20 + n) with
    | none => true
    | some d =>
      let own := c.defaultDataset
      let cls := bitsOf own.quality 24 8
      if (1 ≤ cls && cls ≤ 127) || c.time.source = 0 || c.time.source = 0x30 then own.better d
      else (c.time.data.get {} c.time.source).gm != d.gm

/-- An Announce's dataset; TFLAGS in their places of Table 10.4. -/
def announceData (m : Bytes) : Dataset :=
  let f := fld m 7 1
  { tstate := 0, stepsRemoved := beNat (sliceB m 61 2), gm := beNat (sliceB m 53 8), quality := beNat (sliceB m 48 4),
    priority := fld m 47 1 * 256 + fld m 52 1, utcOffset := beNat (sliceB m 44 2),
    tflags := f % 8 + 8 * b2n (bitOf f 4) + 16 * b2n (bitOf f 5), timeSource := fld m 63 1, sender := beNat (sliceB m 20 10) }

/-- The Announce's body and flags that a master port sends, from the part's own dataset. -/
def Chip.announceBody (c : Chip) : Bytes × Nat :=
  let d := c.ownDataset
  (zeros 10 ++ be 2 d.utcOffset ++ zeros 1 ++ le 1 (d.priority / 256) ++ be 4 d.quality ++ le 1 (d.priority % 256) ++ be 8 d.gm ++
     be 2 d.stepsRemoved ++ le 1 d.timeSource,
   d.tflags % 8 + 8 + 16 * b2n (bitOf d.tflags 3) + 32 * b2n (bitOf d.tflags 4))

/-- A Sync has been measured: `d` is t2 - t1 less its corrections and the port's asymmetry. -/
def Chip.ptpSync (c : Chip) (n : Nat) (d : Int) : Chip :=
  let p := c.ptp n
  (c.setPtp n { p with syncDelay := some d, lastSync := none }).timeSample (0x20 + n) (d - p.pathDelay)

/-- Announce: the port keeps to one master, and moves to a better one (R256). -/
def Chip.ptpAnnounce (c : Chip) (n : Nat) (m : Bytes) : Chip :=
  let p := c.ptp n
  let d := announceData m
  let id := sliceB m 20 10
  let better := match c.time.data.find (0x20 + n) with | none => true | some o => d.better o
  if bitOf p.pflags 1 then c
  else if p.parent == some id || p.parent.isNone || better then
    let q := if p.parent == some id then p else { p with parent := some id, lastSync := none, syncDelay := none }
    (c.setPtp n q).sourceData (0x20 + n) d
  else c

/-- A message handed to the PTP engine (R266, R267). -/
def Chip.ptpMessage (c : Chip) (n : Nat) (rx : Int) (m : Bytes) : Chip :=
  let p := c.ptp n
  let ty := fld m 0 1 % 16
  let seq := beNat (sliceB m 30 2)
  let from_ := sliceB m 20 10
  let two := bitOf (fld m 6 1) 1
  let corr := corrPs m
  let forMe := sliceB m 44 10 == portIdentity n
  let log := sfld m 33 1
  if m.length < 44 || fld m 1 1 % 16 != 2 || fld m 4 1 != p.domain || p.mode = 0 || (fld m 0 1 / 16 == 1) != (p.mode == 3) then c
  else if ty = 0xB then (if m.length < 64 then c else c.ptpAnnounce n m)
  else if ty = 0 then
    if p.parent != some from_ then c
    else if two then c.setPtp n { p with lastSync := some (seq, rx, corr) }
    else c.ptpSync n (rx - bodyPs m - corr - p.asym)
  else if ty = 8 then
    match p.lastSync with
    | some (s, t2, k) => if s = seq && p.parent == some from_ then c.ptpSync n (t2 - bodyPs m - k - corr - p.asym) else c
    | none => c
  else if ty = 1 then
    if p.mode = 1 && c.ptpMaster n then
      let ps := rx
      c.ptpSend n false (p.message n 9 0 (signed 64 (beNat (sliceB m 8 8)) - subNs ps) seq log (stampTen ps ++ from_))
    else c
  else if ty = 9 then
    match p.lastDelay, p.syncDelay with
    | some (s, t3), some d =>
      if m.length ≥ 54 && s = seq && forMe && p.parent == some from_ then
        c.setPtp n { p with lastDelay := none, pathDelay := (d + (bodyPs m - t3 - corr)) / 2 }
      else c
    | _, _ => c
  else if ty = 2 then
    if p.mode = 1 then c
    else if bitOf p.pflags 0 then
      c.ptpSend n true (p.message n 3 0 (signed 64 (beNat (sliceB m 8 8)) + ((c.txPs n - rx) * 65536) / 1000) seq 0x7F (zeros 10 ++ from_))
    else
      let c := c.ptpSend n true (p.message n 3 2 (-(subNs rx)) seq 0x7F (stampTen rx ++ from_))
      let t3 := c.txPs n
      c.ptpSend n false (p.message n 0xA 0 (signed 64 (beNat (sliceB m 8 8)) + subNs t3) seq 0x7F (stampTen t3 ++ from_))
  else if ty = 3 then
    match p.lastDelay with
    | some (s, t1) =>
      if m.length ≥ 54 && s = seq && forMe then
        if two then c.setPtp n { p with pdResp := some (seq, t1, bodyPs m, rx, corr + p.asym) }
        else c.setPtp n { p with lastDelay := none, pathDelay := (rx - t1 - (corr + p.asym)) / 2 }
      else c
    | none => c
  else if ty = 0xA then
    match p.pdResp with
    | some (s, t1, t2, t4, k) =>
      if m.length ≥ 54 && s = seq && forMe then
        c.setPtp n { p with lastDelay := none, pdResp := none, pathDelay := ((t4 - t1) - (bodyPs m - t2) - k - corr) / 2 }
      else c
    | none => c
  else c

/-- PTP_MESSAGE_RX (R266): the engine takes the oldest message that the port has received. -/
def execPtpMessageRx (port : Fin 4) (s : State) : Host.Outcome State Fault Refusal :=
  onChip s fun c =>
    match c.eth.ptpIn.find? fun m => m.port == port.val with
    | none => c
    | some m =>
      (c.setEth fun e => { e with ptpIn := e.ptpIn.erase m }).ptpMessage m.port (c.rxPs m.port m.at') m.msg

/-- PTP_INTERVAL_TIMER (R267): a Sync or Announce interval of a master port, or a delay interval, has passed. -/
def execPtpIntervalTimer (port : Fin 4) (kind : PtpInterval) (s : State) : Host.Outcome State Fault Refusal :=
  onChip s fun c =>
    let n := port.val
    let p := c.ptp n
    let now := c.txPs n
    let one := bitOf p.pflags 0
    if p.mode = 0 || !(c.ethPort n).up then c
    else match kind with
      | .sync =>
        if !c.ptpMaster n then c
        else
          let c := c.setPtp n { p with seqSync := (p.seqSync + 1) % 65536 }
          if one then c.ptpSend n true (p.message n 0 0 (subNs now) p.seqSync p.logSync (stampTen now))
          else
            let c := c.ptpSend n true (p.message n 0 2 0 p.seqSync p.logSync (zeros 10))
            c.ptpSend n false (p.message n 8 0 (subNs now) p.seqSync p.logSync (stampTen now))
      | .announce =>
        if !c.ptpMaster n then c
        else
          let b := c.announceBody
          let c := c.setPtp n { p with seqAnnounce := (p.seqAnnounce + 1) % 65536 }
          c.ptpSend n false (p.message n 0xB 0 0 p.seqAnnounce p.logAnnounce b.1 b.2)
      | .delay =>
        let go := p.mode != 1 || (!c.ptpMaster n && p.parent.isSome)
        if !go then c
        else
          let c := c.setPtp n { p with seqDelay := (p.seqDelay + 1) % 65536, lastDelay := some (p.seqDelay, now), pdResp := none }
          c.ptpSend n true (p.message n (if p.mode = 1 then 1 else 2) 0 ((-p.asym * 65536) / 1000) p.seqDelay
            (if p.mode = 1 then 0x7F else p.logDelay) (if p.mode = 1 then zeros 10 else zeros 20))

/-- PTP_ANNOUNCE_TIMEOUT (R256): ANNOUNCE_TIMEOUT intervals without an Announce. -/
def execPtpAnnounceTimeout (port : Fin 4) (s : State) : Host.Outcome State Fault Refusal :=
  onChip s fun c =>
    let n := port.val
    let p := c.ptp n
    if p.parent.isNone then c
    else (c.setPtp n { p with parent := none, lastSync := none, syncDelay := none }).sourceLost (0x20 + n)

end Sys2Proof.Machine
end

