-- ==== Sys2Proof/Machine/Framing.lean ====
section
/-!
DEFINITION. Chapter 05: codewords, markers, tooth picking, replay, width changes and the framing commands.
-/
namespace Sys2Proof.Machine

/-! ### Codewords received -/

/-- An uncorrectable data codeword is NAKed (R139, R143). -/
def Chip.codewordBad (c : Chip) (n : Nat) : Chip :=
  let c := (c.countFrm n 0 1).countFrm n 3 1
  let f := c.frmOf n
  let c := c.setFrm n { f with naks := f.naks ++ [{ cwsn := f.rxCwsn, at' := c.clk.powerPs }], badRun := f.badRun + 1,
                               rxCwsn := (f.rxCwsn + 1) % 2 ^ 24 }
  let x := c.sealOf n
  match x.rx with
  | none => c
  | some t => c.setSeal n { x with rx := some { t with bad := true, aad := t.aad ++ zeros 40, data := t.data ++ zeros 280 } }

/-- Count the corrected symbols of a codeword: in the framing counters and against each lane that carried one (R123). -/
def Chip.countCorrected (c : Chip) (n : Nat) (pos : List Nat) : Chip :=
  if pos.isEmpty then c
  else
    let c := (c.countFrm n 1 1).countFrm n 2 pos.length
    let ls := lanesOf (c.laneOf n).activeRx
    pos.foldl (fun c k =>
      let l := c.laneOf n
      let i := nth 0 ls (k % Nat.max 1 ls.length)
      let x := l.laneCnt.get {} i
      c.setLane n { l with laneCnt := l.laneCnt.set i { x with corrected := sat64 x.corrected 1 } }) c

/-- The five cells of a codeword's bytes, deciphered in a sealed turn (R127, R470). -/
def Chip.openCodeword (c : Chip) (n : Nat) (d : Bytes) : Chip × List Cell :=
  let cells := (List.range 5).map fun i => cellOfBytes (sliceB d (64 * i) 64)
  let x := c.sealOf n
  match x.rx with
  | none => (c, cells)
  | some t =>
    let heads := ((List.range 5).map fun i => sliceB d (64 * i) 8).flatten
    let ct := ((List.range 5).map fun i => sliceB d (64 * i + 8) 56).flatten
    let pt := t.crypt (!x.initiator) ct
    (c.setSeal n { x with rx := some { t with aad := t.aad ++ heads, data := t.data ++ ct } },
     cells.zipIdx.map fun e => { e.1 with payload := sliceB pt (56 * e.2) 56 })

/-- CODEWORD_RX (R123, R129, R134, R139, R140). While lock is sought a codeword is corrected and counted, and its cells go nowhere. -/
def Chip.codewordRx (c : Chip) (n : Nat) (rx : List (List Nat)) : Chip :=
  if !c.inData n then
    if (c.frmOf n).seeking then
      let q := c.lineRx n rx
      let c := q.2.setFrm n { q.2.frmOf n with rxGap := (q.2.frmOf n).rxGap + 1 }
      match rsTrunk.decode q.1 with
      | none => (c.countFrm n 0 1).countFrm n 3 1
      | some (_, pos) => (c.countFrm n 0 1).countCorrected n pos
    else c
  else
    let q := c.lineRx n rx
    let c := q.2
    match rsTrunk.decode q.1 with
    | none => c.codewordBad n
    | some (w, pos) =>
      let c := (c.countFrm n 0 1).countCorrected n pos
      let o := c.openCodeword n (symbolBytes (w.take 256))
      let f := o.1.frmOf n
      let cwsn := f.rxCwsn
      let c := o.1.setFrm n { f with badRun := 0, rxCwsn := (cwsn + 1) % 2 ^ 24 }
      o.2.foldl (fun c x => if c.inData n then c.cellRx n cwsn x else c) c

def execCodewordRx (n : Fin 4) (rx : List (List Nat)) (s : State) : Host.Outcome State Fault Refusal :=
  onChip s fun c => c.codewordRx n.val rx

/-! ### Markers received -/

/-- A lost marker (R130, R131): the position moves on, and a sealed turn is unverifiable. -/
def Chip.markerLost (c : Chip) (n lifecycle : Nat) : Chip :=
  let f := c.frmOf n
  if f.seeking && !c.inData n then (c.setFrm n { f with good := 0, lastRx := none, rxGap := 0 }).countFrm n 4 1
  else if !c.inData n then c
  else
    let c := c.countFrm n 4 1
    let f := c.frmOf n
    let next := f.lastRx.map fun p => c.nextRx n p
    let c := c.setFrm n { f with lostRun := f.lostRun + 1, lastRx := next }
    let x := c.sealOf n
    match x.rx, next with
    | some t, some (turn, 0) =>
      let c := c.sealOutcome n lifecycle t none
      let x := c.sealOf n
      if c.inData n then c.setSeal n { x with rx := some { turn, epoch := t.epoch, key := t.key, bad := true } } else c
    | some _, _ => c.sealBad n
    | none, _ => c

/-- The width fields of a good marker (R144, R146, R518). -/
def Chip.widthRx (c : Chip) (n : Nat) (d : Bytes) : Chip :=
  if (c.laneOf n).revision != 2 then c
  else
    let kind := fld d 112 1
    let w := fld d 113 1
    let rxset := fld d 114 1 % 16
    let raw := (fldBe d 116 4, fld d 115 1 % 16)
    let tgt := c.mapOwn n kind raw
    let f := c.frmOf n
    let mineUp : Bool := match f.wcMine with | some x => x.kind = 2 | none => false
    let peer : WidthReq := { kind, width := w, rxset, turn := tgt.1, spoke := tgt.2, raw, seen := c.turn % 2 ^ 32 }
    if kind = 1 then
      let c := if mineUp then c.upgradeAbandon n else c
      let f := c.frmOf n
      c.setFrm n { f with wcPeer := some peer }
    else if kind = 2 then
      let own := c.laneOf n
      match f.wcMine with
      | some x =>
        if x.kind = 2 && x.width = w && f.wcPeer.isNone then c.setFrm n { f with wcPeer := some peer } else c
      | none =>
        if !c.quieting && !f.degrading && !c.nearShift tgt.1 && w > own.width then
          match usable own.goodSet w, usable rxset w with
          | some rx, some _ =>
            c.setFrm n { f with wcMine := some { kind, width := w, rxset := rx, turn := tgt.1, reason := 0x042D }, wcPeer := some peer, wcSent := true,
                                wcTxDone := false, wcRxDone := false }
          | _, _ => c
        else c
    else match f.wcPeer with
      | some p =>
        if p.kind = 2 && !f.wcTxDone && !f.wcRxDone then
          if mineUp then c.upgradeAbandon n else c.setFrm n { f with wcPeer := none }
        else c
      | none => c

/-- NAK, ACK and RESOLVED fields of a good marker (R136, R137, R140). -/
def Chip.replayRx (c : Chip) (n : Nat) (d : Bytes) : Chip :=
  let f := c.frmOf n
  let ack := fldBe d 56 4 % 2 ^ 24
  let res := fldBe d 60 4 % 2 ^ 24
  let f := (f.dropCopies fun k => seqBefore 24 k.cwsn ack)
  let f := { f with ackRx := ack, peerResolved := res }
  let es := (List.range 4).map fun i => (fldBe d (64 + 6 * i) 3, fldBe d (67 + 6 * i) 2)
  let es := es.filter fun e => e.2 != 0
  let f := es.foldl (fun (f : Framing) e => f.nakRx e.1 e.2 c.clk.powerPs) f
  let waited := !f.naks.isEmpty
  let f := { f with naks := f.naks.filter fun k => !seqBefore 24 k.cwsn res }
  let c := (c.setFrm n f).countFrm n 15 es.length
  if waited && (c.frmOf n).naks.isEmpty then c.releaseHeld n fun _ => true else c

/-- The time sample of a marker (R263): `ttx` is the peer's stamp in ps, `trx` the own one. -/
def Chip.stampRx (c : Chip) (n ttx trx st sc ns : Nat) : Chip :=
  let used := st % 8 != 0 && ns ≤ 999999999 && (match c.time.data.find (0x10 + n) with | some k => k.stepCount == sc | none => false)
  let c := if used then c.cfgApply else c
  let flight : Int := ((c.laneOf n).flight : Int)
  let off : Int := (trx : Int) - (ttx : Int) - (flight + (c.cableAsym n + nth 0 c.time.cfg.asymAdj n).tdiv 2)
  let f := c.frmOf n
  let c := c.setFrm n { f with peerOffset := off, peerStamp := (st, sc) }
  if ns > 999999999 then c.setTime fun t => { t with badStamps := sat32 t.badStamps 1 }
  else if used then c.timeSample (0x10 + n) off else c

/-- A good marker in DATA: every field is used; queues that wait for credit may wake (R235). -/
def Chip.markerUse (c : Chip) (n lifecycle turn spoke trx : Nat) (d : Bytes) : Chip :=
  let ns := fldBe d 22 4
  let ttx := fldBe d 16 6 * 10 ^ 12 + ns * 1000 + fldBe d 26 4 * 1000 / 2 ^ 32
  let f := c.frmOf n
  let f := { f with rxCwsn := fldBe d 52 4 % 2 ^ 24, rxSpoke := spoke, peerGear := fld d 32 1, peerGearHash := fldBe d 36 4,
                    peerShift := fld d 33 1, peerShiftHash := fldBe d 40 4, peerShiftTurn := fldBe d 44 6, peerRxset := fld d 108 1 % 16,
                    peerMflags := fldBe d 208 2, rxTurn := turn, rxMark := (turn, spoke, ttx),
                    grantRx := (List.range 4).map fun g => (g, fldBe d (88 + 4 * g) 4) }
  let c := (c.setFrm n f).fwWake n
  let c := c.sealRxMarker n lifecycle turn spoke d
  if !c.inData n then c
  else
    let c := c.replayRx n d
    let c := c.stampRx n ttx trx (fld d 30 1) (fld d 31 1) ns
    let c := (c.widthRx n d).noteUsable n
    let c := c.shiftMatch n
    let c := match c.gear.shift with
      | some x =>
        if (c.frmOf n).peerShift % 4 = 3 && (c.frmOf n).peerShiftTurn = x.target then
          if seqBefore 48 c.turn ((x.target + 2 ^ 48 - 8) % 2 ^ 48) then c.shiftAbort 0x0319 n
          else c.setGear fun g => { g with lateAborts := g.lateAborts + 1 }
        else c
      | none => c
    let c := c.gearPeer n
    let c := if bitOf (c.frmOf n).peerMflags 0 then c.wakeEvent 2 else c
    c.mgmtSegment n lifecycle (sliceB d 128 64)

/-- MARKER_RX (R130, R131): the marker counts when it decodes, checks, and follows the one before it; a second one at the codeword spacing of
R126 gives marker lock. -/
def Chip.markerRx (c : Chip) (n lifecycle : Nat) (rx : List (List Nat)) (trx : Nat) : Chip :=
  if !(c.frmOf n).seeking && !c.inData n then c
  else
    let c := c.widthStep n
    let f := c.frmOf n
    let q := c.lineRx n rx
    let c := q.2.countFrm n 0 1
    match rsTrunk.decode q.1 with
    | none => c.markerLost n lifecycle
    | some (w, pos) =>
      let c := c.countCorrected n pos
      let d := symbolBytes (w.take 256)
      let spoke := fld d 9 1 % 16
      let turn := fldBe d 10 6
      let form := fldBe d 0 8 == 0x6A3C95F01E87D24B && fldBe d 316 4 == crc32c (sliceB d 0 316)
      let follows := match f.lastRx with | none => true | some p => c.nextRx n p == (turn, spoke)
      if !form || !follows then c.markerLost n lifecycle
      else
        let f := c.frmOf n
        let spaced := match f.lastRx with | some p => f.rxGap + 1 = spokeCw (c.geom n) p.2 | none => false
        let good := if c.inData n || spaced then f.good + 1 else 1
        let adj := match f.lastRx with | some p => decide (p.2 = 15) && (p.1 + 1) % 2 ^ 48 != turn | none => false
        let c := if adj then c.setTime fun t => { t with notices := t.notices.erase n } else c
        let f := c.frmOf n
        let c := c.setFrm n { f with good, lostRun := 0, lastRx := some (turn, spoke), rxTurn := turn, rxGap := 0 }
        let c := if f.seeking && good ≥ 2 then c.linkUp n else c
        if c.inData n then c.markerUse n lifecycle turn spoke trx d else c

def execMarkerRx (n : Fin 4) (rx : List (List Nat)) (arrivedPs : Nat) (s : State) : Host.Outcome State Fault Refusal :=
  onChip s fun c => (c.markerRx n.val s.fuses.lifecycle rx arrivedPs).settlePairwise

/-- MARKER_LOCK_LOST (R131): after four consecutive lost markers. -/
def execMarkerLockLost (n : Fin 4) (s : State) : Host.Outcome State Fault Refusal :=
  onChip s fun c =>
    if c.inData n.val && (c.frmOf n.val).lostRun ≥ 4 then ((c.countFrm n.val 5 1).alignLosses n.val).linkDown n.val 0x0421 else c

/-! ### Markers sent -/

/-- Stored cells that hold a credit of a trunk's group (R242). -/
def Chip.creditsHeld (c : Chip) (n g : Nat) : Nat :=
  let k := fun (l : List QCell) => (l.filter fun x => x.credit == some (n, g)).length
  c.fab.q.foldl (fun a e => a + k e.2) 0 + c.fab.backlog.foldl (fun a e => a + k e.2) 0

/-- CREDIT_GRANT (R242, R244): raise each group's count as far as its limit and the shared pool allow. -/
def Chip.grantCredits (c : Chip) (n : Nat) : Chip :=
  (List.range 4).foldl (fun c g =>
    let f := c.frmOf n
    let out := f.unused g + c.creditsHeld n g
    let room := c.sEff - (c.kept + c.poolUsed .shared)
    let more := Nat.min (nth 0 (c.port n).limits g - out) room
    c.setFrm n { f with grantTx := f.grantTx.set g ((f.grantTx.get 0 g + more) % 2 ^ 32) }) c

/-- Fix the target of an own request at the first marker that carries it (R144, R146), its commit point (R150). An upgrade that TRUNK_WIDTH
asks for is carried once it may be proposed (DEDUCED, log entry 35); on leaving QUIET at once (R147). -/
def Chip.widthTx (c : Chip) (n turn spoke : Nat) : Chip :=
  let f := c.frmOf n
  match f.wcMine with
  | none => c
  | some w =>
    if f.wcSent || (w.kind = 2 && w.reason != 0x042A && !c.upgradeReady n w.width) then c
    else
      let tgt := if w.kind = 1 then
          let k := 16 * turn + spoke + 4
          let k := k + k % 2
          (k / 16, k % 16)
        else (turn + (if spoke = 0 then 8 else 9), 0)
      let w := { w with turn := tgt.1 % 2 ^ 32, spoke := tgt.2 }
      let c := c.setFrm n { f with wcMine := some w, wcSent := true }
      let c := if w.handle = 0 then c else c.commitPoint w.handle
      if w.kind = 2 && (c.nearShift w.turn || c.stepBars w.turn) then c.upgradeAbandon n else c

/-- GEAR_STATE (Table 05.4). -/
def Chip.gearStateByte (c : Chip) (n : Nat) : Nat :=
  match c.gear.active with
  | none => 4
  | some i =>
    let limp := match c.activeGear with
      | none => false
      | some g => c.geom n != g.full && (g.sec? n (c.geom n)).isSome
    i + 8 * b2n limp

/-- SHIFT_STATE, SHIFT_HASH and SHIFT_TURN of a marker (R187 to R190). -/
def Chip.shiftFields (c : Chip) (n : Nat) : Nat × Nat × Nat :=
  match c.gear.shift with
  | some x => ((if bitOf x.matched n then 2 else 1) + 4 * (x.slot % 4), c.shiftHash, x.target)
  | none => match c.gear.aborting with
    | some (slot, t, h) => (3 + 4 * (slot % 4), h, t)
    | none => (0, 0, 0)

/-- The 316 bytes before MCHECK of a marker. -/
def Chip.markerBytes (c : Chip) (n turn spoke : Nat) (seg : Bytes) : Bytes :=
  let f := c.frmOf n
  let l := c.laneOf n
  let two := decide (l.revision = 2)
  let sh := c.shiftFields n
  let naks := (f.naks.filter fun k => decide (k.at' + 1000000 ≤ c.clk.powerPs)).map fun k => k.cwsn
  let es := nakFour (nakEntries naks)
  let nak := ((List.range 4).map fun i => let e := nth (0, 0) es i; be 3 e.1 ++ be 2 (Nat.min e.2 65535) ++ zeros 1).flatten
  let cred := ((List.range 4).map fun g => be 4 (f.grantTx.get 0 g)).flatten
  let health := ((List.range 4).map fun i => BitVec.ofNat 8 (l.rx.get {} (l.phys i)).fom) ++ le 1 l.goodSet ++ le 1 l.activeRx ++ zeros 2
  let wc := match f.wcMine with
    | some w => if two && f.wcSent && !f.wcTxDone then le 1 w.kind ++ le 1 w.width ++ le 1 w.rxset ++ le 1 w.spoke ++ be 4 w.turn else zeros 8
    | none => zeros 8
  let prot := if two then (c.sealOf n).protect spoke else zeros 8
  let tag := if two && spoke = 0 then (c.sealOf n).txTag.getD (zeros 16) else zeros 16
  let exit := match c.dev.trans with | some t => c.dev.mode == .quiet && t.target.isRole | none => false
  be 8 0x6A3C95F01E87D24B ++ le 1 f.mver ++ le 1 spoke ++ be 6 turn ++ c.stampBe ++ le 1 (c.gearStateByte n) ++ le 1 sh.1 ++ zeros 2 ++
    be 4 (match c.activeGear with | some g => g.hashLow | none => 0) ++ be 4 sh.2.1 ++ be 6 sh.2.2 ++ zeros 2 ++
    be 4 f.txCwsn ++ be 4 f.ackSent ++ be 4 f.resolved ++ nak ++ cred ++ health ++ wc ++ prot ++ sliceB seg 0 64 ++ tag ++
    be 2 (b2n exit + 2 * b2n (c.dev.mode == .quiet)) ++ zeros 106

/-- MARKER_TX (R126): the marker of the next spoke goes out. -/
def Chip.markerTx (c : Chip) (n : Nat) : Chip :=
  if !(c.inData n || (c.frmOf n).seeking) then c
  else
    let pos := c.nextTx n
    let turn := pos.1
    let spoke := pos.2
    let c := c.widthStep n
    let data := c.inData n
    let c := if data then (c.grantCredits n).widthTx n turn spoke else c
    let c := match c.gear.aborting with
      | some (_, t, _) => if seqBefore 48 t c.turn then c.setGear fun g => { g with aborting := none } else c
      | none => c
    let f := c.frmOf n
    let f := f.resolveRanges f.ranges
    let c := c.setFrm n { f with ackSent := (f.naks.head?.map fun k => k.cwsn).getD f.rxCwsn }
    let c := if data && spoke = 0 then c.sealTxTurn n turn else c
    let m := if data then c.mgmtNext n else (c, ({} : MgmtSeg).bytes 0)
    let c := m.1
    let c := match c.time.pending with
      | some s => if data then c.sendTime n (c.noticePayload s) else c
      | none => c
    let b := c.markerBytes n turn spoke m.2
    let d := b ++ be 4 (crc32c b)
    let x := c.sealOf n
    let c := match x.tx with
      | some t => c.setSeal n { x with tx := some { t with aad := t.aad ++ sliceB d 0 192 ++ sliceB d 208 108 } }
      | none => c
    let g := c.geom n
    let f := c.frmOf n
    let c := c.setFrm n { f with txPos := some pos, sentRxset := (c.laneOf n).goodSet, txCw := spoke * geomCw g / 16 - spoke }
    (c.countFrm n 12 1).sendCodeword n d

def execMarkerTx (n : Fin 4) (s : State) : Host.Outcome State Fault Refusal :=
  onChip s fun c => c.markerTx n.val

/-! ### Teeth (R152 to R154) -/

/-- The head cell of a contracted tunnel's queue may take its tooth (R152, R224). -/
def Chip.headReady (c : Chip) (n tid : Nat) : Bool :=
  c.contracted tid && (match c.queue n tid with
    | x :: r => !x.sf || (x :: r).any fun y => y.cell.l
    | [] => false)

/-- A departed V cell leaves a replay copy (R136); a closing tunnel may have drained. -/
def Chip.afterSend (c : Chip) (n slot : Nat) (x : QCell) : Chip :=
  let tid := x.cell.tid
  let f := c.frmOf n
  let c := if c.contracted tid && (c.tunOf tid).cls = 1 && x.cell.ctype != 6 then
      c.setFrm n { f with copies := f.copies ++ [{ cwsn := f.txCwsn, slot, cell := x.cell, pool := x.pool, at' := c.clk.powerPs }] }
    else c
  if tid < 2 then c else c.drainCheck tid

/-- The head of the replay queue whose first replay tooth may begin by `at0` (R137). -/
def Framing.replayHead (f : Framing) (at0 : Nat) : Option CopyRec :=
  match f.replayQ with
  | [] => none
  | k :: _ =>
    if f.ranges.any fun r => r.has k.1 && decide (r.at' + 1000000 ≤ at0) then f.copies.find? fun x => (x.cwsn, x.slot) == k else none

/-- The replay queue of a direction whose descriptor is uncorrectable loses its copies (R217). -/
def Chip.replayLost (c : Chip) (n tid : Nat) (r : LineRead) : Chip :=
  let f := c.frmOf n
  let gone := f.copies.filter fun k => f.replayQ.contains (k.cwsn, k.slot)
  let c := gone.foldl (fun c k => c.dropCell n k.cell) (c.setFrm n (f.dropCopies fun k => gone.contains k))
  c.listLost (16384 + n) gone.length tid r

/-- The cell that fills one tooth (Table 06.2). A replay copy is a line of the stockpot, read as any other (R216, R217). -/
def Chip.fillTooth (c : Chip) (n slot kind tid at0 : Nat) (r : LineRead) : Chip × Option Cell :=
  let own : Chip × Option Cell :=
    if kind = 1 && c.headReady n tid then
      let d := c.depart n tid r false
      match d.2 with
      | some x => ((d.1.countPort n 0 1).afterSend n slot x, some x.cell)
      | none => (d.1, none)
    else if kind = 2 then
      match (c.frmOf n).replayHead at0 with
      | some k =>
        if r.descBad then (c.replayLost n k.cell.tid r, none)
        else
          let f := c.frmOf n
          let c := c.setFrm n { f with replayQ := f.replayQ.drop 1 }
          let d := c.readLine r k.cell
          ((d.1.countFrm n 13 1).countPort n 3 1, some d.2)
      | none => (c, none)
    else (c, none)
  match own.2 with
  | some x => (own.1, some x)
  | none =>
    let d := own.1.fwDecide n r
    match d.2 with
    | some x => ((d.1.countPort n (if kind = 1 then 1 else if kind = 2 then 4 else 2) 1).afterSend n slot x, some x.cell)
    | none => (d.1.countPort n 5 1, none)

/-- Fill the five teeth of a codeword whose data codeword is `d` of its turn. -/
def Chip.fillTeeth (c : Chip) (n d : Nat) (reads : List LineRead) : List Nat → Chip × List (Option Cell)
  | [] => (c, [])
  | i :: rest =>
    let g := c.geom n
    let extra := decide (d ≥ geomCw g - 16)
    let kt := match c.activeGear with
      | none => (0, 0)
      | some img => if extra then (0, 0) else match img.sec? n g with | none => (0, 0) | some s => s.toothAt (5 * d + i)
    let at0 := c.clk.powerPs + 48000 + i * geomCwPs g / 5
    let a := c.fillTooth n i kt.1 kt.2 at0 (nth {} reads i)
    let b := a.1.fillTeeth n d reads rest
    (b.1, a.2 :: b.2)

/-- The 64 bytes of each tooth, and where the transmitter's PRBS31 fill then stands: an IDLE tooth has a zero header and the running fill as
its payload (Table 05.3). -/
def toothBytes : List (Option Cell) → Nat → List Bytes × Nat
  | [], x => ([], x)
  | some k :: r, x => let t := toothBytes r x; (k.bytes :: t.1, t.2)
  | none :: r, x =>
    let f := prbs31 448 x
    let t := toothBytes r f.2
    ((zeros 8 ++ (pieces 8 56 f.1).map fun b => BitVec.ofNat 8 (bitsNat b)) :: t.1, t.2)

/-- Where a trunk's PRBS31 fill stands: it starts at a free phase (the spec gives none). -/
def Chip.fillAt (c : Chip) (n : Nat) : Nat := if (c.frmOf n).fill = 0 then prbsSeed c.freshNat else (c.frmOf n).fill

/-- TOOTH_PICK (R20, R153, R163): the five teeth of the next data codeword are filled, and the codeword is sent. -/
def Chip.toothPick (c : Chip) (n : Nat) (reads : List LineRead) : Chip :=
  if (c.frmOf n).txPos.isNone || !(c.inData n || (c.frmOf n).seeking) then c
  else
    let data := c.inData n
    let unsealed := c.tids fun _ t => t.state.live && t.outPort == n && !c.sealedOk n t.oflags
    let c := if data then unsealed.foldl (fun c i => c.dropQueue n i) c else c
    let fill := c.fillAt n
    let c := if (c.frmOf n).fill = 0 then c.nextFresh else c
    let d := (c.frmOf n).txCw
    let r : Chip × List (Option Cell) := if data then c.fillTeeth n d reads (List.range 5) else (c, List.replicate 5 none)
    let c := r.1
    let b := toothBytes r.2 fill
    let teeth := b.1
    let c := c.setFrm n { c.frmOf n with fill := b.2 }
    let heads := (teeth.map fun b => b.take 8).flatten
    let pay := (teeth.map fun b => b.drop 8).flatten
    let x := c.sealOf n
    let (c, bytes) : Chip × Bytes := match x.tx with
      | some t =>
        let ct := t.crypt x.initiator pay
        (c.setSeal n { x with tx := some { t with aad := t.aad ++ heads, data := t.data ++ pay } },
         ((List.range 5).map fun i => sliceB heads (8 * i) 8 ++ sliceB ct (56 * i) 56).flatten)
      | none => (c, teeth.flatten)
    let f := c.frmOf n
    let c := c.setFrm n { f with txCw := d + 1, txCwsn := if data then (f.txCwsn + 1) % 2 ^ 24 else f.txCwsn }
    (c.countFrm n 12 1).sendCodeword n bytes

def execToothPick (n : Fin 4) (reads : List LineRead) (s : State) : Host.Outcome State Fault Refusal :=
  onChip s fun c => c.toothPick n.val reads

/-! ### Replay's timers -/

/-- REPLAY_COPY_EXPIRY (R136): six spokes after its tooth a copy is released. -/
def execReplayCopyExpiry (n : Fin 4) (cwsn slot : Nat) (s : State) : Host.Outcome State Fault Refusal :=
  onChip s fun c => c.setFrm n.val ((c.frmOf n.val).dropCopies fun k => k.cwsn == cwsn && k.slot == slot)

/-- REPLAY_WINDOW_END (R138): the oldest open range ends; its unsent cells are abandoned. -/
def Chip.windowEnd (c : Chip) (n : Nat) : Chip :=
  let f := c.frmOf n
  match f.ranges.find? fun r => !r.ended with
  | none => c
  | some r =>
    let left := f.copies.filter fun k => r.has k.cwsn && f.replayQ.contains (k.cwsn, k.slot)
    let f := f.dropCopies fun k => left.contains k
    let c := c.setFrm n { f with ranges := f.ranges.map fun x => if x == r then { x with ended := true } else x }
    if left.isEmpty then c
    else
      let c := left.foldl (fun c k => c.dropCell n k.cell) c
      let c := c.countFrm n 14 left.length
      let c := c.post 0x0411 0x0425 (n + left.length * 2 ^ 32)
      let tids := left.foldl (fun l k => if l.contains k.cell.tid then l else l ++ [k.cell.tid]) ([] : List Nat)
      tids.foldl (fun c i => c.suspend i 0x0425 n) c

def execReplayWindowEnd (n : Fin 4) (s : State) : Host.Outcome State Fault Refusal :=
  onChip s fun c => c.windowEnd n.val

/-- The gaps that releasing cells of a tunnel leaves: true when its first cell is not the expected one or the run is broken. -/
def gapIn (e : Nat) : List HeldCell → Bool
  | [] => false
  | h :: r => h.cell.seq != e || gapIn ((h.cell.seq + 1) % 65536) r

/-- HOLD_TIMEOUT (R141): the oldest NAK is given up. -/
def Chip.holdTimeout (c : Chip) (n : Nat) : Chip :=
  let f := c.frmOf n
  match f.naks with
  | [] => c
  | _ :: rest =>
    let c := (c.setFrm n { f with naks := rest }).countFrm n 11 1
    let p : HeldCell → Bool := match rest with
      | [] => fun _ => true
      | k :: _ => fun h => seqBefore 24 h.cwsn k.cwsn
    let out := f.held.filter p
    let tids := out.foldl (fun l h => if l.contains h.cell.tid then l else l ++ [h.cell.tid]) ([] : List Nat)
    let gaps := tids.filter fun i =>
      let e := f.expSeq.get 0 i
      gapIn e ((out.filter fun h => h.cell.tid == i).foldr (insertHeld e) [])
    let k := (out.filter fun h => gaps.contains h.cell.tid).length
    let c := c.releaseHeld n p
    let c := c.post 0x0412 0x0426 (n + k * 2 ^ 32)
    gaps.foldl (fun c i => c.suspend i 0x0426 n) c

def execHoldTimeout (n : Fin 4) (s : State) : Host.Outcome State Fault Refusal :=
  onChip s fun c => c.holdTimeout n.val

/-- MGMT_RESEND (R132): MACK has not advanced for three spokes. -/
def execMgmtResend (n : Fin 4) (s : State) : Host.Outcome State Fault Refusal :=
  onChip s fun c =>
    let f := c.frmOf n.val
    if f.mgmtOut.isEmpty then c else c.setFrm n.val { f with mgmtResend := some 0, mgmtStall := 0 }

/-! ### Width changes -/

/-- DEGRADE_TRIGGER (R143): a fast FoM reading begins. -/
def execDegradeTrigger (n : Fin 4) (s : State) : Host.Outcome State Fault Refusal :=
  onChip s fun c =>
    let f := c.frmOf n.val
    if c.inData n.val && (f.badRun ≥ f.degradeRun || f.laneFailing) then c.setFrm n.val { f with fastFom := true, laneFailing := false } else c

/-- FAST_FOM_DONE (R143, R148): the reading of every active lane has come, by physical lane. -/
def Chip.fastFomDone (c : Chip) (n : Nat) (foms : List Nat) : Chip :=
  let f := c.frmOf n
  if !c.inData n || !f.fastFom then c
  else
    let l := c.laneOf n
    let active := (lanesOf l.activeRx).map l.phys
    let rx := l.rx.mapAll fun i x => if active.contains i then
        let v := nth 0 foms i
        { x with fom := v, fomLow := Nat.min x.fomLow v } else x
    let c := (c.setFrm n { f with fastFom := false, badRun := 0 }).setLane n { l with rx }
    let failing := active.any fun i => decide (nth 0 foms i < l.cfg.fomDegrade)
    if !failing then c
    else if l.revision = 1 then c.linkDown n 0x0422
    else match c.degradeTo n with
      | none => c.linkDown n 0x0423
      | some (w, set) =>
        let pend : Bool := match (c.frmOf n).wcMine with | some x => x.kind = 1 | none => false
        if pend then c else c.requestWidth n 1 w set 0x042C

def execFastFomDone (n : Fin 4) (foms : List Nat) (s : State) : Host.Outcome State Fault Refusal :=
  onChip s fun c => c.fastFomDone n.val foms

/-- WIDTH_CHANGE_TARGET (R144, R146, R518): at its target boundary each direction switches, and an upgrade that is not agreed in time is
withdrawn. -/
def execWidthChangeTarget (n : Fin 4) (s : State) : Host.Outcome State Fault Refusal :=
  onChip s fun c => c.widthStep n.val

/-- UPGRADE_PROPOSE (R146): UPGRADE_HOLD seconds of a usable wider set have passed. -/
def execUpgradePropose (n : Fin 4) (s : State) : Host.Outcome State Fault Refusal :=
  onChip s fun c =>
    let f := c.frmOf n.val
    if c.inData n.val && (c.laneOf n.val).revision = 2 && f.upgradeAuto && !c.quieting && f.wcMine.isNone && f.wcPeer.isNone
    then
      match c.upgradeTo n.val with
      | some (w, rx) => c.requestWidth n.val 2 w rx 0x042E
      | none => c
    else c

/-! ### Framing commands -/

/-- FSTATE (Table 05.10). -/
def Chip.fstate (c : Chip) (n : Nat) : Nat :=
  let f := c.frmOf n
  if !c.inData n then 0 else if f.degrading then 2 else if f.wcMine.isSome || f.wcPeer.isSome then 3 else 1

/-- GET_FRAMING_STATUS (Table 05.10). -/
def execGetFramingStatus (p : Packet) (s : State) : Host.Outcome State Fault Refusal :=
  runCommand 0x0410 p s fun x c =>
    let n := fld x.ps 0 1
    if n > 3 || !rsvd x.ps 1 3 then no c stParam
    else
      let f := c.frmOf n
      (ok (le 1 n ++ le 1 (c.fstate n) ++ le 1 f.mver ++ le 1 (c.laneOf n).width ++ le 2 f.peerFeatures ++ le 1 f.peerRole ++
        le 1 (b2n (!f.replayQ.isEmpty) + 2 * b2n (!f.naks.isEmpty)) ++ le 6 f.rxTurn ++ zeros 2 ++
        le 4 f.txCwsn ++ le 4 f.ackSent ++ le 4 f.peerGearHash ++ le 2 f.naks.length ++ le 2 f.replayQ.length ++ le 2 f.held.length ++
        le 2 f.mgmtOut.length ++ le 6 f.widthTurn ++ le 2 f.widthReason ++ zeros 20), c)

/-- GET_FRAMING_COUNTERS (R121). -/
def execGetFramingCounters (p : Packet) (s : State) : Host.Outcome State Fault Refusal :=
  runCommand 0x0411 p s fun x c =>
    let n := fld x.ps 0 1
    let ctl := fld x.ps 1 1
    if n > 3 || ctl > 1 || !rsvd x.ps 2 2 then no c stParam
    else if ctl = 1 && x.lvl != 1 then no c stDenied 0x0002
    else
      let f := c.frmOf n
      let d := ((List.range 24).map fun i => le 8 (f.cnt.get 0 i)).flatten
      (ok d, if ctl = 1 then c.setFrm n { f with cnt := [] } else c)

/-- TRUNK_WIDTH (R150). -/
def execTrunkWidth (p : Packet) (s : State) : Host.Outcome State Fault Refusal :=
  runCommand 0x0412 p s fun x c =>
    let n := fld x.ps 0 1
    let w := fld x.ps 1 1
    let l := c.laneOf n
    let f := c.frmOf n
    if n > 3 || !(w = 1 || w = 2 || w = 4) || !rsvd x.ps 2 2 then no c stParam
    else if !c.inData n then no c stState 0x0428
    else if l.revision != 2 then no c stState 0x0427
    else if w = l.width then (ok, c)
    else match usable l.goodSet w, usable f.peerRxset w with
      | some rx, some _ =>
        if !l.widths.contains w then no c stNoResource 0x0429
        else if c.limpMissingAt n w then no c stNoResource 0x0101
        else match f.wcMine, c.gear.shift with
          | some y, _ => (busyWith y.handle, c)
          | none, some y => (busyWith y.handle, c)
          | none, none =>
            if f.wcPeer.isSome then (busyWith 0, c)
            else (accepted, c.requestWidth n (if w < l.width then 1 else 2) w rx 0x042B x.handle)
      | _, _ => no c stNoResource 0x0429

/-- SET_FRAMING_CTRL (Table 05.9). -/
def execSetFramingCtrl (p : Packet) (s : State) : Host.Outcome State Fault Refusal :=
  runCommand 0x0413 p s fun x c =>
    let n := fld x.ps 0 1
    let fl := fld x.ps 1 1
    let run := fld x.ps 2 1
    let hold := fld x.ps 3 1
    if n > 3 || fl > 3 || run < 2 || run > 64 || hold < 1 || hold > 60 || !rsvd x.ps 4 4 then no c stParam
    else
      let auto := bitOf fl 0
      let c := c.setFrm n { c.frmOf n with upgradeAuto := auto, degradeRun := run, upgradeHold := hold }
      (ok, if bitOf fl 1 then c.storeConfig fun k => { k with framing := k.framing.set n (auto, run, hold) } else c)

end Sys2Proof.Machine
end

