-- ==== Sys2Proof/Machine/Gatekeeper.lean ====
section
/-!
DEFINITION. Chapter 20: the gatekeeper commands and the debug master.
-/
namespace Sys2Proof.Machine

/-- Highest address of a gatekeeper's space (R478). -/
def gkTop (g : Nat) : Nat :=
  if g = 0 then 0x7FFFFF
  else if g = 1 then 0xFFFFFFFFFFFFFFFF
  else if g = 2 then 0x0001000FFFFFFFFF
  else 0x0000FFFFFFFFFFFF

/-- A region is valid at gatekeeper `g` (R478). -/
def Region.valid (r : Region) (g : Nat) : Bool :=
  decide (r.base ≤ r.limit) && r.base % 4 == 0 && r.limit % 4 == 3 && decide (r.limit ≤ gkTop g)

/-- A region takes part in checks. -/
def Region.enabled (r : Region) : Bool := bitOf r.perm 0

/-- Two enabled regions share an address (R482). -/
def Region.overlaps (a b : Region) : Bool :=
  a.enabled && b.enabled && decide (a.base ≤ b.limit) && decide (b.base ≤ a.limit)

/-- The first pair of overlapping enabled regions, in ascending order of lower, then higher index (R482). -/
def firstOverlap : List (Nat × Region) → Option (Nat × Nat)
  | [] => none
  | (i, a) :: r =>
    match r.find? fun e => a.overlaps e.2 with
    | some e => some (i, e.1)
    | none => firstOverlap r

/-- The gatekeeper's subsystem is off in the role (R14, chapter 20). -/
def Chip.gkOff (c : Chip) (g : Nat) : Bool :=
  (g == 1 && !c.inRole .hub) || (g == 2 && c.inRole .relay)

/-- The bytes of a region entry (Table 20.3). -/
def Region.bytes (r : Region) : Bytes := le 8 r.base ++ le 8 r.limit ++ le 4 r.perm ++ zeros 12

/-- The bytes of a violation record (Table 20.6). -/
def Violation.bytes (v : Violation) : Bytes :=
  le 8 v.addr ++ le 4 v.size ++ le 1 v.kind ++ le 1 v.level ++ le 1 v.master ++ le 1 v.id ++ le 1 v.am ++ le 1 v.region ++
    le 1 (b2n v.valid + 2 * b2n v.part + 4 * b2n v.straddle) ++ zeros 1 ++ le 6 v.turn ++ zeros 2 ++ le 4 v.overflow

/-- Run a gatekeeper command over the rule sets. -/
def runGuard (op : Nat) (p : Packet) (s : State) (body : Ctx → Chip → Guard → Ans × Chip × Guard) :
    Host.Outcome State Fault Refusal :=
  let r := runCommandA op p s.fuses s.guard body s.chip s.guard
  .next { s with chip := r.1, guard := r.2 }

/-- Refuse a gatekeeper command. -/
def noG (c : Chip) (g : Guard) (st : Nat) (reason : Nat := 0) (result : Nat := 0) : Ans × Chip × Guard :=
  (err st reason result, c, g)

/-- GK_SET (R478, R480, R481). -/
def bodyGkSet (x : Ctx) (c : Chip) (g : Guard) : Ans × Chip × Guard :=
  let k := fld x.ps 0 1
  let i := fld x.ps 1 1
  let r : Region := { base := fld x.ps 8 8, limit := fld x.ps 16 8, perm := fld x.ps 24 4 }
  if k > 4 || i > 127 || !rsvd x.ps 2 6 || !rsvd x.ps 28 12 || r.perm ≥ 2 ^ 15 || bitOf r.perm 1 then noG c g stParam
  else if c.gkOff k then noG c g stState 0x000B
  else match (c.gk.get {} k).sync with
    | some (h, _) => noG c g stBusy 0 h
    | none =>
      if bitOf (((g.active.get {} k).regions.get {} i).perm) 2 then noG c g stState 0x0F02
      else if !r.valid k then noG c g stParam 0x0F03
      else
        let sh := g.shadow.get {} k
        (ok, c, { g with shadow := g.shadow.set k { sh with regions := sh.regions.set i r } })

def execGkSet (p : Packet) (s : State) : Host.Outcome State Fault Refusal := runGuard 0x0F01 p s bodyGkSet

/-- GK_MODE (R481). -/
def bodyGkMode (x : Ctx) (c : Chip) (g : Guard) : Ans × Chip × Guard :=
  let k := fld x.ps 0 1
  let m := fld x.ps 1 1
  let d := fld x.ps 4 4
  if k > 4 || m > 1 || !rsvd x.ps 2 2 || d ≥ 2 ^ 15 || d % 8 != 0 then noG c g stParam
  else if c.gkOff k then noG c g stState 0x000B
  else match (c.gk.get {} k).sync with
    | some (h, _) => noG c g stBusy 0 h
    | none =>
      let sh := g.shadow.get {} k
      (ok, c, { g with shadow := g.shadow.set k { sh with straddle := m, dflt := d } })

def execGkMode (p : Packet) (s : State) : Host.Outcome State Fault Refusal := runGuard 0x0F02 p s bodyGkMode

/-- GK_SYNC (R482): the shadow is checked first; without overlap the switch starts. -/
def bodyGkSync (x : Ctx) (c : Chip) : Ans × Chip :=
  let k := fld x.ps 0 1
  let fl := fld x.ps 1 1
  if k > 4 || fl > 1 || !rsvd x.ps 2 2 then no c stParam
  else if c.gkOff k then no c stState 0x000B
  else
    let l := c.gk.get {} k
    match l.sync with
    | some (h, _) => no c stBusy 0 h
    | none =>
      match firstOverlap (x.guard.shadow.get {} k).regions with
      | some (i, j) =>
        ({ accepted with done := some (stParam, 0x0F01, i + 256 * j) }, c.post 0x0F02 0x0F01 (k + 256 * i + 65536 * j))
      | none => (accepted, { c with gk := c.gk.set k { l with sync := some (x.handle, fl == 1) } })

def execGkSync (p : Packet) (s : State) : Host.Outcome State Fault Refusal := runCommand 0x0F03 p s bodyGkSync

/-- GK_SYNC_DONE (R482, R483): every access checked under the old set has finished; the gatekeeper moves to the shadow set (the
commit point) and the handle completes. A cancellation recorded before leaves the active set unchanged. -/
def gkSyncDone (k : Nat) (c : Chip) (g : Guard) : Chip × Guard :=
  let l := c.gk.get {} k
  match l.sync with
  | none => (c, g)
  | some (h, pe) =>
    let c1 := { c with gk := c.gk.set k { l with sync := none } }
    if c.cancelled h then (c1.complete h stAborted 0x0007 0, g)
    else
      let sh := g.shadow.get {} k
      match firstOverlap sh.regions with
      | some (i, j) => ((c1.post 0x0F02 0x0F01 (k + 256 * i + 65536 * j)).complete h stParam 0x0F01 (i + 256 * j), g)
      | none =>
        let c2 := { c with gk := c.gk.set k { l with sync := none, syncs := sat32 l.syncs 1 } }
        (c2.complete h stOk 0 0,
         { g with active := g.active.set k sh, stored := if pe then g.stored.set k sh else g.stored })

def execGkSyncDone (g : Fin 5) (s : State) : Host.Outcome State Fault Refusal :=
  let r := gkSyncDone g.val s.chip s.guard
  .next { s with chip := r.1, guard := r.2 }

/-- GK_GET (R481, Table 20.8). -/
def bodyGkGet (x : Ctx) (c : Chip) : Ans × Chip :=
  let k := fld x.ps 0 1
  let w := fld x.ps 1 1
  let first := fld x.ps 2 1
  let n := fld x.ps 3 1
  if k > 4 || w > 1 || first > 127 || n = 0 || first + n > 128 then no c stParam
  else if c.gkOff k then no c stState 0x000B
  else
    let set := (if w = 0 then x.guard.active else x.guard.shadow).get {} k
    let l := c.gk.get {} k
    let hdr := le 1 k ++ le 1 set.straddle ++ le 1 w ++ zeros 1 ++ le 4 set.dflt ++ le 4 l.syncs ++ le 4 l.unmapped ++ zeros 16
    (ok (hdr ++ l.first.bytes ++ ((List.range n).map fun i => (set.regions.get {} (first + i)).bytes).flatten), c)

def execGkGet (p : Packet) (s : State) : Host.Outcome State Fault Refusal := runCommand 0x0F04 p s bodyGkGet

/-- GK_CLEAR (R486): the record and OVERFLOW are returned and cleared in one step. -/
def bodyGkClear (x : Ctx) (c : Chip) : Ans × Chip :=
  let k := fld x.ps 0 1
  if k > 4 || !rsvd x.ps 1 3 then no c stParam
  else if c.gkOff k then no c stState 0x000B
  else
    let l := c.gk.get {} k
    (ok l.first.bytes, { c with gk := c.gk.set k { l with first := {} } })

def execGkClear (p : Packet) (s : State) : Host.Outcome State Fault Refusal := runCommand 0x0F05 p s bodyGkClear

/-- The stored sets are applied at boot, after the firmware's own LOCKED regions and with the check of GK_SYNC (R480, R483). The
second part lists the gatekeepers whose stored set overlaps, with the pair. -/
def Guard.boot (g : Guard) : Guard × List (Nat × Nat × Nat) :=
  let own := fun k (x : RuleSet) => if k = 4 then
      { x with regions := (Guard.initial.get {} 4).regions.foldl (fun t e => t.set e.1 e.2) x.regions } else x
  let r := (List.range 5).foldl (fun (acc : Tab RuleSet × List (Nat × Nat × Nat)) k =>
      match g.stored.find k with
      | none => acc
      | some x =>
        match firstOverlap (own k x).regions with
        | some (i, j) => (acc.1, acc.2 ++ [(k, i, j)])
        | none => (acc.1.set k (own k x), acc.2)) (Guard.initial, [])
  ({ active := r.1, shadow := r.1, stored := g.stored }, r.2)

/-- A byte of device space (Table 20.2): CTRL SRAM and the firmware slots in the flash window as they stand; other flash contents
and register blocks hold values the spec does not lay out (free values); unmapped space reads zero. -/
def Chip.deviceByte (c : Chip) (a : Nat) : Byte :=
  if a ≤ 0x00FFFFFF then memRead 0 c.sram a
  else if unmapped a then 0
  else if 0x20000000 + 1048576 ≤ a && decide (a < 0x20000000 + 30408704) then nth 0xFF c.flash.slotA (a - 0x20000000 - 1048576)
  else if 0x20000000 + 30408704 ≤ a && decide (a < 0x20000000 + 59768832) then nth 0xFF c.flash.slotB (a - 0x20000000 - 30408704)
  else BitVec.ofNat 8 (Config.freeNat (c.clk.fresh + a))

/-- A DBG access that the CTRL gatekeeper allows. -/
def Chip.debugPerform (c : Chip) (addr : Nat) (d : DebugOp) : Chip :=
  let c := if unmapped addr && d != .execute then
      let l := c.gk.get {} 4
      { c with gk := c.gk.set 4 { l with unmapped := sat32 l.unmapped 1 } } else c
  match d with
  | .read n => (c.emit (.dbgData ((List.range n).map fun i => c.deviceByte (addr + i)))).nextFresh
  | .write b =>
    if addr + b.length ≤ 0x1000000 then { c with sram := memWriteBytes 0 c.sram addr b } else c
  | .execute => c.emit (.dbgStart addr)

/-- DEBUG_ACCESS (R485, R487): decided whole by the CTRL gatekeeper at level DBG. -/
def debugAccess (addr : Nat) (d : DebugOp) (g : Guard) (f : Fuses) (c : Chip) : Chip :=
  let kind := match d with | .read _ => 0 | .write _ => 1 | .execute => 3
  let len := match d with | .read n => n | .write b => b.length | .execute => 4
  let v := (g.active.get {} 4).decide' f.lifecycle 4 kind addr len true
  let c := { c with dev := { c.dev with tapReset := false } }
  if v.all then c.debugPerform addr d
  else (c.violate 4 { addr, size := len, kind, level := 4, master := 3, id := 0, region := v.region, straddle := v.straddle }).emit .dbgError

def execDebugAccess (addr : Nat) (d : DebugOp) (s : State) : Host.Outcome State Fault Refusal :=
  onChip s (debugAccess addr d s.guard s.fuses)

/-- TAP_RESET (R516): TRST_L low for 1 µs resets the TAP. -/
def execTapReset (s : State) : Host.Outcome State Fault Refusal :=
  onChip s fun c => { c with dev := { c.dev with tapReset := true } }

end Sys2Proof.Machine
end

