-- ==== Sys2Proof/Machine/General.lean ====
section
/-!
DEFINITION. Chapter 02: the general opcodes, the management SPI target's instructions and QUEUE_OVERFLOW.
-/
namespace Sys2Proof.Machine

/-- Largest PLEN a session accepts (Table 02.14, Table 02.5, R40). -/
def maxPlen (x : Session) (ver : Nat) : Nat :=
  let m := match x with
    | .pcie _ _ => 1048576
    | .spi => 65504
    | .usb => 262112
    | .trunk _ => 16352
  if ver = 1 then Nat.min m 4096 else m

/-- Largest RLEN a session returns (Table 02.12). -/
def Chip.maxRlen (c : Chip) : Session → Nat
  | .pcie vi qp => match c.host.qps.find (64 * vi + qp) with | none => 0 | some q => 2 ^ q.rbLog2 - 16
  | .spi => 65520
  | .usb => 262128
  | .trunk _ => 16368

/-- Set a session's negotiated version (R38). -/
def Chip.setVersion (c : Chip) (x : Session) (v : Nat) : Chip :=
  { c with cmd := { c.cmd with sessions := c.cmd.sessions.set x.key { version := v } } }

/-- HELLO (R38, R39, Tables 02.14, 02.15). Handles that earlier sessions of the transport left open do not hold it: their session has ended
(R37). DESIGN CHOICE (log entry 24): Table 02.4 gives versions 1 and 2 no trunk transport, and the spec does not say what a HELLO on a trunk that offers
no version 3 answers; it negotiates 1 or 2 as elsewhere. -/
def bodyHello (x : Ctx) (c : Chip) : Ans × Chip :=
  let lo := fld x.ps 0 1
  let hi := fld x.ps 1 1
  if lo = 0 || lo > hi || !rsvd x.ps 2 2 then no c stParam
  else if lo > 3 then no c stBadVersion 0 0x00000301
  else match c.cmd.handles.find? fun h => h.sess == x.sess && !h.complete && !h.logOnly with
    | some h => no c stBusy 0 h.handle
    | none =>
      let v := Nat.min hi 3
      (ok (le 1 v ++ le 1 x.lvl ++ le 1 x.iss ++ zeros 1 ++ le 4 (maxPlen x.sess v) ++ le 4 (c.maxRlen x.sess)),
       (if x.sess == .spi then c.endSession .spi else c).setVersion x.sess v)

def execHello (p : Packet) (s : State) : Host.Outcome State Fault Refusal := runCommand 0x0001 p s bodyHello

/-- The GET_IDENTITY response (Table 02.16, R3). -/
def Chip.identity (c : Chip) (f : Fuses) : Bytes :=
  le 1 0xB4 ++ le 2 0x9416 ++ le 1 0x21 ++ le 1 c.roleCode ++ le 1 c.dev.mode.code ++ le 1 1 ++ le 1 3 ++ le 4 c.dev.fwVersion ++
    le 4 c.dev.fwBuild ++ le 1 f.lifecycle ++ le 1 (b2n c.approved) ++ zeros 2 ++ sliceB f.serialNo 0 12

/-- GET_IDENTITY. -/
def bodyGetIdentity (x : Ctx) (c : Chip) : Ans × Chip := (ok (c.identity x.fuses), c)

def execGetIdentity (p : Packet) (s : State) : Host.Outcome State Fault Refusal := runCommand 0x0002 p s bodyGetIdentity

/-- ECHO: the parameters unchanged. -/
def bodyEcho (x : Ctx) (c : Chip) : Ans × Chip := (ok x.ps, c)

def execEcho (p : Packet) (s : State) : Host.Outcome State Fault Refusal := runCommand 0x0003 p s bodyEcho

/-- QUERY_HANDLE (R53, Tables 02.17, 02.18). -/
def bodyQueryHandle (x : Ctx) (c : Chip) : Ans × Chip :=
  let h := fld x.ps 0 4
  let q := fld x.ps 4 4
  if q > 1 then no c stParam
  else match c.rec? h with
    | none => no c stNoHandle
    | some r =>
      if x.lvl != 1 && h / 2 ^ 24 != x.iss then no c stDenied 0x0002
      else
        let d := le 1 (if r.complete then 2 else 1) ++ zeros 1 ++ le 2 r.opcode ++ le 2 r.status ++ le 2 r.reason ++ le 4 r.progress ++
          le 4 r.result
        let c' := if q = 1 && r.complete then
            { c with cmd := { c.cmd with handles := c.cmd.handles.filter fun y => y.handle != h } } else c
        (ok d, c')

def execQueryHandle (p : Packet) (s : State) : Host.Outcome State Fault Refusal := runCommand 0x0004 p s bodyQueryHandle

/-- READ_EVENT_LOG (Table 02.20). -/
def bodyReadEventLog (x : Ctx) (c : Chip) : Ans × Chip :=
  let from_ := fld x.ps 0 4
  let n := fld x.ps 4 4
  if n = 0 || n > 1024 then no c stParam
  else if (from_ + 2 ^ 32 - c.cmd.logSeq) % 2 ^ 32 < 2 ^ 31 then (ok, c)
  else
    let oldest := (c.cmd.logSeq + 2 ^ 32 - c.cmd.log.length) % 2 ^ 32
    let off := (from_ + 2 ^ 32 - oldest) % 2 ^ 32
    let gap := decide (off ≥ c.cmd.log.length)
    let recs := ((c.cmd.log.drop (if gap then 0 else off)).take n)
    ({ data := (recs.map EventRec.bytes).flatten, gap }, c)

def execReadEventLog (p : Packet) (s : State) : Host.Outcome State Fault Refusal := runCommand 0x0006 p s bodyReadEventLog

/-- SET_REMOTE_POLICY (R46, R64, Table 02.21). -/
def bodySetRemotePolicy (x : Ctx) (c : Chip) : Ans × Chip :=
  let t := fld x.ps 0 1
  let m := fld x.ps 4 4
  if t > 3 || !rsvd x.ps 1 3 || m ≥ 2 ^ 18 then no c stParam
  else (ok, { c with cmd := { c.cmd with policy := c.cmd.policy.set t m } })

def execSetRemotePolicy (p : Packet) (s : State) : Host.Outcome State Fault Refusal := runCommand 0x0007 p s bodySetRemotePolicy

/-- The holder a TARGET names. -/
def holderOf (t : Nat) : Holder := if t = 0 then .pcie else if t = 1 then .spi else .usb

/-- The target transport has a session at this moment. -/
def Chip.holderUp (c : Chip) (h : Holder) : Bool :=
  match h with
  | .pcie => c.host.qps.any fun e => decide (e.1 < 64)
  | .spi => true
  | .usb => c.sessionUp .usb

/-- SET_MANAGER_TRANSPORT (R49, R65, Table 02.22): the role moves after the reply. -/
def bodySetManagerTransport (x : Ctx) (c : Chip) : Ans × Chip :=
  let t := fld x.ps 0 1
  let pe := fld x.ps 1 1
  if t > 2 || pe > 1 || !rsvd x.ps 2 2 then no c stParam
  else
    let h := holderOf t
    let keep := fun (c : Chip) => if pe = 1 then c.storeConfig fun k => { k with manager := some h } else c
    if h = c.cmd.holder then (ok, keep c)
    else if !c.holderUp h then no c stState
    else ({ moveTo := some h }, keep c)

def execSetManagerTransport (p : Packet) (s : State) : Host.Outcome State Fault Refusal :=
  runCommand 0x0008 p s bodySetManagerTransport

/-- GET_CMD_COUNTERS: four records of four counters. -/
def bodyGetCmdCounters (_x : Ctx) (c : Chip) : Ans × Chip :=
  let r := fun i => let k := c.cmd.counters.get {} i; le 4 k.received ++ le 4 k.rejLength ++ le 4 k.discarded ++ le 4 k.evLost
  (ok (r 0 ++ r 1 ++ r 2 ++ r 3), c)

def execGetCmdCounters (p : Packet) (s : State) : Host.Outcome State Fault Refusal := runCommand 0x0009 p s bodyGetCmdCounters

/-- QUEUE_OVERFLOW (R60): a slot is free in a queue that dropped events, and the next record written is the count. -/
def execQueueOverflow (q : QueueRef) (s : State) : Host.Outcome State Fault Refusal :=
  onChip s fun c => c.flushOverflow (keyOfRef q)

/-- WRITE_FRAME (R42, R43): header and parameters between the instruction byte and MSPI_CS_L rising. -/
def Chip.writeFrame (c : Chip) (b : Bytes) : Chip :=
  if !c.dev.fwRunning then c
  else
    let pk := parsePacket .spi b
    let plen := pk.2.plen.toNat
    if b.length < 32 || !pk.2.checked || b.length != 32 + plen then c.discardPacket .spi
    else c.receive pk.1 (if plen > 65504 then { pk.2 with params := [] } else pk.2)

def execWriteFrame (bytes : Bytes) (s : State) : Host.Outcome State Fault Refusal := onChip s fun c => c.writeFrame bytes

/-- The READ_STATUS byte. -/
def Chip.statusByte (c : Chip) : Nat :=
  b2n c.spi.busy + 2 * b2n c.spi.reply.isSome + 4 * b2n (decide (c.cmd.unread > 0)) + 8 * b2n c.spi.frameError

/-- READ_STATUS: the byte is sent `n` times, and FRAME_ERROR clears when it has been read. -/
def execReadStatus (n : Nat) (s : State) : Host.Outcome State Fault Refusal :=
  onChip s fun c =>
    let o := c.emit (.spiOut (List.replicate n (BitVec.ofNat 8 c.statusByte)))
    if n = 0 then o else { o with spi := { c.spi with frameError := false } }

/-- READ_FRAME (R43): `n` reply bytes are clocked; at least 16 clear REPLY_READY. -/
def execReadFrame (n : Nat) (s : State) : Host.Outcome State Fault Refusal :=
  onChip s fun c =>
    let b := match c.spi.reply with | none => [] | some r => r.head ++ r.data
    let o := c.emit (.spiOut (sliceB b 0 n))
    if n ≥ 16 then { o with spi := { c.spi with reply := none } } else o

/-- READ_EVENT: the oldest unread record of the log, marked read, or 32 zero bytes. -/
def execReadEvent (s : State) : Host.Outcome State Fault Refusal :=
  onChip s fun c =>
    let i := c.cmd.log.length - c.cmd.unread
    if c.cmd.unread = 0 then c.emit (.spiOut (zeros 32))
    else
      let b := match c.cmd.log[i]? with | none => zeros 32 | some e => e.bytes
      { c.emit (.spiOut b) with cmd := { c.cmd with unread := c.cmd.unread - 1 } }

end Sys2Proof.Machine
end

