-- ==== Sys2Proof/Machine/HostPort.lean ====
section
/-!
DEFINITION. Chapter 11: the host's register and doorbell writes, DMA completions, errors, the link and PE_PERST_L (R270 to R294).
-/
namespace Sys2Proof.Machine

/-! ### Access (R271, R484) -/

/-- The host reaches BAR0. -/
def Chip.barReach (c : Chip) : Bool := c.host.linkUp && !c.host.perst && !c.host.d3hot

/-- BAR0 offset of an instance's page (Table 11.2). -/
def pageBase (vi : Nat) : Nat := if vi = 0 then 0 else 0x20000 + 0x10000 * (vi - 1)

/-- The page and the offset in it that a BAR0 offset lies in; instance page 0 is none's. -/
def pageOf (off : Nat) : Option (Nat × Nat) :=
  if off < 0x10000 then some (0, off)
  else if 0x20000 ≤ off && off < 0x410000 then some (1 + (off - 0x20000) / 0x10000, off % 0x10000)
  else none

/-- The HOST gatekeeper's verdict on an access of an instance's page (R271, R484). -/
def barVerdict (s : State) (vi off len kind : Nat) : GkVerdict :=
  (s.guard.active.get {} 0).decide' s.fuses.lifecycle (if vi = 0 then 1 else 2) kind off len false

/-- A denial is recorded (R486). -/
def Chip.barRecord (c : Chip) (v : GkVerdict) (vi off len kind : Nat) : Chip :=
  if v.all then c
  else c.violate 0 { addr := off, size := len, kind, level := if vi = 0 then 1 else 2, id := vi, region := v.region, part := !v.nobyte,
                     straddle := v.straddle }

/-- The verdict on an access: one flag a byte; a denial is recorded. -/
def Chip.barCheck (c : Chip) (s : State) (vi off len kind : Nat) : Chip × List Bool :=
  (c.barRecord (barVerdict s vi off len kind) vi off len kind, (barVerdict s vi off len kind).bytes)

/-- A write to a page's register that the host reaches, of an instance that is there, and that the gatekeeper allows. -/
def Chip.pageWrite (c : Chip) (s : State) (vi off : Nat) (f : Chip → Chip) : Chip :=
  if !c.barReach || (c.inst vi).state == .absent then c
  else
    let g := c.barCheck s vi (pageBase vi + off) 4 1
    if g.2.all id then f g.1 else g.1.aerError 3

/-! ### Doorbells (R274 to R276) -/

/-- A doorbell of an instance: latched and counted while it is not ACTIVE (R287); any doorbell wakes the part from QUIET. -/
def Chip.doorbell (c : Chip) (vi : Nat) (f : Chip → Chip) : Chip :=
  let i := c.inst vi
  let c := if i.state == .active then f c else if i.state == .absent then c else c.setInst vi { i with latched := sat32 i.latched 1 }
  c.wakeEvent 0

/-- RING_OVERRUN is counted and RING_ERROR posted (R274). -/
def Chip.overrun (c : Chip) (vi idx : Nat) (data : Bool) : Chip :=
  (c.setHost fun h => { h with ringOverrun := sat32 h.ringOverrun 1 }).postRingError 0x060E vi idx data

/-- SQ_TAIL (R274). -/
def Chip.sqTail (c : Chip) (vi qp v : Nat) : Chip :=
  match c.host.qps.find (64 * vi + qp) with
  | none => c
  | some q =>
    if q.stopped then c
    else if sub16 v q.sqHead > 2 ^ q.sqLog2 then (c.setQp (64 * vi + qp) { q with stopped := true }).overrun vi qp false
    else (c.setQp (64 * vi + qp) { q with sqTail := v }).sqFetch vi qp

/-- CQ_HEAD (R274, R275): the entries it passes free their reply ring bytes. -/
def Chip.cqHead (c : Chip) (vi qp v : Nat) : Chip :=
  match c.host.qps.find (64 * vi + qp) with
  | none => c
  | some q =>
    let left := sub16 q.cqTail v
    if q.stopped then c
    else if left > 2 ^ q.cqLog2 then (c.setQp (64 * vi + qp) { q with stopped := true }).overrun vi qp false
    else (c.setQp (64 * vi + qp) { q with cqHead := v, rbHeld := q.rbHeld.drop (q.cqUsed - left) }).sqFetch vi qp

/-- EVQ_HEAD (R274, R276). -/
def Chip.evqHead (c : Chip) (vi e v : Nat) : Chip :=
  let k := vqKey vi e
  match c.host.evqs.find k with
  | none => c
  | some r =>
    if r.stopped then c
    else if sub16 (c.cmd.queues.get {} k).seq v > 2 ^ r.log2 then
      (c.setHost fun h => { h with evqs := h.evqs.set k { r with stopped := true } }).overrun vi e false
    else c.setHost fun h => { h with evqs := h.evqs.set k { r with head := v } }

/-- PRODUCER (R274, R278). -/
def Chip.ringProducer (c : Chip) (vi ring v : Nat) : Chip :=
  let k := ringKey vi ring
  match c.host.rings.find k with
  | none => c
  | some r =>
    if r.stopped then c
    else if sub16 v r.consumed > 2 ^ r.log2 then (c.setDring k { r with stopped := true }).overrun vi ring true
    else (c.setDring k { r with producer := v }).ringKick k

/-- SQ_TAIL_DOORBELL. -/
def execSqTailDoorbell (vi qp : Fin 64) (value : BitVec 32) (s : State) : Host.Outcome State Fault Refusal :=
  onChip s fun c => c.pageWrite s vi (0x1000 + 16 * qp.val) fun c => c.doorbell vi fun c => c.sqTail vi qp (value.toNat % 65536)

/-- CQ_HEAD_DOORBELL. -/
def execCqHeadDoorbell (vi qp : Fin 64) (value : BitVec 32) (s : State) : Host.Outcome State Fault Refusal :=
  onChip s fun c => c.pageWrite s vi (0x1004 + 16 * qp.val) fun c => c.doorbell vi fun c => c.cqHead vi qp (value.toNat % 65536)

/-- EVQ_HEAD_DOORBELL. -/
def execEvqHeadDoorbell (vi : Fin 64) (e : Fin 32) (value : BitVec 32) (s : State) : Host.Outcome State Fault Refusal :=
  onChip s fun c => c.pageWrite s vi (0x1400 + 8 * e.val) fun c => c.doorbell vi fun c => c.evqHead vi e (value.toNat % 65536)

/-- RING_PRODUCER_DOORBELL. -/
def execRingProducerDoorbell (vi : Fin 64) (ring : Fin 256) (value : BitVec 32) (s : State) : Host.Outcome State Fault Refusal :=
  onChip s fun c => c.pageWrite s vi (0x2000 + 16 * ring.val) fun c => c.doorbell vi fun c => c.ringProducer vi ring (value.toNat % 65536)

/-- HELD_REPLY_WRITE (R277): the oldest reply held for a full completion ring is written; a COMPLETION that waited for it follows (R59). -/
def execHeldReplyWrite (vi qp : Fin 64) (s : State) : Host.Outcome State Fault Refusal :=
  onChip s fun c =>
    let k := 64 * vi.val + qp.val
    match c.host.qps.find k with
    | none => c
    | some q =>
      match q.held with
      | [] => c
      | r :: rest => if q.cqUsed ≥ 2 ^ q.cqLog2 then c else ((c.setQp k { q with held := rest }).writeCqe vi qp r).payOwed fun h => r.rflags % 2 == 1 && h.handle == r.result

/-! ### Registers (R272, R293, R294) -/

/-- QCTL0's fields as the bootstrap pair and queue (Table 11.5). -/
def qctlPair (i : Inst) (v : Nat) : QueuePair :=
  { sqLog2 := bitsOf v 24 4, cqLog2 := bitsOf v 20 4, rbLog2 := bitsOf v 15 5, sqBase := i.sq0Base, cqBase := i.cq0Base, rbBase := i.rb0Base,
    vector := bitsOf v 0 11 }
def qctlEvq (i : Inst) (v : Nat) : EventRing := { log2 := bitsOf v 11 4, base := i.evq0Base, piAddr := i.evq0Pi, vector := bitsOf v 0 11 }

/-- QCTL0 is written (R272): reserved bits are ignored. While ENABLE = 1 a write changes no size field, the write that clears ENABLE among
them; DESIGN CHOICE (log entry 66): nor VECTOR. -/
def Chip.qctl0 (c : Chip) (vi v : Nat) : Chip :=
  let i := c.inst vi
  let fields := v % 2 ^ 28
  let was := bitOf i.qctl0 31
  if bitOf v 31 then
    if was then c
    else
      let q := qctlPair i v
      let r := qctlEvq i v
      let good := i.state == .active && q.ranges && r.ranges && c.vectorOk vi q.vector && c.entriesFit vi (q.entries + 2 ^ r.log2) &&
        (c.host.qps.find (64 * vi)).isNone && (c.host.evqs.find (vqKey vi 0)).isNone
      if good then ((c.setInst vi { i with qctl0 := 2 ^ 31 + fields, qp0Up := true }).setQp (64 * vi) q).addEvq vi 0 r
      else c.setInst vi { i with qctl0 := fields }
  else if was then
    let c := (c.deleteQp vi 0).deleteEvq vi 0
    c.setInst vi { c.inst vi with qctl0 := i.qctl0 % 2 ^ 31, qp0Up := false }
  else c.setInst vi { i with qctl0 := fields }

/-- QCTL0_WRITE. -/
def execQctl0Write (vi : Fin 64) (value : BitVec 32) (s : State) : Host.Outcome State Fault Refusal :=
  onChip s fun c => c.pageWrite s vi 0x128 fun c => c.qctl0 vi value.toNat

/-- The bits that are set in `v` are cleared in IRQ_CAUSE (R294, R11). -/
def Chip.irqClear (c : Chip) (v : Nat) : Chip :=
  c.setHost fun h => { h with irqCause := (List.range 3).foldl (fun m b => if bitOf v b then setBit m b false else m) h.irqCause }

/-- IRQ_CAUSE_WRITE. -/
def execIrqCauseWrite (value : BitVec 32) (s : State) : Host.Outcome State Fault Refusal :=
  onChip s fun c => c.pageWrite s 0 0x301C fun c => c.irqClear value.toNat

/-- TURN (Table 11.18): the turn and TIME_UNSET. -/
def Chip.turnReg (c : Chip) : Nat := c.turn % 2 ^ 48 + 2 ^ 48 * b2n (!c.timeSet)

/-- A base register of Table 11.3, by its number. -/
def Inst.baseReg (i : Inst) (n : Nat) : Nat :=
  if n = 0 then i.sq0Base else if n = 1 then i.cq0Base else if n = 2 then i.rb0Base else if n = 3 then i.evq0Base else i.evq0Pi

/-- INST_STATUS (Table 11.4). -/
def Inst.status (i : Inst) (vi : Nat) : Nat := i.state.code + 8 * b2n i.qp0Up + 16 * b2n i.linkLoss + 256 * vi

/-- The device register at an offset of the manager page (Table 11.18); offsets it does not name are reserved. -/
def Chip.deviceReg (c : Chip) (off : Nat) : Nat :=
  if off = 0x3000 then 0xB4 * 2 ^ 24 + 0x9416 * 2 ^ 8 + 0x21
  else if off = 0x3004 then c.dev.mode.code + 256 * c.roleCode + 65536 * c.dev.bflags + 2 ^ 24 * b2n c.dev.fwRunning
  else if off = 0x3008 then c.turnReg % 2 ^ 32
  else if off = 0x300C then c.host.turnLatch
  else if off = 0x3010 then c.dev.fwVersion
  else if off = 0x3014 then c.host.heartbeat
  else if off = 0x3018 then c.cmd.logSeq
  else if off = 0x301C then c.host.irqCause
  else if off = 0x3020 then c.host.irqEnable
  else 0

/-- The word at an offset of an instance's page as a read returns it (R9, R271, Tables 11.3 to 11.5, 11.18): RO and RW fields their value, WO
doorbells and reserved offsets zero, and the whole page of an instance that is ABSENT zero. -/
def Chip.pageRead (c : Chip) (vi off : Nat) : Nat :=
  let i := c.inst vi
  if i.state == .absent then 0
  else if off = 0 then i.status vi
  else if off = 4 then i.latched
  else if 0x100 ≤ off && off < 0x128 then i.baseReg ((off - 0x100) / 8) / 2 ^ (32 * (off / 4 % 2)) % 2 ^ 32
  else if off = 0x128 then i.qctl0
  else if vi = 0 && 0x3000 ≤ off && off < 0x4000 then c.deviceReg off
  else 0

/-- A word of the MSI-X table as a read returns it. -/
def Chip.msixRead (c : Chip) (off : Nat) : Nat :=
  let x := c.vec (off / 16)
  if off % 16 = 0 then x.addr % 2 ^ 32 else if off % 16 = 4 then x.addr / 2 ^ 32 % 2 ^ 32 else if off % 16 = 8 then x.data % 2 ^ 32
  else b2n x.masked

/-- The word at a BAR0 offset as a read returns it (Table 11.2); the legacy aperture has its own rows. -/
def Chip.barRead (c : Chip) (off : Nat) : Nat :=
  match pageOf off with
  | some (vi, o) => c.pageRead vi o
  | none =>
    if 0x410000 ≤ off && off < 0x418000 then c.msixRead (off - 0x410000)
    else if 0x418000 ≤ off && off < 0x418100 then
      (List.range 32).foldl (fun m b => m + 2 ^ b * b2n (c.vec (8 * (off - 0x418000) + b)).pend) 0
    else 0

/-- What a 4-byte or 8-byte read returns (R271): an 8-byte read of TURN returns the whole value at one instant (R294). -/
def Chip.barReadBytes (c : Chip) (off len : Nat) : Bytes :=
  if len = 8 then if off = 0x3008 then le 8 c.turnReg else le 4 (c.barRead off) ++ le 4 (c.barRead (off + 4))
  else le 4 (c.barRead off)

/-- What a read changes: a 4-byte read of TURN's lower half latches its upper half (R294). -/
def Chip.barReadEffect (c : Chip) (off len : Nat) : Chip :=
  if off = 0x3008 && len = 4 then c.setHost fun h => { h with turnLatch := c.turnReg / 2 ^ 32 } else c

/-- A host read of BAR0 outside the legacy aperture (R271): anything but 4 or 8 bytes, naturally aligned, and what the gatekeeper denies
completes with Unsupported Request. -/
def Chip.hostRegisterRead (c : Chip) (s : State) (off len : Nat) : Chip :=
  if !c.barReach then c
  else if (len != 4 && len != 8) || off % len != 0 then (c.aerError 3).emit .tlpUr
  else
    let vi := match pageOf off with | some e => e.1 | none => 0
    let g := c.barCheck s vi off len 0
    if !g.2.all id then (g.1.aerError 3).emit .tlpUr
    else (g.1.barReadEffect off len).emit (.tlpData (c.barReadBytes off len))

/-- TURN_LATCH_READ (R294): the lower half latches the upper, the read of the upper half returns what was latched. It is the one register
read that the table has a row for. -/
def execTurnLatchRead (upper : Bool) (s : State) : Host.Outcome State Fault Refusal :=
  onChip s fun c => c.hostRegisterRead s (if upper then 0x300C else 0x3008) 4

def Inst.setBase (i : Inst) (n v : Nat) : Inst :=
  if n = 0 then { i with sq0Base := v } else if n = 1 then { i with cq0Base := v } else if n = 2 then { i with rb0Base := v }
  else if n = 3 then { i with evq0Base := v } else { i with evq0Pi := v }
/-- One 32-bit half of a 64-bit register. -/
def putHalf (old v : Nat) (upper : Bool) : Nat := if upper then old % 2 ^ 32 + v % 2 ^ 32 * 2 ^ 32 else old / 2 ^ 32 * 2 ^ 32 + v % 2 ^ 32

/-- A write to a reserved offset is ignored and counted (R271). -/
def Chip.ignored (c : Chip) : Chip := c.setHost fun h => { h with ignoredWrites := sat32 h.ignoredWrites 1 }

/-- A word is written at an offset of an instance's page (Tables 11.3, 11.18). -/
def Chip.pageWord (c : Chip) (vi off v : Nat) : Chip :=
  let i := c.inst vi
  if i.state == .absent then c
  else if off < 8 then c
  else if 0x100 ≤ off && off < 0x128 then
    let n := (off - 0x100) / 8
    if bitOf i.qctl0 31 then c else c.setInst vi (i.setBase n (putHalf (i.baseReg n) v (off / 4 % 2 == 1)))
  else if off = 0x128 then c.qctl0 vi v
  else if 0x1000 ≤ off && off < 0x1400 then
    if off % 16 = 0 then c.doorbell vi fun c => c.sqTail vi ((off - 0x1000) / 16) (v % 65536)
    else if off % 16 = 4 then c.doorbell vi fun c => c.cqHead vi ((off - 0x1000) / 16) (v % 65536)
    else c.ignored
  else if 0x1400 ≤ off && off < 0x1500 then
    if off % 8 = 0 then c.doorbell vi fun c => c.evqHead vi ((off - 0x1400) / 8) (v % 65536) else c.ignored
  else if 0x2000 ≤ off && off < 0x3000 then
    if off % 16 = 0 then c.doorbell vi fun c => c.ringProducer vi ((off - 0x2000) / 16) (v % 65536) else c.ignored
  else if vi = 0 && 0x3000 ≤ off && off < 0x301C then c
  else if vi = 0 && off = 0x301C then c.irqClear v
  else if vi = 0 && off = 0x3020 then c.setHost fun h => { h with irqEnable := v % 8 }
  else c.ignored

/-- The instance in whose range a vector lies may send messages: it exists and is not QUIESCED (R281, R287). -/
def Chip.vecLive (c : Chip) (v : Nat) : Bool :=
  if v < 64 then (c.inst 0).state != .quiesced
  else c.host.inst.any fun e => e.1 > 0 && e.2.state != .absent && e.2.state != .quiesced && decide (e.2.msixBase ≤ v) &&
    decide (v < e.2.msixBase + e.2.msixCount)

/-- A pending message of a vector is sent when it may be (R277). -/
def Chip.sendPending (c : Chip) (v : Nat) : Chip := if (c.vec v).pend && c.vecLive v then c.raise v else c

/-- A word of the MSI-X table is written. -/
def Chip.msixWord (c : Chip) (off v : Nat) : Chip :=
  let n := off / 16
  let x := c.vec n
  if off % 16 = 0 then c.setVec n { x with addr := putHalf x.addr v false }
  else if off % 16 = 4 then c.setVec n { x with addr := putHalf x.addr v true }
  else if off % 16 = 8 then c.setVec n { x with data := v }
  else (c.setVec n { x with masked := bitOf v 0 }).sendPending n

/-- A word is written at a BAR0 offset (Table 11.2); the legacy aperture has its own rows. -/
def Chip.barWord (c : Chip) (off v : Nat) : Chip :=
  match pageOf off with
  | some (vi, o) => c.pageWord vi o v
  | none =>
    if 0x10000 ≤ off && off < 0x20000 then c
    else if 0x410000 ≤ off && off < 0x418000 then c.msixWord (off - 0x410000) v
    else if 0x418000 ≤ off && off < 0x418100 then c
    else c.ignored

/-- The offset lies in an instance's legacy aperture. -/
def inAperture (off : Nat) : Bool := match pageOf off with | some (vi, o) => vi != 0 && decide (0x8000 ≤ o) | none => false

/-- REGISTER_WRITE (R271): 4 or 8 bytes, naturally aligned, else Unsupported Request. The words that the gatekeeper allows are written first:
what the refusal of the others records is the write's own event, which no bit of it clears (R11). -/
def execRegisterWrite (off : BitVec 23) (len : Nat) (value : BitVec 64) (s : State) : Host.Outcome State Fault Refusal :=
  onChip s fun c =>
    let o := off.toNat
    if !c.barReach || inAperture o then c
    else if (len != 4 && len != 8) || o % len != 0 then c.aerError 3
    else
      let vi := match pageOf o with | some e => e.1 | none => 0
      let v := barVerdict s vi o len 1
      let c := (List.range (len / 4)).foldl (fun c i =>
        if nth false v.bytes (4 * i) then c.barWord (o + 4 * i) (value.toNat / 2 ^ (32 * i) % 2 ^ 32) else c) c
      let c := c.barRecord v vi o len 1
      if v.nobyte then c.aerError 3 else c

/-- HEARTBEAT_TICK (R293). -/
def execHeartbeatTick (s : State) : Host.Outcome State Fault Refusal :=
  onChip s fun c => if c.dev.fwRunning then c.setHost fun h => { h with heartbeat := (h.heartbeat + 1) % 2 ^ 32 } else c

/-- HEARTBEAT_STOPPED (R293, R294). -/
def execHeartbeatStopped (s : State) : Host.Outcome State Fault Refusal := onChip s fun c => c.irqCause 2

/-- COALESCE_TIMER (R277). -/
def execCoalesceTimer (v : Fin 2048) (s : State) : Host.Outcome State Fault Refusal :=
  onChip s fun c =>
    let x := c.vec v
    if !x.coalescing then c
    else
      let c := c.setVec v { x with coalescing := false }
      if c.vecLive v then c.raise v else c

/-- MSIX_VECTOR_UNMASK (R277). -/
def execMsixVectorUnmask (v : Fin 2048) (s : State) : Host.Outcome State Fault Refusal :=
  onChip s fun c => if c.barReach then (c.setVec v { c.vec v with masked := false }).sendPending v else c

/-! ### DMA completions and errors (R278, R289, R291) -/

/-- Fetched display data enters the row it was read for; of an instance that is not ACTIVE it is discarded (Table 11.10). -/
def Chip.layerData (c : Chip) (vi h l row plane : Nat) (data : Bytes) : Chip :=
  if (c.inst vi).state != .active then c
  else
    let x := c.hub h
    c.setHub h { x with fetch := x.fetch.map fun (f : FetchRow) =>
      if f.layer = l && f.row = row && f.plane = plane then { f with data := some data } else f }

/-- A read's data is used (R273, R278, R281). -/
def Chip.readData (c : Chip) (f : ReadFor) (vi : Nat) (data : Bytes) (poison : Bool) : Chip :=
  match f with
  | .sq v q n => c.sqData v q n data
  | .params op p => c.receive op { p with params := sliceB data 0 p.plen.toNat }
  | .desc k first n => c.descData k first n data
  | .txData k _ => c.txData k data poison
  | .layer h l row plane => c.layerData vi h l row plane data
  | .inbound tid xtag len => c.inboundRead tid xtag len (some data)

/-- The read becomes the bytes of cells. -/
def ReadFor.cells : ReadFor → Bool
  | .txData _ _ => true
  | _ => false

/-- HOST_READ_COMPLETION: a tag that names no read is discarded (R288). Poisoned data makes poisoned cells; elsewhere it is a failed read. -/
def execHostReadCompletion (tag : Nat) (data : Bytes) (poisoned : Bool) (s : State) : Host.Outcome State Fault Refusal :=
  onChip s fun c =>
    match c.host.reads.find tag with
    | none => c
    | some (f, vi, _) =>
      let c := c.setHost fun h => { h with reads := h.reads.erase tag }
      let c := if poisoned then c.aerError 1 else c
      if poisoned && !f.cells then c.readLost f stParam 0x0608 0x0608 else c.readData f vi data poisoned

/-- DMA_COMPLETION_TIMEOUT (R291): also a completion with status Unsupported Request. -/
def execDmaCompletionTimeout (tag : Nat) (s : State) : Host.Outcome State Fault Refusal :=
  onChip s fun c =>
    match c.host.reads.find tag with
    | none => c
    | some (f, vi, addr) =>
      ((((c.setHost fun h => { h with reads := h.reads.erase tag }).aerError 0).postDmaError vi addr).readLost f stParam 0x0608 0x0608)

/-- TLP_ERROR (R291, Table 11.11). -/
def execTlpError (e : TlpError) (s : State) : Host.Outcome State Fault Refusal :=
  onChip s fun c =>
    match e with
    | .poisonedWrite => c.aerError 1
    | .ecrc => c.aerError 2
    | .atomic => (c.aerError 3).emit .tlpUr
    | .badAccess read => if read then (c.aerError 3).emit .tlpUr else c.aerError 3
    | .malformed => c.aerError 4
    | .internal vis => (c.aerError 5).lossVis ((List.range 64).filter fun i => bitOf vis.toNat i)

/-! ### The link (R270, R281, R285, R289, R290) -/

/-- Every queue and ring goes on as far as it may, and pending messages leave. -/
def Chip.dmaGo (c : Chip) : Chip :=
  let c := (c.host.qps.keysWhere fun _ _ => true).foldl (fun c k => c.sqFetch (k / 64) (k % 64)) c
  let c := (c.host.rings.keysWhere fun _ _ => true).foldl Chip.ringKick c
  (c.host.vecs.keysWhere fun _ _ => true).foldl Chip.sendPending c

/-- HOST_LINK_DOWN (R289). -/
def execHostLinkDown (s : State) : Host.Outcome State Fault Refusal := onChip s Chip.hostLost

/-- Width of code `w`: x1, x2, x4, x8; rate of code `r` in GT/s. -/
def linkWidth (w : Nat) : Nat := 2 ^ w
def linkRate (r : Nat) : Nat := nth 2 [2, 5, 8, 16, 32] r

/-- HOST_LINK_UP (R270, R285): it needs the HOST island, PE_REFCLK and PE_PERST_L high. -/
def execHostLinkUp (width : Fin 4) (rate : Fin 5) (s : State) : Host.Outcome State Fault Refusal :=
  onChip s fun c =>
    if c.host.perst || !c.dev.islands.contains 4 || c.dev.refFailed.contains 2 then c
    else ((c.setHost fun h => { h with linkUp := true, width := linkWidth width, rate := linkRate rate }).postHostLink).dmaGo

/-- PE_PERST_ASSERT (R290): the HOST island of DOCK and RELAY, and of RECOVERY and LOCKDOWN, is off while PE_PERST_L is low (Table 03.1). -/
def execPePerstAssert (s : State) : Host.Outcome State Fault Refusal :=
  onChip s fun c =>
    if c.host.perst then c
    else
      let c := c.hostReset
      let off := !c.inRole .hub || c.dev.mode == .recovery || c.dev.mode == .lockdown
      { c with host := { c.host with perst := true }, dev := { c.dev with islands := if off then c.dev.islands.filter (· != 4) else c.dev.islands } }

/-- PE_PERST_RELEASE (R82, Table 03.1): HOST starts at that moment once step 4 has been passed. -/
def execPePerstRelease (s : State) : Host.Outcome State Fault Refusal :=
  onChip s fun c =>
    let c := { c with host := { c.host with perst := false } }
    let starts := match c.dev.mode with
      | .boot => c.dev.islands.contains 5
      | .keepalive => c.dev.starting && c.dev.islands.contains 5
      | _ => true
    if starts && !c.dev.islands.contains 4 then { c with dev := { c.dev with islands := c.dev.islands ++ [4] } } else c

/-- PCIE_CONFIG_WRITE (R277, R281, Table 11.1). -/
def execPcieConfigWrite (busMaster pasidEnable msixEnable msixMask d3hot : Bool) (s : State) : Host.Outcome State Fault Refusal :=
  onChip s fun c =>
    if !c.host.linkUp || c.host.perst then c
    else (c.setHost fun h => { h with busMaster, pasidEnable, msixEnable, msixMask, d3hot }).dmaGo

end Sys2Proof.Machine
end

