-- ==== Sys2Proof/Machine/Resets.lean ====
section
/-!
DEFINITION. Chapter 03: what each reset keeps (R76, Table 03.4) and the kettle ROM's boot.
-/
namespace Sys2Proof.Machine

/-- Every Pn_GATE_EN that is high goes low. -/
def Chip.gatesOff (c : Chip) : Chip :=
  (List.range 14).foldl (fun c n => if (c.chan n).gate then c.drive (.gateEn n) 0 else c) c

/-- The chip after a power-on reset, before the ROM runs: non-volatile contents, references' condition, pins and the model's own outbox
stay. -/
def Chip.afterPowerOn (c : Chip) : Chip :=
  let c := c.gatesOff.crockStop
  { clk := { fresh := c.clk.fresh }, flash := c.flash, out := c.out, csys := c.csys,
    dev := { refFailed := c.dev.refFailed },
    keys := { gen := c.keys.gen, zeroizeL := c.keys.zeroizeL, approved := c.keys.approved },
    host := { perst := c.host.perst },
    life := { journal := c.life.journal, slot := c.life.slot, crockCopy := c.life.crockCopy } }

/-- Power operations under way lose the handles that a warm reset discards (R57). -/
def Power.handlesGone (p : Power) : Power := { p with tp := p.tp.mapAll fun _ (x : TrunkPower) => { x with handle := none, cableDue := [] } }

/-- Saves under way, which go on (Table 03.4), lose their handles too. -/
def Life.handlesGone (l : Life) : Life :=
  { l with saving := l.saving.map fun v => { v with handle := 0 }, next := l.next.map fun v => { v with handle := 0 } }

/-- Rollback bits still to be blown to reach an image's SVN (R88). -/
def Fuses.rollbackLeft (f : Fuses) (svn : Nat) : Nat := Nat.min 64 svn - f.rollback

/-- A reset interrupts an open COMMIT_ROLLBACK: each bit is fully blown or untouched (R89), and how many have been blown is a free value. -/
def State.fusesInterrupted (s : State) : State :=
  match s.chip.dev.rollback with
  | none => s
  | some _ =>
    { s with chip := s.chip.nextFresh,
             fuses := { s.fuses with rollback := s.fuses.rollback + s.chip.freshNat % (s.fuses.rollbackLeft s.chip.dev.runSvn + 1) } }

/-- The chip after a warm reset, before the ROM runs (Table 03.4, warm column): the power unit and its contracts go on, and input pins are
seen as before. -/
def Chip.afterWarm (c : Chip) : Chip :=
  let c := c.crockStop
  { clk := { fresh := c.clk.fresh, powerPs := c.clk.powerPs }, flash := c.flash, out := c.out, csys := c.csys, pwr := c.pwr.handlesGone,
    dev := { tamperSeen := c.dev.tamperSeen, thermTrip := c.dev.thermTrip, refFailed := c.dev.refFailed },
    keys := { gen := c.keys.gen, zeroizeL := c.keys.zeroizeL, approved := c.keys.approved },
    usb := { vbus := c.usb.vbus },
    leg := { sysfail := c.leg.sysfail, acfail := c.leg.acfail },
    host := { perst := c.host.perst },
    cmd := { counters := c.cmd.counters },
    life := c.life.handlesGone }

/-- The verdict of the ROM's checks on one slot (R79, R80). -/
inductive ImageVerdict where
  | skip
  | sigFail
  | rolledBack
  | good (signer svn fwVersion fwBuild : Nat)
  deriving DecidableEq, Repr

/-- The fused signer-key hash that accepts a key: its index (R79). -/
def Fuses.signerIndex (f : Fuses) (key : Bytes) : Option Nat :=
  let h := sliceB (Config.sha384 key) 0 48
  (List.range 2).find? fun i => decide (f.signer[i]? = some h) && !(nth false f.revoked i)

/-- The ROM's checks of an image (Table 03.6, R79, R80). -/
def verifyImage (f : Fuses) (img : Bytes) : ImageVerdict :=
  let len := fld img 8 4
  if fld img 0 4 != 0x57464842 || len > 29360128 then .skip
  else match f.signerIndex (sliceB img 96 97) with
    | none => .sigFail
    | some i =>
      if !Config.ecdsaVerify (sliceB img 96 97) (sliceB img 0 196) (sliceB img 196 96)
          || sliceB (Config.sha384 (sliceB img 512 (len - 512))) 0 48 != sliceB img 48 48 then .sigFail
      else
        let svn := fld img 12 1
        if svn > 64 || svn < f.rollback then .rolledBack
        else .good i svn (fld img 16 4) (fld img 20 4)

/-- The directory copy in use: valid CRC and higher GENERATION, copy A when equal (R77). The second part is true for copy A. -/
def Flash.dirInUse (fl : Flash) : Option (Dir × Bool) :=
  if fl.dirA.crcOk && (!fl.dirB.crcOk || fl.dirA.gen ≥ fl.dirB.gen) then some (fl.dirA, true)
  else if fl.dirB.crcOk then some (fl.dirB, false)
  else none

/-- A firmware slot's contents. -/
def Flash.slotImg (fl : Flash) (i : Nat) : Bytes := if i = 0 then fl.slotA else fl.slotB

/-- Extend measurement register `n` with digest `d` (R85). -/
def Dev.extendM (d : Dev) (n : Nat) (dig : Bytes) : Dev :=
  { d with meas := updAt (fun m => sliceB (Config.sha384 (m ++ sliceB dig 0 48)) 0 48) d.meas n }

/-- SHA-384 as 48 bytes. -/
def sha48 (b : Bytes) : Bytes := sliceB (Config.sha384 b) 0 48

/-- A component of an image: offset and length at `o` of the COMPONENTS field. -/
def imgComponent (img : Bytes) (o : Nat) : Bytes := sliceB img (fld img o 4) (fld img (o + 4) 4)

/-- The boot measurements of Table 03.8. `img` is the booted image, if any; `cfg` false when CONFIG was not read or failed. -/
def Chip.measureBoot (c : Chip) (f : Fuses) (img : Option (Bytes × Nat × Nat)) (cfg : Bool) : Chip :=
  let idx := match img with | none => 0xFF | some (_, i, _) => i
  let slot := match img with | none => 0xFF | some (_, _, s) => s
  let d := c.dev.extendM 0 (sha48 (le 1 f.lifecycle ++ le 1 f.rollback ++ le 1 f.roleLock.toNat ++ le 1 idx))
  let d := match img with
    | none => d
    | some (b, _, _) =>
      (((d.extendM 1 (sha48 (sliceB b 0 512))).extendM 2 (sha48 (imgComponent b 24))).extendM 3
        (sha48 (imgComponent b 32))).extendM 4 (sha48 (imgComponent b 40))
  let d := d.extendM 5 (sha48 (if cfg then sliceB (Config.configBlock c.flash.configGen) 0 57344 else zeros 48))
  let d := d.extendM 6 (sha48 (le 1 c.dev.strapRole.toNat ++ le 1 c.dev.strapBoot.toNat ++ le 1 slot))
  { c with dev := d }

/-- The ROM ends in RECOVERY for a reason (Table 03.2). -/
def Chip.romRecovery (c : Chip) (f : Fuses) (reason : Nat) (cfg : Bool) : Chip :=
  (c.measureBoot f none cfg).trigger { target := .recovery, reason }

/-- Try the slots in order (the loop of the ROM's procedure); `sf` and `rb` gather failures. -/
def Chip.romSlots (c : Chip) (f : Fuses) (active : Nat) : List Nat → Bool → Bool → Chip
  | [], sf, rb =>
    if sf then (c.measureBoot f none c.flash.configOk).lockdown 0x010D
    else if rb then c.romRecovery f 0x0102 c.flash.configOk
    else c.romRecovery f 0x010A c.flash.configOk
  | i :: r, sf, rb =>
    match verifyImage f (c.flash.slotImg i) with
    | .skip => c.romSlots f active r sf rb
    | .sigFail => c.romSlots f active r true rb
    | .rolledBack => c.romSlots f active r sf true
    | .good idx svn ver bld =>
      let c := { c with dev := { c.dev with bootSlot := i, runSvn := svn, fwVersion := ver, fwBuild := bld,
                                            fallback := i != active, starting := true } }
      let c := c.measureBoot f (some (c.flash.slotImg i, idx, i)) c.flash.configOk
      if i = active then c else c.post 0x0102 0 i

/-- The role the straps and the fuse give (R73, R74). DESIGN CHOICE (log entry 25): a locked field that holds 3 gives no role, and the ROM enters
RECOVERY with ROLE_STRAP as for the unlocked strap; the spec names only that. -/
def roleOf (f : Fuses) (st : Straps) : Option Role :=
  let v := if bitOf f.roleLock.toNat 2 then f.roleLock.toNat % 4 else st.role.toNat
  if v = 0 then some .hub else if v = 1 then some .dock else if v = 2 then some .relay else none

/-- The ROM reads the boot flash: not with BOOTSRC = 0b10, nor without a role, both of which it checks first (R73). DESIGN CHOICE (log entry 25): nor
with TAMPER_L asserted, which it looks at before them; the procedure has no step for it, and R71 says that boot enters LOCKDOWN. -/
def flashRead (f : Fuses) (st : Straps) : Bool := !st.tamper && st.boot != 2 && (roleOf f st).isSome

/-- The holder of the manager role after a reset (R49); the stored choice counts when CONFIG was read and holds. -/
def Chip.resetHolder (c : Chip) (read : Bool) : Holder :=
  match (if read && c.flash.configOk then c.flash.config.manager else none) with
  | some h => h
  | none => if c.inRole .hub then .pcie else .spi

/-- The settings in force: CONFIG's, or defaults when its CRC fails (R78). -/
def Chip.settings (c : Chip) : Persist := if c.flash.configOk then c.flash.config else {}

/-- The approved-mode flag takes effect, off in RMA; when it changes the mode, every persisted blob is zeroized before any slot is restored
(R451, R454). -/
def Chip.applyApproved (c : Chip) (f : Fuses) : Chip :=
  let on := c.settings.approved && f.lifecycle != 3
  let c := if on == c.keys.approved then c else { c with flash := { c.flash with zeroizePending := true } }
  { c with keys := { c.keys with approved := on, anchors := c.settings.anchors } }

/-- Settings of the trunks, fabric, time, Crock, Ethernet and dock ports. -/
def Chip.applyPorts (c : Chip) : Chip :=
  let p := c.settings
  let c := p.lanes.foldl (fun c e => c.setLane e.1 { c.laneOf e.1 with cfg := e.2 }) c
  let c := p.framing.foldl (fun c e => c.setFrm e.1 { c.frmOf e.1 with upgradeAuto := e.2.1, degradeRun := e.2.2.1, upgradeHold := e.2.2.2 }) c
  let c := p.sealing.foldl (fun c e => c.setSeal e.1 { c.sealOf e.1 with cfg := e.2 }) c
  let c := p.fwPort.foldl (fun c e =>
    let o := c.port e.1
    c.setPort e.1 { o with overhead := e.2.overhead, demoteWeight := e.2.demoteWeight, limits := e.2.limits,
                           shaper := { o.shaper with write := some (e.2.on, e.2.rate, e.2.burst, true) } }) c
  let c := match p.sieve with | none => c | some v => c.setPot fun k => { k with auditMs := v.1, reclaim := v.2, svPersist := true }
  let c := match p.time with | none => c | some g => c.setTime fun k => { k with cfg := g }
  let c := match p.crock with | none => c | some v => c.setCrock fun k => { k with holdup := v.1, refreshShare := v.2 }
  let c := p.eth.foldl (fun c e => c.setEthPort e.1 { c.ethPort e.1 with cfg := e.2 }) c
  let c := match p.usb with | none => c | some k => c.setUsb fun u => { u with cfg := k }
  p.fns.foldl (fun c e => c.setVport e.1 { c.vport e.1 with cfg := e.2 }) c

/-- Settings of the legacy bridge. -/
def Chip.applyLegacy (c : Chip) : Chip :=
  let p := c.settings
  let c := match p.leg with | none => c | some k => c.setLeg fun l => { l with cfg := k }
  c.setLeg fun l => { l with wins := p.legWins, ins := p.legIns }

/-- As system controller the legacy bridge drives VME_SYSRESET_L from its own reset on (R382). -/
def Chip.applySyscon (c : Chip) : Chip :=
  if c.inRole .hub && c.syscon then (c.setLeg fun l => { l with sysreset := true, sysresetDrive := true }).drive .vmeSysreset 1 else c

/-- Settings of the power unit, which only a power-on reset clears. -/
def Chip.applyPower (c : Chip) : Chip :=
  let p := c.settings
  let c := p.tpower.foldl (fun c e => c.setTp e.1 { c.tpOf e.1 with cfg := e.2 }) c
  let c := match p.feed with | none => c | some f => c.applyFeed f
  p.channels.foldl (fun c e => c.applyChan e.1 e.2) c

/-- Settings kept in CONFIG are applied at boot (Table 03.5). -/
def Chip.applyConfig (c : Chip) (f : Fuses) (powerOn : Bool) : Chip :=
  let c := (c.applyApproved f).applyPorts.applyLegacy
  if powerOn then c.applyPower else c

/-- The kettle ROM (R73 to R80), on a chip that a reset has just cleared. While it does not read the flash, every setting has its default and M5 is
extended as R78 has it for a CONFIG that failed (DESIGN CHOICE, log entry 25: Table 03.8 gives 48 zero bytes for R78 alone). -/
def Chip.romBoot (c : Chip) (f : Fuses) (st : Straps) (kind : Nat) (reason : Nat) (old : Mode) : Chip :=
  let role := roleOf f st
  let mism := bitOf f.roleLock.toNat 2 && f.roleLock.toNat % 4 != st.role.toNat
  let c := { c with dev := { c.dev with mode := .boot, role, strapRole := st.role, strapBoot := st.boot, resetKind := kind,
                                        cause := reason, roleMismatch := mism, configDefault := flashRead f st && !c.flash.configOk,
                                        tamperL := st.tamper, tamperSeen := c.dev.tamperSeen || st.tamper } }
  let c := { c with cmd := { c.cmd with holder := c.resetHolder (flashRead f st) } }
  let c := (c.drive .xspiReset 0).drive .xspiReset 1
  let c := (if flashRead f st then c.applyConfig f (kind == 0) else c).applySyscon
  let c := c.post 0x0101 reason (old.code + 256 * Mode.boot.code)
  let c := if mism then c.post 0x0103 0 (st.role.toNat + 256 * (f.roleLock.toNat % 4)) else c
  if st.tamper then (c.measureBoot f none false).lockdown 0x010C
  else if st.boot = 2 then c.romRecovery f 0x0109 false
  else if role.isNone then c.romRecovery f 0x0108 false
  else match c.flash.dirInUse with
    | none => c.romRecovery f 0x010A c.flash.configOk
    | some (d, _) => c.romSlots f d.active [d.active, 1 - d.active] false false

/-- Post GK_CONFIG_FAULT for stored sets that overlap (R483). -/
def Chip.gkBootFaults (c : Chip) (l : List (Nat × Nat × Nat)) : Chip :=
  l.foldl (fun c e => c.post 0x0F02 0x0F01 (e.1 + 256 * e.2.1 + 65536 * e.2.2 + 2 ^ 24)) c

/-- The rule sets that a boot installs: the stored ones count when CONFIG was read and holds (R76, Table 20.5). -/
def bootGuard (st : Straps) (s : State) : Guard × List (Nat × Nat × Nat) :=
  (if flashRead s.fuses st && s.chip.flash.configOk then s.guard else { s.guard with stored := [] }).boot

/-- A power-on reset (R76, R498, R503). -/
def powerOn (st : Straps) (s : State) : State :=
  let b := bootGuard st s
  let c := (s.chip.afterPowerOn.lifeRestore.bump 1 1).romBoot s.fuses st 0 0x0115 s.chip.dev.mode
  { s with chip := c.gkBootFaults b.2, guard := { b.1 with stored := s.guard.stored } }

/-- A warm reset with its reason (R76, R67). -/
def warmResetWith (st : Straps) (reason : Nat) (s : State) : State :=
  let b := bootGuard st s
  let c := (s.chip.afterWarm.bump 2 1).romBoot s.fuses st 1 reason s.chip.dev.mode
  { s with chip := c.gkBootFaults b.2, guard := { b.1 with stored := s.guard.stored } }

/-- What transports and sessions lose at a command reset: sessions end and need HELLO again, replies and packets that wait are lost, the
remote policies return to their reset value (R46). -/
def Chip.dropTransports (c : Chip) : Chip :=

  { c with
    dev := { c.dev with stagingOwner := none, staged := 0 },
    gear := if c.gear.stageOwner.isSome then { c.gear with stageOwner := none, staged := [] } else c.gear,
    keys := { c.keys with nonces := [], logged := [], certOwner := none },
    usb := { c.usb with orphans := [] },
    cmd := { c.cmd with sessions := c.cmd.sessions.map fun e => (e.1, {}), inbox := [], replies := [], policy := [] },
    spi := {} }

/-- An open shift at a command reset, with its handle about to complete: before its commit point it is aborted; a committed one, which the peers
rely on, takes place without a handle (R76 keeps what Table 03.4 does not list; DESIGN CHOICE, log entry 25). -/
def Chip.shiftReset (c : Chip) (reason : Nat) : Chip :=
  match c.gear.shift with
  | none => c
  | some x => if x.committed then (c.complete x.handle stAborted reason 0).setGear fun g => { g with shift := some { x with handle := 0 } }
    else c.shiftAbort reason 0xFF

/-- A command reset (R76): open handles complete with STATUS_ABORTED, training attempts end with RETRAIN (R103), freewheel's virtual times
and tags start at 0 (R235), and the control complex and its transports restart; FW_RUNNING tells their end. -/
def Chip.commandReset (c : Chip) (reason : Nat) : Chip :=
  let c := c.bump 3 1
  let c := (c.shiftReset reason).abortWhere (fun _ => true) reason
  let c := (List.range 4).foldl (fun c n => c.failAttempt n 0x0414 true) c
  let c := { c with fab := { c.fab with
    ports := c.fab.ports.mapAll fun _ (o : OutPort) => { o with v := 0 }
    fw := c.fab.fw.mapAll fun _ (q : FwQueue) => { q with s := 0, f := 0, fLast := 0 } } }
  let c := c.dropTransports
  { c with
    dev := { c.dev with fwRunning := false, resetKind := 2, resetReq := 0, lastCmdReset := some c.clk.powerPs, commit := none, rollback := none },
    clk := { c.clk with upPs := 0 } }

end Sys2Proof.Machine
end

