-- ==== Sys2Proof/Machine/Lanes.lean ====
section
/-!
DEFINITION. Chapter 04: training, equalisation, flight, test loops and the lane commands.
-/
namespace Sys2Proof.Machine

/-- TRAINING_ATTEMPT_START (R101). -/
def execTrainingAttemptStart (n : Fin 4) (s : State) : Host.Outcome State Fault Refusal :=
  onChip s fun c => if (c.laneOf n.val).phase == .idle && c.mayTrain n.val then c.startAttempt n.val else c

/-- TRAIN_RETRY_TIMER (R101): the wait after a failed attempt, or BACKOFF_MS, is over. -/
def execTrainRetryTimer (n : Fin 4) (s : State) : Host.Outcome State Fault Refusal :=
  onChip s fun c =>
    match (c.laneOf n.val).phase with
    | .backoff _ =>
      if c.mayTrain n.val then c.startAttempt n.val else c.setLane n.val { c.laneOf n.val with phase := .idle }
    | _ => c

/-- Bytes of a delta TXEQ_REQ (Table 04.6): per physical TX lane of the peer, [7:4] the change of c-1 and [3:0] of c+1. -/
def txeqBody (seq : Nat) (deltas : Tab (Int × Int)) : Bytes :=
  le 1 seq ++ le 1 0 ++ ((List.range 4).map fun i =>
    let d := deltas.get (0, 0) i
    BitVec.ofNat 8 ((d.1 % 16).toNat * 16 + (d.2 % 16).toNat))

/-- The change a search asks for now: of c-1 and of c+1 (R110). -/
def EqSearch.delta (e : EqSearch) : Int × Int :=
  let s : Int := if e.up then 1 else -1
  let s := if e.undoing then -s else s
  if e.tap = 0 then (0, s) else (s, 0)

/-- The search goes on to the next direction or tap, or is done (R110). -/
def EqSearch.turn (e : EqSearch) : EqSearch :=
  let e := { e with undoing := false }
  if e.budget = 0 then { e with tap := 2 }
  else if e.up then { e with up := false, budget := e.budget - 1 }
  else if e.tap = 0 then { e with tap := 1, up := true, budget := e.budget - 1 }
  else { e with tap := 2 }

/-- One acknowledged request of the search of one lane (R110): LIMIT ends the direction, a gain of two or more goes on, anything else is
undone, uncharged. -/
def EqSearch.next (e : EqSearch) (limit : Bool) (fom : Nat) : EqSearch :=
  if e.tap ≥ 2 then e
  else if e.undoing then e.turn
  else if limit then e.turn
  else if fom ≥ e.best + 2 then
    if e.budget = 0 then { e with best := fom, tap := 2 } else { e with best := fom, budget := e.budget - 1 }
  else { e with undoing := true }

/-- Send the TXEQ_REQ that all unfinished searches share, or end step 6's own work when none is left (R110). -/
def Chip.eqSend (c : Chip) (n : Nat) : Chip :=
  let l := c.laneOf n
  let openLanes := l.eq.filter fun e => decide (e.2.tap < 2)
  if openLanes.isEmpty then (c.setLane n { l with mine := 1 }).sendStep n
  else
    let seq := (l.txeqSeq + 1) % 256
    let deltas := openLanes.foldl (fun (t : Tab (Int × Int)) e => Tab.set t ((Tab.get ({} : RxLane) l.rx e.1).laneId) e.2.delta) []
    let c := (c.setLane n { l with txeqSeq := seq }).countLane n fun k => { k with txeqSent := sat32 k.txeqSent 1 }
    c.sbPeer n 0x43 (txeqBody seq deltas)

/-- Send FLIGHT_STAMP `i` (R116): own block and its time, and the peer's last block and its arrival. -/
def Chip.sendStamp (c : Chip) (n i : Nat) : Chip :=
  let c := c.sendTraining n
  let l := c.laneOf n
  let block := c.blockNow l.revision % 65536
  let c := c.setLane n { l with stamps := l.stamps.set block c.clk.localPs }
  c.sbPeer n 0x45 (le 1 i ++ zeros 1 ++ le 2 block ++ le 8 c.clk.localPs ++ le 2 l.lastBlock ++ zeros 2 ++ le 8 l.lastBlockAt)

/-- What the transmitters change to as step `k` begins (Sequence 04.1): the clock lane's pattern in steps 2 and 3, and in steps 3 to 8 the
data lanes send training blocks, of which the first leaves now (log entry 47). -/
def Chip.stepLine (c : Chip) (n k : Nat) : Chip :=
  let c := if k = 2 then c.emit (.clockLane n 0b1110) else if k = 3 then c.emit (.clockLane n 0b1100) else c
  if 3 ≤ k && k ≤ 7 then c.sendTraining n else c

/-- What a step begins with: step 6 starts the searches, step 8 sends the first stamp. -/
def Chip.stepInit (c : Chip) (n k : Nat) : Chip :=
  let c := (c.beginStep n k).stepLine n k
  let l := c.laneOf n
  if k = 6 then
    let eq := (l.rx.filter fun e => e.2.aligned && !e.2.failed).map fun e =>
      (e.1, ({ best := e.2.fom, budget := 23 } : EqSearch))
    (c.setLane n { l with eq }).eqSend n
  else if k = 8 then (c.setLane n { l with results := [], stamps := [] }).sendStamp n 0
  else c

/-- Step 9 is done at both ends (R115): each transmitter precodes the lanes that the peer asked for, where its own PRECODE_ALLOW is 1, and
framing takes the lanes and seeks marker lock. -/
def Chip.handOver (c : Chip) (n : Nat) : Chip :=
  let l := c.laneOf n
  let tx := l.tx.mapAll fun i x => { x with precode := l.revision == 2 && l.use.precodeAllow && bitOf l.peerPrecode i, last := 0 }
  let f := c.frmOf n
  if f.seeking then c
  else (c.setLane n { l with tx }).setFrm n
    { f with seeking := true, mver := l.revision, good := 0, lostRun := 0, lastRx := none, rxSpoke := 0, txCw := 0, txPos := none }

/-- A step that both ends have done ends (R99): at step 7 the width and lane sets are chosen from the RXSETs reported (R112); after step 9
framing takes the lanes. -/
def Chip.stepEnd (c : Chip) (n : Nat) : Chip :=
  let l := c.laneOf n
  match l.phase with
  | .train k =>
    if l.mine = 1 && l.peerDone then
      if k = 7 then
        match Sys2Proof.Machine.widest l.ownRxset l.peerRxset l.widths with
        | none => c.failAttempt n 0x0406 true
        | some (w, rx, tx) => (c.setLane n { l with width := w, activeRx := rx, activeTx := tx }).stepInit n 8
      else if k ≥ 9 then c.handOver n
      else c.stepInit n (k + 1)
    else c
  | _ => c

/-- This end's work of the step is done: STATE 1 is sent (R99). -/
def Chip.stepDone (c : Chip) (n : Nat) : Chip :=
  let l := c.laneOf n
  ((c.setLane n { l with mine := 1 }).sendStep n).stepEnd n

/-- TRAIN_STEP_RX (R94, R99, R101, R112, R115). -/
def Chip.trainStepRx (c : Chip) (n step st depth rxset precode : Nat) : Chip :=
  let l := c.laneOf n
  let waiting := match l.phase with | .idle | .backoff _ => true | _ => false
  let c := if waiting && step = 1 && c.mayTrain n then c.startAttempt n else c
  let l := c.laneOf n
  match l.phase with
  | .train k =>
    let l := { l with peerDepth := depth, peerGot := if l.peerGot.contains (step, st) then l.peerGot else l.peerGot ++ [(step, st)],
                      peerRxset := if step = 7 && st = 1 then rxset % 16 else l.peerRxset,
                      peerPrecode := if step = 9 && st = 1 then precode % 16 else l.peerPrecode,
                      peerDone := l.peerDone || (decide (step = k) && decide (st = 1)) }
    let c := (c.setLane n l).setDepths n
    let l := c.laneOf n
    let c := if l.following && step = 1 && !c.followOk l.use.followPort then
        (c.setLane n { l with following := false, depth := 0 }).post 0x0407 0x0411 n
      else c
    c.stepEnd n
  | _ => c

def execTrainStepRx (n : Fin 4) (step st depth rxset precode : Nat) (s : State) : Host.Outcome State Fault Refusal :=
  onChip s fun c => c.trainStepRx n.val step st depth rxset precode

/-- TRAIN_STEP_REPEAT (R99): until the peer's TRAIN_STEP with the same STEP and STATE has come. -/
def execTrainStepRepeat (n : Fin 4) (s : State) : Host.Outcome State Fault Refusal :=
  onChip s fun c =>
    let l := c.laneOf n.val
    match l.phase with
    | .train k => if l.peerGot.contains (k, l.mine) then c else c.sendStep n.val
    | _ => c

/-- The CTLE setting with the highest figure of merit, the lower on a tie (Sequence 04.1, step 3), with that figure. -/
def bestCtle (foms : List Nat) : Nat × Nat :=
  (foms.zipIdx.foldl (fun (b : Nat × Nat) e => if e.1 > b.2 then (e.2, e.1) else b) (0, foms.headD 0))

/-- The bit-slip search of one lane over its probes (R106): the slip position, whether inverted, and the LANE. -/
def slipSearch : List SlipProbe → Nat → Option (Nat × Bool × Nat)
  | [], _ => none
  | p :: r, i =>
    if (p.true64 = 64 || p.inv64 = 64) && p.true1024 = 1024 && p.valid1024 = 1024 && p.changes = 0 then
      some (i, p.inv64 = 64, p.laneId)
    else slipSearch r (i + 1)

/-- The lane map that the LANE values of the aligned lanes give (R105): reversed or not, none when they agree on neither. -/
def laneMap (rx : Tab RxLane) : Option Bool :=
  let al := rx.filter fun e => e.2.aligned
  if al.all fun e => e.2.laneId == e.1 then some false
  else if al.all fun e => e.2.laneId + e.1 == 3 then some true
  else none

/-- The lanes whose arrival lies within the deskew buffer from lane `e` on (R107). A lane exactly 256 symbols later does not fit the 256
symbols (DESIGN CHOICE, log entry 47: the rule does not say). -/
def deskewFrom (al : List (Nat × RxLane)) (e : Nat × RxLane) : List Nat :=
  (al.filter fun x => decide (e.2.arrival ≤ x.2.arrival) && decide (x.2.arrival < e.2.arrival + 256)).map Prod.fst

/-- The largest set of aligned lanes that fits the deskew buffer; ties: the earliest first arrival, then the lowest lane (R107). -/
def deskewSet (al : List (Nat × RxLane)) : List Nat :=
  (al.foldl (fun (b : Nat × Nat × List Nat) e =>
      let w := deskewFrom al e
      if w.length > b.1 || (w.length = b.1 && (e.2.arrival < b.2.1 || (e.2.arrival = b.2.1 && w.headD 4 < b.2.2.headD 4)))
      then (w.length, e.2.arrival, w) else b) (0, 0, [])).2.2

/-- Unit interval times 100, ps (Table 04.2). -/
def uiPs100 (rev : Nat) : Nat := if rev = 2 then 1838 else 3676

/-- What this end's receivers find in one of steps 2 to 5 (R104 to R107, Sequence 04.1): the lanes with it, or the reason for which the step
fails. None where the measurements are not this step's. -/
def LanePort.measure (l : LanePort) (step : Nat) (w : StepWork) : Option (Except Nat LanePort) :=
  match step, w with
  | 2, .clock duty locked =>
    some (if !locked || (40 ≤ duty && duty ≤ 60) then .error 0x0402 else .ok { l with clkInverted := decide (duty < 40) })
  | 3, .gain foms =>
    let rx := l.rx.mapAll fun i x => let b := bestCtle (nth [] foms i); { x with ctle := b.1, fom := b.2 }
    some (.ok { l with rx })
  | 4, .slip probes =>
    let positions := if l.revision = 2 then 340 else 680
    let rx := l.rx.mapAll fun i x =>
      match slipSearch ((nth [] probes i).take positions) 0 with
      | none => { x with aligned := false, failed := true }
      | some (p, inv, id) => { x with aligned := true, failed := false, slip := p, inverted := inv, laneId := id }
    some (.ok { l with rx })
  | 5, .deskew arrivals =>
    if !(l.rx.any fun e => e.2.aligned) then some (.error 0x0403)
    else match laneMap l.rx with
      | none => some (.error 0x0404)
      | some rev =>
        let rx := l.rx.mapAll fun i x => { x with arrival := nth 0 arrivals i }
        let keep := deskewSet (rx.filter fun e => e.2.aligned)
        let l := { l with mapReversed := rev }
        let zero := (Tab.get ({} : RxLane) rx (l.phys 0)).arrival
        let rx := rx.mapAll fun i x => { x with
          failed := x.failed || !keep.contains i,
          failReason := if x.aligned && !keep.contains i then 0x0405 else x.failReason,
          skew := Int.tdiv (((x.arrival : Int) - (zero : Int)) * (uiPs100 l.revision : Int)) 100 }
        some (.ok { l with rx })
  | _, _ => none

/-- The open TRUNK_LOOP completes. -/
def Chip.loopComplete (c : Chip) (n st reason : Nat) : Chip :=
  match (c.laneOf n).loopHandle with
  | none => c
  | some h => (c.setLane n { c.laneOf n with loopHandle := none }).complete h st reason 0

/-- A far-end loop runs once the peer has accepted it and this end has trained its lanes (R119): TRUNK_LOOP completes. -/
def Chip.loopRunning (c : Chip) (n : Nat) : Chip :=
  match (c.laneOf n).loopSt with
  | some k => if k.requester && k.acked && decide (k.step > 5) then c.loopComplete n stOk 0 else c
  | none => c

/-- This end trains its lanes for a far-end loop as in steps 2 to 5 (R119): a step whose work is done gives way to the next. A step that
fails ends the loop at the requesting end, and TRUNK_LOOP is aborted with its reason; the looping end measures again (DESIGN CHOICE, log
entry 47: the rule does not say). -/
def Chip.loopTrain (c : Chip) (n : Nat) (w : StepWork) : Chip :=
  let l := c.laneOf n
  match l.loopSt with
  | none => c
  | some k =>
    match l.measure k.step w with
    | none => c
    | some (.ok l') =>
      ((c.setLane n { l' with loopSt := some { k with step := k.step + 1 } }).stepLine n (Nat.min 5 (k.step + 1))).loopRunning n
    | some (.error e) =>
      if k.requester then ((c.sbPeer n 0x46 (le 1 0 ++ le 1 0)).setLane n l.unloop).loopComplete n stAborted e else c

/-- TRAIN_STEP_LOCAL_DONE (R99, R104 to R107, R112, R115): this end's work of the present step ends with its measurements. A receiver asks
for precoding when its first DFE tap is above 63: the range of the tap is taken as that of DFE1's 8 signed bits, and a negative tap asks for
none (DESIGN CHOICE, log entry 47). -/
def Chip.localDone (c : Chip) (n : Nat) (w : StepWork) : Chip :=
  let l := c.laneOf n
  match l.phase with
  | .train k =>
    match l.measure k w with
    | some (.error e) => c.failAttempt n e true
    | some (.ok l') => (c.setLane n l').stepDone n
    | none =>
      match k, w with
      | 6, .check => if l.eq.all fun e => decide (e.2.tap ≥ 2) then c.stepDone n else c
      | 7, .check => (c.setLane n { l with ownRxset := l.goodSet }).stepDone n
      | 9, .precode dfe =>
        let rx := l.rx.mapAll fun i x => let d := nth 0 dfe i
          { x with dfe1 := d, precode := l.use.precodeAllow && l.revision == 2 && decide (d > 63), last := 0 }
        (c.setLane n { l with rx }).stepDone n
      | _, _ => c
  | .loop => c.loopTrain n w
  | _ => c

def execTrainStepLocalDone (n : Fin 4) (w : StepWork) (s : State) : Host.Outcome State Fault Refusal :=
  onChip s fun c => c.localDone n.val w

/-- STEP_TIMEOUT (R100). -/
def execStepTimeout (n : Fin 4) (s : State) : Host.Outcome State Fault Refusal :=
  onChip s fun c => c.failAttempt n.val 0x0409 true

/-- TRAIN_FAIL_RX (R100). -/
def execTrainFailRx (n : Fin 4) (_step reason : Nat) (s : State) : Host.Outcome State Fault Refusal :=
  onChip s fun c => c.failAttempt n.val 0x040A false reason

/-- A signed 4-bit change. -/
def s4 (x : Nat) : Int := if x ≥ 8 then (x : Int) - 16 else x

/-- One transmit lane after a change within the tap limits, and whether it was clipped (R110): c-1 0 to 12, c+1 0 to 24, main cursor at
least 32. At the main cursor's limit a tap that rises stops; of two that rise together c+1 stops first (DESIGN CHOICE, log entry 47). -/
def TxLane.change (t : TxLane) (dPre dPost : Int) : TxLane × Bool :=
  let wantPre : Int := (t.pre : Int) + dPre
  let wantPost : Int := (t.post : Int) + dPost
  let pre := (max 0 (min 12 wantPre)).toNat
  let post := (max 0 (min 24 wantPost)).toNat
  let above := pre + post - 32
  let cut := Nat.min above (post - t.post)
  let post := post - cut
  let pre := pre - (above - cut)
  ({ t with pre, post }, decide (((pre : Int), (post : Int)) ≠ (wantPre, wantPost)))

/-- Preset taps (Table 04.7). -/
def presetTaps (p : Nat) : Nat × Nat :=
  nth (0, 0) [(0, 0), (0, 4), (0, 8), (0, 12), (4, 8), (4, 12), (6, 16), (8, 20)] p

/-- Apply a request up to the limits and acknowledge it (R110). -/
def Chip.txeqApply (c : Chip) (n seq mode : Nat) (lanes : Bytes) : Chip :=
  let l := c.laneOf n
  let r := (List.range 4).map fun i =>
    let b := (nth 0 lanes i).toNat
    let t := l.tx.get {} i
    if mode = 1 then
      let p := presetTaps (b % 8)
      ({ t with pre := p.1, post := p.2 }, false)
    else t.change (s4 (b / 16)) (s4 (b % 16))
  let tx := r.zipIdx.foldl (fun (tb : Tab TxLane) e => tb.set e.2 e.1.1) l.tx
  let lim := r.zipIdx.foldl (fun m e => if e.1.2 then m + 2 ^ e.2 else m) 0
  let body := le 1 seq ++ (r.map fun e => le 1 e.1.pre ++ le 1 e.1.post).flatten ++ le 1 lim
  (c.setLane n { l with tx, txeqSeen := some (seq, body) }).sbPeer n 0x44 body

/-- TXEQ_REQ_RX (R110): the change is applied up to the limits and acknowledged; a repeated SEQ only repeats its acknowledgement. -/
def Chip.txeqReq (c : Chip) (n seq mode : Nat) (lanes : Bytes) : Chip :=
  let l := c.laneOf n
  match l.txeqSeen with
  | some (q, body) =>
    if q = seq then c.sbPeer n 0x44 body else c.txeqApply n seq mode lanes
  | none => c.txeqApply n seq mode lanes

def execTxeqReqRx (n : Fin 4) (seq mode : Nat) (lanes : Bytes) (s : State) : Host.Outcome State Fault Refusal :=
  onChip s fun c => c.txeqReq n.val seq mode lanes

/-- TXEQ_ACK_RX (R110): the peer's taps are noted; in step 6 each search goes on with the figure of merit measured then. -/
def Chip.txeqAck (c : Chip) (n seq : Nat) (coef : Bytes) (limit : Nat) (foms : List Nat) : Chip :=
  let l := c.laneOf n
  if seq != l.txeqSeq then c
  else
    let rx := l.rx.mapAll fun i x => { x with peerPre := (nth 0 coef (2 * x.laneId)).toNat, peerPost := (nth 0 coef (2 * x.laneId + 1)).toNat,
                                              fom := if l.phase == .train 6 then nth x.fom foms i else x.fom }
    let l := { l with rx }
    match l.phase with
    | .train 6 =>
      let eq := l.eq.mapAll fun i e => e.next (bitOf limit ((Tab.get ({} : RxLane) rx i).laneId)) (nth 0 foms i)
      ((c.setLane n { l with eq }).eqSend n).stepEnd n
    | _ => c.setLane n l

def execTxeqAckRx (n : Fin 4) (seq : Nat) (coef : Bytes) (limit : Nat) (foms : List Nat) (s : State) :
    Host.Outcome State Fault Refusal :=
  onChip s fun c => c.txeqAck n.val seq coef limit foms

/-- Flight limit of a cable class, ps (Table 04.4). -/
def flightLimit (cls : Nat) : Nat :=
  if cls = 1 then 15000 else if cls = 2 then 45000 else if cls = 3 then 1000000 else if cls = 4 then 20000 else 30000

/-- FLIGHT_STAMP_RX (R96, R116): the peer's stamp gives t2 and t3, this end's own t1 and the arrival t4; it gives a result where RX_BLOCK is
a block of this end's own stamps, and the next stamp goes out. A stamp without a result is answered with the stamp of the same INDEX, and the
sixteenth result with INDEX 15, so that both ends come to sixteen (DESIGN CHOICE, log entry 47). After sixteen results flight is their mean;
`peerMean` is the peer's own, with which it must agree within 50 ps. -/
def Chip.flightStamp (c : Chip) (n index txBlock txPs rxBlock rxPs arrivedPs peerMean : Nat) : Chip :=
  let l := c.laneOf n
  match l.phase with
  | .train 8 =>
    if index > 15 then c.failAttempt n 0x0408 true
    else if l.results.length ≥ 16 then c
    else
      let results := match l.stamps.find rxBlock with
        | none => l.results
        | some t1 => l.results ++ [Int.tdiv (((arrivedPs : Int) - t1) - ((txPs : Int) - rxPs)) 2]
      let c := c.setLane n { l with lastBlock := txBlock, lastBlockAt := arrivedPs, results }
      let c := c.sendStamp n (Nat.min 15 results.length)
      if results.length < 16 then c
      else
        let l := c.laneOf n
        let mean : Int := Int.tdiv (results.foldl (· + ·) 0) 16
        let f := mean.toNat
        if (mean - (peerMean : Int)).natAbs > 50 then
          if l.rerun then c.failAttempt n 0x0408 true
          else (c.setLane n { l with rerun := true, results := [], stamps := [] }).sendStamp n 0
        else if f > flightLimit l.cls then c.failAttempt n 0x0407 true
        else (c.setLane n { l with flight := f }).stepDone n
  | _ => c

def execFlightStampRx (n : Fin 4) (index txBlock txPs rxBlock rxPs : Nat) (arrivedPs peerMean : Nat) (s : State) :
    Host.Outcome State Fault Refusal :=
  onChip s fun c => c.flightStamp n.val index txBlock txPs rxBlock rxPs arrivedPs peerMean

/-- The fields of a LINK_CAPS body (Table 05.7). -/
def linkCapsOf (b : Bytes) : LinkCaps :=
  { revs := fld b 0 1, widths2 := fld b 1 1, maxRev := fld b 2 1, maxWidth := fld b 3 1, features := fld b 4 2, gearFmt := fld b 6 1,
    cmdIf := fld b 7 1, role := fld b 8 1, cableClass := fld b 9 1 }

/-- LINK_CAPS_RX (R149): cable class, revision and widest width of the attempt. The transmitters take the preset of the class that both ends
use (Table 04.4). -/
def Chip.linkCapsRx (c : Chip) (n : Nat) (body : Bytes) : Chip :=
  let l := c.laneOf n
  match l.phase with
  | .train 1 =>
    let k := linkCapsOf body
    let own := c.cableClass n
    let cls := if own = k.cableClass then own else 0
    let rev := if bitOf k.revs 1 && l.use.maxRev ≥ 2 && k.maxRev ≥ 2 && classRev2 cls then 2
      else if bitOf k.revs 0 && l.use.maxRev ≥ 1 && k.maxRev ≥ 1 then 1 else 0
    if rev = 0 then c.failAttempt n 0x0420 true
    else
      let t := startPreset cls
      let l := { l with caps := some k, revision := rev, cls, tx := l.tx.mapAll fun _ x => { x with pre := t.1, post := t.2 },
                        rx := l.rx.mapAll fun _ x => { x with peerPre := t.1, peerPost := t.2 } }
      let c := c.setLane n { l with widest := l.widths.headD 0 }
      let c := c.setFrm n { c.frmOf n with peerFeatures := k.features, peerRole := k.role }
      c.stepDone n
  | _ => c

def execLinkCapsRx (n : Fin 4) (body : Bytes) (s : State) : Host.Outcome State Fault Refusal :=
  onChip s fun c => c.linkCapsRx n.val body

/-- LINK_CAPS_REPEAT (R149): in step 1, until the peer's has come. -/
def execLinkCapsRepeat (n : Fin 4) (s : State) : Host.Outcome State Fault Refusal :=
  onChip s fun c =>
    let l := c.laneOf n.val
    if l.phase == .train 1 && l.caps.isNone then c.sbPeer n.val 0x40 (c.linkCapsBody n.val) else c

/-- R108: the figure of merit of a reading, the height in microvolts; fractions are truncated after the multiplication. -/
def fomOf (ehUv ewSteps : Nat) : Nat := Nat.min (Nat.min 255 (ehUv * 4 / 1000)) (Nat.min 255 (ewSteps * 8))

/-- FOM_REFRESH (R108, R113): every receive lane's figure of merit, from readings per physical lane. -/
def execFomRefresh (n : Fin 4) (eyes : List EyeReading) (s : State) : Host.Outcome State Fault Refusal :=
  onChip s fun c =>
    let l := c.laneOf n.val
    let rx := eyes.zipIdx.foldl (fun (t : Tab RxLane) e =>
      if e.2 ≥ 4 then t else
        let x := t.get {} e.2
        let f := fomOf e.1.ehUv e.1.ewSteps
        t.set e.2 { x with fom := f, fomLow := Nat.min x.fomLow f, eh := Nat.min 255 (e.1.ehUv / 1000), ew := Nat.min 64 e.1.ewSteps,
                           dfe1 := e.1.dfe1 }) l.rx
    (c.setLane n.val { l with rx }).noteUsable n.val

/-- LANE_FOM_LOW (R114, R148): an active lane has been below FOM_DEGRADE for 10 ms in DATA; it is reported to framing as failing. On Unxus 1
the trunk leaves DATA. -/
def Chip.laneFomLow (c : Chip) (n i : Nat) : Chip :=
  let l := c.laneOf n
  let x := l.rx.get {} (l.phys i)
  if l.phase == .data && bitOf l.activeRx i && x.fom < l.cfg.fomDegrade then
    let k := l.laneCnt.get {} i
    let c := c.setLane n { l with laneCnt := l.laneCnt.set i { k with fomLow := sat32 k.fomLow 1 } }
    let c := c.post 0x0404 0 (n + 256 * i + 65536 * x.fom)
    if l.revision = 1 then c.linkDown n 0x0422
    else c.setFrm n { c.frmOf n with laneFailing := true }
  else c

def execLaneFomLow (n : Fin 4) (lane : Fin 4) (s : State) : Host.Outcome State Fault Refusal :=
  onChip s fun c => c.laneFomLow n.val lane.val

/-- CLOCK_LANE_LOSS (R114). -/
def execClockLaneLoss (n : Fin 4) (s : State) : Host.Outcome State Fault Refusal :=
  onChip s fun c =>
    if c.inData n.val then
      (c.countLane n.val fun k => { k with clockLoss := sat32 k.clockLoss 1 }).linkDown n.val 0x0402
    else c

/-- ADAPT_LIVE_TIMER (R111): with ADAPT_LIVE, one delta request of one step on a lane whose figure of merit is below FOM_MIN; which tap and
direction the receiver's firmware chooses the spec leaves open. -/
def execAdaptLiveTimer (n : Fin 4) (lane : Fin 4) (up post : Bool) (s : State) : Host.Outcome State Fault Refusal :=
  onChip s fun c =>
    let l := c.laneOf n.val
    let x := l.rx.get {} (l.phys lane.val)
    if l.phase == .data && l.cfg.adaptLive && x.fom < l.cfg.fomMin then
      let d : Int := if up then 1 else -1
      let seq := (l.txeqSeq + 1) % 256
      let c := (c.setLane n.val { l with txeqSeq := seq }).countLane n.val fun k => { k with txeqSent := sat32 k.txeqSent 1 }
      c.sbPeer n.val 0x43 (txeqBody seq [(x.laneId, if post then (0, d) else (d, 0))])
    else c

/-! ### Test loops (R118, R119) -/

/-- The checkers of a test loop that this end sends have compared bits since they were last looked at. How many bits, and how many of them
differ, are free values (the spec gives no number, and the table has no row for the line); errors are no more than bits. -/
def Chip.loopTally (c : Chip) (n : Nat) : Chip :=
  let l := c.laneOf n
  match l.loopSt with
  | none => c
  | some k =>
    if !k.requester || (k.mode = 3 && !(k.acked && decide (k.step > 5))) then c
    else
      let b := c.freshBytes 48
      let add := fun (t : Tab LaneCount) i =>
        let y := t.get {} i
        let bits := fld b (12 * i) 8
        if bitOf k.lanes i then
          t.set i { y with loopBits := sat64 y.loopBits bits, loopErrs := sat32 y.loopErrs (Nat.min bits (fld b (12 * i + 8) 4)) }
        else t
      (c.setLane n { l with laneCnt := (List.range 4).foldl add l.laneCnt }).nextFresh

/-- A loop takes a trunk's lanes. A far-end loop trains them first, as in steps 2 to 5 (R119); no LINK_CAPS fixes its revision, which is the
highest that the cable class and MAX_REV allow (DESIGN CHOICE, log entry 47). -/
def Chip.loopLanes (c : Chip) (n : Nat) (k : LoopState) : Chip :=
  let l := { c.laneOf n with phase := .loop, loopSt := some k }
  if k.mode = 3 then
    let l := l.fresh (startPreset (c.cableClass n)) (c.freshBytes 16)
    (c.nextFresh.setLane n { l with revision := if classRev2 (c.cableClass n) && decide (l.cfg.maxRev ≥ 2) then 2 else 1 }).stepLine n 2
  else c.setLane n l

/-- LOOP_REQ_RX (R119): accepted when ALLOW_FAR_LOOP is 1 and this end is in no loop; MODE 0 ends a far-end loop. -/
def Chip.loopReq (c : Chip) (n mode lanes : Nat) : Chip :=
  let l := c.laneOf n
  if mode = 0 then (match l.loopSt with | some k => if k.requester then c else c.loopEnd n | none => c)
  else match l.loopSt with
    | some k => if k.requester then c.sbPeer n 0x47 (le 1 1 ++ le 2 0x040E) else c.sbPeer n 0x47 (le 1 0 ++ le 2 0)
    | none =>
      if l.cfg.allowFarLoop && !l.cfg.admin then
        let c := c.loopLanes n { mode := 3, lanes := lanes % 16, requester := false, step := 2 }
        (c.setLane n { c.laneOf n with depth := l.peerDepth % 128 + 1 }).sbPeer n 0x47 (le 1 0 ++ le 2 0)
      else c.sbPeer n 0x47 (le 1 1 ++ le 2 0x040E)

def execLoopReqRx (n : Fin 4) (mode lanes : Nat) (s : State) : Host.Outcome State Fault Refusal :=
  onChip s fun c => c.loopReq n.val mode lanes

/-- LOOP_ACK_RX (R119). -/
def execLoopAckRx (n : Fin 4) (result _reason : Nat) (s : State) : Host.Outcome State Fault Refusal :=
  onChip s fun c =>
    let l := c.laneOf n.val
    match l.loopSt with
    | none => c
    | some k =>
      if !k.requester || k.acked then c
      else if result = 0 then (c.setLane n.val { l with loopSt := some { k with acked := true } }).loopRunning n.val
      else (c.setLane n.val l.unloop).loopComplete n.val stDenied 0x040E

/-- LOOP_ACK_TIMEOUT (R119). -/
def execLoopAckTimeout (n : Fin 4) (s : State) : Host.Outcome State Fault Refusal :=
  onChip s fun c =>
    let l := c.laneOf n.val
    match l.loopSt with
    | none => c
    | some k =>
      if k.requester && k.mode = 3 && !k.acked then
        (c.setLane n.val l.unloop).loopComplete n.val stTimeout 0
      else c

/-- LOOP_REQ_REPEAT (R119). -/
def execLoopReqRepeat (n : Fin 4) (s : State) : Host.Outcome State Fault Refusal :=
  onChip s fun c =>
    match (c.laneOf n.val).loopSt with
    | some k => if k.requester && k.mode = 3 then c.sbPeer n.val 0x46 (le 1 3 ++ le 1 k.lanes) else c
    | none => c

/-- LOOP_EXPIRY (R119): 2 s after the last LOOP_REQ. -/
def execLoopExpiry (n : Fin 4) (s : State) : Host.Outcome State Fault Refusal :=
  onChip s fun c =>
    match (c.laneOf n.val).loopSt with
    | some k => if k.requester then c else c.loopEnd n.val
    | none => c

/-! ### Lane commands -/

/-- Two-byte and flag checks shared by the lane commands: TRUNK at byte 0. -/
def trunkOf (x : Ctx) : Nat := fld x.ps 0 1

/-- TRUNK_LANE_CTRL (R93, R109, R120). -/
def bodyTrunkLaneCtrl (x : Ctx) (c : Chip) : Ans × Chip :=
  let n := trunkOf x
  let w := fld x.ps 2 1
  let fl := fld x.ps 8 1
  let cfg : LaneCfg :=
    { admin := fld x.ps 1 1 == 1, maxWidth := w, maxRev := fld x.ps 3 1, fomMin := fld x.ps 4 1, fomDegrade := fld x.ps 5 1,
      follow := fld x.ps 6 1 == 1, followPort := fld x.ps 7 1, precodeAllow := bitOf fl 0, allowFarLoop := bitOf fl 1,
      adaptLive := bitOf fl 2, backoffMs := fld x.ps 10 2 }
  if n > 3 || fld x.ps 1 1 > 1 || !(w = 1 || w = 2 || w = 4) || cfg.maxRev = 0 || cfg.maxRev > 2 || cfg.fomMin < 16 || cfg.fomDegrade < 16
      || cfg.fomDegrade ≥ cfg.fomMin || fld x.ps 6 1 > 1 || cfg.followPort > 3 || fl ≥ 16 || !rsvd x.ps 9 1 || cfg.backoffMs < 100
      || cfg.backoffMs > 60000 || !rsvd x.ps 12 4 then no c stParam
  else if cfg.follow && c.inRole .hub then no c stParam 0x0410
  else if cfg.follow && ((List.range 4).any fun m => m != n && (c.laneOf m).cfg.follow && (c.laneOf m).cfg.followPort != cfg.followPort) then
    no c stParam 0x040F
  else
    let l := c.laneOf n
    let c := c.setLane n { l with cfg }
    let c := if bitOf fl 3 then c.storeConfig fun k => { k with lanes := k.lanes.set n cfg } else c
    let c := if !cfg.admin then
        match (c.laneOf n).phase with
        | .loop => c
        | _ => c.lanesIdle n 0x040C
      else match (c.laneOf n).phase with
        | .loop => let d := c.loopTally n; d.setLane n (d.laneOf n).unloop
        | _ => c
    (ok, c)

def execTrunkLaneCtrl (p : Packet) (s : State) : Host.Outcome State Fault Refusal := runCommand 0x0401 p s bodyTrunkLaneCtrl

/-- STATE of GET_LANE_STATUS (R101, Table 04.11). -/
def Chip.laneState (c : Chip) (n : Nat) : Nat :=
  let l := c.laneOf n
  match l.phase with
  | .loop => 6
  | .data => 5
  | .train _ => 3
  | _ =>
    if !l.cfg.admin then 0
    else if !c.peerThere n then 1
    else if !c.trainPower n then 2
    else 4

/-- A signed value in `n` bytes, two's complement. -/
def leInt (n : Nat) (x : Int) : Bytes := le n (x % (2 ^ (8 * n) : Nat)).toNat

/-- The CFLAGS byte as set. -/
def LaneCfg.cflags (g : LaneCfg) : Nat := b2n g.precodeAllow + 2 * b2n g.allowFarLoop + 4 * b2n g.adaptLive

/-- The record of logical receive lane `i` (Table 04.12). -/
def LanePort.record (l : LanePort) (i : Nat) : Bytes :=
  let p := l.phys i
  let x := l.rx.get {} p
  let t := l.tx.get {} i
  le 1 (p + 16 * b2n x.inverted + 32 * b2n x.precode + 64 * b2n (bitOf l.activeRx i) + 128 * b2n x.failed) ++ le 1 x.fom ++ le 1 x.fomLow ++
    le 1 x.eh ++ le 1 x.ew ++ le 1 x.ctle ++ leInt 1 x.dfe1 ++ le 1 x.peerPre ++ le 1 x.peerPost ++ le 1 t.pre ++ le 1 t.post ++ zeros 1 ++
    le 2 x.slip ++ leInt 2 x.skew

/-- GET_LANE_STATUS (Table 04.11). -/
def bodyGetLaneStatus (x : Ctx) (c : Chip) : Ans × Chip :=
  let n := trunkOf x
  if n > 3 || !rsvd x.ps 1 3 then no c stParam
  else
    let l := c.laneOf n
    (ok (le 1 n ++ le 1 (c.laneState n) ++ le 1 l.revision ++ le 1 l.width ++ le 1 (b2n l.mapReversed + 2 * b2n l.clkInverted) ++
          le 1 (c.cableClass n) ++ le 1 (b2n (l.following || (l.txClock n).isSome) + 2 * (l.txClock n).getD l.use.followPort + 8 * b2n l.syntonyLost + 16 * l.depth) ++
          le 1 (l.activeRx + 16 * l.activeTx) ++ le 4 l.flight ++ leInt 4 (c.cableAsym n) ++ le 2 l.lastFail ++ le 2 l.fails ++
          le 1 l.cfg.fomMin ++ le 1 l.cfg.fomDegrade ++ le 1 l.cfg.cflags ++ zeros 9 ++
          l.record 0 ++ l.record 1 ++ l.record 2 ++ l.record 3), c)

def execGetLaneStatus (p : Packet) (s : State) : Host.Outcome State Fault Refusal := runCommand 0x0402 p s bodyGetLaneStatus

/-- TRUNK_RETRAIN. -/
def bodyTrunkRetrain (x : Ctx) (c : Chip) : Ans × Chip :=
  let n := trunkOf x
  if n > 3 || !rsvd x.ps 1 3 then no c stParam
  else
    let l := c.laneOf n
    if l.phase == .loop then no c stState 0x0412
    else if !l.cfg.admin then no c stState 0x040C
    else if !c.peerThere n then no c stState 0x0401
    else match l.retrain with
      | some (h, _) => if (c.openRec? h).isSome && !c.cancelled h then no c stBusy 0 h else go x c n
      | none => go x c n
where
  /-- take the trunk down, or restart the attempt at step 1 -/
  go (x : Ctx) (c : Chip) (n : Nat) : Ans × Chip :=
    let c := match (c.laneOf n).phase with
      | .train k => c.sbPeer n 0x48 (le 1 k ++ le 2 0x0414)
      | _ => c.linkDown n 0x0414
    let c := c.setLane n { c.laneOf n with retrain := some (x.handle, 0), phase := .idle }
    (accepted, if c.mayTrain n then c.startAttempt n else c)

def execTrunkRetrain (p : Packet) (s : State) : Host.Outcome State Fault Refusal := runCommand 0x0403 p s bodyTrunkRetrain

/-- TRUNK_LOOP (R118, R119). A near-end loop runs, and MODE 0 ends one, at once. -/
def bodyTrunkLoop (x : Ctx) (c : Chip) : Ans × Chip :=
  let n := trunkOf x
  let mode := fld x.ps 1 1
  let pat := fld x.ps 2 1
  let lanes := fld x.ps 3 1
  if n > 3 || mode > 3 || pat > 3 || lanes > 15 || !rsvd x.ps 4 4 then no c stParam
  else
    let l := c.laneOf n
    match l.loopHandle with
    | some h => no c stBusy 0 h
    | none =>
      if l.cfg.admin then no c stState 0x040D
      else if mode = 0 then
        let c := match l.loopSt with
          | some k => if k.mode = 3 && k.requester then c.sbPeer n 0x46 (le 1 0 ++ le 1 0) else c
          | none => c
        let c := match l.loopSt with
          | some _ => let d := c.loopTally n; d.setLane n (d.laneOf n).unloop
          | none => c
        ({ accepted with done := some (stOk, 0, 0) }, c)
      else
        let c := c.loopLanes n { mode, pattern := pat, lanes, step := if mode = 3 then 2 else 6 }
        let c := c.setLane n { c.laneOf n with loopHandle := if mode = 3 then some x.handle else none }
        if mode = 3 then (accepted, c.sbPeer n 0x46 (le 1 3 ++ le 1 lanes))
        else ({ accepted with done := some (stOk, 0, 0) }, c)

def execTrunkLoop (p : Packet) (s : State) : Host.Outcome State Fault Refusal := runCommand 0x0404 p s bodyTrunkLoop

/-- EYE_SCAN. -/
def bodyEyeScan (x : Ctx) (c : Chip) : Ans × Chip :=
  let n := trunkOf x
  let lane := fld x.ps 1 1
  let eye := fld x.ps 2 1
  if n > 3 || lane > 3 || eye > 2 || !rsvd x.ps 3 1 then no c stParam
  else
    let l := c.laneOf n
    if l.revision = 1 && eye != 1 then no c stParam
    else match l.eyeOpen with
      | some (h, _, _) => no c stBusy 0 h
      | none =>
        let active := (l.phase == .data && bitOf l.activeRx lane) || (match l.loopSt with | some k => bitOf k.lanes lane | none => false)
        if !active then no c stState 0x0413
        else (accepted, c.setLane n { l with eyeOpen := some (x.handle, lane, eye) })

def execEyeScan (p : Packet) (s : State) : Host.Outcome State Fault Refusal := runCommand 0x0405 p s bodyEyeScan

/-- EYE_SCAN_DONE (R108): the scan's grid of mismatch counts. -/
def execEyeScanDone (n : Fin 4) (grid : List Nat) (s : State) : Host.Outcome State Fault Refusal :=
  onChip s fun c =>
    let l := c.laneOf n.val
    match l.eyeOpen with
    | none => c
    | some (h, lane, eye) =>
      if c.cancelled h then (c.setLane n.val { l with eyeOpen := none }).complete h stAborted 0x0007 0
      else
        let k := l.scanSerial + 1
        (c.setLane n.val { l with eyeOpen := none, scanSerial := k,
                                  scans := l.scans.set lane { serialNo := k, eye, grid := grid.map (Nat.min 0xFFFF) } }).complete h stOk 0 0

/-- GET_EYE. -/
def bodyGetEye (x : Ctx) (c : Chip) : Ans × Chip :=
  let n := trunkOf x
  let lane := fld x.ps 1 1
  if n > 3 || lane > 3 || !rsvd x.ps 2 2 then no c stParam
  else match (c.laneOf n).scans.find lane with
    | none => no c stState 0x0413
    | some r =>
      (ok (le 1 n ++ le 1 lane ++ le 1 r.eye ++ zeros 1 ++ le 4 r.serialNo ++ ((List.range 1089).map fun i => le 2 (nth 0 r.grid i)).flatten), c)

def execGetEye (p : Packet) (s : State) : Host.Outcome State Fault Refusal := runCommand 0x0406 p s bodyGetEye

/-- GET_LANE_COUNTERS (R121), with what a running loop's checkers have counted. -/
def bodyGetLaneCounters (x : Ctx) (c : Chip) : Ans × Chip :=
  let n := trunkOf x
  let ctl := fld x.ps 1 1
  if n > 3 || ctl > 1 || !rsvd x.ps 2 2 then no c stParam
  else if ctl = 1 && x.lvl != 1 then no c stDenied 0x0002
  else
    let c := c.loopTally n
    let l := c.laneOf n
    let k := l.cnt
    let t := le 4 k.attempts ++ le 4 k.failed ++ le 4 k.linkUp ++ le 4 k.linkDown ++ le 4 k.clockLoss ++ le 4 k.followSwitch ++ le 4 k.txeqSent ++ zeros 4
    let lane := fun i => let y := l.laneCnt.get {} i
      le 8 y.corrected ++ le 8 y.loopBits ++ le 4 y.loopErrs ++ le 4 y.fomLow ++ le 4 y.alignLoss ++ zeros 4
    (ok (t ++ lane 0 ++ lane 1 ++ lane 2 ++ lane 3),
     if ctl = 1 then c.setLane n { l with cnt := {}, laneCnt := [] } else c)

def execGetLaneCounters (p : Packet) (s : State) : Host.Outcome State Fault Refusal := runCommand 0x0407 p s bodyGetLaneCounters

end Sys2Proof.Machine
end

