-- ==== Sys2Proof/Machine/Lifetime.lean ====
section
/-!
DEFINITION. Chapter 21: the recorder's ticks and saves, and the lifetime commands.
-/
namespace Sys2Proof.Machine

/-- Samples of a second (Table 21.2). -/
def Chip.lifeSamples (c : Chip) (r : TickReading) : Chip :=
  let clampBin := fun (x : Int) => Nat.min 15 x.toNat
  let c := c.sample 0 (if r.tj < -30 then 0 else clampBin ((r.tj + 30) / 10 + 1))
  let c := c.sample 1 (clampBin ((r.coreMv + 40) / 5))
  let c := c.sample 2 (Nat.min 15 (r.watts / 4))
  let c := (List.range 4).foldl (fun (c : Chip) n =>
    if !c.inData n then c
    else
      let l := c.laneOf n
      let foms := (lanesOf l.activeRx).map fun i => (l.rx.get {} (l.phys i)).fom
      let low := foms.foldl Nat.min (foms.headD 0)
      let f := c.frmOf n
      let since := fun (now old : Nat) => if now ≥ old then now - old else now
      let c := ((c.sample 3 (Nat.min 15 (low / 16))).sample 4 (logBin (since (f.cnt.get 0 2) (c.life.lastCorr.get 0 n)))).sample 5
        (logBin (since (f.cnt.get 0 3) (c.life.lastUncorr.get 0 n)))
      c) c
  let c := c.setLife fun l => { l with
    lastCorr := (List.range 4).map fun n => (n, (c.frmOf n).cnt.get 0 2)
    lastUncorr := (List.range 4).map fun n => (n, (c.frmOf n).cnt.get 0 3) }
  let c := if c.time.state == .locked then c.sample 8 (logBin (c.time.offsetPs.natAbs / 1000)) else c
  let s := Nat.max 1 c.sEff
  let c := c.sample 11 (Nat.min 15 (16 * Nat.max c.fab.pot.peakShared (c.poolUsed .shared) / s))
  c.setPot fun p => { p with peakShared := c.poolUsed .shared }

/-- LIFETIME_TICK (R488, R490): a second of kettle time. -/
def execLifetimeTick (r : TickReading) (s : State) : Host.Outcome State Fault Refusal :=
  onChip s fun c =>
    let c := c.bump 0 1
    let c := if r.hot then c.bump 10 1 else c
    let c := if c.dev.mode == .keepalive then c.bump 13 1 else if c.dev.mode == .quiet then c.bump 14 1 else c
    c.lifeSamples r

/-- LIFETIME_PERIODIC_SAVE (R492): 900 s of POWERED_S have passed. -/
def execLifetimePeriodicSave (s : State) : Host.Outcome State Fault Refusal :=
  onChip s fun c => (c.setLife fun l => { l with lastPeriodic := c.poweredS }).lifeSave s.fuses.lifecycle 2 0

/-- LIFETIME_SAVE_DONE (R491, R492): whether the journal slot was written, and the Crock copy, which a periodic or commanded save also gets in HUB
and DOCK while the Crock is READY. -/
def execLifetimeSaveDone (flash crock : Bool) (s : State) : Host.Outcome State Fault Refusal :=
  onChip s fun c =>
    match c.life.saving with
    | none => c
    | some v =>
      let r := v.record
      let copy := crock && !bitOf r.rflags 0 && c.storeReady && (c.inRole .hub || c.inRole .dock)
      let done := flash || copy
      let c := c.setLife fun l => { l with
        saving := none, slot := (l.slot + 1) % 512
        journal := if flash then l.journal.set l.slot r else l.journal.erase l.slot
        crockCopy := if copy then some r else l.crockCopy
        saveSeq := if done then r.seq else l.saveSeq }
      let c := if done then c else c.post 0x1002 0x1003 (r.seq % 2 ^ 32)
      let c := if v.handle = 0 then c else if done then c.complete v.handle stOk 0 0 else c.complete v.handle stMedia 0x1003 0
      match c.life.next with
      | [] => c
      | n :: rest => (c.setLife fun l => { l with next := rest }).lifeStart s.fuses.lifecycle n.record.rflags n.handle

/-- LIFETIME_CROCK_RESTORE (R493): the Crock island has started. -/
def execLifetimeCrockRestore (s : State) : Host.Outcome State Fault Refusal := onChip s fun c => c.lifeFromCrock

/-- LIFETIME_GET (R489). -/
def bodyLifetimeGet (x : Ctx) (c : Chip) : Ans × Chip := (ok (c.lifeSnap x.fuses.lifecycle 8 c.life.saveSeq).bytes, c)

def execLifetimeGet (p : Packet) (s : State) : Host.Outcome State Fault Refusal := runCommand 0x1001 p s bodyLifetimeGet

/-- LIFETIME_EXPORT (R494). -/
def bodyLifetimeExport (x : Ctx) (c : Chip) : Ans × Chip :=
  let signs := identityOk x.fuses.lifecycle
  let b := (c.lifeSnap x.fuses.lifecycle 8 c.life.saveSeq).bytes ++ sliceB x.ps 0 32 ++ sliceB x.fuses.serialNo 0 12 ++
    sliceB (Config.sha384 c.dev.meas.flatten) 0 48 ++ le 4 (b2n (!signs))
  let sig := if signs then sliceB (Config.ecdsaSign c.identityKey b c.clk.fresh) 0 96 else zeros 96
  (ok (b ++ sig), c.nextFresh)

def execLifetimeExport (p : Packet) (s : State) : Host.Outcome State Fault Refusal := runCommand 0x1002 p s bodyLifetimeExport

/-- LIFETIME_SAVE (R492): commits on acceptance. -/
def bodyLifetimeSave (x : Ctx) (c : Chip) : Ans × Chip :=
  let open_ := (c.life.saving.toList ++ c.life.next).find? fun v => v.handle != 0 && (c.openRec? v.handle).isSome
  match open_ with
  | some v => (busyWith v.handle, c)
  | none => ({ accepted with committed := true }, c.lifeSave x.fuses.lifecycle 4 x.handle)

def execLifetimeSave (p : Packet) (s : State) : Host.Outcome State Fault Refusal := runCommand 0x1003 p s bodyLifetimeSave

end Sys2Proof.Machine
end

