-- ==== Sys2Proof/Machine/Modes.lean ====
section
/-!
DEFINITION. Chapter 03: resets, start-up, modes and firmware commands.
-/
namespace Sys2Proof.Machine

/-- POWER_ON_RESET (R76, R498): PORST_L low for `lowNs`. Below 980 ns it is ignored, from 1,020 ns it always resets; between the two the
spec leaves it open (a free choice), and in neither case is there partial state. -/
def execPowerOnReset (lowNs : Nat) (straps : Straps) (s : State) : Host.Outcome State Fault Refusal :=
  if lowNs < 980 then .next s
  else if lowNs < 1020 && !Config.porstMiddle s.chip.clk.fresh then onChip s Chip.nextFresh
  else .next (powerOn straps s.fusesInterrupted)

/-- VDD_AON_BROWNOUT (R503): a power-on reset. -/
def execVddAonBrownout (straps : Straps) (s : State) : Host.Outcome State Fault Refusal :=
  .next (powerOn straps s.fusesInterrupted)

/-- WARM_RESET (R76, R89): the warm reset that RESET_DEVICE requested begins. -/
def execWarmReset (straps : Straps) (s : State) : Host.Outcome State Fault Refusal :=
  if s.chip.dev.resetReq = 1 then .next (warmResetWith straps 0x010F s.fusesInterrupted) else .next s

/-- COMMAND_RESET (R76, R89): the command reset that RESET_DEVICE requested begins. -/
def execCommandReset (s : State) : Host.Outcome State Fault Refusal :=
  if s.chip.dev.resetReq = 2 then onChip s.fusesInterrupted fun c => c.commandReset 0x010F else .next s

/-- CC_WATCHDOG_EXPIRY (R75): a command reset, or a warm reset within 60 s of a command reset. -/
def execCcWatchdogExpiry (straps : Straps) (s : State) : Host.Outcome State Fault Refusal :=
  let s := { s with chip := s.chip.bump 4 1 }.fusesInterrupted
  match s.chip.dev.lastCmdReset with
  | some t =>
    if s.chip.clk.powerPs < t + 60 * 10 ^ 12 then .next (warmResetWith straps 0x0116 s) else onChip s fun c => c.commandReset 0x0116
  | none => onChip s fun c => c.commandReset 0x0116

/-- KETTLE_WATCHDOG_EXPIRY (R67): a warm reset with reason WATCHDOG. -/
def execKettleWatchdogExpiry (straps : Straps) (s : State) : Host.Outcome State Fault Refusal :=
  .next (warmResetWith straps 0x0116 { s with chip := s.chip.bump 4 1 }.fusesInterrupted)

/-- The next step of the island start (R82), if the plan has one. -/
def Chip.nextIsland (c : Chip) : Option Nat := c.islandPlan.find? fun i => !c.dev.islands.contains i

/-- After step 2 the kettle goes to KEEPALIVE in DOCK and RELAY without a valid local feed and with the safe rail present
(Table 03.2, R25), unless a contract is READY: then the start goes on, as R25 says it does once a contract reaches READY. -/
def Chip.bootKeepalive (c : Chip) : Bool :=
  (c.inRole .dock || c.inRole .relay) && c.dev.mode == .boot && !c.localFeedValid && c.safeRailPresent && c.contractsSafeOrAbsent

/-- ISLAND_START_STEP (R82): the next island of Table 03.7 starts; step 3 needs the self-tests to have passed. When none is left the
start is complete and the transition to the role mode begins. -/
def Chip.islandStep (c : Chip) (pages : List OnfiPage) (lostVols : List Nat) : Chip :=
  if !c.dev.starting then c
  else match c.nextIsland with
    | none =>
      let c := { c with dev := { c.dev with starting := false, islandStep := 0 } }
      match c.dev.mode, c.dev.role with
      | .boot, some r => c.trigger { target := r.mode, reason := 0x0113 }
      | _, _ => c
    | some i =>
      if i = 3 && c.bootKeepalive then
        { c with dev := { c.dev with starting := false, islandStep := 0 } }.trigger { target := .keepalive, reason := 0x0111, condition := true }
      else if i = 3 && !c.dev.selftestOk then c
      else ({ c with dev := { c.dev with islands := c.dev.islands ++ [i], islandStep := i } }).islandStarted i pages lostVols

def execIslandStartStep (pages : List OnfiPage) (lostVols : List Nat) (s : State) : Host.Outcome State Fault Refusal :=
  onChip s fun c => c.islandStep pages lostVols

/-- ISLAND_SETTLE_TIMEOUT (R83). DESIGN CHOICE (log entry 25): while KEEPALIVE is being left, RECOVERY is triggered behind the transition in progress
(R68), so the role mode is reached first, without the islands not started; the spec does not say which comes first. -/
def execIslandSettleTimeout (s : State) : Host.Outcome State Fault Refusal :=
  onChip s fun c =>
    if !c.dev.starting || c.dev.islandStep = 0 then c
    else
      let i := c.dev.islandStep
      { c with dev := { c.dev with islands := c.dev.islands.filter (· != i), islandStep := 0, starting := false } }.trigger
        { target := .recovery, reason := 0x0107 }

/-- SEC_SELFTEST_DONE (R83). -/
def execSecSelftestDone (pass : Bool) (s : State) : Host.Outcome State Fault Refusal :=
  onChip s fun c =>
    if pass then { c with dev := { c.dev with selftestOk := true } } else c.lockdown 0x010B

/-- MODE_TRANSITION_DONE (R67, R68). -/
def execModeTransitionDone (s : State) : Host.Outcome State Fault Refusal := onChip s Chip.transDone

/-- FIRMWARE_REHASH (R81): `same` when the hashes of the loaded task-core and SEC code still match. -/
def execFirmwareRehash (same : Bool) (s : State) : Host.Outcome State Fault Refusal :=
  onChip s fun c => if same then c else c.lockdown 0x010D

/-- TAMPER_ASSERT (R71): all keys and persisted blobs are zeroized and the part enters LOCKDOWN. -/
def execTamperAssert (s : State) : Host.Outcome State Fault Refusal :=
  onChip s fun c =>
    let c := { c with dev := { c.dev with tamperL := true, tamperSeen := true } }
    if c.dev.mode == .lockdown then c.zeroizeAll true true 0x010C else c.lockdown 0x010C

/-- GET_MODE (Table 03.10). -/
def bodyGetMode (x : Ctx) (c : Chip) : Ans × Chip :=
  let d := c.dev
  let rm := match d.role with | none => 0xFF | some r => r.mode.code
  let bf := d.bflags
  (ok (le 1 d.mode.code ++ le 1 rm ++ le 1 (d.strapRole.toNat + 4 * d.strapBoot.toNat) ++ le 1 x.fuses.roleLock.toNat ++ le 1 d.bootSlot ++
        le 1 d.resetKind ++ le 2 d.cause ++ le 1 x.fuses.rollback ++ le 1 d.runSvn ++ le 1 bf ++ zeros 1 ++
        le 4 (c.clk.upPs / 10 ^ 12)), c)

def execGetMode (p : Packet) (s : State) : Host.Outcome State Fault Refusal := runCommand 0x0101 p s bodyGetMode

/-- A transition is asked for under a handle; once it has begun the handle is past its commit point. -/
def Chip.modeAnswer (c : Chip) (x : Ctx) (t : Trans) : Ans × Chip :=
  let c := c.trigger t
  let begun := match c.dev.trans with | some y => y.handle == x.handle | none => false
  ({ accepted with committed := begun }, c)

/-- ENTER_QUIET (R70, Table 03.12). -/
def bodyEnterQuiet (x : Ctx) (c : Chip) : Ans × Chip :=
  let w := fld x.ps 0 4
  if w ≥ 32 then no c stParam
  else if !c.dev.mode.isRole then no c stState 0x000B
  else match c.shiftHandle with
    | some h => no c stBusy 0 h
    | none =>
      if c.limpMissing then no c stNoResource 0x0101
      else
        let c := { c with dev := { c.dev with wake := w } }
        c.modeAnswer x { target := .quiet, reason := 0x010F, handle := x.handle }

def execEnterQuiet (p : Packet) (s : State) : Host.Outcome State Fault Refusal := runCommand 0x0102 p s bodyEnterQuiet

/-- EXIT_QUIET (Table 03.12). -/
def bodyExitQuiet (x : Ctx) (c : Chip) : Ans × Chip :=
  if c.dev.mode != .quiet then no c stState 0x000B
  else c.modeAnswer x { target := c.dev.quietFrom, reason := 0x010F, handle := x.handle }

def execExitQuiet (p : Packet) (s : State) : Host.Outcome State Fault Refusal := runCommand 0x0103 p s bodyExitQuiet

/-- The handle that RESET_DEVICE would cut short: that of an open commit, rollback or shift (R89); of several, the one accepted earliest
(R36). -/
def Chip.resetBlocker (c : Chip) : Option Nat :=
  let holds := [c.dev.commit.map Prod.fst, c.dev.rollback, c.shiftHandle]
  (c.cmd.handles.find? fun r => !r.complete && holds.contains (some r.handle)).map fun r => r.handle

/-- RESET_DEVICE (R89). -/
def bodyResetDevice (x : Ctx) (c : Chip) : Ans × Chip :=
  let k := fld x.ps 0 1
  let f := fld x.ps 1 1
  if k = 0 || k > 2 || f > 1 || !rsvd x.ps 2 2 then no c stParam
  else match (if f = 1 then none else c.resetBlocker) with
    | some h => no c stBusy 0 h
    | none => (ok, { c with dev := { c.dev with resetReq := k } })

def execResetDevice (p : Packet) (s : State) : Host.Outcome State Fault Refusal := runCommand 0x0104 p s bodyResetDevice

/-- ENTER_RECOVERY (R68): the reply is posted once the transition begins or is dropped. -/
def bodyEnterRecovery (x : Ctx) (c : Chip) : Ans × Chip :=
  ({ hold := true }, c.trigger { target := .recovery, reason := 0x010F, reply := some (x.sess, x.tag) })

def execEnterRecovery (p : Packet) (s : State) : Host.Outcome State Fault Refusal := runCommand 0x0105 p s bodyEnterRecovery

/-- The staging slot (R86). -/
def Chip.stagingSlot (c : Chip) : Nat :=
  if c.dev.bootSlot ≤ 1 then 1 - c.dev.bootSlot
  else match c.flash.dirInUse with
    | some (d, _) => 1 - d.active
    | none => 0

/-- Device-space address of a byte of the staging slot (Tables 03.5, 20.2). -/
def stagingAddr (slot off : Nat) : Nat := 0x20000000 + (if slot = 0 then 1048576 else 30408704) + off

/-- Put bytes into a firmware slot. -/
def Flash.putSlot (fl : Flash) (slot : Nat) (b : Bytes) : Flash :=
  if slot = 0 then { fl with slotA := b } else { fl with slotB := b }

/-- IMAGE_WRITE (R86). DESIGN CHOICE (log entry 25): it is accepted while an IMAGE_COMMIT is open too; the spec does not say. -/
def bodyImageWrite (x : Ctx) (c : Chip) : Ans × Chip :=
  let off := fld x.ps 0 4
  let data := x.ps.drop 8
  if !rsvd x.ps 4 4 then no c stParam
  else
    let owned := match c.dev.stagingOwner with | some o => o != x.sess | none => false
    if owned then no c stState 0x0106
    else if off + data.length > 29360128 then no c stLength 0x0104
    else if off != 0 && (c.dev.stagingOwner.isNone || off != c.dev.staged) then no c stParam 0x0105
    else
      let slot := c.stagingSlot
      let g := c.gkCommand x 1 (stagingAddr slot off) data.length
      if !g.2 then (err stDenied 0x0F04, g.1)
      else
        let old := if off = 0 then [] else c.flash.slotImg slot
        (ok, { c with flash := c.flash.putSlot slot (old ++ data),
                      dev := { c.dev with stagingOwner := some x.sess, staged := off + data.length } })

def execImageWrite (p : Packet) (s : State) : Host.Outcome State Fault Refusal := runCommand 0x0106 p s bodyImageWrite

/-- IMAGE_COMMIT (R87): the sizes are checked at once, the rest by IMAGE_COMMIT_DONE. -/
def bodyImageCommit (x : Ctx) (c : Chip) : Ans × Chip :=
  let len := fld x.ps 0 4
  let img := c.flash.slotImg c.stagingSlot
  match c.dev.commit with
  | some (h, _) => no c stBusy 0 h
  | none =>
    let owned := match c.dev.stagingOwner with | some o => o != x.sess | none => false
    if owned then no c stState 0x0106
    else if c.dev.stagingOwner.isNone || len != c.dev.staged || len != fld img 8 4 || len > 29360128 then no c stParam 0x0104
    else (accepted, { c with dev := { c.dev with commit := some (x.handle, len) } })

def execImageCommit (p : Packet) (s : State) : Host.Outcome State Fault Refusal := runCommand 0x0107 p s bodyImageCommit

/-- The directory update of R77: GENERATION one above the copy in use, written to the copy not in use. -/
def Flash.dirUpdate (fl : Flash) (active : Nat) : Flash :=
  match fl.dirInUse with
  | some (d, true) => { fl with dirB := { gen := d.gen + 1, active, crcOk := true } }
  | some (d, false) => { fl with dirA := { gen := d.gen + 1, active, crcOk := true } }
  | none => { fl with dirA := { gen := 1, active, crcOk := true } }

/-- IMAGE_COMMIT_DONE (R87): the ROM's checks are applied to the staged image and the directory is written, or the handle completes
with the check that failed; staging ends. -/
def imageCommitDone (mediaOk : Bool) (f : Fuses) (c : Chip) : Chip :=
  match c.dev.commit with
  | none => c
  | some (h, _) =>
    let slot := c.stagingSlot
    let c1 := { c with dev := { c.dev with commit := none, stagingOwner := none, staged := 0 } }
    if c.cancelled h then c1.complete h stAborted 0x0007 0
    else match verifyImage f (c.flash.slotImg slot) with
      | .skip => c1.complete h stCertFail 0x0103 0
      | .sigFail => c1.complete h stCertFail 0x0103 0
      | .rolledBack => c1.complete h stCertFail 0x0102 0
      | .good _ _ _ _ =>
        if !mediaOk then c1.complete h stMedia 0 0
        else (({ c1 with flash := c.flash.dirUpdate slot }).bump 8 1).complete h stOk 0 0

def execImageCommitDone (mediaOk : Bool) (s : State) : Host.Outcome State Fault Refusal := onChip s (imageCommitDone mediaOk s.fuses)

/-- COMMIT_ROLLBACK (R88): the first fuse bit is being blown when it is accepted, so it is past its commit point from the start (DESIGN CHOICE,
log entry 25: no row stands between the two). DESIGN CHOICE (log entry 25): with no running image there is nothing to blow, and a second COMMIT_ROLLBACK
while one is open is BUSY; the spec states neither. -/
def bodyCommitRollback (x : Ctx) (c : Chip) : Ans × Chip :=
  if !c.dev.mode.isRole then no c stState 0x000B
  else match c.dev.rollback with
    | some h => no c stBusy 0 h
    | none =>
      if c.dev.runSvn > 64 || x.fuses.rollback ≥ c.dev.runSvn then ({ accepted with done := some (stOk, 0, 0) }, c)
      else ({ accepted with committed := true }, { c with dev := { c.dev with rollback := some x.handle } })

def execCommitRollback (p : Packet) (s : State) : Host.Outcome State Fault Refusal := runCommand 0x0108 p s bodyCommitRollback

/-- COMMIT_ROLLBACK_DONE (R80, R88): the counter equals the running image's SVN, and the handle completes. When a fuse does not read back as
blown the handle completes with STATUS_INTERNAL; how many bits were blown before it is a free value below the number that was wanted. -/
def execCommitRollbackDone (readBackOk : Bool) (s : State) : Host.Outcome State Fault Refusal :=
  match s.chip.dev.rollback with
  | none => .next s
  | some h =>
    let c1 := { s.chip with dev := { s.chip.dev with rollback := none } }
    let want := s.fuses.rollbackLeft s.chip.dev.runSvn
    if readBackOk then
      .next { s with chip := c1.complete h stOk 0 0, fuses := { s.fuses with rollback := s.fuses.rollback + want } }
    else .next { s with chip := (c1.complete h stInternal 0 0).nextFresh,
                        fuses := { s.fuses with rollback := s.fuses.rollback + s.chip.freshNat % Nat.max 1 want } }

/-- GET_MEASUREMENTS (R85). -/
def bodyGetMeasurements (_x : Ctx) (c : Chip) : Ans × Chip := (ok c.dev.meas.flatten, c)

def execGetMeasurements (p : Packet) (s : State) : Host.Outcome State Fault Refusal := runCommand 0x0109 p s bodyGetMeasurements

/-- EXTEND_M7 (R85). -/
def bodyExtendM7 (x : Ctx) (c : Chip) : Ans × Chip := (ok, { c with dev := c.dev.extendM 7 x.ps })

def execExtendM7 (p : Packet) (s : State) : Host.Outcome State Fault Refusal := runCommand 0x010A p s bodyExtendM7

/-- The role-lock field after the bits of `want` have been blown, of which those of `got` read back as blown (R74). -/
def Fuses.blowRole (f : Fuses) (want got : BitVec 3) : Fuses := { f with roleLock := f.roleLock ||| (want &&& got) }

/-- LOCK_ROLE (R74): the field is blown once, in lifecycle BLANK or PROVISIONED. Which bits read back as blown is a free value; when one does not,
the command returns STATUS_INTERNAL (Table 03.12). -/
def bodyLockRole (x : Ctx) (c : Chip) (f : Fuses) : Ans × Chip × Fuses :=
  let r := fld x.ps 0 1
  let want := BitVec.ofNat 3 (4 + r)
  let g := f.blowRole want (Config.fuseBlown c.clk.fresh)
  if r > 2 || !rsvd x.ps 1 3 then (err stParam, c, f)
  else if bitOf f.roleLock.toNat 2 || f.lifecycle > 1 then (err stState 0x010E, c, f)
  else if g.roleLock &&& want == want then (ok, c.nextFresh, g)
  else (err stInternal, c.nextFresh, g)

def execLockRole (p : Packet) (s : State) : Host.Outcome State Fault Refusal :=
  let r := runCommandA 0x010B p s.fuses s.guard bodyLockRole s.chip s.fuses
  .next { s with chip := r.1, fuses := r.2 }

/-- FW_RUNNING (R293): the control complex runs again and opens its transports. -/
def execFwRunning (s : State) : Host.Outcome State Fault Refusal :=
  onChip s fun c =>
    if c.dev.mode == .boot then c
    else
      let c := { c with dev := { c.dev with fwRunning := true } }
      (c.host.qps.keysWhere fun _ _ => true).foldl (fun c k => c.sqFetch (k / 64) (k % 64)) c

/-- THERM_TRIP (R509). -/
def execThermTrip (s : State) : Host.Outcome State Fault Refusal :=
  onChip s fun c => ({ c with dev := { c.dev with thermTrip := true } }).drive .thermTrip 0

end Sys2Proof.Machine
end

