-- ==== Sys2Proof/Machine/Time.lean ====
section
/-!
DEFINITION. Chapter 10: time commands, steps, trunk time cells and the PPS pins.
-/
namespace Sys2Proof.Machine

/-- TIME_GET (Table 10.8). -/
def bodyTimeGet (_ : Ctx) (c : Chip) : Ans × Chip :=
  let t := c.time
  let f := c.appliedFreq
  let d := c.ownDataset
  let flags := b2n f.2 + 2 * b2n t.pending.isSome + 4 * b2n t.refused.isSome + 8 * b2n c.syntonized
  let pps := match t.pps.lastIn with
    | some x => le 4 ((x % 10 ^ 12) / 1000) ++ le 4 (x / 10 ^ 12)
    | none => zeros 8
  (ok (c.stamp ++ le 1 t.state.code ++ le 1 t.source ++ le 1 flags ++ le 1 t.stepCount ++ le 4 (unsigned 32 f.1) ++ le 8 (unsigned 64 t.offsetPs) ++
    le 6 c.turn ++ zeros 2 ++ le 8 d.gm ++ le 2 d.stepsRemoved ++ le 2 d.utcOffset ++ pps ++ le 4 (unsigned 32 t.refusedUs)), c)

def execTimeGet (p : Packet) (s : State) : Host.Outcome State Fault Refusal := runCommand 0x0501 p s bodyTimeGet

/-- TIME_SET's step by `d` ps (R257, R259, R269). -/
def Chip.commandStep (c : Chip) (d : Int) (force : Bool) : Ans × Chip :=
  if c.time.pending.isSome then no c stState 0x0502
  else if c.stepChecked && !force && d.natAbs > c.time.cfg.threshold * 1000 then no c stState 0x0501
  else
    let c := if force then c.setTime fun t => { t with refused := none, refusedSince := none } else c
    let c := c.decideStep d true 0
    let at' := match c.time.pending with | some s => s.atTurn | none => 0
    (ok [] (at' % 2 ^ 32), c)

/-- TIME_SET (R269). -/
def bodyTimeSet (x : Ctx) (c : Chip) : Ans × Chip :=
  let op := fld x.ps 0 1
  let fl := fld x.ps 1 1
  let freq := sfld x.ps 4 4
  let ns := fld x.ps 16 4
  if op > 2 || fl > 1 || !rsvd x.ps 2 2 || !rsvd x.ps 20 4 then no c stParam
  else if op = 0 && (fld x.ps 8 8 ≥ 2 ^ 48 || ns > 999999999) then no c stParam
  else if op = 2 && (freq < -4294967 || freq > 4294967) then no c stParam
  else if op = 0 then c.commandStep ((fld x.ps 8 8 * 10 ^ 12 + ns * 1000 : Nat) - (c.clk.localPs : Int)) (bitOf fl 0)
  else if op = 1 then
    if !c.timeSet then no c stTimeUnset else c.commandStep (sfld x.ps 8 8 * 1000) (bitOf fl 0)
  else if c.time.source != 0 then no c stState 0x0503
  else (ok, c.setTime fun t => { t with freqAdj := freq })

def execTimeSet (p : Packet) (s : State) : Host.Outcome State Fault Refusal := runCommand 0x0502 p s bodyTimeSet

/-- A source code of Table 10.7. -/
def sourceCode (s : Nat) : Bool := s = 0 || (decide (0x10 ≤ s) && decide (s ≤ 0x13)) || (decide (0x20 ≤ s) && decide (s ≤ 0x23)) || s = 0x30

/-- TIME_CONFIG (R269, Table 10.7): the settings wait for the next servo sample. -/
def bodyTimeConfig (x : Ctx) (c : Chip) : Ans × Chip :=
  let b := x.ps
  let src := (sliceB b 0 8).map BitVec.toNat
  let g : TimeCfg := { sources := src, threshold := fld b 8 4, afterConfirm := fld b 12 1 == 1, confirmS := fld b 14 2, holdoverS := fld b 16 4,
                       lockNs := fld b 20 2, slewPpm := fld b 22 2, asymAdj := (List.range 4).map fun i => sfld b (24 + 2 * i) 2 }
  if src.any (fun s => !sourceCode s) || g.threshold < 1000 || g.threshold > 1000000000 || fld b 12 1 > 1 || fld b 13 1 > 1 || g.confirmS < 1
      || g.confirmS > 600 || g.holdoverS < 1 || g.holdoverS > 86400 || g.lockNs < 10 || g.lockNs > 10000 || g.slewPpm < 1 || g.slewPpm > 1000 then
    no c stParam
  else
    let c := c.setTime fun t => { t with cfgNext := some g }
    (ok, if fld b 13 1 = 1 then c.storeConfig fun k => { k with time := some g } else c)

def execTimeConfig (p : Packet) (s : State) : Host.Outcome State Fault Refusal := runCommand 0x0503 p s bodyTimeConfig

/-- PPS_SET (R268): without IN_ON, PPS_IN is no source. -/
def bodyPpsSet (x : Ctx) (c : Chip) : Ans × Chip :=
  let b := x.ps
  let off := sfld b 4 4
  let w := fld b 8 4
  if fld b 0 1 > 7 || !rsvd b 1 3 || !rsvd b 12 4 || off < -500000000 || off > 500000000 || w < 1000 || w > 500000 then no c stParam
  else (ok, (c.setTime fun t => { t with pps := { t.pps with flags := fld b 0 1, offset := off, width := w } }).selectSource)

def execPpsSet (p : Packet) (s : State) : Host.Outcome State Fault Refusal := runCommand 0x0505 p s bodyPpsSet

/-! ### Steps (R196, R259 to R262) -/

/-- The clock jumps at B, which it has reached: the adjusted turn begins, promises are suspended, an open shift follows R196. -/
def Chip.stepApply (c : Chip) (s : TimeStep) : Chip :=
  let old := c.turn
  let start := s.newStart
  let new := s.newTurn
  let c := { c with clk := { c.clk with localPs := start + (c.clk.localPs - s.atPs), adj := some (new, start, start + turnPs + stepExt s.dq * 1000) } }
  let c := c.setTime fun t => { t with pending := none, stepCount := (t.stepCount + 1) % 256, slew := t.slew + s.rest }
  let c := c.post 0x0502 s.reason (unsigned 56 s.dq + c.time.stepCount * 2 ^ 56)
  let c := if c.time.state == .unset && s.commanded then c.timeState .freerun 0x0508 else c
  let c := (c.tids fun i t => t.state.live && t.outPort < 4 && c.contracted i).foldl (fun c i => c.suspend i 0x03F2 (c.tunOf i).outPort) c
  match c.gear.shift with
  | none => c
  | some x =>
    let decide16 := (x.target + 2 ^ 48 - 16) % 2 ^ 48
    if !x.committed && seqBefore 48 old decide16 && seqBefore 48 decide16 new then c.shiftAbort 0x031B 0xFF
    else if x.committed && seqBefore 48 x.target new then c.shiftApply
    else c

/-- TIME_STEP_APPLY (R259, R262): boundary B, which has been put off while the clock has not reached it. -/
def execTimeStepApply (s : State) : Host.Outcome State Fault Refusal :=
  onChip s fun c =>
    match c.time.pending with
    | none => c
    | some p => if c.clk.localPs < p.atPs then c else c.stepApply p

/-! ### Trunk time (R261, R265) -/

/-- CLOCK_INFO_TX (R265): once a turn. -/
def execClockInfoTx (n : Fin 4) (s : State) : Host.Outcome State Fault Refusal :=
  onChip s fun c => if c.inData n.val then c.sendTime n.val c.ownDataset.info else c

/-- CLOCK_INFO_RX (R265): the peer's dataset is a source's. -/
def execClockInfoRx (n : Fin 4) (cell : Cell) (s : State) : Host.Outcome State Fault Refusal :=
  onChip s fun c =>
    let c := c.takeF10 n.val cell
    if c.inData n.val then c.sourceData (0x10 + n.val) (datasetOf cell.payload) else c

/-- STEP_NOTICE_RX (R261, Table 10.11). -/
def execStepNoticeRx (n : Fin 4) (cell : Cell) (s : State) : Host.Outcome State Fault Refusal :=
  onChip s fun c =>
    let c := c.takeF10 n.val cell
    let b := cell.payload
    if fldBe b 16 4 > 4999 then c.setTime fun t => { t with badStamps := sat32 t.badStamps 1 }
    else c.setTime fun t => { t with notices := t.notices.set n.val (fldBe b 4 6, fldBe b 10 6, fldBe b 16 4, fldBe b 1 1) }

/-! ### Timers of the time unit -/

/-- HOLDOVER_EXPIRY (R255). -/
def execHoldoverExpiry (s : State) : Host.Outcome State Fault Refusal :=
  onChip s fun c => if c.time.state == .holdover then c.timeState .freerun 0x0506 else c

/-- JUMP_CONFIRM (R257): under AFTER_CONFIRM the refused step is applied once the offset has kept for CONFIRM_S. -/
def execJumpConfirm (s : State) : Host.Outcome State Fault Refusal :=
  onChip s fun c =>
    match c.time.refused with
    | none => c
    | some off =>
      let kept := match c.time.refusedSince with | some t => decide (t + c.time.cfg.confirmS * 10 ^ 12 ≤ c.clk.powerPs) | none => false
      if c.time.cfg.afterConfirm && kept && c.time.pending.isNone then
        (c.setTime fun t => { t with refused := none, refusedSince := none }).decideStep (-off) false 0x0509
      else c

/-- JUMP_REFUSED_REPOST (R257): no more often than once per 60 s. -/
def execJumpRefusedRepost (s : State) : Host.Outcome State Fault Refusal :=
  onChip s fun c =>
    if c.time.refused.isSome && decide (c.time.refusedAt + 60 * 10 ^ 12 ≤ c.clk.powerPs) then
      (c.setTime fun t => { t with refusedAt := c.clk.powerPs }).post 0x0503 0x0501 (unsigned 56 (c.time.offsetPs / 1000) + c.time.source * 2 ^ 56) else c

/-- PPS_IN_EDGE (R256, R268): the edge is stamped; as the source in use it gives the offset to the nearest second. -/
def execPpsInEdge (s : State) : Host.Outcome State Fault Refusal :=
  onChip s fun c =>
    if !bitOf c.time.pps.flags 2 then c
    else
      let now := c.clk.localPs
      let c := c.setTime fun t => { t with pps := { t.pps with lastIn := some now } }
      let c := c.selectSource
      let r : Nat := now % 10 ^ 12
      let off : Int := if 2 * r ≥ 10 ^ 12 then (r : Int) - (10 ^ 12 : Nat) else (r : Int)
      c.timeSample 0x30 off

/-- The last edge of PPS_OUT due at or before a local time (R268): a second boundary plus OUT_OFFSET_NS. -/
def Pps.edgeAt (p : Pps) (now : Nat) : Option Nat :=
  let x := (now : Int) - p.offset * 1000
  if x < 0 then none
  else
    let e := x / 10 ^ 12 * 10 ^ 12 + p.offset * 1000
    if e < 0 then none else some e.toNat

/-- PPS_OUT_EDGE (R268): the edge of the spoke that has just passed begins a pulse of OUT_WIDTH_US, unless the last edge is less than 500 ms
ago or time is UNSET. -/
def execPpsOutEdge (s : State) : Host.Outcome State Fault Refusal :=
  onChip s fun c =>
    let p := c.time.pps
    match p.edgeAt c.clk.localPs with
    | none => c
    | some e =>
      let ago := c.clk.localPs - e
      let late := match p.lastEdge with | some t => decide (t + 500000000000 + ago ≤ c.clk.powerPs) | none => true
      if bitOf p.flags 0 && (c.timeSet || bitOf p.flags 1) && late && ago < spokePs then
        (c.setTime fun t => { t with pps := { t.pps with lastEdge := some (c.clk.powerPs - ago) } }).emit (.pulse .ppsOut e (p.width * 1000000))
      else c

end Sys2Proof.Machine
end

