-- ==== Sys2Proof/Machine/Dispatch.lean ====
section
/-!
DEFINITION. One arm per command: each calls the command's meaning.
-/
namespace Sys2Proof.Machine

def exec (i : Instr) (s : State) : Host.Outcome State Fault Refusal :=
  match i with
  | .powerOnReset lowNs straps => Sys2Proof.Machine.execPowerOnReset lowNs straps s
  | .vddAonBrownout straps => Sys2Proof.Machine.execVddAonBrownout straps s
  | .warmReset straps => Sys2Proof.Machine.execWarmReset straps s
  | .commandReset => Sys2Proof.Machine.execCommandReset s
  | .ccWatchdogExpiry straps => Sys2Proof.Machine.execCcWatchdogExpiry straps s
  | .kettleWatchdogExpiry straps => Sys2Proof.Machine.execKettleWatchdogExpiry straps s
  | .islandStartStep pages lostVols => Sys2Proof.Machine.execIslandStartStep pages lostVols s
  | .islandSettleTimeout => Sys2Proof.Machine.execIslandSettleTimeout s
  | .secSelftestDone pass => Sys2Proof.Machine.execSecSelftestDone pass s
  | .modeTransitionDone => Sys2Proof.Machine.execModeTransitionDone s
  | .firmwareRehash same => Sys2Proof.Machine.execFirmwareRehash same s
  | .tamperAssert => Sys2Proof.Machine.execTamperAssert s
  | .zeroizeLAssert => Sys2Proof.Machine.execZeroizeLAssert s
  | .zeroizeLRelease => Sys2Proof.Machine.execZeroizeLRelease s
  | .hello p => Sys2Proof.Machine.execHello p s
  | .getIdentity p => Sys2Proof.Machine.execGetIdentity p s
  | .echo p => Sys2Proof.Machine.execEcho p s
  | .queryHandle p => Sys2Proof.Machine.execQueryHandle p s
  | .cancel p => Sys2Proof.Machine.execCancel p s
  | .readEventLog p => Sys2Proof.Machine.execReadEventLog p s
  | .setRemotePolicy p => Sys2Proof.Machine.execSetRemotePolicy p s
  | .setManagerTransport p => Sys2Proof.Machine.execSetManagerTransport p s
  | .getCmdCounters p => Sys2Proof.Machine.execGetCmdCounters p s
  | .queueOverflow q => Sys2Proof.Machine.execQueueOverflow q s
  | .writeFrame bytes => Sys2Proof.Machine.execWriteFrame bytes s
  | .readStatus n => Sys2Proof.Machine.execReadStatus n s
  | .readFrame n => Sys2Proof.Machine.execReadFrame n s
  | .readEvent => Sys2Proof.Machine.execReadEvent s
  | .getMode p => Sys2Proof.Machine.execGetMode p s
  | .enterQuiet p => Sys2Proof.Machine.execEnterQuiet p s
  | .exitQuiet p => Sys2Proof.Machine.execExitQuiet p s
  | .resetDevice p => Sys2Proof.Machine.execResetDevice p s
  | .enterRecovery p => Sys2Proof.Machine.execEnterRecovery p s
  | .imageWrite p => Sys2Proof.Machine.execImageWrite p s
  | .imageCommit p => Sys2Proof.Machine.execImageCommit p s
  | .imageCommitDone mediaOk => Sys2Proof.Machine.execImageCommitDone mediaOk s
  | .commitRollback p => Sys2Proof.Machine.execCommitRollback p s
  | .commitRollbackDone readBackOk => Sys2Proof.Machine.execCommitRollbackDone readBackOk s
  | .getMeasurements p => Sys2Proof.Machine.execGetMeasurements p s
  | .extendM7 p => Sys2Proof.Machine.execExtendM7 p s
  | .lockRole p => Sys2Proof.Machine.execLockRole p s
  | .trainingAttemptStart n => Sys2Proof.Machine.execTrainingAttemptStart n s
  | .trainRetryTimer n => Sys2Proof.Machine.execTrainRetryTimer n s
  | .trainStepRx n step st depth rxset precode => Sys2Proof.Machine.execTrainStepRx n step st depth rxset precode s
  | .trainStepRepeat n => Sys2Proof.Machine.execTrainStepRepeat n s
  | .trainStepLocalDone n w => Sys2Proof.Machine.execTrainStepLocalDone n w s
  | .stepTimeout n => Sys2Proof.Machine.execStepTimeout n s
  | .trainFailRx n step reason => Sys2Proof.Machine.execTrainFailRx n step reason s
  | .txeqReqRx n seq mode lanes => Sys2Proof.Machine.execTxeqReqRx n seq mode lanes s
  | .txeqAckRx n seq coef limit foms => Sys2Proof.Machine.execTxeqAckRx n seq coef limit foms s
  | .flightStampRx n index txBlock txPs rxBlock rxPs arrivedPs peerMean => Sys2Proof.Machine.execFlightStampRx n index txBlock txPs rxBlock rxPs arrivedPs peerMean s
  | .linkCapsRx n body => Sys2Proof.Machine.execLinkCapsRx n body s
  | .linkCapsRepeat n => Sys2Proof.Machine.execLinkCapsRepeat n s
  | .fomRefresh n eyes => Sys2Proof.Machine.execFomRefresh n eyes s
  | .laneFomLow n lane => Sys2Proof.Machine.execLaneFomLow n lane s
  | .clockLaneLoss n => Sys2Proof.Machine.execClockLaneLoss n s
  | .adaptLiveTimer n lane up post => Sys2Proof.Machine.execAdaptLiveTimer n lane up post s
  | .loopReqRx n mode lanes => Sys2Proof.Machine.execLoopReqRx n mode lanes s
  | .loopAckRx n result reason => Sys2Proof.Machine.execLoopAckRx n result reason s
  | .loopAckTimeout n => Sys2Proof.Machine.execLoopAckTimeout n s
  | .loopReqRepeat n => Sys2Proof.Machine.execLoopReqRepeat n s
  | .loopExpiry n => Sys2Proof.Machine.execLoopExpiry n s
  | .trunkLaneCtrl p => Sys2Proof.Machine.execTrunkLaneCtrl p s
  | .getLaneStatus p => Sys2Proof.Machine.execGetLaneStatus p s
  | .trunkRetrain p => Sys2Proof.Machine.execTrunkRetrain p s
  | .trunkLoop p => Sys2Proof.Machine.execTrunkLoop p s
  | .eyeScan p => Sys2Proof.Machine.execEyeScan p s
  | .eyeScanDone n grid => Sys2Proof.Machine.execEyeScanDone n grid s
  | .getEye p => Sys2Proof.Machine.execGetEye p s
  | .getLaneCounters p => Sys2Proof.Machine.execGetLaneCounters p s
  | .codewordRx n rx => Sys2Proof.Machine.execCodewordRx n rx s
  | .markerRx n rx arrivedPs => Sys2Proof.Machine.execMarkerRx n rx arrivedPs s
  | .markerLockLost n => Sys2Proof.Machine.execMarkerLockLost n s
  | .markerTx n => Sys2Proof.Machine.execMarkerTx n s
  | .toothPick n reads => Sys2Proof.Machine.execToothPick n reads s
  | .replayCopyExpiry n cwsn slot => Sys2Proof.Machine.execReplayCopyExpiry n cwsn slot s
  | .replayWindowEnd n => Sys2Proof.Machine.execReplayWindowEnd n s
  | .holdTimeout n => Sys2Proof.Machine.execHoldTimeout n s
  | .mgmtResend n => Sys2Proof.Machine.execMgmtResend n s
  | .degradeTrigger n => Sys2Proof.Machine.execDegradeTrigger n s
  | .fastFomDone n foms => Sys2Proof.Machine.execFastFomDone n foms s
  | .widthChangeTarget n => Sys2Proof.Machine.execWidthChangeTarget n s
  | .upgradePropose n => Sys2Proof.Machine.execUpgradePropose n s
  | .getFramingStatus p => Sys2Proof.Machine.execGetFramingStatus p s
  | .getFramingCounters p => Sys2Proof.Machine.execGetFramingCounters p s
  | .trunkWidth p => Sys2Proof.Machine.execTrunkWidth p s
  | .setFramingCtrl p => Sys2Proof.Machine.execSetFramingCtrl p s
  | .cellPresent port tid => Sys2Proof.Machine.execCellPresent port tid s
  | .backlogLink port => Sys2Proof.Machine.execBacklogLink port s
  | .fabricSpokeStart => Sys2Proof.Machine.execFabricSpokeStart s
  | .endpointTake port r => Sys2Proof.Machine.execEndpointTake port r s
  | .promiseRestore tid => Sys2Proof.Machine.execPromiseRestore tid s
  | .getPromise p => Sys2Proof.Machine.execGetPromise p s
  | .getChainringCounters p => Sys2Proof.Machine.execGetChainringCounters p s
  | .gearStage p => Sys2Proof.Machine.execGearStage p s
  | .gearVerify p => Sys2Proof.Machine.execGearVerify p s
  | .derailleurPassDone slot => Sys2Proof.Machine.execDerailleurPassDone slot s
  | .gearClear p => Sys2Proof.Machine.execGearClear p s
  | .shift p => Sys2Proof.Machine.execShift p s
  | .shiftDecide => Sys2Proof.Machine.execShiftDecide s
  | .shiftApply => Sys2Proof.Machine.execShiftApply s
  | .getGearSlots p => Sys2Proof.Machine.execGetGearSlots p s
  | .gearRestore => Sys2Proof.Machine.execGearRestore s
  | .bootShiftIssue => Sys2Proof.Machine.execBootShiftIssue s
  | .openCellRx n cell => Sys2Proof.Machine.execOpenCellRx n cell s
  | .openAckRx n cell => Sys2Proof.Machine.execOpenAckRx n cell s
  | .closeCellRx n cell => Sys2Proof.Machine.execCloseCellRx n cell s
  | .closeAckRx n cell => Sys2Proof.Machine.execCloseAckRx n cell s
  | .flowCellRx n cell => Sys2Proof.Machine.execFlowCellRx n cell s
  | .openTimeout tid => Sys2Proof.Machine.execOpenTimeout tid s
  | .openingTimeout tid => Sys2Proof.Machine.execOpeningTimeout tid s
  | .drainTurnsExpiry tid => Sys2Proof.Machine.execDrainTurnsExpiry tid s
  | .closeTimeout handle => Sys2Proof.Machine.execCloseTimeout handle s
  | .quarantineEnd tid => Sys2Proof.Machine.execQuarantineEnd tid s
  | .sfTimeout port tid => Sys2Proof.Machine.execSfTimeout port tid s
  | .sieveAudit => Sys2Proof.Machine.execSieveAudit s
  | .tunnelOpen p => Sys2Proof.Machine.execTunnelOpen p s
  | .tunnelClose p => Sys2Proof.Machine.execTunnelClose p s
  | .getTunnel p => Sys2Proof.Machine.execGetTunnel p s
  | .listTunnels p => Sys2Proof.Machine.execListTunnels p s
  | .setForwarding p => Sys2Proof.Machine.execSetForwarding p s
  | .getStockpot p => Sys2Proof.Machine.execGetStockpot p s
  | .sieveCtrl p => Sys2Proof.Machine.execSieveCtrl p s
  | .fwQueueSet p => Sys2Proof.Machine.execFwQueueSet p s
  | .fwPortSet p => Sys2Proof.Machine.execFwPortSet p s
  | .policerSet p => Sys2Proof.Machine.execPolicerSet p s
  | .fwQueueGet p => Sys2Proof.Machine.execFwQueueGet p s
  | .fwPortGet p => Sys2Proof.Machine.execFwPortGet p s
  | .ladleFilterSet p => Sys2Proof.Machine.execLadleFilterSet p s
  | .ladleRingSet p => Sys2Proof.Machine.execLadleRingSet p s
  | .ladleRead p => Sys2Proof.Machine.execLadleRead p s
  | .ladleConsume p => Sys2Proof.Machine.execLadleConsume p s
  | .ladleRecordWrite => Sys2Proof.Machine.execLadleRecordWrite s
  | .timeGet p => Sys2Proof.Machine.execTimeGet p s
  | .timeSet p => Sys2Proof.Machine.execTimeSet p s
  | .timeConfig p => Sys2Proof.Machine.execTimeConfig p s
  | .ptpPortSet p => Sys2Proof.Machine.execPtpPortSet p s
  | .ppsSet p => Sys2Proof.Machine.execPpsSet p s
  | .timeStepApply => Sys2Proof.Machine.execTimeStepApply s
  | .clockInfoTx n => Sys2Proof.Machine.execClockInfoTx n s
  | .clockInfoRx n cell => Sys2Proof.Machine.execClockInfoRx n cell s
  | .stepNoticeRx n cell => Sys2Proof.Machine.execStepNoticeRx n cell s
  | .ptpMessageRx port => Sys2Proof.Machine.execPtpMessageRx port s
  | .ptpIntervalTimer port kind => Sys2Proof.Machine.execPtpIntervalTimer port kind s
  | .ptpAnnounceTimeout port => Sys2Proof.Machine.execPtpAnnounceTimeout port s
  | .holdoverExpiry => Sys2Proof.Machine.execHoldoverExpiry s
  | .jumpConfirm => Sys2Proof.Machine.execJumpConfirm s
  | .jumpRefusedRepost => Sys2Proof.Machine.execJumpRefusedRepost s
  | .ppsInEdge => Sys2Proof.Machine.execPpsInEdge s
  | .ppsOutEdge => Sys2Proof.Machine.execPpsOutEdge s
  | .sqTailDoorbell vi qp value => Sys2Proof.Machine.execSqTailDoorbell vi qp value s
  | .cqHeadDoorbell vi qp value => Sys2Proof.Machine.execCqHeadDoorbell vi qp value s
  | .evqHeadDoorbell vi e value => Sys2Proof.Machine.execEvqHeadDoorbell vi e value s
  | .ringProducerDoorbell vi ring value => Sys2Proof.Machine.execRingProducerDoorbell vi ring value s
  | .qctl0Write vi value => Sys2Proof.Machine.execQctl0Write vi value s
  | .irqCauseWrite value => Sys2Proof.Machine.execIrqCauseWrite value s
  | .turnLatchRead upper => Sys2Proof.Machine.execTurnLatchRead upper s
  | .registerWrite off len value => Sys2Proof.Machine.execRegisterWrite off len value s
  | .heartbeatTick => Sys2Proof.Machine.execHeartbeatTick s
  | .heartbeatStopped => Sys2Proof.Machine.execHeartbeatStopped s
  | .heldReplyWrite vi qp => Sys2Proof.Machine.execHeldReplyWrite vi qp s
  | .coalesceTimer v => Sys2Proof.Machine.execCoalesceTimer v s
  | .msixVectorUnmask v => Sys2Proof.Machine.execMsixVectorUnmask v s
  | .hostReadCompletion tag data poisoned => Sys2Proof.Machine.execHostReadCompletion tag data poisoned s
  | .dmaCompletionTimeout tag => Sys2Proof.Machine.execDmaCompletionTimeout tag s
  | .tlpError e => Sys2Proof.Machine.execTlpError e s
  | .hostLinkDown => Sys2Proof.Machine.execHostLinkDown s
  | .hostLinkUp width rate => Sys2Proof.Machine.execHostLinkUp width rate s
  | .pePerstAssert => Sys2Proof.Machine.execPePerstAssert s
  | .pePerstRelease => Sys2Proof.Machine.execPePerstRelease s
  | .instanceCreate p => Sys2Proof.Machine.execInstanceCreate p s
  | .instanceDestroy p => Sys2Proof.Machine.execInstanceDestroy p s
  | .quiesceInstance p => Sys2Proof.Machine.execQuiesceInstance p s
  | .quiesceDone vi => Sys2Proof.Machine.execQuiesceDone vi s
  | .quiesceTimeout vi => Sys2Proof.Machine.execQuiesceTimeout vi s
  | .resetInstance p => Sys2Proof.Machine.execResetInstance p s
  | .forceReset p => Sys2Proof.Machine.execForceReset p s
  | .getInstance p => Sys2Proof.Machine.execGetInstance p s
  | .queueCreate p => Sys2Proof.Machine.execQueueCreate p s
  | .queueDelete p => Sys2Proof.Machine.execQueueDelete p s
  | .ringBind p => Sys2Proof.Machine.execRingBind p s
  | .headModeSet p => Sys2Proof.Machine.execHeadModeSet p s
  | .layerSet p => Sys2Proof.Machine.execLayerSet p s
  | .layerFlip p => Sys2Proof.Machine.execLayerFlip p s
  | .headCtrl p => Sys2Proof.Machine.execHeadCtrl p s
  | .selfRefresh p => Sys2Proof.Machine.execSelfRefresh p s
  | .dockOutputSet p => Sys2Proof.Machine.execDockOutputSet p s
  | .dpAux p sink => Sys2Proof.Machine.execDpAux p sink s
  | .getHead p => Sys2Proof.Machine.execGetHead p s
  | .hubLineStart head => Sys2Proof.Machine.execHubLineStart head s
  | .vblankLatch head => Sys2Proof.Machine.execVblankLatch head s
  | .rasterCellEmit head => Sys2Proof.Machine.execRasterCellEmit head s
  | .reportRx head => Sys2Proof.Machine.execReportRx head s
  | .dockLineRead head => Sys2Proof.Machine.execDockLineRead head s
  | .dockFrameStart head trained => Sys2Proof.Machine.execDockFrameStart head trained s
  | .noRasterTimeout head => Sys2Proof.Machine.execNoRasterTimeout head s
  | .hpdRise head lanes rate psr trained => Sys2Proof.Machine.execHpdRise head lanes rate psr trained s
  | .hpdFall head => Sys2Proof.Machine.execHpdFall head s
  | .irqHpd head linkOk trained => Sys2Proof.Machine.execIrqHpd head linkOk trained s
  | .ethPortSet p => Sys2Proof.Machine.execEthPortSet p s
  | .ethClassWrite p => Sys2Proof.Machine.execEthClassWrite p s
  | .ethClassRead p => Sys2Proof.Machine.execEthClassRead p s
  | .ethPortStatus p => Sys2Proof.Machine.execEthPortStatus p s
  | .ethCounters p => Sys2Proof.Machine.execEthCounters p s
  | .ethFrameRx port frame fcsOk corrected uncorrectable => Sys2Proof.Machine.execEthFrameRx port frame fcsOk corrected uncorrectable s
  | .ethLockChange port lock an rs => Sys2Proof.Machine.execEthLockChange port lock an rs s
  | .ethAutoPolTimer port => Sys2Proof.Machine.execEthAutoPolTimer port s
  | .ethFrameTx port starved => Sys2Proof.Machine.execEthFrameTx port starved s
  | .censusDone => Sys2Proof.Machine.execCensusDone s
  | .nandReadDone op r => Sys2Proof.Machine.execNandReadDone op r s
  | .nandProgramDone op good => Sys2Proof.Machine.execNandProgramDone op good s
  | .nandEraseDone op good => Sys2Proof.Machine.execNandEraseDone op good s
  | .backgroundMaintenance => Sys2Proof.Machine.execBackgroundMaintenance s
  | .retentionAgeExpiry eb => Sys2Proof.Machine.execRetentionAgeExpiry eb s
  | .crockGetInfo p => Sys2Proof.Machine.execCrockGetInfo p s
  | .crockFormat p => Sys2Proof.Machine.execCrockFormat p s
  | .crockFormatDone bad good => Sys2Proof.Machine.execCrockFormatDone bad good s
  | .volumeCreate p => Sys2Proof.Machine.execVolumeCreate p s
  | .volumeDelete p => Sys2Proof.Machine.execVolumeDelete p s
  | .volumeSet p => Sys2Proof.Machine.execVolumeSet p s
  | .volumeGet p => Sys2Proof.Machine.execVolumeGet p s
  | .crockFlush p => Sys2Proof.Machine.execCrockFlush p s
  | .censusGet p => Sys2Proof.Machine.execCensusGet p s
  | .crockCtrl p => Sys2Proof.Machine.execCrockCtrl p s
  | .vbusValid => Sys2Proof.Machine.execVbusValid s
  | .vbusLost => Sys2Proof.Machine.execVbusLost s
  | .ssTrainingFail hs => Sys2Proof.Machine.execSsTrainingFail hs s
  | .usbBusReset hs aborted partialCmd => Sys2Proof.Machine.execUsbBusReset hs aborted partialCmd s
  | .usbSuspend => Sys2Proof.Machine.execUsbSuspend s
  | .usbResume collision => Sys2Proof.Machine.execUsbResume collision s
  | .usbRemoteWake fn => Sys2Proof.Machine.execUsbRemoteWake fn s
  | .usbSetAddress fn addr => Sys2Proof.Machine.execUsbSetAddress fn addr s
  | .usbSetConfiguration fn value => Sys2Proof.Machine.execUsbSetConfiguration fn value s
  | .usbSetInterface fn iface alt => Sys2Proof.Machine.execUsbSetInterface fn iface alt s
  | .usbSetHalt fn ep => Sys2Proof.Machine.execUsbSetHalt fn ep s
  | .usbClearHalt fn ep => Sys2Proof.Machine.execUsbClearHalt fn ep s
  | .hubPortReset port => Sys2Proof.Machine.execHubPortReset port s
  | .hubPortResetDone port => Sys2Proof.Machine.execHubPortResetDone port s
  | .hubClearCConnection port reset => Sys2Proof.Machine.execHubClearCConnection port reset s
  | .hubPortPower port on => Sys2Proof.Machine.execHubPortPower port on s
  | .hubTtRequest => Sys2Proof.Machine.execHubTtRequest s
  | .usbCmdTransfer data => Sys2Proof.Machine.execUsbCmdTransfer data s
  | .usbTunnelOut fn ep data => Sys2Proof.Machine.execUsbTunnelOut fn ep data s
  | .ncmNtbOut fn ntb => Sys2Proof.Machine.execNcmNtbOut fn ntb s
  | .mscCbw fn cbw data => Sys2Proof.Machine.execMscCbw fn cbw data s
  | .mscReset fn => Sys2Proof.Machine.execMscReset fn s
  | .mscResetTimeout fn => Sys2Proof.Machine.execMscResetTimeout fn s
  | .usbOutDataPacket fn ep len drained => Sys2Proof.Machine.execUsbOutDataPacket fn ep len drained s
  | .usbPing fn ep => Sys2Proof.Machine.execUsbPing fn ep s
  | .usbLgoU1u2 => Sys2Proof.Machine.execUsbLgoU1u2 s
  | .dockPortSet p => Sys2Proof.Machine.execDockPortSet p s
  | .dockFnSet p => Sys2Proof.Machine.execDockFnSet p s
  | .dockPortStatus p => Sys2Proof.Machine.execDockPortStatus p s
  | .apertureWrite a data => Sys2Proof.Machine.execApertureWrite a data s
  | .apertureRead a => Sys2Proof.Machine.execApertureRead a s
  | .apertureAtomic a op operand => Sys2Proof.Machine.execApertureAtomic a op operand s
  | .legacyTagGranted => Sys2Proof.Machine.execLegacyTagGranted s
  | .busGrant level => Sys2Proof.Machine.execBusGrant level s
  | .busCycleDone good data => Sys2Proof.Machine.execBusCycleDone good data s
  | .busTimerExpiry => Sys2Proof.Machine.execBusTimerExpiry s
  | .readyTimeout => Sys2Proof.Machine.execReadyTimeout s
  | .inboundCycle am addr x rmw => Sys2Proof.Machine.execInboundCycle am addr x rmw s
  | .inboundResponse => Sys2Proof.Machine.execInboundResponse s
  | .inboundTimeout => Sys2Proof.Machine.execInboundTimeout s
  | .vmeSysreset asserted => Sys2Proof.Machine.execVmeSysreset asserted s
  | .vmeSysfailAcfail sysfail acfail => Sys2Proof.Machine.execVmeSysfailAcfail sysfail acfail s
  | .irqPoll levels id good => Sys2Proof.Machine.execIrqPoll levels id good s
  | .prefetchExpiry line => Sys2Proof.Machine.execPrefetchExpiry line s
  | .trivetHoldExpiry n => Sys2Proof.Machine.execTrivetHoldExpiry n s
  | .trivetWaitTimeout => Sys2Proof.Machine.execTrivetWaitTimeout s
  | .legacyConfig p => Sys2Proof.Machine.execLegacyConfig p s
  | .windowSet p => Sys2Proof.Machine.execWindowSet p s
  | .inboundSet p => Sys2Proof.Machine.execInboundSet p s
  | .windowSlide p => Sys2Proof.Machine.execWindowSlide p s
  | .clearWindowError p => Sys2Proof.Machine.execClearWindowError p s
  | .legacyGrant p => Sys2Proof.Machine.execLegacyGrant p s
  | .irqRearm p => Sys2Proof.Machine.execIrqRearm p s
  | .trivet p => Sys2Proof.Machine.execTrivet p s
  | .legacyStatus p => Sys2Proof.Machine.execLegacyStatus p s
  | .inLimitChange ch set => Sys2Proof.Machine.execInLimitChange ch set s
  | .faultTimerExpiry ch severe => Sys2Proof.Machine.execFaultTimerExpiry ch severe s
  | .severeTrip ch => Sys2Proof.Machine.execSevereTrip ch s
  | .vsnsPgReached ch => Sys2Proof.Machine.execVsnsPgReached ch s
  | .powerGoodAssert ch => Sys2Proof.Machine.execPowerGoodAssert ch s
  | .vsnsSag ch => Sys2Proof.Machine.execVsnsSag ch s
  | .gateRiseTimeout ch => Sys2Proof.Machine.execGateRiseTimeout ch s
  | .shortDetect ch => Sys2Proof.Machine.execShortDetect ch s
  | .retryTimer ch => Sys2Proof.Machine.execRetryTimer ch s
  | .faultCountClear ch => Sys2Proof.Machine.execFaultCountClear ch s
  | .slotInsert slot => Sys2Proof.Machine.execSlotInsert slot s
  | .slotRemove slot expired => Sys2Proof.Machine.execSlotRemove slot expired s
  | .slotRemoveLong slot => Sys2Proof.Machine.execSlotRemoveLong slot s
  | .staggerTimer => Sys2Proof.Machine.execStaggerTimer s
  | .feedValidTimer feed => Sys2Proof.Machine.execFeedValidTimer feed s
  | .feedInvalid feed => Sys2Proof.Machine.execFeedInvalid feed s
  | .feedDeadTimeEnd => Sys2Proof.Machine.execFeedDeadTimeEnd s
  | .feedRestoreTimer feed => Sys2Proof.Machine.execFeedRestoreTimer feed s
  | .pwrfailAssert => Sys2Proof.Machine.execPwrfailAssert s
  | .pwrfailRelease => Sys2Proof.Machine.execPwrfailRelease s
  | .adcFrame isns vsns gate => Sys2Proof.Machine.execAdcFrame isns vsns gate s
  | .pwrChannelSet p => Sys2Proof.Machine.execPwrChannelSet p s
  | .pwrChannelCtrl p => Sys2Proof.Machine.execPwrChannelCtrl p s
  | .pwrFeedSet p => Sys2Proof.Machine.execPwrFeedSet p s
  | .pwrStatus p => Sys2Proof.Machine.execPwrStatus p s
  | .attachDetected n => Sys2Proof.Machine.execAttachDetected n s
  | .sidebandDetach n => Sys2Proof.Machine.execSidebandDetach n s
  | .getCapsTimer n => Sys2Proof.Machine.execGetCapsTimer n s
  | .capsTxTimer n => Sys2Proof.Machine.execCapsTxTimer n s
  | .sbCapsRx n body => Sys2Proof.Machine.execSbCapsRx n body s
  | .sbGetCapsRx n id => Sys2Proof.Machine.execSbGetCapsRx n id s
  | .sbRequestRx n id body => Sys2Proof.Machine.execSbRequestRx n id body s
  | .sbAcceptRx n body => Sys2Proof.Machine.execSbAcceptRx n body s
  | .sbRejectRx n body => Sys2Proof.Machine.execSbRejectRx n body s
  | .sbWaitRx n body => Sys2Proof.Machine.execSbWaitRx n body s
  | .sbReadyRx n body => Sys2Proof.Machine.execSbReadyRx n body s
  | .sbSwapRoleRx n id => Sys2Proof.Machine.execSbSwapRoleRx n id s
  | .sbFastSwapArmRx n id body => Sys2Proof.Machine.execSbFastSwapArmRx n id body s
  | .sbFastSwapRx n us => Sys2Proof.Machine.execSbFastSwapRx n us s
  | .sbSoftResetRx n id => Sys2Proof.Machine.execSbSoftResetRx n id s
  | .sbHardResetRx n => Sys2Proof.Machine.execSbHardResetRx n s
  | .sbCableQueryRx n prole known info => Sys2Proof.Machine.execSbCableQueryRx n prole known info s
  | .sbCableInfoRx n body => Sys2Proof.Machine.execSbCableInfoRx n body s
  | .sidebandFrameBad n => Sys2Proof.Machine.execSidebandFrameBad n s
  | .sidebandCollision n => Sys2Proof.Machine.execSidebandCollision n s
  | .sidebandRetryTimer n cable => Sys2Proof.Machine.execSidebandRetryTimer n cable s
  | .cableQueryTimer n => Sys2Proof.Machine.execCableQueryTimer n s
  | .voltageSettled n => Sys2Proof.Machine.execVoltageSettled n s
  | .transitionTimeout n overshoot => Sys2Proof.Machine.execTransitionTimeout n overshoot s
  | .trunkTripConfirm n => Sys2Proof.Machine.execTrunkTripConfirm n s
  | .hardResetRecovery n => Sys2Proof.Machine.execHardResetRecovery n s
  | .requestWaitTimeout n => Sys2Proof.Machine.execRequestWaitTimeout n s
  | .fastSwapDetect n => Sys2Proof.Machine.execFastSwapDetect n s
  | .fastSwapTakeover n us => Sys2Proof.Machine.execFastSwapTakeover n us s
  | .trunkPowerSet p => Sys2Proof.Machine.execTrunkPowerSet p s
  | .trunkPowerOp p => Sys2Proof.Machine.execTrunkPowerOp p s
  | .trunkPowerStatus p => Sys2Proof.Machine.execTrunkPowerStatus p s
  | .cableGet p => Sys2Proof.Machine.execCableGet p s
  | .keyStatus p => Sys2Proof.Machine.execKeyStatus p s
  | .keyGenerate p => Sys2Proof.Machine.execKeyGenerate p s
  | .keyDerive p => Sys2Proof.Machine.execKeyDerive p s
  | .keyLoadClear p => Sys2Proof.Machine.execKeyLoadClear p s
  | .keyImport p => Sys2Proof.Machine.execKeyImport p s
  | .keyExport p => Sys2Proof.Machine.execKeyExport p s
  | .keyZeroize p => Sys2Proof.Machine.execKeyZeroize p s
  | .keySetAttr p => Sys2Proof.Machine.execKeySetAttr p s
  | .keyChallenge p => Sys2Proof.Machine.execKeyChallenge p s
  | .keyLogin p => Sys2Proof.Machine.execKeyLogin p s
  | .loginLockoutEnd iss => Sys2Proof.Machine.execLoginLockoutEnd iss s
  | .keyLifecycle p => Sys2Proof.Machine.execKeyLifecycle p s
  | .keyLifecycleDone => Sys2Proof.Machine.execKeyLifecycleDone s
  | .idcertWrite p => Sys2Proof.Machine.execIdcertWrite p s
  | .anchorSet p => Sys2Proof.Machine.execAnchorSet p s
  | .sealSet p => Sys2Proof.Machine.execSealSet p s
  | .rekey p => Sys2Proof.Machine.execRekey p s
  | .keySelftest p => Sys2Proof.Machine.execKeySelftest p s
  | .selftestDone pass => Sys2Proof.Machine.execSelftestDone pass s
  | .selftestPeriodic => Sys2Proof.Machine.execSelftestPeriodic s
  | .cryptoOp p => Sys2Proof.Machine.execCryptoOp p s
  | .cryptoOpDone => Sys2Proof.Machine.execCryptoOpDone s
  | .cryptoResult p => Sys2Proof.Machine.execCryptoResult p s
  | .keyRestore => Sys2Proof.Machine.execKeyRestore s
  | .kxTimeout n => Sys2Proof.Machine.execKxTimeout n s
  | .kxRetryTimer n => Sys2Proof.Machine.execKxRetryTimer n s
  | .epochChange n katPass => Sys2Proof.Machine.execEpochChange n katPass s
  | .gkSet p => Sys2Proof.Machine.execGkSet p s
  | .gkMode p => Sys2Proof.Machine.execGkMode p s
  | .gkSync p => Sys2Proof.Machine.execGkSync p s
  | .gkSyncDone g => Sys2Proof.Machine.execGkSyncDone g s
  | .gkGet p => Sys2Proof.Machine.execGkGet p s
  | .gkClear p => Sys2Proof.Machine.execGkClear p s
  | .debugAccess addr d => Sys2Proof.Machine.execDebugAccess addr d s
  | .tapReset => Sys2Proof.Machine.execTapReset s
  | .lifetimeTick r => Sys2Proof.Machine.execLifetimeTick r s
  | .lifetimePeriodicSave => Sys2Proof.Machine.execLifetimePeriodicSave s
  | .lifetimeSaveDone flash crock => Sys2Proof.Machine.execLifetimeSaveDone flash crock s
  | .lifetimeCrockRestore => Sys2Proof.Machine.execLifetimeCrockRestore s
  | .lifetimeGet p => Sys2Proof.Machine.execLifetimeGet p s
  | .lifetimeExport p => Sys2Proof.Machine.execLifetimeExport p s
  | .lifetimeSave p => Sys2Proof.Machine.execLifetimeSave p s
  | .thermTrip => Sys2Proof.Machine.execThermTrip s
  | .refclkFail ref => Sys2Proof.Machine.execRefclkFail ref s
  | .refclkRestore ref => Sys2Proof.Machine.execRefclkRestore ref s
  | .supplyExcursion low => Sys2Proof.Machine.execSupplyExcursion low s
  | .pcieConfigWrite busMaster pasidEnable msixEnable msixMask d3hot => Sys2Proof.Machine.execPcieConfigWrite busMaster pasidEnable msixEnable msixMask d3hot s
  | .usbInToken fn ep => Sys2Proof.Machine.execUsbInToken fn ep s
  | .deviceRemoteWakeup fn enable => Sys2Proof.Machine.execDeviceRemoteWakeup fn enable s
  | .vmeArbitration brq bclr bbsy => Sys2Proof.Machine.execVmeArbitration brq bclr bbsy s
  | .inboundCycleEnd => Sys2Proof.Machine.execInboundCycleEnd s
  | .sourceSeen n => Sys2Proof.Machine.execSourceSeen n s
  | .waitDelayExpiry n => Sys2Proof.Machine.execWaitDelayExpiry n s
  | .lineDischarged n => Sys2Proof.Machine.execLineDischarged n s
  | .volumeDeleteDone volume => Sys2Proof.Machine.execVolumeDeleteDone volume s
  | .entropyHealthFail => Sys2Proof.Machine.execEntropyHealthFail s
  | .fwRunning => Sys2Proof.Machine.execFwRunning s

end Sys2Proof.Machine
end

