-- ==== Sys2Proof/Safety.lean ====
section
/-!
DEFINITION. What a statement may ask of a run: the invariants of the state, and when and in which state a command is executed.
-/
namespace Sys2Proof.Machine

/-! ### The gatekeepers' rule sets (R478, R480, R482) -/

/-- Every region entry is valid at gatekeeper `k` (R478), and entries are listed by rising index. -/
def RuleSet.Valid (r : RuleSet) (k : Nat) : Prop :=
  Tab.rising r.regions = true ∧ ∀ e ∈ r.regions, e.1 < 128 ∧ e.2.valid k = true

/-- No two enabled regions share an address (R482). -/
def RuleSet.Apart (r : RuleSet) : Prop :=
  r.regions.Pairwise fun a b => a.2.overlaps b.2 = false

/-- The rule sets in force are valid and free of overlaps, and only valid entries wait to become so (R478, R482). -/
def Guard.Safe (g : Guard) : Prop :=
  ∀ k, k < 5 → (g.active.get {} k).Valid k ∧ (g.active.get {} k).Apart ∧ (g.shadow.get {} k).Valid k ∧ (g.stored.get {} k).Valid k

/-- Region `i` of gatekeeper `k`, as a rule set table holds it. -/
def regionOf (t : Tab RuleSet) (k i : Nat) : Region := (t.get {} k).regions.get {} i

/-- Region `i` of gatekeeper `k` is LOCKED in the active set (PERM bit 2, Table 20.4). -/
def Guard.locked (g : Guard) (k i : Nat) : Prop := bitOf (regionOf g.active k i).perm 2 = true

/-- A LOCKED region stands in the shadow set as it stands in the active set (R480): no switch can change it. -/
def Guard.LocksHold (g : Guard) : Prop :=
  ∀ k i, g.locked k i → regionOf g.shadow k i = regionOf g.active k i

/-- Commands that start the part again: they reinstall the rule sets (R76, Table 20.5). -/
def restarts : Instr → Bool
  | .powerOnReset _ _ | .vddAonBrownout _ | .warmReset _ | .ccWatchdogExpiry _ | .kettleWatchdogExpiry _ => true
  | _ => false

/-- A reset left the fuses as they were; of an open COMMIT_ROLLBACK that it cut short, rollback bits may have been blown (R89). -/
def State.fusesCut (s t : State) : Prop :=
  s.fuses.rollback ≤ t.fuses.rollback ∧ t.fuses = { s.fuses with rollback := t.fuses.rollback } ∧
  (s.chip.dev.rollback = none → t.fuses = s.fuses)

/-! ### When a command is executed, and in which state -/

/-- A transport row has put the packet into the inbox, where it waits for its command row. -/
def State.waits (s : State) (op : Nat) (p : Packet) : Bool := (s.chip.attend p.sess).cmd.inbox.contains (op, p)

/-- The block at the moment it executes a command packet, the refused packets before it answered (R31): a packet that a transport row put into
the inbox leaves it in its turn (R41); any other packet reaches the part now, if no command of its session waits and its transport takes it.
A command of a USB session that has ended (R374) is not meant. -/
def State.taken (s : State) (op : Nat) (p : Packet) : Option Chip :=
  let c := s.chip.attend p.sess
  if s.waits op p then if c.firstOf p.sess == some (op, p) then some (c.unqueue op p) else none
  else if (c.usb.orphans.find? fun o => o.1 == op && o.2.1 == p).isSome || (c.firstOf p.sess).isSome then none
  else if (c.takePacket p).2 then some (c.takePacket p).1 else none

/-- The part executes opcode `op` of packet `p` in state `c`: the packet is taken and passes every check of R31; a remote policy binds a packet
as it arrives (R64). -/
def State.heard (s : State) (op : Nat) (p : Packet) (c : Chip) : Prop :=
  s.taken op p = some c ∧ (if s.waits op p then c.r31Waited op p else c.r31 op p) = .run

/-- A response of `n` bytes fits the session at this moment (R35, R275). -/
def Chip.roomFor (c : Chip) (p : Packet) (n : Nat) : Prop := n ≤ c.replyRoom p.sess

/-- The reply with STATUS_OK, RESULT `result` and response `data`. -/
def Chip.replied (c : Chip) (p : Packet) (data : Bytes := []) (result : Nat := 0) : Chip :=
  c.postReply { sess := p.sess, status := 0, tag := p.tag.toNat, result, data }

/-- The reply of a refusal: its status and, from version 3 on, its reason (Table 02.4). -/
def Chip.refused (c : Chip) (p : Packet) (status reason : Nat) (result : Nat := 0) : Chip :=
  c.postReply { sess := p.sess, status, reason := reasonFor p.version.toNat reason, tag := p.tag.toNat, result }

/-- The context in which a packet runs. -/
def State.ctxOf (s : State) (op : Nat) (p : Packet) (c : Chip) : Ctx := c.ctx op p s.fuses s.guard

/-- The reply STATUS_ACCEPTED of a long command whose effect gave `c`: the handle record is opened, RESULT is the handle and
RFLAGS.HANDLE is 1 (R34, R51). -/
def Chip.accepts (c : Chip) (p : Packet) (x : Ctx) : Chip :=
  (c.openHandle x).postReply { sess := p.sess, status := 1, tag := p.tag.toNat, result := x.handle, rflags := 1 }

/-- The step of command `i` leaves the block as `c`, and the rule sets, the fuses and the queue as they are. -/
def State.becomes (s : State) (i : Instr) (c : Chip) : Prop := exec i s = .next { s with chip := c }

/-- The host reaches `len` bytes at BAR0 offset `off` as instance `vi`: the link is up, the instance is there, and the HOST gatekeeper allows
every byte (R271, R484). -/
def State.reaches (s : State) (vi off len kind : Nat) : Prop :=
  s.chip.barReach = true ∧ (s.chip.inst vi).state ≠ .absent ∧ s.chip.barCheck s vi off len kind = (s.chip, List.replicate len true)

/-- What a power-on or warm reset leaves, whatever stood before (R57, R73, R76, Table 03.4): the part is in BOOT with the reset's kind and
reason and the straps read again; handle records, serials, sessions and waiting packets are gone; tunnels, gear slots and key slots are
cleared; the local clock is zero and UNSET. -/
def Chip.JustReset (c : Chip) (st : Straps) (f : Fuses) (kind reason : Nat) : Prop :=
  c.dev.mode = .boot ∧ c.dev.resetKind = kind ∧ c.dev.cause = reason ∧ c.dev.strapRole = st.role ∧ c.dev.strapBoot = st.boot ∧
  c.dev.role = roleOf f st ∧ c.cmd.handles = [] ∧ c.cmd.serial = [] ∧ c.cmd.sessions = [] ∧ c.cmd.inbox = [] ∧
  c.fab.tun = [] ∧ c.gear.slots = [] ∧ c.keys.slots = [] ∧ c.clk.localPs = 0 ∧ c.clk.upPs = 0 ∧ c.time.state = .unset

end Sys2Proof.Machine
end

