-- ==== Sys2Proof/Certificates/Slice0/Obligations.lean ====
section
/-!
DEFINITION. The statements about the block.
-/
open Sys2Proof Sys2Proof.Machine

/-- A step takes the command at the front of the queue and runs exec on it with the rest of the queue. -/
def Obligations.StepRunsFrontCommand : Prop :=
  ∀ (i : Instr) (rest : List Instr) (s : State), step { s with pending := i :: rest } = exec i { s with pending := rest }

/-- The idle step (DESIGN CHOICE, notes/assumptions/1): the CORE clock runs while nothing is commanded. -/
def Obligations.IdleStepPassesOneCycle : Prop :=
  ∀ s : State, s.pending = [] →
    (s.chip.cmd.inbox = [] → s.chip.attendAll = s.chip) ∧
    (640 < s.chip.attendAll.toSpoke → step s = .next { s with chip := s.chip.attendAll.pass 640 }) ∧
    (s.chip.attendAll.toSpoke ≤ 640 → step s = .next { s with chip := s.chip.attendAll }) ∧
    (∀ (c d : Chip), d = c.pass 640 → d.clk.localPs = c.clk.localPs + 640 ∧ { d with clk := c.clk, time := c.time } = c ∧
      (c.time.slew = 0 → c.time.freqAdj = 0 → c.clk.dco = 0 → c.clk.refRest = 0 →
        d.clk.upPs = c.clk.upPs + 640 ∧ d.clk.powerPs = c.clk.powerPs + 640 ∧ d.clk.dco = 0 ∧ d.time = c.time))

/-- Every command completes, and leaves the queue as it was. -/
def Obligations.EveryCommandCompletes : Prop :=
  ∀ (i : Instr) (s : State), ∃ t : State, exec i s = .next t ∧ t.pending = s.pending

/-- Fuses advance only (R74, R79, R80, R453). -/
def Obligations.FusesOnlyAdvance : Prop :=
  ∀ (i : Instr) (s t : State), exec i s = .next t →
    t.fuses.signer = s.fuses.signer ∧ t.fuses.revoked = s.fuses.revoked ∧ t.fuses.serialNo = s.fuses.serialNo ∧
    s.fuses.rollback ≤ t.fuses.rollback ∧ s.fuses.lifecycle ≤ t.fuses.lifecycle ∧
    (bitOf s.fuses.roleLock.toNat 2 = true → t.fuses.roleLock = s.fuses.roleLock) ∧
    ((∀ p, i ≠ .lockRole p) → (∀ b, i ≠ .commitRollbackDone b) → i ≠ .keyLifecycleDone →
      (s.chip.dev.rollback = none ∨ (restarts i = false ∧ i ≠ .commandReset)) → t.fuses = s.fuses)

/-- The invariants of the rule sets hold at reset. -/
def Obligations.GuardSafeAtReset : Prop := State.reset.guard.Safe ∧ State.reset.guard.LocksHold

/-- Guard.Safe is an invariant of the step. -/
def Obligations.GuardSafeEveryStep : Prop :=
  ∀ s t : State, s.guard.Safe → step s = .next t → t.guard.Safe

/-- LOCKED regions cannot be changed before the next reset (R480). -/
def Obligations.LockedRegionsStay : Prop :=
  ∀ (i : Instr) (s t : State), s.guard.LocksHold → exec i s = .next t →
    t.guard.LocksHold ∧
    (restarts i = false → ∀ k r, s.guard.locked k r → regionOf t.guard.active k r = regionOf s.guard.active k r)

/-- GET_IDENTITY, ECHO, GET_CMD_COUNTERS, READ_EVENT_LOG and QUERY_HANDLE. -/
def Obligations.GeneralReadsAnswer : Prop :=
  ∀ (s : State) (p : Packet) (c : Chip),
    (s.heard 0x0002 p c → c.roomFor p 32 →
      s.becomes (.getIdentity p) (c.replied p
        (le 1 0xB4 ++ le 2 0x9416 ++ le 1 0x21 ++ le 1 c.roleCode ++ le 1 c.dev.mode.code ++ le 1 1 ++ le 1 3 ++ le 4 c.dev.fwVersion ++
          le 4 c.dev.fwBuild ++ le 1 s.fuses.lifecycle ++ le 1 (b2n c.keys.approved) ++ zeros 2 ++ sliceB s.fuses.serialNo 0 12))) ∧
    (s.heard 0x0003 p c → c.roomFor p p.params.length → s.becomes (.echo p) (c.replied p p.params)) ∧
    (s.heard 0x0009 p c → c.roomFor p 64 →
      s.becomes (.getCmdCounters p) (c.replied p (((List.range 4).map fun i =>
        le 4 (c.cmd.counters.get {} i).received ++ le 4 (c.cmd.counters.get {} i).rejLength ++
          le 4 (c.cmd.counters.get {} i).discarded ++ le 4 (c.cmd.counters.get {} i).evLost).flatten))) ∧
    (s.heard 0x0006 p c → 1 ≤ fld p.params 4 4 → fld p.params 4 4 ≤ 1024 →
      (fld p.params 0 4 + 2 ^ 32 - c.cmd.logSeq) % 2 ^ 32 < 2 ^ 31 → s.becomes (.readEventLog p) (c.replied p [])) ∧
    (s.heard 0x0006 p c → 1 ≤ fld p.params 4 4 → fld p.params 4 4 ≤ 1024 → ∀ off,
      2 ^ 31 ≤ (fld p.params 0 4 + 2 ^ 32 - c.cmd.logSeq) % 2 ^ 32 →
      off = (fld p.params 0 4 + 2 ^ 32 - (c.cmd.logSeq + 2 ^ 32 - c.cmd.log.length) % 2 ^ 32) % 2 ^ 32 → off < c.cmd.log.length →
      c.roomFor p ((((c.cmd.log.drop off).take (fld p.params 4 4)).map EventRec.bytes).flatten).length →
      s.becomes (.readEventLog p) (c.replied p (((c.cmd.log.drop off).take (fld p.params 4 4)).map EventRec.bytes).flatten)) ∧
    (∀ r, s.heard 0x0004 p c → fld p.params 4 4 ≤ 1 → c.rec? (fld p.params 0 4) = some r →
      ((c.issuer p.sess).2 = 1 ∨ fld p.params 0 4 / 2 ^ 24 = (c.issuer p.sess).1) → c.roomFor p 16 →
      s.becomes (.queryHandle p) ((if fld p.params 4 4 = 1 ∧ r.complete = true then
          { c with cmd := { c.cmd with handles := c.cmd.handles.filter fun y => y.handle != fld p.params 0 4 } } else c).replied p
        (le 1 (if r.complete then 2 else 1) ++ zeros 1 ++ le 2 r.opcode ++ le 2 r.status ++ le 2 r.reason ++ le 4 r.progress ++ le 4 r.result)))

/-- R39, with the response of Table 02.15. -/
def Obligations.HelloNegotiates : Prop :=
  ∀ (s : State) (p : Packet) (c : Chip) (lo hi : Nat), s.heard 0x0001 p c → lo = fld p.params 0 1 → hi = fld p.params 1 1 →
    1 ≤ lo → lo ≤ hi → lo ≤ 3 → rsvd p.params 2 2 = true →
    (∀ h, c.cmd.handles.find? (fun h => h.sess == p.sess && !h.complete && !h.logOnly) = some h →
      s.becomes (.hello p) (c.refused p 0x0202 0 h.handle) ∧ (c.refused p 0x0202 0 h.handle).cmd.sessions = c.cmd.sessions) ∧
    (c.cmd.handles.find? (fun h => h.sess == p.sess && !h.complete && !h.logOnly) = none → c.roomFor p 12 →
      s.becomes (.hello p) (((if p.sess = .spi then c.endSession .spi else c).setVersion p.sess (Nat.min hi 3)).replied p
        (le 1 (Nat.min hi 3) ++ le 1 (c.issuer p.sess).2 ++ le 1 (c.issuer p.sess).1 ++ zeros 1 ++
          le 4 (maxPlen p.sess (Nat.min hi 3)) ++ le 4 (c.maxRlen p.sess))) ∧
      ∃ t, exec (.hello p) s = .next t ∧ (t.chip.cmd.sessions.get {} p.sess.key).version = Nat.min hi 3)

/-- The general commands that act, and the SPI target. -/
def Obligations.GeneralCommandsAct : Prop :=
  ∀ (s : State) (p : Packet) (c : Chip),
    (∀ r, s.heard 0x0005 p c → c.rec? (fld p.params 0 4) = some r → r.complete = false → r.committed = false →
      ((c.issuer p.sess).2 = 1 ∨ fld p.params 0 4 / 2 ^ 24 = (c.issuer p.sess).1) →
      s.becomes (.cancel p) (((c.updRec (fld p.params 0 4) fun y => { y with cancelled := true }).cancelOp (fld p.params 0 4) r.opcode).replied p)) ∧
    (s.heard 0x0007 p c → fld p.params 0 1 ≤ 3 → rsvd p.params 1 3 = true → fld p.params 4 4 < 2 ^ 18 →
      s.becomes (.setRemotePolicy p)
        ({ c with cmd := { c.cmd with policy := c.cmd.policy.set (fld p.params 0 1) (fld p.params 4 4) } }.replied p)) ∧
    (∀ h : Holder, s.heard 0x0008 p c → fld p.params 0 1 ≤ 2 → fld p.params 1 1 ≤ 1 → rsvd p.params 2 2 = true →
      h = (if fld p.params 0 1 = 0 then .pcie else if fld p.params 0 1 = 1 then .spi else .usb) →
      (h = c.cmd.holder → fld p.params 1 1 = 0 → s.becomes (.setManagerTransport p) (c.replied p)) ∧
      (h ≠ c.cmd.holder → c.holderUp h = true → fld p.params 1 1 = 0 →
        s.becomes (.setManagerTransport p) (({ c.replied p with cmd := { (c.replied p).cmd with holder := h } } : Chip).post 0x0003 0 (fld p.params 0 1))) ∧
      (h ≠ c.cmd.holder → c.holderUp h = true → fld p.params 1 1 = 1 → ∀ d, d = (c.storeConfig fun k => { k with manager := some h }).replied p →
        s.becomes (.setManagerTransport p) (({ d with cmd := { d.cmd with holder := h } } : Chip).post 0x0003 0 (fld p.params 0 1)))) ∧
    (∀ (q : QueueRef) (d : Chip), 0 < (s.chip.cmd.queues.get {} (keyOfRef q)).lost → s.chip.queueFull (keyOfRef q) = some false →
      d = s.chip.pushRec (keyOfRef q)
        { code := 0x0002, turn := s.chip.turn, eflags := b2n (!s.chip.timeSet), detail := (s.chip.cmd.queues.get {} (keyOfRef q)).lost } →
      s.becomes (.queueOverflow q)
        { d with cmd := { d.cmd with queues := d.cmd.queues.set (keyOfRef q) { d.cmd.queues.get {} (keyOfRef q) with lost := 0 } } }) ∧
    (∀ b : Bytes, s.chip.dev.fwRunning = true →
      ((b.length < 32 ∨ bitOf (fld b 3 1) 0 = false ∨ b.length ≠ 32 + fld b 8 4) →
        s.becomes (.writeFrame b) (s.chip.discardPacket .spi)) ∧
      (32 ≤ b.length → bitOf (fld b 3 1) 0 = true → b.length = 32 + fld b 8 4 → fld b 8 4 ≤ 65504 →
        s.becomes (.writeFrame b) (s.chip.receive (fld b 0 2) (parsePacket .spi b).2))) ∧
    (∀ n : Nat, 0 < n → s.becomes (.readStatus n)
      { s.chip with out := s.chip.out ++ [.spiOut (List.replicate n (BitVec.ofNat 8
                      (b2n s.chip.spi.busy + 2 * b2n s.chip.spi.reply.isSome + 4 * b2n (decide (s.chip.cmd.unread > 0)) +
                        8 * b2n s.chip.spi.frameError)))],
                    spi := { s.chip.spi with frameError := false } }) ∧
    (∀ (n : Nat) (r : Reply), s.chip.spi.reply = some r →
      s.becomes (.readFrame n)
        { s.chip with out := s.chip.out ++ [.spiOut (sliceB (r.head ++ r.data) 0 n)],
                      spi := { s.chip.spi with reply := if n ≥ 16 then none else some r } }) ∧
    (∀ e : EventRec, 0 < s.chip.cmd.unread → s.chip.cmd.log[s.chip.cmd.log.length - s.chip.cmd.unread]? = some e →
      s.becomes .readEvent
        { s.chip with out := s.chip.out ++ [.spiOut e.bytes], cmd := { s.chip.cmd with unread := s.chip.cmd.unread - 1 } }) ∧
    (s.chip.cmd.unread = 0 → s.becomes .readEvent { s.chip with out := s.chip.out ++ [.spiOut (zeros 32)] })

/-- R44, against the status byte that READ_STATUS sends. -/
def Obligations.IrqOutFollowsStatus : Prop :=
  ∀ (s : State) (b : Byte), exec (.readStatus 1) s = .next { s with chip :=
      { s.chip with out := s.chip.out ++ [.spiOut [b]], spi := { s.chip.spi with frameError := false } } } →
    (s.chip.irqOut = true ↔ s.chip.cmd.holder = .spi ∧ (b.getLsbD 1 = true ∨ b.getLsbD 2 = true))

/-- R63: the check of the opcode comes before every check that depends on the opcode. -/
def Obligations.OpcodesOutsideRanges : Prop :=
  ∀ (c : Chip) (p : Packet) (op : Nat), (op = 0 ∨ (0x1200 ≤ op ∧ op ≤ 0xFFFF)) →
    p.plen.toNat ≤ 1048576 → beyondBuffer p = false → (p.checked = true → p.checkOk op = true) →
    1 ≤ p.version.toNat → p.version.toNat ≤ 3 → (c.version p.sess = 0 ∨ p.version.toNat = c.version p.sess) →
    (p.version.toNat = 1 → p.plen.toNat ≤ 4096) → (p.indirect = true → p.sess.tr = 0 ∧ p.version.toNat ≠ 1) →
    c.r31 op p = .reply 0x0101 0 ∧
    (c.firstOf p.sess = none → (c.takePacket p).2 = true → c.receive op p = (c.takePacket p).1.refuse p 0x0101 0 0)

/-- R55 over the one operation that completes handles. -/
def Obligations.CompletionHappensOnce : Prop :=
  ∀ (c : Chip) (h st rs x : Nat),
    (c.openRec? h = none → c.complete h st rs x = c) ∧
    (∀ r, c.openRec? h = some r →
      (c.complete h st rs x).openRec? h = none ∧
      (∀ st' rs' x', (c.complete h st rs x).complete h st' rs' x' = c.complete h st rs x) ∧
      (∀ r', (c.complete h st rs x).rec? h = some r' →
        r'.complete = true ∧ r'.status = st ∧ r'.reason = rs ∧ r'.result = x) ∧
      ∃ (d : Chip) (e : EventRec) (r' : HandleRec), d.cmd.log = c.cmd.log ∧ d.cmd.queues = c.cmd.queues ∧
        e.code = 0x0001 ∧ e.status = st ∧ e.handle = h ∧ e.reason = rs ∧ r' = { r with complete := true, status := st, reason := rs, result := x, doneSeq := c.cmd.doneSeq + 1 } ∧
        c.complete h st rs x = (if c.replyHeld r then { d with cmd := { d.cmd with owed := d.cmd.owed ++ [r'] } } else d.postForHandle r' e))

/-- Table 03.4, the power-on and the warm column. -/
def Obligations.ResetsClearVolatileState : Prop :=
  ∀ (s : State) (st : Straps) (n : Nat),
    (n < 980 → exec (.powerOnReset n st) s = .next s) ∧
    (1020 ≤ n → ∃ t, exec (.powerOnReset n st) s = .next t ∧ s.fusesCut t ∧ t.pending = s.pending ∧ t.chip.JustReset st s.fuses 0 0x0115) ∧
    (∃ t, exec (.vddAonBrownout st) s = .next t ∧ s.fusesCut t ∧ t.pending = s.pending ∧ t.chip.JustReset st s.fuses 0 0x0115) ∧
    (s.chip.dev.resetReq = 1 → ∃ t, exec (.warmReset st) s = .next t ∧ s.fusesCut t ∧ t.pending = s.pending ∧
      t.chip.JustReset st s.fuses 1 0x010F) ∧
    (s.chip.dev.resetReq ≠ 1 → exec (.warmReset st) s = .next s) ∧
    (∃ t, exec (.kettleWatchdogExpiry st) s = .next t ∧ s.fusesCut t ∧ t.pending = s.pending ∧ t.chip.JustReset st s.fuses 1 0x0116) ∧
    (∀ u, s.chip.dev.lastCmdReset = some u → s.chip.clk.powerPs < u + 60 * 10 ^ 12 →
      ∃ t, exec (.ccWatchdogExpiry st) s = .next t ∧ s.fusesCut t ∧ t.pending = s.pending ∧ t.chip.JustReset st s.fuses 1 0x0116)

/-- Table 03.4, the command column. -/
def Obligations.CommandResetKeepsThePart : Prop :=
  ∀ (s t : State) (st : Straps),
    (s.chip.dev.resetReq ≠ 2 → exec .commandReset s = .next s) ∧
    (((s.chip.dev.resetReq = 2 ∧ exec .commandReset s = .next t) ∨
      ((∀ u, s.chip.dev.lastCmdReset = some u → u + 60 * 10 ^ 12 ≤ s.chip.clk.powerPs) ∧ exec (.ccWatchdogExpiry st) s = .next t)) →
      (∀ r ∈ t.chip.cmd.handles, r.complete = true) ∧ t.chip.cmd.serial = s.chip.cmd.serial ∧
      (∀ x, (t.chip.cmd.sessions.get {} x).version = 0) ∧ t.chip.cmd.inbox = [] ∧ t.chip.cmd.replies = [] ∧
      t.chip.dev.fwRunning = false ∧ t.chip.dev.resetKind = 2 ∧ t.chip.dev.mode = s.chip.dev.mode ∧ t.chip.dev.role = s.chip.dev.role ∧
      t.chip.clk.localPs = s.chip.clk.localPs ∧ t.chip.keys.slots = s.chip.keys.slots ∧
      t.guard = s.guard ∧ s.fusesCut t ∧ t.pending = s.pending) ∧
    (s.chip.dev.resetReq = 2 → ∃ u, exec .commandReset s = .next u)

/-- Reset values that the spec gives. -/
def Obligations.ResetStateAsSpecified : Prop :=
  State.reset.chip.dev.mode = .boot ∧ State.reset.chip.dev.cause = 0x0115 ∧ State.reset.chip.dev.resetKind = 0 ∧
  State.reset.chip.clk.localPs = 0 ∧ State.reset.chip.time.state = .unset ∧ State.reset.chip.gear.active = none ∧
  State.reset.chip.gear.slots = [] ∧ State.reset.chip.fab.tun = [] ∧ State.reset.chip.cmd.sessions = [] ∧ State.reset.chip.cmd.handles = [] ∧
  State.reset.chip.keys.slots = [] ∧ State.reset.chip.cmd.log = [] ∧
  State.reset.chip.dev.meas = List.replicate 8 (List.replicate 48 (0 : Byte)) ∧
  ((List.range 5).map fun k => (State.reset.guard.active.get {} k).dflt) = [0x3C0, 0, 0xC0, 0xC00, 0x7FF8] ∧
  (∀ k, (State.reset.guard.active.get {} k).straddle = 1) ∧
  (∀ (n : Fin 4) (op : Nat), State.reset.chip.policyAllows op (.trunk n) = true ↔ op / 256 = 0) ∧
  State.reset.pending = [] ∧ State.reset.chip.out = []

/-- The rows that start the part up and move it between modes. -/
def Obligations.ModeEventsAct : Prop :=
  ∀ (s : State) (pages : List OnfiPage) (vols : List Nat),
    (∀ i, s.chip.dev.starting = true → s.chip.nextIsland = some i → (i = 3 → s.chip.bootKeepalive = false ∧ s.chip.dev.selftestOk = true) →
      s.becomes (.islandStartStep pages vols)
        (({ s.chip with dev := { s.chip.dev with islands := s.chip.dev.islands ++ [i], islandStep := i } } : Chip).islandStarted i pages vols)) ∧
    (s.chip.dev.starting = true → s.chip.dev.islandStep ≠ 0 →
      s.becomes .islandSettleTimeout
        (({ s.chip with dev := { s.chip.dev with islands := s.chip.dev.islands.filter (· != s.chip.dev.islandStep), islandStep := 0,
                                                 starting := false } } : Chip).trigger { target := .recovery, reason := 0x0107 })) ∧
    s.becomes (.secSelftestDone true) { s.chip with dev := { s.chip.dev with selftestOk := true } } ∧
    s.becomes (.secSelftestDone false) (s.chip.lockdown 0x010B) ∧
    s.becomes (.firmwareRehash true) s.chip ∧
    s.becomes (.firmwareRehash false) (s.chip.lockdown 0x010D) ∧
    (s.chip.dev.mode ≠ .lockdown →
      s.becomes .tamperAssert (({ s.chip with dev := { s.chip.dev with tamperL := true, tamperSeen := true } } : Chip).lockdown 0x010C) ∧
      (∀ (c : Chip) (r : Nat), c.dev.mode ≠ .lockdown → (c.lockdown r).dev.trans = some { target := .lockdown, reason := r })) ∧
    s.becomes .zeroizeLAssert
      (({ s.chip with keys := { s.chip.keys with zeroizeL := true } } : Chip).zeroizeAll true (s.chip.dev.mode == .lockdown) 0x0E16) ∧
    s.becomes .zeroizeLRelease { s.chip with keys := { s.chip.keys with zeroizeL := false } } ∧
    (∀ (c : Chip) (m : Bool) (r : Nat), (∀ n, n < 4 → (c.sealOf n).keys = none) → (c.zeroizeAll true m r).keys.slots = []) ∧
    s.becomes .thermTrip
      { s.chip with dev := { s.chip.dev with thermTrip := true }, out := s.chip.out ++ [.pin .thermTrip 0] } ∧
    (s.chip.dev.mode ≠ .boot → s.chip.host.qps = [] → s.becomes .fwRunning { s.chip with dev := { s.chip.dev with fwRunning := true } }) ∧
    (∀ t, s.chip.dev.trans = some t → s.chip.dev.waiting = [] → t.handle = 0 → t.target.isRole = true → s.chip.dev.starting = false →
      s.chip.dev.islands.contains 4 = true → s.chip.dev.islands.contains 9 = true →
      s.becomes .modeTransitionDone
        ((((({ s.chip with dev := { s.chip.dev with mode := t.target, cause := t.reason, trans := none, fwRunning := true } } : Chip).sample 10
          (Nat.min 15 (s.chip.clk.upPs / 1000000000 / 100)))).post 0x0101 t.reason (s.chip.dev.mode.code + 256 * t.target.code)).irqCause 0).powerCondition)

/-- The commands of chapter 03 other than firmware update. -/
def Obligations.ModeCommandsAct : Prop :=
  ∀ (s : State) (p : Packet) (c : Chip),
    (s.heard 0x0101 p c → c.roomFor p 16 →
      s.becomes (.getMode p) (c.replied p
        (le 1 c.dev.mode.code ++ le 1 (match c.dev.role with | none => 0xFF | some r => r.mode.code) ++
          le 1 (c.dev.strapRole.toNat + 4 * c.dev.strapBoot.toNat) ++ le 1 s.fuses.roleLock.toNat ++ le 1 c.dev.bootSlot ++
          le 1 c.dev.resetKind ++ le 2 c.dev.cause ++ le 1 s.fuses.rollback ++ le 1 c.dev.runSvn ++
          le 1 (b2n c.dev.fallback + 2 * b2n c.dev.roleMismatch + 4 * b2n c.dev.configDefault + 8 * b2n c.dev.tamperSeen) ++ zeros 1 ++
          le 4 (c.clk.upPs / 10 ^ 12)))) ∧
    (∀ (d : Chip) (x : Ctx), s.heard 0x0102 p c → fld p.params 0 4 < 32 → c.dev.mode.isRole = true → c.gear.shift = none →
      c.limpMissing = false → c.recordFree (c.issuer p.sess).1 = true → x = s.ctxOf 0x0102 p c →
      d = ({ c with dev := { c.dev with wake := fld p.params 0 4 } } : Chip).trigger { target := .quiet, reason := 0x010F, handle := x.handle } →
      (∀ t, d.dev.trans = some t → t.handle = x.handle → s.becomes (.enterQuiet p) ((d.accepts p x).commitPoint x.handle)) ∧
      ((∀ t, d.dev.trans = some t → t.handle ≠ x.handle) → s.becomes (.enterQuiet p) (d.accepts p x))) ∧
    (∀ (d : Chip) (x : Ctx), s.heard 0x0103 p c → c.dev.mode = .quiet → c.recordFree (c.issuer p.sess).1 = true →
      x = s.ctxOf 0x0103 p c → d = c.trigger { target := c.dev.quietFrom, reason := 0x010F, handle := x.handle } →
      (∀ t, d.dev.trans = some t → t.handle = x.handle → s.becomes (.exitQuiet p) ((d.accepts p x).commitPoint x.handle)) ∧
      ((∀ t, d.dev.trans = some t → t.handle ≠ x.handle) → s.becomes (.exitQuiet p) (d.accepts p x))) ∧
    (s.heard 0x0104 p c → (fld p.params 0 1 = 1 ∨ fld p.params 0 1 = 2) → rsvd p.params 2 2 = true →
      ((fld p.params 1 1 = 1 ∨ (fld p.params 1 1 = 0 ∧ c.resetBlocker = none)) →
        s.becomes (.resetDevice p) (({ c with dev := { c.dev with resetReq := fld p.params 0 1 } } : Chip).replied p)) ∧
      (∀ h, fld p.params 1 1 = 0 → c.resetBlocker = some h → s.becomes (.resetDevice p) (c.refused p 0x0202 0 h))) ∧
    (s.heard 0x0105 p c →
      s.becomes (.enterRecovery p) (c.trigger { target := .recovery, reason := 0x010F, reply := some (p.sess, p.tag.toNat) })) ∧
    (s.heard 0x0109 p c → c.roomFor p c.dev.meas.flatten.length → s.becomes (.getMeasurements p) (c.replied p c.dev.meas.flatten)) ∧
    (∀ m, s.heard 0x010A p c → m = updAt (fun m => sliceB (Config.sha384 (m ++ sliceB p.params 0 48)) 0 48) c.dev.meas 7 →
      s.becomes (.extendM7 p) (({ c with dev := { c.dev with meas := m } } : Chip).replied p) ∧
      ∀ i, i ≠ 7 → nth [] m i = nth [] c.dev.meas i)

/-- The commands and completions of firmware update and of the fuses of chapter 03. -/
def Obligations.FirmwareUpdateActs : Prop :=
  ∀ (s : State) (p : Packet) (c : Chip),
    (s.heard 0x0106 p c → rsvd p.params 4 4 = true → (c.dev.stagingOwner = none ∨ c.dev.stagingOwner = some p.sess) →
      fld p.params 0 4 + (p.params.drop 8).length ≤ 29360128 →
      (fld p.params 0 4 = 0 ∨ (c.dev.stagingOwner = some p.sess ∧ fld p.params 0 4 = c.dev.staged)) →
      c.gkCommand (s.ctxOf 0x0106 p c) 1 (stagingAddr c.stagingSlot (fld p.params 0 4)) (p.params.drop 8).length = (c, true) →
      s.becomes (.imageWrite p) (({ c with
        flash := c.flash.putSlot c.stagingSlot ((if fld p.params 0 4 = 0 then [] else c.flash.slotImg c.stagingSlot) ++ p.params.drop 8),
        dev := { c.dev with stagingOwner := some p.sess, staged := fld p.params 0 4 + (p.params.drop 8).length } } : Chip).replied p)) ∧
    (s.heard 0x0107 p c → c.dev.commit = none → c.dev.stagingOwner = some p.sess → fld p.params 0 4 = c.dev.staged →
      fld p.params 0 4 = fld (c.flash.slotImg c.stagingSlot) 8 4 → fld p.params 0 4 ≤ 29360128 → c.recordFree (c.issuer p.sess).1 = true →
      s.becomes (.imageCommit p)
        (({ c with dev := { c.dev with commit := some ((s.ctxOf 0x0107 p c).handle, fld p.params 0 4) } } : Chip).accepts p
          (s.ctxOf 0x0107 p c))) ∧
    (∀ h len, s.chip.dev.commit = some (h, len) → s.chip.cancelled h = false →
      (∀ idx svn ver bld, verifyImage s.fuses (s.chip.flash.slotImg s.chip.stagingSlot) = .good idx svn ver bld →
        s.becomes (.imageCommitDone true)
          (((({ s.chip with dev := { s.chip.dev with commit := none, stagingOwner := none, staged := 0 },
                            flash := s.chip.flash.dirUpdate s.chip.stagingSlot } : Chip).bump 8 1).complete h 0 0 0)) ∧
        s.becomes (.imageCommitDone false)
          (({ s.chip with dev := { s.chip.dev with commit := none, stagingOwner := none, staged := 0 } } : Chip).complete h 0x0401 0 0)) ∧
      (∀ m, verifyImage s.fuses (s.chip.flash.slotImg s.chip.stagingSlot) = .sigFail →
        s.becomes (.imageCommitDone m)
          (({ s.chip with dev := { s.chip.dev with commit := none, stagingOwner := none, staged := 0 } } : Chip).complete h 0x0301 0x0103 0)) ∧
      (∀ m, verifyImage s.fuses (s.chip.flash.slotImg s.chip.stagingSlot) = .rolledBack →
        s.becomes (.imageCommitDone m)
          (({ s.chip with dev := { s.chip.dev with commit := none, stagingOwner := none, staged := 0 } } : Chip).complete h 0x0301 0x0102 0))) ∧
    (s.heard 0x0108 p c → c.dev.mode.isRole = true → c.dev.rollback = none → c.dev.runSvn ≤ 64 → s.fuses.rollback < c.dev.runSvn →
      c.recordFree (c.issuer p.sess).1 = true →
      s.becomes (.commitRollback p)
        ((({ c with dev := { c.dev with rollback := some (s.ctxOf 0x0108 p c).handle } } : Chip).accepts p (s.ctxOf 0x0108 p c)).commitPoint
          (s.ctxOf 0x0108 p c).handle)) ∧
    (∀ h, s.chip.dev.rollback = some h → s.chip.dev.runSvn ≤ 64 → s.fuses.rollback ≤ s.chip.dev.runSvn →
      exec (.commitRollbackDone true) s =
        .next { s with chip := ({ s.chip with dev := { s.chip.dev with rollback := none } } : Chip).complete h 0 0 0,
                       fuses := { s.fuses with rollback := s.chip.dev.runSvn } }) ∧
    (s.heard 0x010B p c → fld p.params 0 1 ≤ 2 → rsvd p.params 1 3 = true →
      (∀ (want : BitVec 3) (g : Fuses), bitOf s.fuses.roleLock.toNat 2 = false → s.fuses.lifecycle ≤ 1 → want = BitVec.ofNat 3 (4 + fld p.params 0 1) →
        g = { s.fuses with roleLock := s.fuses.roleLock ||| (want &&& Config.fuseBlown c.clk.fresh) } →
        (g.roleLock &&& want = want → exec (.lockRole p) s = .next { s with chip := c.nextFresh.replied p, fuses := g }) ∧
        (g.roleLock &&& want ≠ want → exec (.lockRole p) s = .next { s with chip := c.nextFresh.refused p 0x0F01 0, fuses := g })) ∧
      ((bitOf s.fuses.roleLock.toNat 2 = true ∨ 1 < s.fuses.lifecycle) →
        s.becomes (.lockRole p) (c.refused p 0x0204 0x010E)))

/-- The rows of training (Sequence 04.1). -/
def Obligations.TrainingRowsAct : Prop :=
  ∀ (s : State) (n : Fin 4) (l : LanePort), l = s.chip.laneOf n.val →
    (l.phase = .idle → s.chip.mayTrain n.val = true → s.becomes (.trainingAttemptStart n) (s.chip.startAttempt n.val)) ∧
    (∀ b, l.phase = .backoff b → s.chip.mayTrain n.val = true → s.becomes (.trainRetryTimer n) (s.chip.startAttempt n.val)) ∧
    (∀ b, l.phase = .backoff b → s.chip.mayTrain n.val = false → s.becomes (.trainRetryTimer n) (s.chip.setLane n.val { l with phase := .idle })) ∧
    (∀ k, l.phase = .train k →
      (l.peerGot.contains (k, l.mine) = false → s.becomes (.trainStepRepeat n) (s.chip.sbPeer n.val 0x41 (l.stepBody n.val k))) ∧
      (l.peerGot.contains (k, l.mine) = true → s.becomes (.trainStepRepeat n) s.chip)) ∧
    (∀ k st depth rxset precode, l.phase = .train k → k ≠ 1 →
      s.becomes (.trainStepRx n k st depth rxset precode)
        (((s.chip.setLane n.val { l with peerDepth := depth,
                                         peerGot := if l.peerGot.contains (k, st) then l.peerGot else l.peerGot ++ [(k, st)],
                                         peerRxset := if k = 7 ∧ st = 1 then rxset % 16 else l.peerRxset,
                                         peerPrecode := if k = 9 ∧ st = 1 then precode % 16 else l.peerPrecode,
                                         peerDone := l.peerDone || decide (st = 1) }).setDepths n.val).stepEnd n.val)) ∧
    (∀ duty, l.phase = .train 2 → (duty < 40 ∨ 60 < duty) →
      s.becomes (.trainStepLocalDone n (.clock duty true)) ((s.chip.setLane n.val { l with clkInverted := decide (duty < 40) }).stepDone n.val)) ∧
    (∀ duty locked, l.phase = .train 2 → (locked = false ∨ (40 ≤ duty ∧ duty ≤ 60)) →
      s.becomes (.trainStepLocalDone n (.clock duty locked)) (s.chip.failAttempt n.val 0x0402 true)) ∧
    (l.phase = .train 7 → s.becomes (.trainStepLocalDone n .check) ((s.chip.setLane n.val { l with ownRxset := l.goodSet }).stepDone n.val)) ∧
    s.becomes (.stepTimeout n) (s.chip.failAttempt n.val 0x0409 true) ∧
    (∀ step reason, s.becomes (.trainFailRx n step reason) (s.chip.failAttempt n.val 0x040A false reason)) ∧
    (∀ (i tb tp rb rp a m t1 : Nat) r, l.phase = .train 8 → i ≤ 15 → l.results.length < 15 → l.stamps.find rb = some t1 →
      r = l.results ++ [Int.tdiv (((a : Int) - t1) - ((tp : Int) - rp)) 2] →
      s.becomes (.flightStampRx n i tb tp rb rp a m)
        ((s.chip.setLane n.val { l with lastBlock := tb, lastBlockAt := a, results := r }).sendStamp n.val (l.results.length + 1))) ∧
    (∀ body, l.phase = .train 1 → bitOf (fld body 0 1) 0 = false → bitOf (fld body 0 1) 1 = false →
      s.becomes (.linkCapsRx n body) (s.chip.failAttempt n.val 0x0420 true)) ∧
    (∀ body cls rev t g, l.phase = .train 1 → cls = (if s.chip.cableClass n.val = fld body 9 1 then s.chip.cableClass n.val else 0) →
      rev = (if bitOf (fld body 0 1) 1 = true ∧ 2 ≤ l.use.maxRev ∧ 2 ≤ fld body 2 1 ∧ (cls = 1 ∨ cls = 2 ∨ cls = 3) then 2
             else if bitOf (fld body 0 1) 0 = true ∧ 1 ≤ l.use.maxRev ∧ 1 ≤ fld body 2 1 then 1 else 0) → rev ≠ 0 →
      t = startPreset cls →
      g = { l with caps := some (linkCapsOf body), revision := rev, cls, tx := l.tx.mapAll fun _ x => { x with pre := t.1, post := t.2 },
                   rx := l.rx.mapAll fun _ x => { x with peerPre := t.1, peerPost := t.2 } } →
      ∀ d, d = s.chip.setLane n.val { g with widest := g.widths.headD 0 } →
      s.becomes (.linkCapsRx n body)
        ((d.setFrm n.val { d.frmOf n.val with peerFeatures := fld body 4 2, peerRole := fld body 8 1 }).stepDone n.val)) ∧
    (∀ body, (∀ k, l.phase ≠ .train k) → s.becomes (.linkCapsRx n body) s.chip) ∧
    (∀ body, l.phase = .train 1 → l.caps = none → body = s.chip.linkCapsBody n.val → s.becomes (.linkCapsRepeat n) (s.chip.sbPeer n.val 0x40 body))

/-- R100 and R101 for a timeout. -/
def Obligations.FailedAttemptWaits : Prop :=
  ∀ (s : State) (n : Fin 4) (k : Nat) (l : LanePort), l = s.chip.laneOf n.val → l.phase = .train k → l.retrain = none →
    ∃ t, exec (.stepTimeout n) s = .next t ∧
      t.chip.laneOf n.val = { l with phase := .backoff (decide (2 ≤ l.consecutive)), lastFail := 0x0409, fails := sat16 l.fails 1,
                                     consecutive := if 2 ≤ l.consecutive then 0 else l.consecutive + 1,
                                     revision := 0, width := 0, activeRx := 0, activeTx := 0,
                                     cnt := { l.cnt with failed := sat32 l.cnt.failed 1 } } ∧
      (t.chip.frmOf n.val).seeking = false ∧
      (∃ id, (sbOut n.val false 0x48 id (le 1 k ++ le 2 0x0409)) ∈ t.chip.out) ∧
      (l.consecutive < 2 → t.chip.cmd.log = s.chip.cmd.log) ∧
      (2 ≤ l.consecutive → s.chip.cmd.log.length < 4096 → ∃ e, t.chip.cmd.log = s.chip.cmd.log ++ [e] ∧ e.code = 0x0403 ∧ e.reason = 0x0409 ∧
        e.detail = n.val + 3 * 256)

/-- The remaining lane events of chapter 04. -/
def Obligations.LaneEventsAct : Prop :=
  ∀ (s : State) (n : Fin 4) (l : LanePort), l = s.chip.laneOf n.val →
    (∀ q m lanes body, l.txeqSeen = some (q, body) → s.becomes (.txeqReqRx n q m lanes) (s.chip.sbPeer n.val 0x44 body)) ∧
    (∀ q m lanes, l.txeqSeen = none → s.becomes (.txeqReqRx n q m lanes) (s.chip.txeqApply n.val q m lanes)) ∧
    (∀ q coef lim foms, q ≠ l.txeqSeq → s.becomes (.txeqAckRx n q coef lim foms) s.chip) ∧
    (∀ coef lim foms, l.phase = .data → s.becomes (.txeqAckRx n l.txeqSeq coef lim foms)
      (s.chip.setLane n.val { l with rx := l.rx.mapAll fun _ x =>
                                       { x with peerPre := (nth 0 coef (2 * x.laneId)).toNat, peerPost := (nth 0 coef (2 * x.laneId + 1)).toNat } })) ∧
    (∀ (r : EyeReading) (f : Nat) (x y : RxLane), f = Nat.min (Nat.min 255 (r.ehUv * 4 / 1000)) (Nat.min 255 (r.ewSteps * 8)) →
      x = Tab.get ({} : RxLane) l.rx 0 →
      y = { x with fom := f, fomLow := Nat.min x.fomLow f, eh := Nat.min 255 (r.ehUv / 1000), ew := Nat.min 64 r.ewSteps, dfe1 := r.dfe1 } →
      s.becomes (.fomRefresh n [r]) ((s.chip.setLane n.val { l with rx := l.rx.set 0 y }).noteUsable n.val)) ∧
    (∀ (i : Fin 4) x k, x = Tab.get ({} : RxLane) l.rx (l.phys i.val) → k = Tab.get ({} : LaneCount) l.laneCnt i.val → l.phase = .data →
      bitOf l.activeRx i.val = true → x.fom < l.cfg.fomDegrade →
      ∀ d, d = (s.chip.setLane n.val { l with laneCnt := l.laneCnt.set i.val { k with fomLow := sat32 k.fomLow 1 } }).post 0x0404 0
          (n.val + 256 * i.val + 65536 * x.fom) →
      (l.revision = 1 → s.becomes (.laneFomLow n i) (d.linkDown n.val 0x0422)) ∧
      (l.revision ≠ 1 → s.becomes (.laneFomLow n i) (d.setFrm n.val { d.frmOf n.val with laneFailing := true }))) ∧
    (l.phase = .data → s.becomes (.clockLaneLoss n)
      ((s.chip.setLane n.val { l with cnt := { l.cnt with clockLoss := sat32 l.cnt.clockLoss 1 } }).linkDown n.val 0x0402)) ∧
    (∀ i : Fin 4, (l.phase ≠ .data ∨ l.cfg.adaptLive = false ∨ l.cfg.fomMin ≤ (Tab.get ({} : RxLane) l.rx (l.phys i.val)).fom) →
      ∀ up post, s.becomes (.adaptLiveTimer n i up post) s.chip) ∧
    (∀ (i : Fin 4) x q, x = Tab.get ({} : RxLane) l.rx (l.phys i.val) → q = (l.txeqSeq + 1) % 256 → l.phase = .data → l.cfg.adaptLive = true →
      x.fom < l.cfg.fomMin → ∀ up post, s.becomes (.adaptLiveTimer n i up post)
        ((s.chip.setLane n.val { l with txeqSeq := q, cnt := { l.cnt with txeqSent := sat32 l.cnt.txeqSent 1 } }).sbPeer n.val 0x43
          (txeqBody q [(x.laneId, if post then (0, if up then 1 else -1) else (if up then 1 else -1, 0))]))) ∧
    (∀ m lanes, m ≠ 0 → l.loopSt = none → l.cfg.allowFarLoop = true → l.cfg.admin = false →
      ∀ d, d = s.chip.loopLanes n.val { mode := 3, lanes := lanes % 16, requester := false, step := 2 } →
      s.becomes (.loopReqRx n m lanes)
        ((d.setLane n.val { d.laneOf n.val with depth := l.peerDepth % 128 + 1 }).sbPeer n.val 0x47 (le 1 0 ++ le 2 0))) ∧
    (∀ m lanes, m ≠ 0 → l.loopSt = none → (l.cfg.allowFarLoop = false ∨ l.cfg.admin = true) →
      s.becomes (.loopReqRx n m lanes) (s.chip.sbPeer n.val 0x47 (le 1 1 ++ le 2 0x040E))) ∧
    (∀ k r, l.loopSt = some k → k.requester = true → k.acked = false →
      s.becomes (.loopAckRx n 0 r) ((s.chip.setLane n.val { l with loopSt := some { k with acked := true } }).loopRunning n.val) ∧
      (l.loopHandle = none → ∀ d : Chip, d.laneOf n.val = l → d.loopRunning n.val = d) ∧
      s.becomes (.loopAckRx n 1 r) ((s.chip.setLane n.val l.unloop).loopComplete n.val 0x0201 0x040E) ∧
      (k.mode = 3 → s.becomes (.loopAckTimeout n) ((s.chip.setLane n.val l.unloop).loopComplete n.val 0x0303 0))) ∧
    (∀ k, l.loopSt = some k → k.requester = true → k.mode = 3 → s.becomes (.loopReqRepeat n) (s.chip.sbPeer n.val 0x46 (le 1 3 ++ le 1 k.lanes))) ∧
    (∀ k, l.loopSt = some k → k.requester = false →
      s.becomes (.loopExpiry n) ((s.chip.setLane n.val l.unloop).post 0x0408 0 (n.val + 256 * k.mode)))

/-- R109, over TRUNK_LANE_CTRL without FOLLOW and PERSIST. -/
def Obligations.FomLimits : Prop :=
  (∀ n, (State.reset.chip.laneOf n).cfg.fomMin = 96 ∧ (State.reset.chip.laneOf n).cfg.fomDegrade = 64) ∧
  ∀ (s : State) (p : Packet) (c : Chip) (n : Nat) (l : LanePort), s.heard 0x0401 p c → n = fld p.params 0 1 → l = c.laneOf n →
    ((fld p.params 4 1 < 16 ∨ fld p.params 5 1 < 16 ∨ fld p.params 4 1 ≤ fld p.params 5 1) →
      s.becomes (.trunkLaneCtrl p) (c.refused p 0x0104 0)) ∧
    (n ≤ 3 → fld p.params 1 1 = 1 → (fld p.params 2 1 = 1 ∨ fld p.params 2 1 = 2 ∨ fld p.params 2 1 = 4) →
      (fld p.params 3 1 = 1 ∨ fld p.params 3 1 = 2) → 16 ≤ fld p.params 4 1 → 16 ≤ fld p.params 5 1 →
      fld p.params 5 1 < fld p.params 4 1 → fld p.params 6 1 = 0 → fld p.params 7 1 ≤ 3 → fld p.params 8 1 < 8 →
      rsvd p.params 9 1 = true → 100 ≤ fld p.params 10 2 → fld p.params 10 2 ≤ 60000 → rsvd p.params 12 4 = true → l.phase ≠ .loop →
      ∀ g : LaneCfg, g = { admin := true, maxWidth := fld p.params 2 1, maxRev := fld p.params 3 1, fomMin := fld p.params 4 1, fomDegrade := fld p.params 5 1,
                           follow := false, followPort := fld p.params 7 1, precodeAllow := bitOf (fld p.params 8 1) 0, allowFarLoop := bitOf (fld p.params 8 1) 1,
                           adaptLive := bitOf (fld p.params 8 1) 2, backoffMs := fld p.params 10 2 } →
      s.becomes (.trunkLaneCtrl p) ((c.setLane n { l with cfg := g }).replied p))

/-- The remaining commands of chapter 04. -/
def Obligations.LaneCommandsAct : Prop :=
  ∀ (s : State) (p : Packet) (c : Chip) (n : Nat) (l : LanePort), n = fld p.params 0 1 → n ≤ 3 → l = c.laneOf n →
    (∀ x, s.heard 0x0403 p c → rsvd p.params 1 3 = true → l.phase = .idle → l.cfg.admin = true → c.peerThere n = true → l.retrain = none →
      c.recordFree (c.issuer p.sess).1 = true → x = s.ctxOf 0x0403 p c → ∀ d, d = c.setLane n { l with retrain := some (x.handle, 0) } →
      s.becomes (.trunkRetrain p) ((if d.mayTrain n then d.startAttempt n else d).accepts p x)) ∧
    (∀ x, s.heard 0x0404 p c → (fld p.params 1 1 = 1 ∨ fld p.params 1 1 = 2) → fld p.params 2 1 ≤ 3 → fld p.params 3 1 ≤ 15 →
      rsvd p.params 4 4 = true → l.loopHandle = none → l.cfg.admin = false → c.recordFree (c.issuer p.sess).1 = true → x = s.ctxOf 0x0404 p c →
      ∀ d, d = c.setLane n { l with phase := .loop, loopSt := some { mode := fld p.params 1 1, pattern := fld p.params 2 1,
                                                                     lanes := fld p.params 3 1, step := 6 } } →
      s.becomes (.trunkLoop p) (((d.setLane n { d.laneOf n with loopHandle := none }).accepts p x).complete x.handle 0 0 0)) ∧
    (∀ x k d, s.heard 0x0404 p c → fld p.params 1 1 = 0 → fld p.params 2 1 ≤ 3 → fld p.params 3 1 ≤ 15 → rsvd p.params 4 4 = true → l.loopHandle = none →
      l.cfg.admin = false → c.recordFree (c.issuer p.sess).1 = true → x = s.ctxOf 0x0404 p c → l.loopSt = some k → k.mode ≠ 3 → d = c.loopTally n →
      s.becomes (.trunkLoop p) (((d.setLane n (d.laneOf n).unloop).accepts p x).complete x.handle 0 0 0)) ∧
    ((l.loopSt = none → c.loopTally n = c) ∧
      (∀ k i y z, l.loopSt = some k → k.requester = true → i < 4 → y = Tab.get ({} : LaneCount) l.laneCnt i → z = Tab.get ({} : LaneCount) ((c.loopTally n).laneOf n).laneCnt i →
        (bitOf k.lanes i = false → z = y) ∧ (y.loopBits < 2 ^ 64 → y.loopBits ≤ z.loopBits) ∧ z.corrected = y.corrected)) ∧
    (∀ x, s.heard 0x0405 p c → fld p.params 1 1 ≤ 3 → fld p.params 2 1 ≤ 2 → rsvd p.params 3 1 = true → l.revision = 2 → l.eyeOpen = none →
      l.phase = .data → bitOf l.activeRx (fld p.params 1 1) = true → c.recordFree (c.issuer p.sess).1 = true → x = s.ctxOf 0x0405 p c →
      s.becomes (.eyeScan p) ((c.setLane n { l with eyeOpen := some (x.handle, fld p.params 1 1, fld p.params 2 1) }).accepts p x)) ∧
    (∀ (m : Fin 4) k h lane eye grid, k = s.chip.laneOf m.val → k.eyeOpen = some (h, lane, eye) → s.chip.cancelled h = false →
      s.becomes (.eyeScanDone m grid)
        ((s.chip.setLane m.val { k with eyeOpen := none, scanSerial := k.scanSerial + 1,
                                        scans := k.scans.set lane { serialNo := k.scanSerial + 1, eye, grid := grid.map (Nat.min 0xFFFF) } }).complete
          h 0 0 0)) ∧
    (∀ r, s.heard 0x0406 p c → fld p.params 1 1 ≤ 3 → rsvd p.params 2 2 = true → l.scans.find (fld p.params 1 1) = some r → c.roomFor p 2186 →
      s.becomes (.getEye p) (c.replied p (le 1 n ++ le 1 (fld p.params 1 1) ++ le 1 r.eye ++ zeros 1 ++ le 4 r.serialNo ++
        ((List.range 1089).map fun i => le 2 (nth 0 r.grid i)).flatten))) ∧
    (∀ d, s.heard 0x0402 p c → rsvd p.params 1 3 = true → c.roomFor p d.length →
      d = le 1 n ++ le 1 (c.laneState n) ++ le 1 l.revision ++ le 1 l.width ++ le 1 (b2n l.mapReversed + 2 * b2n l.clkInverted) ++
          le 1 (c.cableClass n) ++ le 1 (b2n (l.following || (l.txClock n).isSome) + 2 * (l.txClock n).getD l.use.followPort + 8 * b2n l.syntonyLost + 16 * l.depth) ++
          le 1 (l.activeRx + 16 * l.activeTx) ++ le 4 l.flight ++ leInt 4 (c.cableAsym n) ++ le 2 l.lastFail ++ le 2 l.fails ++
          le 1 l.cfg.fomMin ++ le 1 l.cfg.fomDegrade ++ le 1 l.cfg.cflags ++ zeros 9 ++ l.record 0 ++ l.record 1 ++ l.record 2 ++ l.record 3 →
      s.becomes (.getLaneStatus p) (c.replied p d)) ∧
    (∀ d e l, s.heard 0x0407 p c → e = c.loopTally n → l = e.laneOf n → (fld p.params 1 1 = 0 ∨ (fld p.params 1 1 = 1 ∧ (c.issuer p.sess).2 = 1)) → rsvd p.params 2 2 = true →
      c.roomFor p 160 →
      d = le 4 l.cnt.attempts ++ le 4 l.cnt.failed ++ le 4 l.cnt.linkUp ++ le 4 l.cnt.linkDown ++ le 4 l.cnt.clockLoss ++
        le 4 l.cnt.followSwitch ++ le 4 l.cnt.txeqSent ++ zeros 4 ++
        ((List.range 4).map fun i => le 8 (Tab.get ({} : LaneCount) l.laneCnt i).corrected ++ le 8 (Tab.get ({} : LaneCount) l.laneCnt i).loopBits ++
          le 4 (Tab.get ({} : LaneCount) l.laneCnt i).loopErrs ++ le 4 (Tab.get ({} : LaneCount) l.laneCnt i).fomLow ++
          le 4 (Tab.get ({} : LaneCount) l.laneCnt i).alignLoss ++ zeros 4).flatten →
      s.becomes (.getLaneCounters p) ((if fld p.params 1 1 = 1 then e.setLane n { l with cnt := {}, laneCnt := [] } else e).replied p d))

/-- R135, in the receiver's treatment of a V cell. -/
def Obligations.SeqAheadAndBehind : Prop :=
  ∀ (c : Chip) (n cwsn e : Nat) (x : Cell) (f : Framing), f = c.frmOf n → e = f.expSeq.get 0 x.tid → x.seq < 65536 → e < 65536 →
    (∀ d : Int, d = ((x.seq : Int) - (e : Int)) % 65536 →
      (1 ≤ d → d ≤ 32767 → f.naks = [] →
        c.cellV n cwsn x = (c.setFrm n { f with expSeq := f.expSeq.set x.tid ((x.seq + 1) % 65536) }).deliver n x) ∧
      (1 ≤ d → d ≤ 32767 → f.naks ≠ [] → (f.held.any fun h => h.cell.tid == x.tid && h.cell.seq == x.seq) = false →
        (∀ p, c.contractedPool x.tid = some p →
          ((c.cellV n cwsn x).frmOf n).held = f.held ++ [{ cwsn, cell := x, pool := p }] ∧
          ((c.cellV n cwsn x).frmOf n).expSeq = f.expSeq) ∧
        (c.contractedPool x.tid = none → c.cellV n cwsn x = (c.countPort (c.tunOf x.tid).outPort 7 1).dropCell n x)) ∧
      (32768 ≤ d → d ≤ 65535 → c.cellV n cwsn x = (c.countFrm n 10 1).dropCell n x))

/-- Codewords and markers (unsealed trunk). -/
def Obligations.CodewordsAndMarkers : Prop :=
  ∀ (s : State) (n : Fin 4) (f : Framing), f = s.chip.frmOf n.val →
    (∀ rx, s.chip.inData n.val = false → f.seeking = false → s.becomes (.codewordRx n rx) s.chip) ∧
    (∀ rx q c0, q = s.chip.lineRx n.val rx → s.chip.inData n.val = false → f.seeking = true → c0 = q.2.setFrm n.val { q.2.frmOf n.val with rxGap := f.rxGap + 1 } →
      (rsTrunk.decode q.1 = none → s.becomes (.codewordRx n rx) ((c0.countFrm n.val 0 1).countFrm n.val 3 1)) ∧
      (∀ w pos, rsTrunk.decode q.1 = some (w, pos) → s.becomes (.codewordRx n rx) ((c0.countFrm n.val 0 1).countCorrected n.val pos))) ∧
    (∀ p u, p < 4 → (∀ g ∈ u, g < 4) → unprecode p (precode p u) = u) ∧
    (∀ rx, s.chip.inData n.val = true → rsTrunk.decode (s.chip.lineRx n.val rx).1 = none → (s.chip.sealOf n.val).rx = none →
      ∃ t, exec (.codewordRx n rx) s = .next t ∧ t.chip.lane = (s.chip.lineRx n.val rx).2.lane ∧
        (t.chip.frmOf n.val).naks = f.naks ++ [{ cwsn := f.rxCwsn, at' := s.chip.clk.powerPs }] ∧
        (t.chip.frmOf n.val).badRun = f.badRun + 1 ∧ (t.chip.frmOf n.val).rxCwsn = (f.rxCwsn + 1) % 2 ^ 24 ∧
        (t.chip.frmOf n.val).cnt.get 0 0 = sat64 (f.cnt.get 0 0) 1 ∧ (t.chip.frmOf n.val).cnt.get 0 3 = sat64 (f.cnt.get 0 3) 1 ∧
        t.chip.fab = s.chip.fab ∧ t.chip.out = s.chip.out) ∧
    (∀ rx q w c1, q = s.chip.lineRx n.val rx → s.chip.inData n.val = true → rsTrunk.decode q.1 = some (w, []) → (s.chip.sealOf n.val).rx = none →
      c1 = (q.2.countFrm n.val 0 1).setFrm n.val
        { (q.2.countFrm n.val 0 1).frmOf n.val with badRun := 0, rxCwsn := (f.rxCwsn + 1) % 2 ^ 24 } →
      s.becomes (.codewordRx n rx) (((List.range 5).map fun i => cellOfBytes (sliceB (symbolBytes (w.take 256)) (64 * i) 64)).foldl
        (fun c x => if c.inData n.val then c.cellRx n.val f.rxCwsn x else c) c1)) ∧
    (∀ rx a, f.seeking = false → s.chip.inData n.val = false → s.chip.keys.pairFailed = false → s.becomes (.markerRx n rx a) s.chip) ∧
    (∀ rx a, s.chip.inData n.val = true → rsTrunk.decode (s.chip.lineRx n.val rx).1 = none → (s.chip.sealOf n.val).rx = none →
      s.chip.keys.pairFailed = false → f.wcMine = none → f.wcPeer = none →
      ∃ t, exec (.markerRx n rx a) s = .next t ∧ (t.chip.frmOf n.val).lostRun = f.lostRun + 1 ∧
        (t.chip.frmOf n.val).cnt.get 0 4 = sat64 (f.cnt.get 0 4) 1 ∧ t.chip.fab = s.chip.fab ∧ t.chip.lane = (s.chip.lineRx n.val rx).2.lane) ∧
    (∀ rx q a w d c0, q = s.chip.lineRx n.val rx → f.seeking = true → s.chip.inData n.val = false → rsTrunk.decode q.1 = some (w, []) →
      d = symbolBytes (w.take 256) → fldBe d 0 8 = 0x6A3C95F01E87D24B → fldBe d 316 4 = crc32c (sliceB d 0 316) → f.lastRx = none →
      s.chip.keys.pairFailed = false → c0 = q.2.countFrm n.val 0 1 →
      s.becomes (.markerRx n rx a)
        (c0.setFrm n.val { c0.frmOf n.val with good := 1, lostRun := 0, lastRx := some (fldBe d 10 6, fld d 9 1 % 16), rxTurn := fldBe d 10 6,
                                               rxGap := 0 })) ∧
    (∀ rx q a w d c0 c1 sp, q = s.chip.lineRx n.val rx → f.seeking = true → s.chip.inData n.val = false → rsTrunk.decode q.1 = some (w, []) →
      d = symbolBytes (w.take 256) → fldBe d 0 8 = 0x6A3C95F01E87D24B → fldBe d 316 4 = crc32c (sliceB d 0 316) →
      f.lastRx = some (fldBe d 10 6, sp) → sp < 15 → sp + 1 = fld d 9 1 % 16 → f.good = 1 → c0 = q.2.countFrm n.val 0 1 →
      f.rxGap + 1 = spokeCw (c0.geom n.val) sp →
      c1 = (c0.setFrm n.val { c0.frmOf n.val with good := 2, lostRun := 0, lastRx := some (fldBe d 10 6, fld d 9 1 % 16), rxTurn := fldBe d 10 6,
                                                  rxGap := 0 }).linkUp n.val →
      s.becomes (.markerRx n rx a)
        (if c1.inData n.val then c1.markerUse n.val s.fuses.lifecycle (fldBe d 10 6) (fld d 9 1 % 16) a d else c1).settlePairwise) ∧
    (s.chip.inData n.val = true → 4 ≤ f.lostRun → s.becomes (.markerLockLost n) (((s.chip.countFrm n.val 5 1).alignLosses n.val).linkDown n.val 0x0421)) ∧
    (f.lostRun < 4 → s.becomes (.markerLockLost n) s.chip) ∧
    (∀ (d : Chip) i y, i < 4 → y = Tab.get ({} : LaneCount) (d.laneOf n.val).laneCnt i →
      Tab.get ({} : LaneCount) ((d.alignLosses n.val).laneOf n.val).laneCnt i =
        if bitOf (d.laneOf n.val).activeRx i then { y with alignLoss := sat32 y.alignLoss 1 } else y) ∧
    (∀ pos c1 b, f.seeking = true → s.chip.inData n.val = false → s.chip.gear.aborting = none → f.ranges = [] → s.chip.time.pending = none →
      (s.chip.sealOf n.val).tx = none → pos = s.chip.nextTx n.val →
      c1 = s.chip.setFrm n.val { f with ackSent := (f.naks.head?.map fun k => k.cwsn).getD f.rxCwsn } →
      b = c1.markerBytes n.val pos.1 pos.2 (({} : MgmtSeg).bytes 0) →
      s.becomes (.markerTx n)
        (((c1.setFrm n.val { c1.frmOf n.val with txPos := some pos, sentRxset := (c1.laneOf n.val).goodSet,
                                                 txCw := pos.2 * geomCw (c1.geom n.val) / 16 - pos.2 }).countFrm n.val 12
          1).sendCodeword n.val (b ++ be 4 (crc32c b)))) ∧
    (∀ reads d b e, f.seeking = true → s.chip.inData n.val = false → f.txPos ≠ none → (s.chip.sealOf n.val).tx = none →
      d = (if f.fill = 0 then s.chip.nextFresh else s.chip) → b = toothBytes (List.replicate 5 none) (s.chip.fillAt n.val) →
      e = d.setFrm n.val { f with fill := b.2 } →
      s.becomes (.toothPick n reads)
        (((e.setFrm n.val { e.frmOf n.val with txCw := f.txCw + 1 }).countFrm n.val 12 1).sendCodeword n.val b.1.flatten)) ∧
    (∀ k x, ((toothBytes (List.replicate k none) x).1.map fun t => t.take 8) = List.replicate k (zeros 8))

/-- Replay and width rows of chapter 05. -/
def Obligations.ReplayAndWidthRows : Prop :=
  ∀ (s : State) (n : Fin 4) (f : Framing) (l : LanePort), f = s.chip.frmOf n.val → l = s.chip.laneOf n.val →
    (∀ cw sl, s.becomes (.replayCopyExpiry n cw sl) (s.chip.setFrm n.val
      { f with copies := f.copies.filter fun k => !(k.cwsn == cw && k.slot == sl),
               replayQ := f.replayQ.filter fun k => !((f.copies.filter fun k => k.cwsn == cw && k.slot == sl).map fun k => (k.cwsn, k.slot)).contains k })) ∧
    (∀ r, f.ranges = [r] → r.ended = false → (f.copies.filter fun k => r.has k.cwsn && f.replayQ.contains (k.cwsn, k.slot)) = [] →
      ∃ t, exec (.replayWindowEnd n) s = .next t ∧ (t.chip.frmOf n.val).ranges = [{ r with ended := true }] ∧
        (t.chip.frmOf n.val).copies = f.copies ∧ t.chip.cmd = s.chip.cmd ∧ t.chip.fab = s.chip.fab) ∧
    (∀ k rest, f.naks = k :: rest → f.held = [] →
      s.becomes (.holdTimeout n)
        (((s.chip.setFrm n.val { f with naks := rest }).countFrm n.val 11 1).post 0x0412 0x0426 n.val)) ∧
    (f.mgmtOut ≠ [] → s.becomes (.mgmtResend n) (s.chip.setFrm n.val { f with mgmtResend := some 0, mgmtStall := 0 })) ∧
    (l.phase = .data → (f.degradeRun ≤ f.badRun ∨ f.laneFailing = true) →
      s.becomes (.degradeTrigger n) (s.chip.setFrm n.val { f with fastFom := true, laneFailing := false })) ∧
    (∀ foms, l.phase = .data → f.fastFom = true → l.revision = 1 → (∃ i, i < 4 ∧ bitOf l.activeRx i = true ∧ nth 0 foms (l.phys i) < l.cfg.fomDegrade) →
      ∃ c : Chip, s.becomes (.fastFomDone n foms) (c.linkDown n.val 0x0422) ∧ c.laneOf n.val =
        { l with rx := l.rx.mapAll fun i x => if ((lanesOf l.activeRx).map l.phys).contains i then
                                                { x with fom := nth 0 foms i, fomLow := Nat.min x.fomLow (nth 0 foms i) } else x }) ∧
    (∀ foms, l.phase = .data → f.fastFom = true → (∀ i, i < 4 → bitOf l.activeRx i = true → l.cfg.fomDegrade ≤ nth 0 foms (l.phys i)) →
      ∃ t, exec (.fastFomDone n foms) s = .next t ∧ (t.chip.frmOf n.val).fastFom = false ∧ (t.chip.frmOf n.val).wcMine = f.wcMine ∧
        (t.chip.laneOf n.val).width = l.width ∧ (t.chip.laneOf n.val).phase = .data) ∧
    (∀ p c1, l.phase = .data → s.chip.upgradeLate n.val = false → s.chip.widthPlan n.val = some p →
      c1 = (s.chip.widthSwitchTx n.val p).widthSwitchRx n.val p →
      ((c1.frmOf n.val).wcTxDone = true → (c1.frmOf n.val).wcRxDone = true → s.becomes (.widthChangeTarget n) (c1.widthTake n.val p)) ∧
      (((c1.frmOf n.val).wcTxDone = false ∨ (c1.frmOf n.val).wcRxDone = false) → s.becomes (.widthChangeTarget n) c1)) ∧
    (l.phase = .data → s.chip.upgradeLate n.val = true → s.becomes (.widthChangeTarget n) (s.chip.upgradeAbandon n.val)) ∧
    ((l.phase ≠ .data ∨ (f.wcMine = none ∧ f.wcPeer = none)) → s.becomes (.widthChangeTarget n) s.chip) ∧
    (∀ (c : Chip) (p : WidthPlan) g m, g = c.frmOf n.val → m = c.laneOf n.val →
      (g.wcTxDone = true ∨ g.txPos = none ∨ reached (c.nextTx n.val) p.txAt = false → c.widthSwitchTx n.val p = c) ∧
      (g.wcTxDone = false → g.txPos ≠ none → reached (c.nextTx n.val) p.txAt = true →
        c.widthSwitchTx n.val p =
          (c.setLane n.val { m with width := p.width, activeTx := p.tx }).setFrm n.val { g with wcTxDone := true, wcOld := m.width }) ∧
      (∀ q, g.wcRxDone = false → g.lastRx = some q → reached (c.nextRx n.val q) p.rxAt = true →
        c.widthSwitchRx n.val p =
          (c.setLane n.val { m with activeRx := p.rx }).setFrm n.val
            { g with wcRxDone := true, wcOld := if g.wcTxDone then g.wcOld else m.width })) ∧
    (∀ a b, f.wcMine = some a → a.kind = 1 → f.wcSent = true → f.wcPeer = some b → b.kind = 1 →
      ∃ p, s.chip.widthPlan n.val = some p ∧ p.width = Nat.min a.width b.width ∧ p.degrade = true ∧
        p.txAt = (if posBefore (b.turn, b.spoke) (a.turn, a.spoke) then (b.turn, b.spoke) else (a.turn, a.spoke))) ∧
    (∀ a b p, f.wcMine = some a → a.kind = 2 → f.wcSent = true → f.wcPeer = some b → s.chip.widthPlan n.val = some p → b.kind = 2 →
      p.width = a.width ∧ a.width = b.width ∧ p.degrade = false ∧
        p.txAt = (if posBefore (a.turn, a.spoke) (b.turn, b.spoke) then (b.turn, b.spoke) else (a.turn, a.spoke))) ∧
    (∀ w rx, l.phase = .data → l.revision = 2 → f.upgradeAuto = true → s.chip.quieting = false → f.wcMine = none → f.wcPeer = none →
      s.chip.upgradeTo n.val = some (w, rx) →
      s.becomes (.upgradePropose n) (s.chip.setFrm n.val
        { f with wcMine := some { kind := 2, width := w, rxset := rx, turn := 0, reason := 0x042E }, wcSent := false, wcTxDone := false,
                 wcRxDone := false }))

/-- The commands of chapter 05. -/
def Obligations.FramingCommandsAct : Prop :=
  ∀ (s : State) (p : Packet) (c : Chip) (n : Nat) (f : Framing) (l : LanePort), n = fld p.params 0 1 → n ≤ 3 → f = c.frmOf n → l = c.laneOf n →
    (∀ d, s.heard 0x0410 p c → rsvd p.params 1 3 = true → c.roomFor p d.length →
      d = le 1 n ++ le 1 (c.fstate n) ++ le 1 f.mver ++ le 1 l.width ++ le 2 f.peerFeatures ++ le 1 f.peerRole ++
        le 1 (b2n (!f.replayQ.isEmpty) + 2 * b2n (!f.naks.isEmpty)) ++ le 6 f.rxTurn ++ zeros 2 ++
        le 4 f.txCwsn ++ le 4 f.ackSent ++ le 4 f.peerGearHash ++ le 2 f.naks.length ++ le 2 f.replayQ.length ++ le 2 f.held.length ++
        le 2 f.mgmtOut.length ++ le 6 f.widthTurn ++ le 2 f.widthReason ++ zeros 20 →
      s.becomes (.getFramingStatus p) (c.replied p d)) ∧
    (s.heard 0x0411 p c → (fld p.params 1 1 = 0 ∨ (fld p.params 1 1 = 1 ∧ (c.issuer p.sess).2 = 1)) → rsvd p.params 2 2 = true →
      c.roomFor p (((List.range 24).map fun i => le 8 (f.cnt.get 0 i)).flatten).length →
      s.becomes (.getFramingCounters p) ((if fld p.params 1 1 = 1 then c.setFrm n { f with cnt := [] } else c).replied p
        ((List.range 24).map fun i => le 8 (f.cnt.get 0 i)).flatten)) ∧
    (∀ w, s.heard 0x0412 p c → w = fld p.params 1 1 → (w = 1 ∨ w = 2 ∨ w = 4) → rsvd p.params 2 2 = true →
      (l.phase ≠ .data → s.becomes (.trunkWidth p) (c.refused p 0x0204 0x0428)) ∧
      (l.phase = .data → l.revision = 1 → s.becomes (.trunkWidth p) (c.refused p 0x0204 0x0427)) ∧
      (l.phase = .data → l.revision = 2 → w = l.width → s.becomes (.trunkWidth p) (c.replied p)) ∧
      (∀ rx tx x, l.phase = .data → l.revision = 2 → w ≠ l.width → usable l.goodSet w = some rx → usable f.peerRxset w = some tx → l.widths.contains w = true →
        c.limpMissingAt n w = false → f.wcMine = none → f.wcPeer = none → c.gear.shift = none → c.recordFree (c.issuer p.sess).1 = true →
        x = s.ctxOf 0x0412 p c →
        s.becomes (.trunkWidth p)
          ((c.setFrm n { f with wcMine := some { kind := if w < l.width then 1 else 2, width := w, rxset := rx, turn := 0, reason := 0x042B, handle := x.handle },
                                wcSent := false, wcTxDone := false, wcRxDone := false }).accepts p x))) ∧
    (∀ g, s.heard 0x0413 p c → fld p.params 1 1 ≤ 3 → 2 ≤ fld p.params 2 1 → fld p.params 2 1 ≤ 64 → 1 ≤ fld p.params 3 1 → fld p.params 3 1 ≤ 60 →
      rsvd p.params 4 4 = true →
      g = { f with upgradeAuto := bitOf (fld p.params 1 1) 0, degradeRun := fld p.params 2 1, upgradeHold := fld p.params 3 1 } →
      (fld p.params 1 1 < 2 → s.becomes (.setFramingCtrl p) ((c.setFrm n g).replied p)) ∧
      (2 ≤ fld p.params 1 1 → s.becomes (.setFramingCtrl p)
        (((c.setFrm n g).storeConfig fun k =>
          { k with framing := k.framing.set n (bitOf (fld p.params 1 1) 0, fld p.params 2 1, fld p.params 3 1) }).replied p)))

/-- R166, over the operation that every cause of Table 06.6 goes through. -/
def Obligations.SuspensionEvents : Prop :=
  ∀ (c : Chip) (tid cause port : Nat) (t : Tun) (d : Chip), t = c.tunOf tid → d = c.suspend tid cause port →
    c.contracted tid = true → t.state.live = true →
    (d.tunOf tid).promise.suspended = true ∧ (d.tunOf tid).promise.cause = cause ∧ (d.tunOf tid).promise.port = port ∧
    (d.tunOf tid).promise.lastTurn = c.turn ∧ (d.tunOf tid).promise.causes = sat32 t.promise.causes 1 ∧
    (∀ i, i ≠ tid → d.tunOf i = c.tunOf i) ∧
    (t.promise.suspended = true → ∃ f : Fabric, d = { c with fab := f } ∧ f = { c.fab with tun := f.tun }) ∧
    (t.promise.suspended = false → ∃ b : Chip,
      (b.cmd = c.cmd ∧ b.clk = c.clk ∧ b.host = c.host ∧ b.out = c.out ∧ b.time = c.time) ∧
      d = (b.post 0x03E0 cause (promiseDetail port tid c.turn)).postTun tid (b.event 0x03E0 cause (promiseDetail port tid c.turn)))

/-- The rows of chapters 06 and 08 that move cells, and the chainring's commands. -/
def Obligations.CellsAndPromiseAct : Prop :=
  ∀ (s : State) (port : Fin 11) (tid : Nat) (c : Chip) (t : Tun), c = s.chip.drainWaiting → t = c.tunOf tid →
    (∀ x y, (c.fab.src.get [] port.val).find? (fun z => z.tid == tid) = some x → y = { x with seq := t.nextSeq } →
      c.portOn port.val = true → c.forwards = true →
      (t.state = .open ∨ t.state = .closing) → t.index = 0 → t.inPort = port.val → t.heldBack = false → port.val ≠ 9 →
      (c.contracted tid = false → port.val ≠ 10 →
        (∀ k, c.backlogged t.outPort = false → c.bestEffortPool tid false = some k →
          s.becomes (.cellPresent port tid) (((c.tookCell port.val y).linkCell t.outPort { cell := y, pool := k }).drainCheck tid)) ∧
        (c.backlogged t.outPort = true ∨ c.bestEffortPool tid false = none → s.becomes (.cellPresent port tid) (c.drainCheck tid))) ∧
      (∀ r u, c.contracted tid = true → c.certRec tid = some r → (c.backlogged t.outPort = false ∨ c.budgetLeft t.outPort = true) →
        u = t.police r.policeRate r.policeDepth c.clk.powerPs →
        (r.source = false → s.becomes (.cellPresent port tid) ((c.presentConform port.val y).drainCheck tid)) ∧
        (r.source = true → t.polMode = 2 → s.becomes (.cellPresent port tid)
          (((c.countPoliced tid fun f => { f with conform := sat32 f.conform 1 }).presentConform port.val y).drainCheck tid)) ∧
        (r.source = true → 65536 ≤ u.tokens → t.polMode ≠ 2 → s.becomes (.cellPresent port tid)
          ((((c.setTun tid { u with tokens := u.tokens - 65536 }).countPoliced tid fun f => { f with conform := sat32 f.conform 1 }).presentConform
            port.val y).drainCheck tid)) ∧
        (r.source = true → u.tokens < 65536 → t.polMode = 1 → s.becomes (.cellPresent port tid)
          (((((c.setTun tid u).countPoliced tid fun f => { f with dropped := sat32 f.dropped 1 }).tookCell port.val y).dropCell u.outPort y).drainCheck
            tid)) ∧
        (∀ k, r.source = true → u.tokens < 65536 → t.polMode = 0 → c.backlogged t.outPort = false →
          (c.setTun tid u).bestEffortPool tid true = some k → s.becomes (.cellPresent port tid)
            (((((c.setTun tid u).countPoliced tid fun f => { f with demoted := sat32 f.demoted 1 }).tookCell port.val y).linkCell u.outPort
              { cell := y, pool := k, demoted := true }).drainCheck tid)))) ∧
    (∀ (f : Nat → Bool) (rank : Nat → Nat) (i : Nat) x r, i < 4 → s.chip.forwards = true → s.chip.backlogOf port.val i = x :: r →
      rank = (fun j => (j + 7 - (s.chip.port port.val).rrTrunk % 4) % 4) →
      f = (fun j => match s.chip.backlogOf port.val j with
        | z :: _ => s.chip.contracted z.cell.tid && !z.demoted &&
            decide ((s.chip.port port.val).spent < (match s.chip.activeGear with | none => 0 | some g => nth 0 g.budget port.val))
        | [] => false) →
      (f i = true → (∀ j, j < 4 → rank j < rank i → f j = false) →
        s.becomes (.backlogLink port) ((s.chip.setBacklog port.val i r).linkCell port.val x true)) ∧
      ((∀ j, j < 4 → f j = false) → (∀ j, j < 4 → rank j < rank i → s.chip.backlogOf port.val j = []) →
        s.becomes (.backlogLink port)
          (((s.chip.setPort port.val { s.chip.port port.val with rrTrunk := i }).setBacklog port.val i r).linkCell port.val x true))) ∧
    ((s.chip.forwards = false ∨ ∀ j, j < 4 → s.chip.backlogOf port.val j = []) → s.becomes (.backlogLink port) s.chip) ∧
    (∃ u, exec .fabricSpokeStart s = .next u ∧ (∀ e ∈ u.chip.fab.ports, e.2.spent = 0) ∧
      u.chip.clk.localPs = s.chip.clk.localPs + s.chip.toSpoke ∧ u.chip.clk.powerPs = (s.chip.pass s.chip.toSpoke).clk.powerPs ∧
      u.chip.fab.tun = s.chip.fab.tun ∧ u.chip.fab.q = s.chip.fab.q ∧ u.chip.cmd = s.chip.cmd ∧ u.guard = s.guard ∧ u.fuses = s.fuses) ∧
    (∀ (g k e : Chip) (v : Tun) (w : Promise) d, v = s.chip.tunOf tid → g = s.chip.promiseLook tid → w = (g.tunOf tid).promise →
      (w.suspended = true → v.state.live = true → g.promiseHolds tid = true → g.spoke = 0 → seqBefore 48 g.turn ((w.lastTurn + 2) % 2 ^ 48) = false →
        k = g.setTun tid { v with promise := { w with suspended := false, since := g.turn } } → d = promiseDetail w.port tid g.turn →
        e = (k.post 0x03E1 w.cause d).postTun tid (k.event 0x03E1 w.cause d) →
        s.becomes (.promiseRestore tid) (e.sample 7 (logBin ((g.turn + 2 ^ 48 - w.since) % 2 ^ 48)))) ∧
      ((w.suspended = false ∨ v.state.live = false ∨ g.promiseHolds tid = false ∨ g.spoke ≠ 0 ∨
        seqBefore 48 g.turn ((w.lastTurn + 2) % 2 ^ 48) = true) → s.becomes (.promiseRestore tid) g)) ∧
    (∀ (r : LineRead) g k d q, 4 ≤ port.val → s.chip.portOn port.val = true → s.chip.forwards = true →
      g = (if port.val = 4 then s.chip.rxCuts else s.chip) → g.contractedChoice port.val = some k →
      g.depart port.val k r false = (d, some q) →
      s.becomes (.endpointTake port r) ((((d.toEndpoint port.val q).flowAfter port.val q.cell.tid).drainCheck q.cell.tid).settlePairwise)) ∧
    (∀ (r : LineRead) g d q, 4 ≤ port.val → s.chip.portOn port.val = true → s.chip.forwards = true →
      g = (if port.val = 4 then s.chip.rxCuts else s.chip) → g.contractedChoice port.val = none →
      g.fwDecide port.val r = (d, some q) →
      s.becomes (.endpointTake port r) ((((d.toEndpoint port.val q).flowAfter port.val q.cell.tid).drainCheck q.cell.tid).settlePairwise)) ∧
    (∀ (p : Packet) (c : Chip) (n : Nat) (u : Tun), n = fld p.params 0 2 → u = c.tunOf n → s.heard 0x03F0 p c → n < 1024 →
      rsvd p.params 2 2 = true → c.roomFor p 32 → ((c.issuer p.sess).2 ≠ 2 ∨ c.ownsTunnel (c.issuer p.sess).1 n = true) →
      (u.state.live = false → s.becomes (.getPromise p) (c.replied p (le 2 n ++ [0xFF, 0] ++ le 2 0 ++ [0xFF] ++ zeros 25))) ∧
      (∀ r, u.state.live = true → c.contracted n = true → c.certRec n = some r → s.becomes (.getPromise p)
        (c.replied p (le 2 n ++ le 1 u.cls ++ le 1 (if u.promise.suspended then 2 else 1) ++ le 2 u.promise.cause ++ le 1 u.promise.port ++
          le 1 (c.variantOf n) ++ le 6 u.promise.since ++ zeros 2 ++ le 4 u.promise.suspensions ++ le 4 u.promise.causes ++
          le 4 (if c.variantOf n = 0 then 0 else (r.var (c.variantOf n)).bound) ++ zeros 4)))) ∧
    (∀ (p : Packet) (c : Chip) (n : Nat) (d : Bytes), n = fld p.params 0 1 → s.heard 0x03F1 p c → n ≤ 10 → rsvd p.params 2 2 = true →
      c.roomFor p 64 → (fld p.params 1 1 = 0 ∨ (fld p.params 1 1 = 1 ∧ (c.issuer p.sess).2 = 1)) →
      d = ((List.range 8).map fun i => le 8 (if n ≥ 4 ∧ 1 ≤ i ∧ i ≤ 5 then 0 else (c.port n).cnt.get 0 i)).flatten →
      s.becomes (.getChainringCounters p)
        ((if fld p.params 1 1 = 1 then c.setPort n { c.port n with cnt := [] } else c).replied p d))

/-- Chapter 07's commands and rows. -/
def Obligations.GearsAct : Prop :=
  ∀ (s : State) (p : Packet) (c : Chip) (x : Ctx) (i : Nat), i = fld p.params 0 1 →
    (s.heard 0x0301 p c → x = s.ctxOf 0x0301 p c → rsvd p.params 4 4 = true →
      (c.gear.stageOwner = none ∨ c.gear.stageOwner = some p.sess) → fld p.params 0 4 + (p.params.drop 8).length ≤ 1048568 →
      (fld p.params 0 4 = 0 ∨ (c.gear.stageOwner = some p.sess ∧ fld p.params 0 4 = c.gear.staged.length)) →
      c.gkCommand x 1 (Config.gearStagingBase + fld p.params 0 4) (p.params.drop 8).length = (c, true) →
      ∀ b : Bytes, b = (if fld p.params 0 4 = 0 then [] else c.gear.staged) ++ p.params.drop 8 →
      s.becomes (.gearStage p) (({ c with gear := { c.gear with stageOwner := some p.sess, staged := b } } : Chip).replied p)) ∧
    (s.heard 0x0302 p c → x = s.ctxOf 0x0302 p c → i ≤ 3 → rsvd p.params 2 6 = true →
      (fld p.params 1 1 = 0 ∨ ((fld p.params 1 1 = 2 ∨ fld p.params 1 1 = 6) ∧ c.inRole .relay = false)) →
      (c.slotState i = 0 ∨ c.slotState i = 2) → c.recordFree (c.issuer p.sess).1 = true →
      s.becomes (.gearVerify p)
        ((c.setGslot i { c.gslot i with verifying := some (x.handle, p.params.drop 8, fld p.params 1 1) }).accepts p x)) ∧
    (∀ (k : Fin 4) h b fl g, (s.chip.gslot k.val).verifying = some (h, b, fl) → h ≠ 0 → s.chip.cancelled h = false →
      g = s.chip.setGslot k.val { s.chip.gslot k.val with verifying := none } →
      (∀ st rs off m, g.derailleur b = (some (st, rs, off), m) → bitOf fl 0 = false →
        s.becomes (.derailleurPassDone k) ((g.bump 28 1).complete h st rs off)) ∧
      (∀ m, g.derailleur b = (none, some m) → fl = 0 →
        s.becomes (.derailleurPassDone k)
          (((g.setGslot k.val { img := some m, since := g.turn, persist := false, boot := false, verifying := none }).bump 27 1).complete h 0 0 0))) ∧
    (s.heard 0x0303 p c → i ≤ 3 → rsvd p.params 1 3 = true → (c.slotState i = 0 ∨ c.slotState i = 2) →
      s.becomes (.gearClear p) (({ c with gear := { c.gear with slots := c.gear.slots.erase i },
                                          csys := { c.csys with gears := c.csys.gears.erase i } } : Chip).replied p)) ∧
    (s.heard 0x0304 p c → x = s.ctxOf 0x0304 p c → i ≤ 4 → rsvd p.params 1 1 = true → c.shiftRefused i (fld p.params 2 6) = none →
      c.recordFree (c.issuer p.sess).1 = true →
      s.becomes (.shift p) ((c.openShift i (fld p.params 2 6) x.handle).accepts p x)) ∧
    (∀ r, s.chip.gear.shift = some r → r.committed = false → s.chip.cancelled r.handle = false →
      ((∀ n, n < 4 → s.chip.inData n = true → bitOf r.matched n = true ∧ bitOf r.peerConf n = true) →
        s.becomes .shiftDecide
          (({ s.chip with gear := { s.chip.gear with shift := some { r with committed := true } } } : Chip).commitPoint r.handle)) ∧
      (∀ n, n < 4 → s.chip.inData n = true → (bitOf r.matched n = false ∨ bitOf r.peerConf n = false) →
        (∀ m, m < n → s.chip.inData m = true → bitOf r.matched m = true ∧ bitOf r.peerConf m = true) →
        s.becomes .shiftDecide (s.chip.shiftAbort 0x0318 n) ∧ (s.chip.shiftAbort 0x0318 n).gear.shift = none ∧
        (s.chip.shiftAbort 0x0318 n).gear.lastReason = 0x0318)) ∧
    (∀ r, s.chip.gear.shift = some r → r.committed = true →
      ∃ t, exec .shiftApply s = .next t ∧ t.chip = s.chip.shiftApply ∧ t.guard = s.guard ∧ t.fuses = s.fuses ∧ t.pending = s.pending ∧
        t.chip.gear.active = (if r.slot ≥ 4 then none else some r.slot) ∧ t.chip.gear.shift = none ∧ t.chip.gear.lastReason = 0) ∧
    (s.heard 0x0305 p c → c.roomFor p 160 →
      (∀ r, c.gear.shift = some r → s.becomes (.getGearSlots p) (c.replied p
        (c.slotRecord 0 ++ c.slotRecord 1 ++ c.slotRecord 2 ++ c.slotRecord 3 ++ le 1 (if r.committed then 2 else 1) ++ le 1 r.slot ++
          le 1 r.matched ++ le 1 r.peerConf ++ le 4 r.handle ++ le 6 c.gear.lastTarget ++ le 2 c.gear.lastReason ++ zeros 16))) ∧
      (c.gear.shift = none → s.becomes (.getGearSlots p) (c.replied p
        (c.slotRecord 0 ++ c.slotRecord 1 ++ c.slotRecord 2 ++ c.slotRecord 3 ++ le 1 0 ++ le 1 c.gear.lastSlot ++ zeros 6 ++
          le 6 c.gear.lastTarget ++ le 2 c.gear.lastReason ++ zeros 16)))) ∧
    (∀ k b e, s.chip.dev.mode.isRole = true → s.chip.storeReady = true → s.chip.keys.restored = true → s.chip.csys.gears = [(k, (b, e))] → s.chip.slotState k = 0 →
      s.becomes .gearRestore (s.chip.setGslot k { s.chip.gslot k with verifying := some (0, b, 2 + 4 * b2n e) })) ∧
    (∀ k h tt d, s.chip.gear.bootShift = some k → tt = (s.chip.turn + 24) % 2 ^ 48 → s.chip.shiftRefused k tt = none →
      s.chip.recordFree 0 = true → h = s.chip.newHandle 0 → d = s.chip.makeRoom 0 →
      s.becomes .bootShiftIssue
        ((({ d with cmd := { d.cmd with serial := d.cmd.serial.set 0 (h % 2 ^ 24),
                                        handles := d.cmd.handles ++ [{ handle := h, opcode := 0x0304, sess := .spi, tag := 0, evq := 0,
                                                                       logcopy := false, logOnly := true }] },
                    gear := { d.gear with bootShift := none } } : Chip)).openShift k tt h))

/-- The rows of chapter 08 that are not commands. -/
def Obligations.TunnelRowsAct : Prop :=
  ∀ (s : State) (n : Fin 4) (x : Cell) (c : Chip) (r : OpenReq) (b : Bytes) (tid : Nat) (t : Tun),
    c = s.chip.takeF10 n.val x → b = x.payload → r = openOfCell n.val b → tid = fldBe b 0 2 % 1024 → t = c.tunOf tid →
    (∀ st rs, c.checkOpen r r.index none = some (st, rs) →
      s.becomes (.openCellRx n x) (c.sendFw n.val (ctlCell 0 3 (ackPayload r.tid st rs 0 r.index r.openId (zeros 16))))) ∧
    (c.checkOpen r r.index none = none → r.index < r.hops →
      s.becomes (.openCellRx n x)
        ((c.newContext r.tid (r.context r.index 0xFF)).sendFw (r.out r.index) (ctlCell 0 2 (r.payload (r.index + 1))))) ∧
    (∀ d, c.checkOpen r r.index none = none → r.index = r.hops → d = c.newContext r.tid (r.context r.index 0xFF) →
      s.becomes (.openCellRx n x)
        ((d.tunnelOpened r.tid r.version).sendFw n.val
          (ctlCell 0 3 (ackPayload r.tid 0 0 r.version 0xFF r.openId (d.endpointAnswer (r.dst 0xFF)).2)))) ∧
    ((t.state = .quarantine ∨ t.state = .free) →
      s.becomes (.openAckRx n x) { c with fab := { c.fab with strayAcks := sat32 c.fab.strayAcks 1 } }) ∧
    (t.state = .opening → t.outPort = n.val → t.openId = fldBe b 8 4 →
      (∀ h d, t.index = 0 → d = (c.setTun tid { t with answer := sliceB b 12 16 }).tunnelOpened tid (fldBe b 6 1) → fldBe b 2 2 = 0 →
        t.openHandle = some h →
        s.becomes (.openAckRx n x)
          ((d.setTun tid { d.tunOf tid with openHandle := none }).complete h 0 (fldBe b 4 2) (fldBe b 6 1 % 256 + fldBe b 7 1 * 256))) ∧
      (0 < t.index → fldBe b 2 2 ≠ 0 →
        s.becomes (.openAckRx n x)
          ((((c.setTun tid { t with answer := [] }).clearSrc tid).quarantine tid (fldBe b 4 2)).sendFw t.inPort (ctlCell 0 3 b)))) ∧
    (t.state.live = false → (fldBe b 2 1 ≠ 1 ∨ t.index ≠ 0) → s.becomes (.closeCellRx n x) (c.sendFw n.val (ctlCell 0 5 (closeAckPayload tid (fldBe b 8 4) 0)))) ∧
    (t.state.live = false → fldBe b 2 1 = 1 → t.index = 0 → s.becomes (.closeCellRx n x)
      ((c.drainAborted tid (fldBe b 4 2)).sendFw n.val (ctlCell 0 5 (closeAckPayload tid (fldBe b 8 4) 0)))) ∧
    (fldBe b 2 1 = 0 → t.state = .open → 0 < t.index → t.inPort = n.val →
      s.becomes (.closeCellRx n x) (c.startDrain tid (fldBe b 4 2) (fldBe b 6 2) (fldBe b 8 4) (fldBe b 12 1))) ∧
    (∀ d, fldBe b 2 1 ≠ 0 → t.state.live = true → d = c.abortHere tid (fldBe b 4 2) →
      (0 < t.index → t.inPort = n.val → t.index < t.hops → s.becomes (.closeCellRx n x) (d.sendFw t.outPort (ctlCell 0 4 b))) ∧
      (0 < t.index → t.inPort = n.val → t.index = t.hops →
        s.becomes (.closeCellRx n x) (d.sendFw n.val (ctlCell 0 5 (closeAckPayload tid (fldBe b 8 4) (d.tunOf tid).discarded)))) ∧
      (t.index = 0 →
        s.becomes (.closeCellRx n x) (d.sendFw n.val (ctlCell 0 5 (closeAckPayload tid (fldBe b 8 4) (d.tunOf tid).discarded))))) ∧
    (∀ k, c.fab.closes.find? (fun k => k.tid == tid && k.handle == fldBe b 2 4) = some k →
      ((k.out = some n.val ∧ k.acks = 1) ∨ (k.out ≠ some n.val ∧ k.acks = 2)) → s.becomes (.closeAckRx n x)
        (({ c with fab := { c.fab with closes := c.fab.closes.filter fun y => y != k } } : Chip).closeDone k.handle 0 0)) ∧
    (∀ u, u = c.tunOf x.tid → u.state.live = true → u.outPort = n.val →
      (u.index = 0 → u.creditSeq ≠ none → s.becomes (.flowCellRx n x) (c.setTun x.tid { u with creditSeq := some (fldBe b 0 2) })) ∧
      (0 < u.index → s.becomes (.flowCellRx n x) (c.sendFw u.inPort x))) ∧
    (∀ i u, u = s.chip.tunOf i →
      (u.state = .opening → u.index = 0 → s.becomes (.openTimeout i) (s.chip.abortClose i 0x0209 none 0x0303 0x0209)) ∧
      (u.state = .opening → 0 < u.index → s.becomes (.openingTimeout i) (s.chip.abortClose i 0x0209)) ∧
      (u.state = .closing → u.draining = false → s.becomes (.drainTurnsExpiry i) (((s.chip.dropTunnel i 0x020D).clearSrc i).drainEnd i 0x020D)) ∧
      (u.state = .quarantine → s.becomes (.quarantineEnd i) { s.chip with fab := { s.chip.fab with tun := s.chip.fab.tun.erase i } }) ∧
      (u.state ≠ .quarantine → s.becomes (.quarantineEnd i) s.chip)) ∧
    (∀ h k, s.chip.fab.closes.find? (fun k => k.handle == h) = some k →
      (∀ k ∈ s.chip.fab.closes, k.handle = h → k.drain = false ∨ (s.chip.tunOf k.tid).openId ≠ h ∨ (s.chip.tunOf k.tid).draining = false) →
      s.becomes (.closeTimeout h)
        (({ s.chip with fab := { s.chip.fab with closes := s.chip.fab.closes.filter fun y => y.handle != h } } : Chip).closeDone h 0x0303
          (if k.drain then 0x020D else 0))) ∧
    (∀ (p : Fin 11) i y l, s.chip.fab.ladle.msgs = [] → openMsg (s.chip.queue p.val i) = y :: l → y.sf = true →
      s.becomes (.sfTimeout p i) (s.chip.sfDiscard p.val i)) ∧
    (∀ k f a l d, k = s.chip.fab.pot → f = lostLines k.lost (fun z => decide (1 ≤ z.audits)) → a = sat32 k.accounting s.chip.mismatches →
      l = k.lost.map (fun z => { z with audits := z.audits + 1 }) → k.reclaim = false →
      d = ({ s.chip with fab := { s.chip.fab with pot := { k with leaked := sat32 k.leaked (lostLines k.lost fun z => z.audits = 1),
                                                                   reclaimed := sat32 k.reclaimed 0, accounting := a, lost := l } } } : Chip) →
      (0 < f → s.becomes .sieveAudit (d.post 0x0203 0 f)) ∧ (f = 0 → s.becomes .sieveAudit d)) ∧
    (∀ k f, k = s.chip.fab.pot → f = lostLines k.lost (fun z => decide (1 ≤ z.audits)) → k.reclaim = true →
      ∃ u d, exec .sieveAudit s = .next u ∧ u.chip = (if f = 0 then d else d.post 0x0203 0 (f + f * 2 ^ 32)) ∧
        d.fab.pot.reclaimed = sat32 k.reclaimed f ∧ d.fab.tun = s.chip.fab.tun ∧ d.fab.q = s.chip.fab.q ∧ d.cmd = s.chip.cmd ∧
        ∀ z ∈ d.fab.pot.lost, z.audits = 1)

/-- Chapter 08's commands. -/
def Obligations.TunnelCommandsAct : Prop :=
  ∀ (s : State) (p : Packet) (c : Chip) (x : Ctx) (b : Bytes), b = p.params →
    (∀ r t d, s.heard 0x0201 p c → x = s.ctxOf 0x0201 p c → r = openOfParams b x.handle →
      (r.tid < 16 → s.becomes (.tunnelOpen p) (c.refused p 0x0104 0x0201)) ∧
      (16 ≤ r.tid → openParamsBad b r = false → ((c.issuer p.sess).2 ≠ 2 ∨ r.inPort = 4) → c.checkOpen r 0 (some (c.issuer p.sess).1) = none →
        ((c.issuer p.sess).1 ≥ 64 ∨ c.tunnelsSpent (c.issuer p.sess).1 = false) → c.recordFree (c.issuer p.sess).1 = true →
        t = { r.context 0 (c.issuer p.sess).1 with sess := some p.sess, evq := p.evq.toNat, alpha := sfld b 21 1, openHandle := some x.handle } →
        d = c.newContext r.tid t →
        (0 < r.hops → s.becomes (.tunnelOpen p) ((d.sendFw (r.out 0) (ctlCell 0 2 (r.payload 1))).accepts p x)) ∧
        (r.hops = 0 → ∀ a, a = (d.endpointAnswer (r.dst (c.issuer p.sess).1)).2 →
          s.becomes (.tunnelOpen p)
            ((((d.setTun r.tid { d.tunOf r.tid with openHandle := none, answer := a }).tunnelOpened r.tid r.version).accepts p x).complete
              x.handle 0 0 (r.version + 0xFF00))))) ∧
    (∀ i t, s.heard 0x0202 p c → x = s.ctxOf 0x0202 p c → i = fld b 0 2 → t = c.tunOf i → 16 ≤ i → i < 1024 → rsvd b 3 1 = true →
      ((c.issuer p.sess).2 ≠ 2 ∨ c.ownsTunnel (c.issuer p.sess).1 i = true) → t.state.live = true → c.recordFree (c.issuer p.sess).1 = true →
      (fld b 2 1 = 1 → 0 < t.hops →
        s.becomes (.tunnelClose p) (((c.abortClose i 0x0213 (some x.handle)).accepts p x).commitPoint x.handle)) ∧
      (fld b 2 1 = 1 → t.hops = 0 →
        ∃ u, exec (.tunnelClose p) s = .next u ∧
          u.chip = (((c.abortClose i 0x0213 (some x.handle)).accepts p x).commitPoint x.handle).complete x.handle 0 0 0) ∧
      (fld b 2 1 = 0 → t.index = 0 → t.state = .open → ((c.drainHere i x.handle).fab.closes.any fun k => k.handle == x.handle) = true →
        s.becomes (.tunnelClose p) (((c.drainHere i x.handle).accepts p x).commitPoint x.handle)) ∧
      (fld b 2 1 = 0 → 0 < t.index → s.becomes (.tunnelClose p) (c.refused p 0x0104 0x0210))) ∧
    (s.heard 0x0203 p c → fld b 0 2 < 1024 → rsvd b 2 2 = true → c.roomFor p 64 →
      ((c.issuer p.sess).2 ≠ 2 ∨ c.ownsTunnel (c.issuer p.sess).1 (fld b 0 2) = true) →
      s.becomes (.getTunnel p) (c.replied p (c.tunnelRecord (fld b 0 2)))) ∧
    (∀ es, s.heard 0x0204 p c → fld b 0 2 < 1024 → 1 ≤ fld b 2 2 → fld b 2 2 ≤ 1024 →
      es = ((c.fab.tun.filter fun e => decide (fld b 0 2 ≤ e.1) && e.2.state != .free).take (fld b 2 2)).map (fun e =>
        le 2 e.1 ++ le 1 e.2.state.code ++ le 1 e.2.ty ++ le 1 e.2.cls ++ le 1 e.2.inPort ++ le 1 e.2.outPort ++ le 1 e.2.owner) →
      c.roomFor p es.flatten.length → s.becomes (.listTunnels p) (c.replied p es.flatten)) ∧
    (s.heard 0x0205 p c → fld b 0 1 ≤ 10 → fld b 1 1 ≤ 7 → 1 ≤ fld b 2 2 → fld b 2 2 ≤ 10000 →
      ((4 ≤ fld b 0 1 ∨ fld b 1 1 % 4 = 0) →
        s.becomes (.setForwarding p)
          ((c.setPort (fld b 0 1) { c.port (fld b 0 1) with fwd := fld b 1 1, sfTimeout := fld b 2 2 }).replied p)) ∧
      (fld b 0 1 < 4 → fld b 1 1 % 4 ≠ 0 → s.becomes (.setForwarding p) (c.refused p 0x0104 0x020E))) ∧
    (∀ k, s.heard 0x0206 p c → c.roomFor p 84 → k = c.fab.pot →
      s.becomes (.getStockpot p) (c.replied p
        (le 4 c.res ++ le 4 c.guarantees ++ le 4 k.retired.length ++ le 4 c.sEff ++ le 4 (c.poolUsed .shared) ++
          le 4 (524288 - c.stored.length - k.retired.length - lostLines k.lost (fun _ => true)) ++ le 4 k.auditMs ++
          le 1 (b2n k.reclaim + 2 * b2n k.svPersist) ++ zeros 3 ++ le 8 k.corrected ++ le 8 k.poisoned ++ le 8 k.evicted ++ le 4 k.leaked ++
          le 4 k.reclaimed ++ le 4 k.accounting ++ le 4 k.descLost ++ le 4 k.creditOverrun ++ le 4 k.sfIncomplete ++ le 4 k.systemDrops))) ∧
    (∀ d k, s.heard 0x0207 p c → 1 ≤ fld b 0 2 → fld b 0 2 ≤ 1000 → fld b 2 1 ≤ 3 → rsvd b 3 1 = true → k = c.fab.pot →
      d = ({ c with fab := { c.fab with pot := { k with auditMs := fld b 0 2, reclaim := bitOf (fld b 2 1) 0,
                                                        svPersist := bitOf (fld b 2 1) 1 } } } : Chip) →
      s.becomes (.sieveCtrl p)
        ((if bitOf (fld b 2 1) 1 then d.storeConfig (fun z => { z with sieve := some (fld b 0 2, bitOf (fld b 2 1) 0) }) else d).replied p))

/-- Chapter 09's commands, and the ladle's writes. -/
def Obligations.FreewheelAndLadleAct : Prop :=
  ∀ (s : State) (p : Packet) (c : Chip) (b : Bytes), b = p.params →
    (∀ i f t, s.heard 0x0220 p c → i = fld b 0 2 → t = c.tunOf i → f = c.fwOf t.outPort i → i < 1024 → fld b 2 1 ≤ 3 → rsvd b 3 1 = true →
      fld b 4 2 ≠ 0 → rsvd b 6 2 = true → rsvd b 16 8 = true → (bitOf (fld b 2 1) 1 = true → shaperOk (fld b 8 4) (fld b 12 4) = true) →
      (t.state.live = true → c.contracted i = false →
        ∀ w, w = { f.shaper with write := some (bitOf (fld b 2 1) 1, fld b 8 4, fld b 12 4, bitOf (fld b 2 1) 0) } →
        s.becomes (.fwQueueSet p) ((c.setFw t.outPort i { f with weight := fld b 4 2, shaper := w }).replied p)) ∧
      ((t.state.live = false ∨ c.contracted i = true) → s.becomes (.fwQueueSet p) (c.refused p 0x0204 0x0220))) ∧
    (∀ o l w, s.heard 0x0221 p c → o = c.port (fld b 0 1) → fld b 0 1 ≤ 10 → fld b 1 1 < 4 → -32 ≤ sfld b 2 1 → sfld b 2 1 ≤ 64 →
      rsvd b 3 1 = true → fld b 4 2 ≠ 0 → rsvd b 6 2 = true → rsvd b 24 8 = true →
      (bitOf (fld b 1 1) 1 = true → shaperOk (fld b 8 4) (fld b 12 4) = true) →
      l = [fld b 16 2, fld b 18 2, fld b 20 2, fld b 22 2] → (fld b 0 1 < 4 ∨ l = [0, 0, 0, 0]) →
      w = { o.shaper with write := some (bitOf (fld b 1 1) 1, fld b 8 4, fld b 12 4, bitOf (fld b 1 1) 0) } →
      s.becomes (.fwPortSet p)
        ((c.setPort (fld b 0 1) { o with overhead := sfld b 2 1, demoteWeight := fld b 4 2, limits := l, shaper := w }).replied p)) ∧
    (∀ (k : Shaper) now on rate burst full, k.write = some (on, rate, burst, full) →
      (k.refresh now).on = on ∧ (k.refresh now).rate = rate ∧ (k.refresh now).burst = burst ∧ (k.refresh now).write = none ∧
      (k.refresh now).tokens = if full then burst * 65536 else 0) ∧
    (∀ (k : Shaper) now, (k.refresh now).on = true → (k.refresh now).tokens ≤ (k.refresh now).burst * 65536) ∧
    (s.heard 0x0222 p c → fld b 0 2 < 1024 → fld b 2 1 ≤ 2 → rsvd b 3 1 = true →
      (c.policed (fld b 0 2) = true →
        s.becomes (.policerSet p) ((c.setTun (fld b 0 2) { c.tunOf (fld b 0 2) with polMode := fld b 2 1 }).replied p)) ∧
      (c.policed (fld b 0 2) = false → s.becomes (.policerSet p) (c.refused p 0x0204 0x0221))) ∧
    (∀ i t f, s.heard 0x0223 p c → i = fld b 0 2 → t = c.tunOf i → f = c.fwOf t.outPort i → i < 1024 → rsvd b 2 2 = true → c.roomFor p 64 →
      ((c.issuer p.sess).2 ≠ 2 ∨ c.ownsTunnel (c.issuer p.sess).1 i = true) → ∀ d k, k = f.shaper.refresh c.clk.powerPs →
      d = le 2 i ++ le 1 t.outPort ++ le 1 ((c.fwRefresh t.outPort).qstate t.outPort i) ++ le 2 f.weight ++
          le 1 (if c.policed i then t.polMode else 0xFF) ++ zeros 1 ++ le 4 (if k.on then k.rate else 0) ++ le 4 k.burst ++
          le 4 (k.tokens / 65536) ++ le 4 (c.queue t.outPort i).length ++ le 4 f.depthHwm ++ le 4 f.sojournHwm ++ le 8 f.cellsOut ++
          le 8 f.accBytes ++ le 4 f.conform ++ le 4 f.demoted ++ le 4 f.dropped ++ zeros 4 →
      s.becomes (.fwQueueGet p) ((c.setFw t.outPort i { f with depthHwm := 0, sojournHwm := 0 }).replied p d)) ∧
    (∀ o, s.heard 0x0224 p c → fld b 0 1 ≤ 10 → rsvd b 1 3 = true → o = c.port (fld b 0 1) → c.roomFor p 64 →
      ∃ d, d.length = 64 ∧ d.take 24 = le 1 (fld b 0 1) ++ zeros 1 ++ le 1 (unsigned 8 o.overhead) ++ zeros 1 ++
          le 4 (c.fwTids (fld b 0 1)).length ++ le 4 (c.portDepth (fld b 0 1)) ++ le 4 o.depthHwm ++ le 4 o.sojournHwm ++ zeros 4 ∧
        s.becomes (.fwPortGet p) ((c.setPort (fld b 0 1) { o with depthHwm := 0, sojournHwm := 0 }).replied p d)) ∧
    (∀ f : LadleFilter, s.heard 0x0225 p c →
      f = { enable := fld b 1 1 == 1, ring := fld b 2 1, points := fld b 3 1, ports := fld b 4 2, classes := fld b 6 1, fflags := fld b 7 1,
            ctypes := fld b 8 2, tidLo := fld b 10 2, tidHi := fld b 12 2, sampleN := fld b 14 1, limit := fld b 16 4 } →
      fld b 0 1 ≤ 15 → fld b 1 1 ≤ 1 → f.ring ≤ 7 → f.points ≤ 7 → f.ports ≤ 2047 → f.classes ≤ 15 → f.fflags ≤ 7 → f.tidHi ≤ 1023 →
      f.tidLo ≤ f.tidHi → f.sampleN ≤ 16 → rsvd b 15 1 = true → rsvd b 20 12 = true →
      s.becomes (.ladleFilterSet p)
        (({ c with fab := { c.fab with ladle := { c.fab.ladle with filters := c.fab.ladle.filters.set (fld b 0 1) f } } } : Chip).replied p)) ∧
    (∀ i d, s.heard 0x0226 p c → i = fld b 0 1 → 1 ≤ i → i ≤ 7 → fld b 1 1 ≤ 2 → 6 ≤ fld b 2 1 → fld b 2 1 ≤ 16 → fld b 3 1 ≤ 63 →
      rsvd b 4 4 = true → fld b 8 8 % 4096 = 0 → fld b 16 8 % 8 = 0 →
      d = ({ c with fab := { c.fab with ladle := { c.fab.ladle with queue := c.fab.ladle.queue.filter (fun y => y.ring != i),
                                                                    msgs := c.fab.ladle.msgs.filter fun m => (c.filterOf m.filter).ring != i } } } : Chip) →
      ((fld b 3 1 = 0 ∨ (c.inst (fld b 3 1)).state ≠ .absent) →
        s.becomes (.ladleRingSet p)
          ((d.setRing i { mode := fld b 1 1, log2 := fld b 2 1, owner := fld b 3 1, base := fld b 8 8, piAddr := fld b 16 8 }).replied p)) ∧
      (fld b 3 1 ≠ 0 → (c.inst (fld b 3 1)).state = .absent → s.becomes (.ladleRingSet p) (c.refused p 0x0204 0x0224))) ∧
    (∀ r, s.heard 0x0227 p c → rsvd b 1 1 = true → 1 ≤ fld b 2 2 → fld b 2 2 ≤ 5461 → fld b 0 1 = 0 → r = c.ring 0 → r.mode ≠ 0 →
      ((fld b 4 4 + 2 ^ 32 - r.rseq) % 2 ^ 32 < 2 ^ 31 → s.becomes (.ladleRead p) (c.replied p [])) ∧
      (∀ e l es, r.recs = e :: l → 2 ^ 31 ≤ (fld b 4 4 + 2 ^ 32 - r.rseq) % 2 ^ 32 → (fld b 4 4 + 2 ^ 32 - e.1) % 2 ^ 32 < 2 ^ 31 →
        es = ((r.recs.filter fun y => decide ((y.1 + 2 ^ 32 - fld b 4 4) % 2 ^ 32 < 2 ^ 31)).take (fld b 2 2)).map Prod.snd →
        c.roomFor p es.flatten.length → s.becomes (.ladleRead p) (c.replied p es.flatten))) ∧
    (∀ r k, s.heard 0x0228 p c → fld b 0 1 ≤ 7 → rsvd b 1 3 = true → r = c.ring (fld b 0 1) → r.mode ≠ 0 →
      ((seqBefore 32 r.rseq (fld b 4 4) = true ∧ seqBefore 32 r.consumer r.rseq = true ∧ k = r.rseq) ∨
       (seqBefore 32 r.rseq (fld b 4 4) = false ∧ seqBefore 32 r.consumer (fld b 4 4) = true ∧ k = fld b 4 4)) →
      s.becomes (.ladleConsume p)
        ((c.setRing (fld b 0 1) { r with consumer := k, fullPosted := false, recs := r.recs.filter fun e => !seqBefore 32 e.1 k }).replied p)) ∧
    (∀ k r y, s.chip.fab.ladle.queue = [k] → k.ring = 0 → r = s.chip.ring 0 → r.mode ≠ 0 → r.gap = false → r.recs.length < 5461 →
      (r.rseq + 2 ^ 32 - r.consumer) % 2 ^ 32 + 1 < 5461 → y = patch k.bytes 28 (le 4 r.rseq) →
      ∃ u, exec .ladleRecordWrite s = .next u ∧ u.chip.fab.ladle.queue = [] ∧ (u.chip.ring 0).recs = r.recs ++ [(r.rseq, y)] ∧
        (u.chip.ring 0).rseq = (r.rseq + 1) % 2 ^ 32 ∧ (u.chip.ring 0).consumer = r.consumer ∧ u.chip.cmd = s.chip.cmd ∧
        u.chip.fab.q = s.chip.fab.q ∧ u.chip.fab.tun = s.chip.fab.tun ∧ u.chip.out = s.chip.out)

/-- R259's arithmetic, and the boundary at which a step is applied. -/
def Obligations.StepsQuantisedAndApplied : Prop :=
  (∀ d : Int, (∃ k : Int, quantise d = 25 * k) ∧ 2 * (d - quantise d * 1000).natAbs ≤ 25000 ∧
    (2 * (d - quantise d * 1000).natAbs = 25000 → d.natAbs < (quantise d * 1000).natAbs)) ∧
  (∀ (c : Chip) (x : TimeStep), c.time.pending = some x → c.clk.localPs < x.atPs → x.atPs ≤ c.clk.localPs + turnPs →
    (c.stepDeferred = true →
      c.stepDefer = { c with time := { c.time with pending := some { x with atTurn := (x.atTurn + 1) % 2 ^ 48, atPs := x.atPs + turnPs } } }) ∧
    (c.stepDeferred = false → c.stepDefer = c)) ∧
  ∀ (s : State) (x : TimeStep), s.chip.time.pending = some x →
    (s.chip.clk.localPs < x.atPs → s.becomes .timeStepApply s.chip) ∧
    (x.atPs ≤ s.chip.clk.localPs → x.atPs % turnPs = 0 → 0 ≤ (x.atPs : Int) + x.dq * 1000 →
      ∃ t a b e, exec .timeStepApply s = .next t ∧ (t.chip.clk.localPs : Int) = s.chip.clk.localPs + x.dq * 1000 ∧
        t.chip.clk.adj = some (a, b, e) ∧ (b : Int) = x.atPs + x.dq * 1000 ∧ e % turnPs = 0 ∧ e = b + turnPs + stepExt x.dq * 1000 ∧
        stepExt x.dq < 125000 ∧ t.chip.time.pending = none ∧ t.chip.time.stepCount = (s.chip.time.stepCount + 1) % 256 ∧
        t.guard = s.guard ∧ t.fuses = s.fuses ∧ t.pending = s.pending)

/-- Chapter 10's commands and rows, PTP apart. -/
def Obligations.TimeRowsAct : Prop :=
  ∀ (s : State) (p : Packet) (c : Chip) (b : Bytes), b = p.params →
    (∀ d f k x, s.heard 0x0501 p c → f = c.appliedFreq → c.roomFor p 64 →
      k = c.ownDataset →
      x = (match c.time.pps.lastIn with | some y => le 4 ((y % 10 ^ 12) / 1000) ++ le 4 (y / 10 ^ 12) | none => zeros 8) →
      d = c.stamp ++ le 1 c.time.state.code ++ le 1 c.time.source ++
        le 1 (b2n f.2 + 2 * b2n c.time.pending.isSome + 4 * b2n c.time.refused.isSome + 8 * b2n c.syntonized) ++ le 1 c.time.stepCount ++
        le 4 (unsigned 32 f.1) ++ le 8 (unsigned 64 c.time.offsetPs) ++ le 6 c.turn ++ zeros 2 ++ le 8 k.gm ++ le 2 k.stepsRemoved ++
        le 2 k.utcOffset ++ x ++ le 4 (unsigned 32 c.time.refusedUs) →
      s.becomes (.timeGet p) (c.replied p d)) ∧
    (s.heard 0x0502 p c → fld b 0 1 = 2 → fld b 1 1 ≤ 1 → rsvd b 2 2 = true → rsvd b 20 4 = true → -4294967 ≤ sfld b 4 4 → sfld b 4 4 ≤ 4294967 →
      c.time.source = 0 →
      s.becomes (.timeSet p) (({ c with time := { c.time with freqAdj := sfld b 4 4 } } : Chip).replied p)) ∧
    (∀ d x y, s.heard 0x0502 p c → fld b 0 1 = 0 → fld b 1 1 = 0 → rsvd b 2 2 = true → rsvd b 20 4 = true → fld b 8 8 < 2 ^ 48 →
      fld b 16 4 ≤ 999999999 → c.time.pending = none →
      x = (((fld b 8 8 * 10 ^ 12 + fld b 16 4 * 1000 : Nat) : Int) - (c.clk.localPs : Int)) →
      (c.stepChecked = false ∨ x.natAbs ≤ c.time.cfg.threshold * 1000) → d = c.decideStep x true 0 → d.time.pending = some y →
      s.becomes (.timeSet p) (d.replied p [] (y.atTurn % 2 ^ 32))) ∧
    (∀ g : TimeCfg, s.heard 0x0503 p c →
      g = { sources := (sliceB b 0 8).map BitVec.toNat, threshold := fld b 8 4, afterConfirm := fld b 12 1 == 1, confirmS := fld b 14 2,
            holdoverS := fld b 16 4, lockNs := fld b 20 2, slewPpm := fld b 22 2,
            asymAdj := [sfld b 24 2, sfld b 26 2, sfld b 28 2, sfld b 30 2] } →
      (∀ x ∈ g.sources, sourceCode x = true) → 1000 ≤ g.threshold → g.threshold ≤ 1000000000 → fld b 12 1 ≤ 1 → fld b 13 1 = 0 →
      1 ≤ g.confirmS → g.confirmS ≤ 600 → 1 ≤ g.holdoverS → g.holdoverS ≤ 86400 → 10 ≤ g.lockNs → g.lockNs ≤ 10000 → 1 ≤ g.slewPpm →
      g.slewPpm ≤ 1000 →
      s.becomes (.timeConfig p) (({ c with time := { c.time with cfgNext := some g } } : Chip).replied p) ∧
      ∀ d : Chip, d.time.cfgNext = some g →
        d.cfgApply = ({ d with time := { d.time with cfg := g, cfgNext := none } } : Chip).selectSource) ∧
    (s.heard 0x0505 p c → fld b 0 1 ≤ 7 → rsvd b 1 3 = true → rsvd b 12 4 = true → -500000000 ≤ sfld b 4 4 → sfld b 4 4 ≤ 500000000 →
      1000 ≤ fld b 8 4 → fld b 8 4 ≤ 500000 → ∀ q, q = { c.time.pps with flags := fld b 0 1, offset := sfld b 4 4, width := fld b 8 4 } →
      s.becomes (.ppsSet p) (({ c with time := { c.time with pps := q } } : Chip).selectSource.replied p)) ∧
    (∀ (n : Fin 4), (s.chip.inData n.val = true →
        s.becomes (.clockInfoTx n) (s.chip.sendFw n.val (ctlCell 1 7 s.chip.ownDataset.info))) ∧
      (s.chip.inData n.val = false → s.becomes (.clockInfoTx n) s.chip)) ∧
    (∀ (n : Fin 4) x d, d = s.chip.takeF10 n.val x →
      (d.inData n.val = true → s.becomes (.clockInfoRx n x) (d.sourceData (0x10 + n.val) (datasetOf x.payload))) ∧
      (fldBe x.payload 16 4 ≤ 4999 → ∀ k, k = d.time.notices.set n.val
          (fldBe x.payload 4 6, fldBe x.payload 10 6, fldBe x.payload 16 4, fldBe x.payload 1 1) →
        s.becomes (.stepNoticeRx n x) { d with time := { d.time with notices := k } }) ∧
      (4999 < fldBe x.payload 16 4 →
        s.becomes (.stepNoticeRx n x) { d with time := { d.time with badStamps := sat32 d.time.badStamps 1 } })) ∧
    (s.chip.time.state = .holdover → s.becomes .holdoverExpiry
      (({ s.chip with time := { s.chip.time with state := .freerun, lockSince := none } } : Chip).post 0x0501 0x0506
        (s.chip.time.state.code + 256 * TimeState.freerun.code + 65536 * s.chip.time.source))) ∧
    (s.chip.time.state ≠ .holdover → s.becomes .holdoverExpiry s.chip) ∧
    (∀ off, s.chip.time.refused = some off →
      (∀ t, s.chip.time.cfg.afterConfirm = true → s.chip.time.refusedSince = some t →
        t + s.chip.time.cfg.confirmS * 10 ^ 12 ≤ s.chip.clk.powerPs → s.chip.time.pending = none →
        s.becomes .jumpConfirm
          (({ s.chip with time := { s.chip.time with refused := none, refusedSince := none } } : Chip).decideStep (-off) false 0x0509)) ∧
      ((s.chip.time.cfg.afterConfirm = false ∨ s.chip.time.refusedSince = none) → s.becomes .jumpConfirm s.chip) ∧
      (s.chip.time.refusedAt + 60 * 10 ^ 12 ≤ s.chip.clk.powerPs → s.becomes .jumpRefusedRepost
        (({ s.chip with time := { s.chip.time with refusedAt := s.chip.clk.powerPs } } : Chip).post 0x0503 0x0501
          (unsigned 56 (s.chip.time.offsetPs / 1000) + s.chip.time.source * 2 ^ 56))) ∧
      (s.chip.clk.powerPs < s.chip.time.refusedAt + 60 * 10 ^ 12 → s.becomes .jumpRefusedRepost s.chip)) ∧
    (bitOf s.chip.time.pps.flags 2 = false → s.becomes .ppsInEdge s.chip) ∧
    (∀ d, bitOf s.chip.time.pps.flags 2 = true →
      d = ({ s.chip with time := { s.chip.time with pps := { s.chip.time.pps with lastIn := some s.chip.clk.localPs } } } : Chip).selectSource →
      s.becomes .ppsInEdge (d.timeSample 0x30 (if 2 * (s.chip.clk.localPs % 10 ^ 12) ≥ 10 ^ 12
        then ((s.chip.clk.localPs % 10 ^ 12 : Nat) : Int) - ((10 ^ 12 : Nat) : Int) else ((s.chip.clk.localPs % 10 ^ 12 : Nat) : Int)))) ∧
    (∀ (q : Pps) (e a : Nat), q = s.chip.time.pps → bitOf q.flags 0 = true → (s.chip.timeSet = true ∨ bitOf q.flags 1 = true) →
      (∃ k : Nat, (e : Int) = k * 10 ^ 12 + q.offset * 1000) → s.chip.clk.localPs = e + a → a < spokePs →
      (∀ z, q.lastEdge = some z → z + 500000000000 + a ≤ s.chip.clk.powerPs) →
      s.becomes .ppsOutEdge
        { s.chip with time := { s.chip.time with pps := { q with lastEdge := some (s.chip.clk.powerPs - a) } },
                      out := s.chip.out ++ [.pulse .ppsOut e (q.width * 1000000)] }) ∧
    (∀ z, s.chip.time.pps.lastEdge = some z → s.chip.clk.powerPs < z + 500000000000 → s.becomes .ppsOutEdge s.chip) ∧
    (bitOf s.chip.time.pps.flags 0 = false ∨ (s.chip.timeSet = false ∧ bitOf s.chip.time.pps.flags 1 = false) → s.becomes .ppsOutEdge s.chip)

/-- Chapter 13's commands and rows, and the PTP engine's. -/
def Obligations.EthernetAndPtpAct : Prop :=
  ∀ (s : State) (p : Packet) (c : Chip) (b : Bytes), b = p.params →
    (∀ n k d, s.heard 0x0901 p c → n = fld b 0 1 → n ≤ 3 → fld b 1 1 ≤ 1 → fld b 2 1 ≤ 4 → fld b 3 1 < 128 → fld b 4 1 ≤ 3 → fld b 5 1 ≤ 1 →
      fld b 6 2 < 1024 → 64 ≤ fld b 8 2 → fld b 8 2 ≤ 9600 → rsvd b 10 6 = true → (fld b 5 1 = 1 → c.f6Source (fld b 6 2) = true) →
      k = { admin := fld b 1 1 == 1, mode := fld b 2 1, pflags := fld b 3 1, loop := fld b 4 1, miss := fld b 5 1, missTid := fld b 6 2,
            maxFrame := fld b 8 2 } →
      d = (if k.mode != (c.ethPort n).cfg.mode || k.loop != (c.ethPort n).cfg.loop || bitOf k.pflags 3 != bitOf (c.ethPort n).cfg.pflags 3 ||
        !k.admin then c.ethDown n else c) →
      s.becomes (.ethPortSet p) ((d.setEthPort n { d.ethPort n with cfg := k }).replied p)) ∧
    (∀ i e g d, s.heard 0x0902 p c → i = fld b 0 2 → e = sliceB b 8 32 → g = fld (c.classEntry i) 28 2 → i ≤ 4095 → fld b 2 1 ≤ 1 →
      rsvd b 3 1 = true → rsvd b 6 2 = true → entryOk e = true → (fld e 24 1 = 1 → c.f6Source (fld e 26 2) = true) →
      ((fld b 2 1 = 0 ∨ fld b 4 2 = g) →
        d = ({ c with eth := { c.eth with cls := c.eth.cls.set i (patch e 28 (le 2 (if g ≥ 65535 then 1 else g + 1))) } } : Chip) →
        s.becomes (.ethClassWrite p) (d.replied p [] (if g ≥ 65535 then 1 else g + 1)) ∧ (∀ j, j ≠ i → d.classEntry j = c.classEntry j)) ∧
      (fld b 2 1 = 1 → fld b 4 2 ≠ g → s.becomes (.ethClassWrite p) (c.refused p 0x0204 0x0902))) ∧
    (∀ d, s.heard 0x0903 p c → 1 ≤ fld b 2 2 → fld b 0 2 + fld b 2 2 ≤ 4096 →
      d = ((List.range (fld b 2 2)).map fun k => c.classEntry (fld b 0 2 + k)).flatten → c.roomFor p d.length →
      s.becomes (.ethClassRead p) (c.replied p d)) ∧
    (∀ k, s.heard 0x0904 p c → fld b 0 1 ≤ 3 → rsvd b 1 3 = true → k = c.ethPort (fld b 0 1) → c.roomFor p 16 →
      s.becomes (.ethPortStatus p) (c.replied p (le 1 (fld b 0 1) ++ le 1 k.state ++ le 1 k.cfg.mode ++
        le 1 (b2n k.inverted + 2 * b2n k.an + 4 * b2n k.rsAligned) ++ le 2 k.cfg.maxFrame ++ le 6 k.ups ++ zeros 4))) ∧
    (∀ k d, s.heard 0x0905 p c → fld b 0 1 ≤ 3 → (fld b 1 1 = 0 ∨ (fld b 1 1 = 1 ∧ (c.issuer p.sess).2 = 1)) → rsvd b 2 2 = true →
      k = c.ethPort (fld b 0 1) → d = ((List.range 16).map fun i => le 8 (k.cnt.get 0 (i + 1))).flatten → c.roomFor p 128 →
      s.becomes (.ethCounters p) ((if fld b 1 1 = 1 then c.setEthPort (fld b 0 1) { k with cnt := [] } else c).replied p d)) ∧
    (∀ (n : Fin 4) k, k = s.chip.ethPort n.val →
      (k.on = true → s.chip.dev.islands.contains 7 = true → s.chip.dev.refFailed.contains 1 = false → k.cfg.mode = 2 → k.up = false → ∀ rs,
        s.becomes (.ethLockChange n true false rs)
          ((s.chip.setEthPort n.val { k with lock := true, an := false, rsAligned := false, up := true, ups := (k.ups + 1) % 2 ^ 48,
                                             flipped := k.flipped }).post 0x0901 0 (n.val + 256 + 65536 * 2))) ∧
      (k.on = true → bitOf k.cfg.pflags 2 = true → k.cfg.loop = 0 → k.lock = false →
        s.becomes (.ethAutoPolTimer n) (s.chip.setEthPort n.val { k with flipped := !k.flipped })) ∧
      (∀ f a u, k.up = true → k.cfg.loop = 0 → k.cfg.mode ≠ 4 → bitOf k.cfg.pflags 4 = false →
        s.becomes (.ethFrameRx n f false a u) (s.chip.ethCount n.val 3 1) ∧
        (k.cfg.maxFrame < f.length + 4 → s.becomes (.ethFrameRx n f true a u) (s.chip.ethCount n.val 4 1)) ∧
        (f.length + 4 ≤ k.cfg.maxFrame → s.chip.ethFate n.val f = .control →
          s.becomes (.ethFrameRx n f true a u) ((s.chip.ethCount n.val 1 1).ethCount n.val 6 1)) ∧
        (∀ t, f.length + 4 ≤ k.cfg.maxFrame → s.chip.ethFate n.val f = .tunnel t → f.length ≤ 65536 - s.chip.ethWaiting n.val →
          s.becomes (.ethFrameRx n f true a u)
            ((s.chip.ethCount n.val 1 1).pushEth (frameCells t (n.val + 4 * framePcp f) f)))) ∧
      (∀ f l, k.up = true → k.cfg.loop = 0 → k.frames = f :: l → f.started = false → f.ready = true → f.done = true →
        (∀ g ∈ l, g.started = false ∧ g.ready = false) →
        s.becomes (.ethFrameTx n false) ((s.chip.setFrames n.val l).ethSend n.val f.bytes true))) ∧
    (∀ n k old, s.heard 0x0504 p c → n = fld b 0 1 → old = c.ptp n → n ≤ 3 → fld b 1 1 ≤ 3 → fld b 2 1 ≤ 15 →
      (bitOf (fld b 2 1) 1 = false ∨ bitOf (fld b 2 1) 2 = false) → logOk b 4 = true → logOk b 5 = true → logOk b 6 = true → 2 ≤ fld b 7 1 →
      fld b 7 1 ≤ 10 → rsvd b 10 2 = true → rsvd b 24 8 = true → (c.ethPort n).on = true → fld b 1 1 = old.mode → fld b 3 1 = old.domain →
      (∀ e ∈ c.time.ptp, e.1 = n ∨ e.2.mode = 0 ∨ e.2.domain = old.domain) →
      (old.parent ≠ none ∨ c.time.data.find (0x20 + n) = none) →
      k = { old with pflags := fld b 2 1, logSync := sfld b 4 1, logAnnounce := sfld b 5 1, logDelay := sfld b 6 1, announceTimeout := fld b 7 1,
                     priority1 := fld b 8 1, priority2 := fld b 9 1, ingressAdj := sfld b 12 4, egressAdj := sfld b 16 4, asym := sfld b 20 4 } →
      s.becomes (.ptpPortSet p) ((c.setPtp n k).replied p)) ∧
    (∀ (n : Fin 4), (∀ m, s.chip.eth.ptpIn.find? (fun m => m.port == n.val) = some m →
        s.becomes (.ptpMessageRx n)
          (({ s.chip with eth := { s.chip.eth with ptpIn := s.chip.eth.ptpIn.erase m } } : Chip).ptpMessage m.port
            (s.chip.rxPs m.port m.at') m.msg)) ∧
      (∀ k x, k = s.chip.ptp n.val → x = s.chip.announceBody → k.mode ≠ 0 → (s.chip.ethPort n.val).up = true → s.chip.ptpMaster n.val = true →
        s.becomes (.ptpIntervalTimer n .announce)
          ((s.chip.setPtp n.val { k with seqAnnounce := (k.seqAnnounce + 1) % 65536 }).ptpSend n.val false
            (k.message n.val 0xB 0 0 k.seqAnnounce k.logAnnounce x.1 x.2))) ∧
      (∀ k, k = s.chip.ptp n.val → k.parent ≠ none →
        s.becomes (.ptpAnnounceTimeout n)
          ((s.chip.setPtp n.val { k with parent := none, lastSync := none, syncDelay := none }).sourceLost (0x20 + n.val))))

/-- R274, for both doorbells of a queue pair. -/
def Obligations.DoorbellOverrunStops : Prop :=
  ∀ (s : State) (vi qp : Fin 64) (v : BitVec 32) (q : QueuePair) (k n : Nat), k = 64 * vi.val + qp.val → n = v.toNat % 65536 →
    s.chip.host.qps.find k = some q → (s.chip.inst vi.val).state = .active →
    (s.reaches vi.val (pageBase vi.val + (0x1000 + 16 * qp.val)) 4 1 → q.stopped = false →
      (2 ^ q.sqLog2 < (n + 2 ^ 16 - q.sqHead % 2 ^ 16) % 2 ^ 16 → s.becomes (.sqTailDoorbell vi qp v)
        (((s.chip.setQp k { q with stopped := true }).overrun vi.val qp.val false).wakeEvent 0)) ∧
      ((n + 2 ^ 16 - q.sqHead % 2 ^ 16) % 2 ^ 16 ≤ 2 ^ q.sqLog2 → s.becomes (.sqTailDoorbell vi qp v)
        (((s.chip.setQp k { q with sqTail := n }).sqFetch vi.val qp.val).wakeEvent 0))) ∧
    (s.reaches vi.val (pageBase vi.val + (0x1004 + 16 * qp.val)) 4 1 → q.stopped = false →
      (2 ^ q.cqLog2 < (q.cqTail + 2 ^ 16 - n % 2 ^ 16) % 2 ^ 16 → s.becomes (.cqHeadDoorbell vi qp v)
        (((s.chip.setQp k { q with stopped := true }).overrun vi.val qp.val false).wakeEvent 0)) ∧
      ((q.cqTail + 2 ^ 16 - n % 2 ^ 16) % 2 ^ 16 ≤ 2 ^ q.cqLog2 → ∀ h : List Nat,
        h = q.rbHeld.drop (q.cqUsed - (q.cqTail + 2 ^ 16 - n % 2 ^ 16) % 2 ^ 16) →
        s.becomes (.cqHeadDoorbell vi qp v) (((s.chip.setQp k { q with cqHead := n, rbHeld := h }).sqFetch vi.val qp.val).wakeEvent 0))) ∧
    (∀ c d : Chip, d = c.overrun vi.val qp.val false → d = ({ c with host := { c.host with ringOverrun := sat32 c.host.ringOverrun 1 } } : Chip).postVi
      vi.val 0x0602 0x060E (vi.val + 256 * qp.val + 65536 * 0)) ∧
    (∀ (c : Chip) (r : QueuePair), c.host.qps.find k = some r → r.stopped = true →
      c.sqFetch vi.val qp.val = c ∧ c.sqTail vi.val qp.val n = c ∧ c.cqHead vi.val qp.val n = c)

/-- Rows of chapter 11 in which the host writes or reads a register. -/
def Obligations.HostRegistersAct : Prop :=
  ∀ (s : State) (vi : Fin 64) (v : BitVec 32) (c : Chip) (n : Nat), c = s.chip → n = v.toNat % 65536 →
    (∀ (e : Fin 32) r, s.reaches vi.val (pageBase vi.val + (0x1400 + 8 * e.val)) 4 1 → (c.inst vi.val).state = .active →
      c.host.evqs.find (vqKey vi.val e.val) = some r → r.stopped = false →
      ((c.cmd.queues.get {} (vqKey vi.val e.val)).seq + 2 ^ 16 - n % 2 ^ 16) % 2 ^ 16 ≤ 2 ^ r.log2 →
      s.becomes (.evqHeadDoorbell vi e v)
        (({ c with host := { c.host with evqs := c.host.evqs.set (vqKey vi.val e.val) { r with head := n } } } : Chip).wakeEvent 0)) ∧
    (∀ (g : Fin 256) r, s.reaches vi.val (pageBase vi.val + (0x2000 + 16 * g.val)) 4 1 → (c.inst vi.val).state = .active →
      c.host.rings.find (256 * vi.val + g.val) = some r → r.stopped = false → (n + 2 ^ 16 - r.consumed % 2 ^ 16) % 2 ^ 16 ≤ 2 ^ r.log2 →
      s.becomes (.ringProducerDoorbell vi g v)
        (((c.setDring (256 * vi.val + g.val) { r with producer := n }).ringKick (256 * vi.val + g.val)).wakeEvent 0)) ∧
    (∀ (g : Fin 256), s.reaches vi.val (pageBase vi.val + (0x2000 + 16 * g.val)) 4 1 → (c.inst vi.val).state = .quiesced →
      s.becomes (.ringProducerDoorbell vi g v)
        ((c.setInst vi.val { c.inst vi.val with latched := sat32 (c.inst vi.val).latched 1 }).wakeEvent 0)) ∧
    (c.barReach = false → (∀ qp, s.becomes (.sqTailDoorbell vi qp v) c) ∧ s.becomes (.qctl0Write vi v) c ∧ s.becomes (.irqCauseWrite v) c ∧
      s.becomes (.turnLatchRead true) c) ∧
    (∀ i q r, s.reaches vi.val (pageBase vi.val + 0x128) 4 1 → i = c.inst vi.val → bitOf i.qctl0 31 = false → bitOf v.toNat 31 = true →
      q = qctlPair i v.toNat → r = qctlEvq i v.toNat →
      (i.state = .active → q.ranges = true → r.ranges = true → c.vectorOk vi.val q.vector = true →
        c.queueEntries vi.val + (q.entries + 2 ^ r.log2) ≤ i.queueEntries → c.host.qps.find (64 * vi.val) = none →
        c.host.evqs.find (vqKey vi.val 0) = none →
        s.becomes (.qctl0Write vi v)
          (((c.setInst vi.val { i with qctl0 := 2 ^ 31 + v.toNat % 2 ^ 28, qp0Up := true }).setQp (64 * vi.val) q).addEvq vi.val 0 r)) ∧
      ((q.ranges = false ∨ i.queueEntries < c.queueEntries vi.val + (q.entries + 2 ^ r.log2)) →
        s.becomes (.qctl0Write vi v) (c.setInst vi.val { i with qctl0 := v.toNat % 2 ^ 28 }))) ∧
    (s.reaches 0 0x301C 4 1 → ∃ m, s.becomes (.irqCauseWrite v) { c with host := { c.host with irqCause := m } } ∧
      ∀ b, b < 3 → bitOf m b = (bitOf c.host.irqCause b && !bitOf v.toNat b)) ∧
    (s.reaches 0 0x3008 4 0 → ∃ t : Nat, t = c.turn % 2 ^ 48 + 2 ^ 48 * b2n (!c.timeSet) ∧
      s.becomes (.turnLatchRead false)
        { c with host := { c.host with turnLatch := t / 2 ^ 32 }, out := c.out ++ [.tlpData (le 4 (t % 2 ^ 32))] }) ∧
    (∀ off len o, s.reaches vi.val off len 0 → pageOf off = some (vi.val, o) → (len = 4 ∨ len = 8) → off % len = 0 → off ≠ 0x3008 →
      c.hostRegisterRead s off len = c.emit (.tlpData (if len = 8 then le 4 (c.barRead off) ++ le 4 (c.barRead (off + 4)) else le 4 (c.barRead off)))) ∧
    (∀ o, (c.inst vi.val).state = .absent ∨ (0x12C ≤ o ∧ o < 0x3000) ∨ (vi ≠ 0 ∧ 0x12C ≤ o) → c.pageRead vi.val o = 0) ∧
    (∀ i, i = c.inst vi.val → i.state ≠ .absent → c.pageRead vi.val 4 = i.latched ∧ c.pageRead vi.val 0x128 = i.qctl0 ∧
      c.pageRead vi.val 0x100 = i.sq0Base % 2 ^ 32 ∧ c.pageRead vi.val 0x104 = i.sq0Base / 2 ^ 32 % 2 ^ 32) ∧
    ((c.inst 0).state ≠ .absent → c.pageRead 0 0x301C = c.host.irqCause ∧ c.pageRead 0 0x3020 = c.host.irqEnable ∧
      c.pageRead 0 0x3014 = c.host.heartbeat ∧ c.pageRead 0 0x3018 = c.cmd.logSeq) ∧
    (s.reaches 0 0x300C 4 0 → s.becomes (.turnLatchRead true) { c with out := c.out ++ [.tlpData (le 4 c.host.turnLatch)] }) ∧
    (∀ (off : BitVec 23) (val : BitVec 64), s.reaches 0 off.toNat 4 1 → off.toNat < 0x8000 → off.toNat % 4 = 0 →
      s.becomes (.registerWrite off 4 val) (c.pageWord 0 off.toNat (val.toNat % 2 ^ 32))) ∧
    (∀ (off : BitVec 23) (val : BitVec 64) (len : Nat), c.barReach = true → inAperture off.toNat = false →
      ((len ≠ 4 ∧ len ≠ 8) ∨ off.toNat % len ≠ 0) → s.becomes (.registerWrite off len val) (c.aerError 3)) ∧
    (c.dev.fwRunning = true → s.becomes .heartbeatTick { c with host := { c.host with heartbeat := (c.host.heartbeat + 1) % 2 ^ 32 } }) ∧
    (c.dev.fwRunning = false → s.becomes .heartbeatTick c) ∧
    (∃ t, exec .heartbeatStopped s = .next t ∧ bitOf t.chip.host.irqCause 2 = true ∧ t.chip.cmd = c.cmd ∧ t.chip.dev = c.dev) ∧
    (∀ (qp : Fin 64) q r l, c.host.qps.find (64 * vi.val + qp.val) = some q → q.held = r :: l →
      (q.cqUsed < 2 ^ q.cqLog2 →
        s.becomes (.heldReplyWrite vi qp) (((c.setQp (64 * vi.val + qp.val) { q with held := l }).writeCqe vi.val qp.val r).payOwed fun h => r.rflags % 2 == 1 && h.handle == r.result)) ∧
      (2 ^ q.cqLog2 ≤ q.cqUsed → s.becomes (.heldReplyWrite vi qp) c)) ∧
    (∀ (w : Fin 2048) x, x = c.vec w.val →
      (x.coalescing = true → (c.setVec w.val { x with coalescing := false }).vecLive w.val = true →
        s.becomes (.coalesceTimer w) ((c.setVec w.val { x with coalescing := false }).raise w.val)) ∧
      (x.coalescing = false → s.becomes (.coalesceTimer w) c) ∧
      (c.barReach = true →
        s.becomes (.msixVectorUnmask w) ((c.setVec w.val { x with masked := false }).sendPending w.val)))

/-- Rows of chapter 11 in which the link, the bus or the pins act. -/
def Obligations.HostLinkAct : Prop :=
  ∀ (s : State) (c : Chip), c = s.chip →
    (∀ tag data f vi a, c.host.reads.find tag = some (f, vi, a) →
      s.becomes (.hostReadCompletion tag data false)
        (({ c with host := { c.host with reads := c.host.reads.erase tag } } : Chip).readData f vi data false) ∧
      s.becomes (.dmaCompletionTimeout tag)
        (((({ c with host := { c.host with reads := c.host.reads.erase tag } } : Chip).aerError 0).postDmaError vi a).readLost f 0x0104 0x0608 0x0608)) ∧
    (∀ tag data b, c.host.reads.find tag = none → s.becomes (.hostReadCompletion tag data b) c ∧ s.becomes (.dmaCompletionTimeout tag) c) ∧
    (s.becomes (.tlpError .poisonedWrite) (c.aerError 1) ∧ s.becomes (.tlpError .ecrc) (c.aerError 2) ∧
      s.becomes (.tlpError .malformed) (c.aerError 4) ∧
      (∀ d k, d = c.aerError k → d.host.aer.get 0 k = c.host.aer.get 0 k + 1 ∧ (∀ j, j ≠ k → d.host.aer.get 0 j = c.host.aer.get 0 j) ∧
        ∃ h : HostPort, d = { c with host := h } ∧ h = { c.host with aer := h.aer })) ∧
    (c.host.linkUp = false → s.becomes .hostLinkDown c) ∧
    (c.host.linkUp = true → ∃ t, exec .hostLinkDown s = .next t ∧ t.chip = c.hostDown.lossVis (List.range 64) ∧ t.guard = s.guard ∧
      t.fuses = s.fuses ∧ t.chip.host.linkUp = false ∧ t.chip.host.reads = [] ∧
      ∀ vi, vi < 64 → (c.inst vi).state = .active → (t.chip.inst vi).state = .quiescing ∧ (t.chip.inst vi).linkLoss = true) ∧
    (∀ (w : Fin 4) (r : Fin 5), c.host.perst = false → c.dev.islands.contains 4 = true → c.dev.refFailed.contains 2 = false →
      s.becomes (.hostLinkUp w r)
        (((({ c with host := { c.host with linkUp := true, width := 2 ^ w.val, rate := linkRate r.val } } : Chip).post 0x0603 0
          (1 + 16 * 2 ^ w.val + 256 * linkRate r.val))).dmaGo)) ∧
    (∀ (w : Fin 4) (r : Fin 5), (c.host.perst = true ∨ c.dev.islands.contains 4 = false ∨ c.dev.refFailed.contains 2 = true) →
      s.becomes (.hostLinkUp w r) c) ∧
    (c.host.perst = false → ∃ t, exec .pePerstAssert s = .next t ∧ t.chip.host.perst = true ∧ t.chip.host.linkUp = false ∧
      (∀ vi, 0 < vi → vi < 64 → (t.chip.inst vi).state = .absent) ∧ t.chip.host.busMaster = false ∧ t.chip.host.pasidEnable = false ∧
      t.chip.host.msixEnable = false ∧ t.chip.host.reads = [] ∧ t.chip.host.vecs = [] ∧ t.guard = s.guard ∧ t.fuses = s.fuses) ∧
    (c.host.perst = true → s.becomes .pePerstAssert c) ∧
    (c.dev.mode = .hub → c.dev.islands.contains 4 = false →
      s.becomes .pePerstRelease { c with host := { c.host with perst := false }, dev := { c.dev with islands := c.dev.islands ++ [4] } }) ∧
    (∀ a b d e f, c.host.linkUp = true → c.host.perst = false →
      s.becomes (.pcieConfigWrite a b d e f)
        (({ c with host := { c.host with busMaster := a, pasidEnable := b, msixEnable := d, msixMask := e, d3hot := f } } : Chip).dmaGo))

/-- The commands 0x0601 to 0x0609 and the ends of a quiesce. -/
def Obligations.InstancesAct : Prop :=
  ∀ (s : State) (p : Packet) (c : Chip) (x : Ctx) (b : Bytes) (vi : Nat) (i : Inst), b = p.params → vi = fld b 0 1 → i = c.inst vi →
    (∀ j, s.heard 0x0601 p c → j = instOf b → 1 ≤ vi → vi ≤ 63 → fld b 1 1 ≤ 1 → rsvd b 2 2 = true → rsvd b 27 1 = true → rsvd b 30 18 = true →
      j.ranges = true → i.state = .absent → (j.pasidValid = false ∨ c.host.pasidEnable = true) → c.poolsCover j = true →
      s.becomes (.instanceCreate p) (((c.setInst vi j).instState vi .active 0).replied p)) ∧
    (1 ≤ vi → vi ≤ 63 → rsvd b 1 3 = true → ((c.issuer p.sess).2 ≠ 2 ∨ vi = (c.issuer p.sess).1) → i.state ≠ .absent →
      (s.heard 0x0602 p c → i.state = .quiesced →
        s.becomes (.instanceDestroy p) (((c.instClear vi 0x060A none false).instGone vi 0).replied p)) ∧
      (s.heard 0x0602 p c → i.state ≠ .quiesced → s.becomes (.instanceDestroy p) (c.refused p 0x0204 0x0603)) ∧
      (s.heard 0x0603 p c → x = s.ctxOf 0x0603 p c → i.qhandle = 0 → i.state = .active → c.recordFree (c.issuer p.sess).1 = true →
        s.becomes (.quiesceInstance p)
          ((((c.setInst vi { i with qhandle := x.handle, resetting := false }).quiesceVi vi 0x0609 false).accepts p x).commitPoint x.handle)) ∧
      (∀ d, s.heard 0x0604 p c → x = s.ctxOf 0x0604 p c → i.qhandle = 0 → i.state = .quiesced → c.recordFree (c.issuer p.sess).1 = true →
        d = (c.setInst vi { i with qhandle := x.handle, resetting := true }).instClear vi 0x060A (some x.handle) false →
        (d.fab.closes.any fun k => k.handle == x.handle) = false →
        s.becomes (.resetInstance p) (((d.resetEnd vi 0 0x060A).accepts p x).complete x.handle 0 0 0)) ∧
      (s.heard 0x0604 p c → i.qhandle = 0 → i.state ≠ .quiesced → s.becomes (.resetInstance p) (c.refused p 0x0204 0x0603)) ∧
      (∀ e d, s.heard 0x0605 p c → x = s.ctxOf 0x0605 p c → (i.qhandle = 0 ∨ i.resetting = false) → c.recordFree (c.issuer p.sess).1 = true →
        e = (c.qhandleAbort vi 0x060D).engineKill vi 0x060A →
        d = (e.setInst vi { e.inst vi with qhandle := x.handle, resetting := true }).instClear vi 0x060A (some x.handle) false →
        (d.fab.closes.any fun k => k.handle == x.handle) = false →
        s.becomes (.forceReset p) (((d.resetEnd vi 0 0x060A).accepts p x).complete x.handle 0 0 0)) ∧
      (s.heard 0x0606 p c → c.roomFor p (c.instRecord vi).length → s.becomes (.getInstance p) (c.replied p (c.instRecord vi)))) ∧
    (∀ (w : Fin 64) j, j = s.chip.inst w.val → j.state = .quiescing →
      (∀ d, s.chip.engines w.val = 0 → d = s.chip.instState w.val .quiesced (if j.linkLoss then 0x060C else 0x0609) →
        (j.qhandle = 0 → s.becomes (.quiesceDone w) d) ∧
        (j.qhandle ≠ 0 → j.resetting = false →
          s.becomes (.quiesceDone w) ((d.setInst w.val { d.inst w.val with qhandle := 0 }).complete j.qhandle 0 0 0))) ∧
      (s.chip.engines w.val ≠ 0 → s.becomes (.quiesceDone w) s.chip) ∧
      (j.qhandle ≠ 0 → j.resetting = false →
        s.becomes (.quiesceTimeout w) ((s.chip.setInst w.val { j with qhandle := 0 }).complete j.qhandle 0x0303 0 (s.chip.engines w.val)))) ∧
    (∀ w n q, s.heard 0x0607 p c → w = viOf p.sess → n = fld b 1 1 → 1 ≤ n → rsvd b 5 1 = true → rsvd b 10 6 = true → rsvd b 40 8 = true →
      fld b 8 2 ≤ 1000 → c.vectorOk w (fld b 6 2) = true →
      (fld b 0 1 = 0 → n < (c.inst w).maxQp →
        q = { sqLog2 := fld b 2 1, cqLog2 := fld b 3 1, rbLog2 := fld b 4 1, sqBase := fld b 16 8, cqBase := fld b 24 8, rbBase := fld b 32 8,
              vector := fld b 6 2, coalesceUs := fld b 8 2 } →
        q.ranges = true → c.entriesFit w q.entries = true → c.host.qps.find (64 * w + n) = none →
        s.becomes (.queueCreate p) ((c.setQp (64 * w + n) q).replied p)) ∧
      (∀ r : EventRing, fld b 0 1 = 1 → n < (c.inst w).maxEvq →
        r = { log2 := fld b 2 1, base := fld b 16 8, piAddr := fld b 24 8, vector := fld b 6 2, coalesceUs := fld b 8 2 } →
        r.ranges = true → c.entriesFit w (2 ^ r.log2) = true → c.host.evqs.find (vqKey w n) = none →
        s.becomes (.queueCreate p) ((c.addEvq w n r).replied p))) ∧
    (∀ w n q, s.heard 0x0608 p c → w = viOf p.sess → n = fld b 1 1 → fld b 0 1 = 0 → rsvd b 2 2 = true → n ≤ 63 → n ≠ 0 →
      c.host.qps.find (64 * w + n) = some q → p.sess ≠ .pcie w n → s.becomes (.queueDelete p) ((c.deleteQp w n).replied p)) ∧
    (∀ t w n g, s.heard 0x0609 p c → t = c.tunOf (fld b 0 2) → fld b 0 2 < 1024 → fld b 2 1 = 1 → rsvd b 16 16 = true → 4 ≤ fld b 3 1 →
      fld b 3 1 ≤ 12 → fld b 6 2 ≤ 1000 → fld b 8 8 % 64 = 0 → w = t.f4Vi → c.vectorOk w (fld b 4 2) = true → t.state = .open →
      ((c.issuer p.sess).2 ≠ 2 ∨ (c.tunnelsOf (c.issuer p.sess).1).contains (fld b 0 2) = true) → t.index = t.hops → t.outPort = 4 →
      (∀ e ∈ c.host.rings, e.2.tid = fld b 0 2 → e.2.dir ≠ 1) → c.entriesFit w (2 ^ fld b 3 1) = true → n < 256 →
      c.host.rings.find (256 * w + n) = none → (∀ m, m < n → c.host.rings.find (256 * w + m) ≠ none) →
      g = { vi := w, tid := fld b 0 2, dir := 1, log2 := fld b 3 1, base := fld b 8 8, vector := fld b 4 2, coalesceUs := fld b 6 2 } →
      s.becomes (.ringBind p) ((c.setDring (256 * w + n) g).replied p [] n))

/-- Chapter 12's commands. -/
def Obligations.DisplayCommandsAct : Prop :=
  ∀ (s : State) (p : Packet) (c : Chip) (x : Ctx) (b : Bytes) (h n : Nat) (u : HubHead), b = p.params → h = fld b 0 1 → n = fld b 1 1 →
    u = c.hub h → h ≤ 3 →
    (∀ m tid, s.heard 0x0701 p c → x = s.ctxOf 0x0701 p c → c.inRole .hub = true →
      m = modeOf (fld b 1 1) (fld b 2 1) (fld b 4 4)
        [fld b 8 2, fld b 10 2, fld b 12 2, fld b 14 2, fld b 16 2, fld b 18 2, fld b 20 2, fld b 22 2] (fld b 24 4) →
      tid = fld b 28 2 → tid < 1024 → m.ok = true → rsvd b 3 1 = true → rsvd b 30 2 = true →
      (∀ k, u.busy = some k → s.becomes (.headModeSet p) (c.refused p 0x0202 0 k)) ∧
      (u.busy = none → u.sr = false → (c.tunOf tid).state = .open → (c.tunOf tid).index = 0 → (c.tunOf tid).inPort = 5 →
        (c.tunOf tid).rasterAt 0 1 h = true → c.teethNow tid = none → c.recordFree (c.issuer p.sess).1 = true →
        s.becomes (.headModeSet p) ((c.setHub h { u with pend := some (m, tid, x.handle) }).accepts p x))) ∧
    (∀ l : LayerCfg, s.heard 0x0702 p c → c.inRole .hub = true → n ≤ 3 → fld b 2 1 ≤ 31 → rsvd b 13 3 = true → rsvd b 28 4 = true →
      rsvd b 48 16 = true → ((c.issuer p.sess).2 ≠ 2 ∨ u.ownerOf n = (c.issuer p.sess).1) →
      l = { enable := bitOf (fld b 2 1) 0, premult := bitOf (fld b 2 1) 1, replicate := bitOf (fld b 2 1) 2, c709 := bitOf (fld b 2 1) 3,
            full := bitOf (fld b 2 1) 4, format := fld b 3 1, srcW := fld b 4 2, srcH := fld b 6 2, dstX := fld b 8 2, dstY := fld b 10 2,
            alpha := fld b 12 1, seq := fld b 16 4, stride0 := fld b 20 4, stride1 := fld b 24 4, addr0 := fld b 32 8, addr1 := fld b 40 8 } →
      (l.fault n = none → s.becomes (.layerSet p)
        ((c.setHub h { u with shadow := u.shadow.set n l, setBy := u.setBy.set n (c.issuer p.sess).1 }).replied p)) ∧
      (∀ r, l.fault n = some r → (r = 0x0701 ∨ r = 0x0702) ∧ s.becomes (.layerSet p) (c.refused p 0x0104 r))) ∧
    (∀ l k, s.heard 0x0703 p c → c.inRole .hub = true → n ≤ 3 → fld b 2 1 ≤ 1 → rsvd b 3 5 = true →
      ((c.issuer p.sess).2 ≠ 2 ∨ u.ownerOf n = (c.issuer p.sess).1) → k = u.shadow.get {} n →
      l = { k with addr0 := fld b 8 8, addr1 := if k.format = 3 then fld b 16 8 else k.addr1,
                   seq := if fld b 2 1 = 1 then k.seq else (k.seq + 1) % 2 ^ 32 } →
      l.fault n = none →
      s.becomes (.layerFlip p)
        ((c.setHub h { u with shadow := u.shadow.set n l, flips := u.flips.set n (u.flips.get 0 n + 1),
                              flipReplaced := if u.flips.get 0 n > 0 then sat32 u.flipReplaced 1 else u.flipReplaced }).replied p)) ∧
    (s.heard 0x0704 p c → c.inRole .hub = true → n ≤ 1 → fld b 2 1 ≠ 1 → rsvd b 3 1 = true → rsvd b 8 8 = true →
      (∀ i, i < 4 → fld b (4 + i) 1 ≤ 63 ∨ fld b (4 + i) 1 = 0xFF) →
      s.becomes (.headCtrl p)
        ((c.setHub h { u with enable := n == 1, live := u.live && n == 1, freezeN := if fld b 2 1 = 0 then 4 else fld b 2 1,
                              ownerNext := some [fld b 4 1, fld b 5 1, fld b 6 1, fld b 7 1] }).replied p)) ∧
    (s.heard 0x0705 p c → x = s.ctxOf 0x0705 p c → c.inRole .hub = true → rsvd b 2 2 = true → u.busy = none → u.mode ≠ none →
      c.recordFree (c.issuer p.sess).1 = true →
      (n = 1 → u.sr = false → s.becomes (.selfRefresh p) ((c.setHub h { u with srReq := some (true, x.handle) }).accepts p x)) ∧
      (n = 0 → u.sr = true → s.becomes (.selfRefresh p) (((c.setHub h { u with srReq := some (false, x.handle) }).fetchGo h).accepts p x)) ∧
      (n ≤ 1 → u.sr = (n == 1) → s.becomes (.selfRefresh p) (c.refused p 0x0204 0x0707))) ∧
    (∀ d k w, s.heard 0x0706 p c → c.inRole .dock = true → d = c.dock h → n ≤ 2 → (fld b 2 1 = 1 ∨ fld b 2 1 = 2 ∨ fld b 2 1 = 4) →
      fld b 3 1 ≤ 3 → 2 ≤ fld b 4 1 → fld b 4 1 ≤ 30 → fld b 5 1 ≤ 3 → rsvd b 6 10 = true → c.headIn h 0 = none →
      w = (n != 0 && (n != d.kind || fld b 2 1 != d.maxLanes || fld b 3 1 != d.maxRate || bitOf (fld b 5 1) 1 != bitOf d.oflags 1)) →
      k = { d with trainDue := w && d.hpd && d.mode.isSome, kind := n, maxLanes := fld b 2 1, maxRate := fld b 3 1, delay := fld b 4 1, oflags := fld b 5 1, delayBad := false,
                   main := if n = 0 then .off else if d.kind = 0 && d.hpd then .idle else d.main, link := if n = 0 then none else d.link } →
      s.becomes (.dockOutputSet p) ((c.setDock h k).replied p)) ∧
    (∀ (a : List AuxAnswer) k e, s.heard 0x0707 p c → c.inRole .dock = true → (c.dock h).hpd = true → k = fld b 2 1 → 1 ≤ k → k ≤ 16 → rsvd b 3 1 = true →
      n = 0 → fld b 4 4 < 2 ^ 20 → e = c.emit (.aux h 0 (fld b 4 4) []) → c.roomFor p 16 →
      (∀ y r, a = .ack y :: r → s.becomes (.dpAux p a) (e.replied p (y.take k))) ∧
      (∀ r, a = .nack :: r → s.becomes (.dpAux p a) (e.refused p 0x0204 0x070A)) ∧
      (a = [] → s.becomes (.dpAux p a) (e.refused p 0x0303 0x070B)) ∧
      (∀ y, a = [.defer, .defer, .defer, .silent, .defer, .defer, .defer, .ack y] → s.becomes (.dpAux p a) (e.replied p (y.take k))) ∧
      (∀ z r, a = List.replicate 8 z ++ r → z = .defer ∨ z = .silent → s.becomes (.dpAux p a) (e.refused p 0x0303 0x070B))) ∧
    (∀ d, s.heard 0x0708 p c → rsvd b 1 3 = true → c.inRole .dock = false → c.roomFor p 64 →
      d = le 1 h ++ le 1 (if u.sr then 3 else if u.pend.isSome || u.opened.isSome then 2 else if u.mode.isNone || !u.enable then 0 else 1) ++
          zeros 2 ++ le 2 u.gen ++ le 2 (if u.mode.isNone then 0 else u.tid) ++ le 4 u.frameNo ++
          le 4 (match u.crcs with | (_, k) :: _ => k | [] => 0) ++ (le 4 (u.under.get 0 0) ++ le 4 (u.under.get 0 1) ++ le 4 (u.under.get 0 2) ++
          le 4 (u.under.get 0 3)) ++ le 4 u.skipped ++ zeros 4 ++ le 4 u.lossy ++ le 4 u.mismatch ++ le 4 u.freeze ++ le 4 u.flipReplaced ++
          le 4 u.discards ++ zeros 4 →
      s.becomes (.getHead p) (c.replied p d))

/-- Chapter 12's rows. -/
def Obligations.DisplayRowsAct : Prop :=
  ∀ (s : State) (c : Chip) (k : Fin 4) (h : Nat) (u : HubHead) (d : DockHead), c = s.chip → h = k.val → u = c.hub h → d = c.dock h →
    (u.mode = none → s.becomes (.hubLineStart k) c ∧ s.becomes (.rasterCellEmit k) c) ∧
    (∀ m l z a e, u.mode = some m → l = u.line + 1 → l + 1 < m.vactive → m.vactive < m.vtotal → u.live = true → u.enable = true →
      z = (c.setHub h { u with line := l, live := true }).quiescedOff h m → (z.hub h).live = true →
      a = z.beginLine h l m → e = a.composeLine h (l + 1) (a.hub h).frameNo m →
      (a.hub h).live = true → s.becomes (.hubLineStart k) (e.fetchGo h)) ∧
    (∀ m l z, u.mode = some m → l = u.line + 1 → m.vactive < l → l + 1 < m.vtotal →
      z = (c.setHub h { u with line := l, live := u.live && u.enable }).quiescedOff h m →
      s.becomes (.hubLineStart k) ((z.setHub h { z.hub h with cur := none }).fetchGo h)) ∧
    ((∀ i, i < 4 → u.layerOn i = true → u.off.contains i = false → (c.inst (u.ownerOf i)).state = .active) → ∀ m, c.quiescedOff h m = c) ∧
    (∀ y, u.latchDue = true → u.pend = none → u.flips = [] →
      y = { u with layers := u.shadow, owner := u.ownerNext.getD u.owner, ownerNext := none, setBy := [], latchDue := false, fetchNext := 0,
                   fetch := [], flips := [],
                   waitOwner := (List.range 4).filter fun l => (u.waitOwner.contains l || nth 0xFF (u.ownerNext.getD u.owner) l != u.ownerOf l) &&
                     u.setBy.find l != some (nth 0xFF (u.ownerNext.getD u.owner) l) } →
      s.becomes (.vblankLatch k) ((c.setHub h y).fetchGo h)) ∧
    (u.latchDue = false → u.mode ≠ none → s.becomes (.vblankLatch k) c) ∧
    (∀ m e x, u.mode = some m → u.cur = some e → e.idx < m.cells → u.enable = true → c.rasterUp h = true →
      x = { tid := u.tid, f := e.idx == 0, l := decide (e.idx + 1 = m.cells), len := ((e.bytes.drop (56 * e.idx)).take 56).length,
            aux := e.frame % 16, xtag := e.line, payload := sliceB ((e.bytes.drop (56 * e.idx)).take 56) 0 56 } →
      s.becomes (.rasterCellEmit k)
        ((c.pushSrc 5 x).setHub h { u with cur := if e.idx + 1 = m.cells then none else some { e with idx := e.idx + 1 } })) ∧
    (∀ r l, u.reports = r :: l →
      (0 < beFld r.payload 8 2 → s.becomes (.reportRx k) (c.setHub h { u with reports := l, lossy := sat32 u.lossy 1 })) ∧
      (beFld r.payload 8 2 = 0 → (u.crcs.find? fun e => e.1 == beFld r.payload 0 4) = none →
        s.becomes (.reportRx k) (c.setHub h { u with reports := l, discards := sat32 u.discards 1 })) ∧
      (∀ a, beFld r.payload 8 2 = 0 → (u.crcs.find? fun e => e.1 == beFld r.payload 0 4) = some (a, beFld r.payload 4 4) →
        s.becomes (.reportRx k) (c.setHub h { u with reports := l, misRun := 0, misPosted := false })) ∧
      (∀ a v, beFld r.payload 8 2 = 0 → (u.crcs.find? fun e => e.1 == beFld r.payload 0 4) = some (a, v) → v ≠ beFld r.payload 4 4 →
        u.misRun + 1 < u.freezeN → s.becomes (.reportRx k)
          (c.setHub h { u with reports := l, mismatch := sat32 u.mismatch 1, misRun := u.misRun + 1 }))) ∧
    (∀ m b e, d.mode = some m → d.active = true → d.read < m.vactive → d.main ≠ .video →
      (∀ z, d.bgFrame = false → d.noRaster = false → d.slots.find (d.read % 32) = some z → z.line = d.read → z.frame = d.frameNo % 16 →
        z.cells = m.cells → z.gap = false → z.poison = false → b = sliceB z.bytes 0 (m.hactive * m.bytesPx) →
        s.becomes (.dockLineRead k) (c.setDock h { d with read := d.read + 1, crc := b.foldl (crcByte 0x82F63B78) d.crc,
                                                          linesBg := sat32 d.linesBg 0 })) ∧
      ((d.bgFrame = true ∨ d.noRaster = true ∨ d.slots.find (d.read % 32) = none) → e = m.bgLine →
        s.becomes (.dockLineRead k) (c.setDock h { d with read := d.read + 1, crc := e.foldl (crcByte 0x82F63B78) d.crc,
                                                          frameBg := d.frameBg + 1, linesBg := sat32 d.linesBg 1 }))) ∧
    (d.mode = none → s.becomes (.dockLineRead k) c) ∧
    (∀ a e f m t, a = c.sendReport h → e = a.dock h → e.next = none → e.trainDue = false → e.rec_ = none → e.srPending = false → e.sr = false → e.mode = some m →
      e.startAt = some t → ∀ b,
      f = { e with slots := [], read := 0, crc := 0xFFFFFFFF, frameBg := 0, bgFrame := false, resync := false, active := false } →
      s.becomes (.dockFrameStart k b)
        ((a.setDock h f).setDock h { f with active := true, frameNo := (e.frameNo + 1) % 2 ^ 32, startAt := some (t + m.vtotal * m.tLine) })) ∧
    (∀ t, d.active = true → d.noRaster = false → d.sr = false → d.srPending = false → d.rec_ = none → c.headIn h 0 = some t →
      s.becomes (.noRasterTimeout k) ((c.setDock h { d with noRaster := true }).post 0x0706 0x070E h)) ∧
    (d.noRaster = true → s.becomes (.noRasterTimeout k) c) ∧
    (c.inRole .dock = true → ∀ lanes rate psr b,
      s.becomes (.hpdRise k lanes rate psr b)
        (((((c.setDock h { d with hpd := true, sink := some { lanes, rate, psr }, main := if d.kind = 0 then .off else .idle }).trainSink h b).post
          0x0705 0 (h + 256))).wakeEvent 3)) ∧
    (c.inRole .dock = true → d.hpd = true →
      s.becomes (.hpdFall k)
        (((c.setDock h { d with hpd := false, sink := none, link := none, main := .off }).post 0x0705 0 (h + 0)).wakeEvent 3)) ∧
    (c.inRole .dock = true → ∀ b, s.becomes (.irqHpd k true b) c ∧ s.becomes (.irqHpd k false b) (c.trainSink h b))

/-- R370 (handshake codes: 0 ACK, 1 NAK, 3 NYET). `f` is what is free when the packet comes. -/
def Obligations.HighSpeedHandshakes : Prop :=
  ∀ (s : State) (fn : Fin 8) (ep : UsbEp) (len drained f : Nat) (u : Usb) (k : Nat) (c : Chip), u = s.chip.usb → k = epKey fn.val ep →
    u.attached = true → u.suspended = false → (s.chip.vport fn.val).configured = true → (s.chip.vport fn.val).halts.contains ep.code = false →
    c = ({ s.chip with usb := { u with outUsed := u.outUsed.set k (u.outUsed.get 0 k - drained) } } : Chip) →
    f = 16384 - (u.outUsed.get 0 k - drained) →
    (u.speed = 2 ∨ u.speed = 1 → (f < len ∨ s.chip.outOpen ep = false) →
      s.becomes (.usbOutDataPacket fn ep len drained) (c.emit (.usbHandshake fn.val ep.code 1 0))) ∧
    (∀ d, d = ({ c with usb := { c.usb with outUsed := c.usb.outUsed.set k (u.outUsed.get 0 k - drained + len),
                                            seqs := u.seqs.set k ((u.seqs.get 0 k + 1) % 2) } } : Chip) →
      s.chip.outOpen ep = true → len ≤ f →
      (u.speed = 2 → 512 ≤ f - len → s.becomes (.usbOutDataPacket fn ep len drained) (d.emit (.usbHandshake fn.val ep.code 0 0))) ∧
      (u.speed = 2 → f - len < 512 → s.becomes (.usbOutDataPacket fn ep len drained) (d.emit (.usbHandshake fn.val ep.code 3 0))) ∧
      (u.speed = 1 → s.becomes (.usbOutDataPacket fn ep len drained) (d.emit (.usbHandshake fn.val ep.code 0 0)))) ∧
    (u.speed = 2 →
      (s.chip.outOpen ep = true → 512 ≤ 16384 - u.outUsed.get 0 k → s.becomes (.usbPing fn ep) (s.chip.emit (.usbHandshake fn.val ep.code 0 0))) ∧
      ((s.chip.outOpen ep = false ∨ 16384 - u.outUsed.get 0 k < 512) →
        s.becomes (.usbPing fn ep) (s.chip.emit (.usbHandshake fn.val ep.code 1 0)))) ∧
    (u.speed = 1 → s.becomes (.usbPing fn ep) s.chip)

/-- R376. -/
def Obligations.DockSettingsApply : Prop :=
  ∀ (s : State) (p : Packet) (c d : Chip) (b : Bytes) (n : Nat), b = p.params → n = fld b 0 1 →
    (∀ k : UsbCfg, s.heard 0x0A01 p c → n ≤ 1 → 1 ≤ fld b 1 1 → fld b 1 1 ≤ 3 → fld b 2 1 < 4 → rsvd b 3 1 = true →
      k = { admin := n == 1, maxSpeed := fld b 1 1, wakeAllow := bitOf (fld b 2 1) 0, u1u2 := bitOf (fld b 2 1) 1 } →
      d = (if (k.admin != c.usb.cfg.admin || k.maxSpeed != c.usb.cfg.maxSpeed) && c.usb.attached
        then [1, 2, 3, 4, 5, 6, 7].foldl Chip.fnConnect (c.usbDetach 0) else c) →
      s.becomes (.dockPortSet p) (((d.usbChange 0 fun u => { u with cfg := k }).usbAttach 0).replied p)) ∧
    (∀ k : FnCfg, s.heard 0x0A02 p c → 1 ≤ n → n ≤ 7 → (n = 1 → fld b 1 1 = 0 ∨ fld b 1 1 = 4) → (n ≠ 1 → fld b 1 1 ≤ 3) → fld b 3 1 < 2 →
      rsvd b 13 3 = true → fld b 12 1 ≤ 2 → (fld b 1 1 = 2 → 1 ≤ fld b 2 1 ∧ fld b 2 1 ≤ 8) →
      (fld b 1 1 = 1 → 60 ≤ fld b 10 2 ∧ fld b 10 2 ≤ 9596) →
      k = { kind := fld b 1 1, luns := fld b 2 1, removable := bitOf (fld b 3 1) 0, mac := sliceB b 4 6, maxSegment := fld b 10 2,
            pipes := fld b 12 1 } →
      ((∃ e ∈ c.fab.tun, e.2.state.live = true ∧ e.2.index = e.2.hops ∧ e.2.outPort = 8 ∧ fld e.2.typeParams 0 1 = n) →
        s.becomes (.dockFnSet p) (c.refused p 0x0204 0x0A03)) ∧
      ((∀ e ∈ c.fab.tun, e.2.state.live = true → e.2.index = e.2.hops → e.2.outPort = 8 → fld e.2.typeParams 0 1 ≠ n) → d = c.fnDisconnect n →
        s.becomes (.dockFnSet p) ((((d.setVport n { d.vport n with cfg := k }).setMsc n {}).fnConnect n).replied p)))

/-- Chapter 15's rows, and its status command. -/
def Obligations.DockPortActs : Prop :=
  ∀ (s : State) (c : Chip) (u : Usb) (k : Fin 8) (n : Nat) (v : VPort), c = s.chip → u = c.usb → n = k.val → v = c.vport n →
    (s.becomes .vbusValid (({ c with usb := { u with vbus := true } } : Chip).usbAttach 0)) ∧
    (u.attached = true → s.becomes .vbusLost
      ([1, 2, 3, 4, 5, 6, 7].foldl Chip.fnConnect (({ c with usb := { u with vbus := false } } : Chip).usbDetach 0x0A07))) ∧
    (u.attached = true → u.speed = 3 → s.becomes (.ssTrainingFail true) (c.usbChange 0 fun y => { y with speed := 2 }) ∧
      s.becomes (.ssTrainingFail false) (c.usbChange 0 fun y => { y with speed := 1 })) ∧
    (u.attached = false → (∀ a b d, s.becomes (.usbBusReset a b d) c) ∧ s.becomes .usbSuspend c ∧ s.becomes (.usbInToken k .reply) c) ∧
    (u.attached = true → ∃ t, exec (.usbBusReset true false false) s = .next t ∧ t.chip.usb.hubAddr = 0 ∧ t.chip.usb.hubConf = false ∧
      t.chip.usb.suspended = false ∧ t.chip.usb.wakePending = none ∧ (∀ j, 1 ≤ j → j ≤ 7 → (t.chip.vport j).configured = false ∧
        (t.chip.vport j).addr = 0 ∧ (t.chip.vport j).halts = []) ∧ t.guard = s.guard ∧ t.fuses = s.fuses) ∧
    (u.attached = true → s.becomes .usbSuspend (c.usbChange 0 fun y => { y with suspended := true })) ∧
    (u.suspended = true → u.wakePending = none → ∃ t, exec (.usbResume false) s = .next t ∧ t.chip.usb.suspended = false ∧ t.guard = s.guard) ∧
    (u.suspended = false → s.becomes (.usbResume true) c ∧ s.becomes (.usbRemoteWake k) c) ∧
    (u.suspended = true → u.cfg.wakeAllow = true → u.speed = 2 → u.hubWake = true → u.wakePending = none → v.configured = true →
      c.fnPending n = true → s.becomes (.usbRemoteWake k)
        ((({ c with usb := { u with wakePending := some n, cnt := { u.cnt with wakes := sat32 u.cnt.wakes 1 } } } : Chip)).drive .usbWake 1)) ∧
    (∀ b, u.attached = true → n ≠ 0 → v.configured = true → u.speed = 3 →
      s.becomes (.deviceRemoteWakeup k b) (c.setVport n { v with fnWake := b })) ∧
    (∀ a : Fin 128, u.attached = true → n ≠ 0 → v.conn = true → v.enabled = true → s.becomes (.usbSetAddress k a) (c.setVport n { v with addr := a.val })) ∧
    (u.attached = true → n ≠ 0 → v.conn = true → v.enabled = true → v.addr ≠ 0 →
      s.becomes (.usbSetConfiguration k 0) (c.fnUnconfigure n) ∧ s.becomes (.usbSetConfiguration k 1) (c.fnConfigure n 1)) ∧
    (u.attached = true → ∀ x, 1 < x → s.becomes (.usbSetConfiguration k x) (c.emit (.usbHandshake n 15 2 0))) ∧
    (∀ a, v.configured = true → v.cfg.kind = 1 → a ≤ 1 → s.becomes (.usbSetInterface k 1 a)
      ((((c.setVport n { v with alt := a }).setInq (epKey n .dataIn) []).setInq (16 * n + 12) []).setUsb fun y => { y with
        seqs := (y.seqs.erase (epKey n .dataIn)).erase (epKey n .dataOut) })) ∧
    (∀ e, v.configured = true → s.becomes (.usbSetHalt k e) (c.setVport n { v with halts := insertSorted e.code v.halts })) ∧
    (∀ e, v.cfg.kind ≠ 2 → s.becomes (.usbClearHalt k e)
      ((c.setVport n { v with halts := v.halts.filter fun h => h != e.code }).setUsb fun y => { y with seqs := y.seqs.erase (epKey n e) })) ∧
    (∀ d, u.hubConf = true → v.conn = true → d = c.fnUnconfigure n →
      s.becomes (.hubPortReset k) (d.setVport n { d.vport n with resetting := true, enabled := false, addr := 0 })) ∧
    (v.resetting = true → s.becomes (.hubPortResetDone k) (c.setVport n { v with resetting := false, cReset := true, enabled := v.conn })) ∧
    (u.hubConf = true → s.becomes (.hubClearCConnection k false) ((c.setVport n { v with cConn := false }).fnConnect n) ∧
      s.becomes (.hubClearCConnection k true) (c.setVport n { v with cReset := false })) ∧
    (∀ b, s.becomes (.hubPortPower k b) c ∧ s.becomes .hubTtRequest c) ∧
    (∀ data r, c.epLive 1 .cmdOut = true → c.sessionUp .usb = true → c.dev.fwRunning = true → c.outstanding .usb < 8 → r = parsePacket .usb data →
      (data.length < 32 → s.becomes (.usbCmdTransfer data)
        (({ c with usb := { u with cnt := { u.cnt with cmdDiscarded := sat32 u.cnt.cmdDiscarded 1 } } } : Chip).discardPacket .usb)) ∧
      (data.length = 32 + r.2.plen.toNat → r.2.plen.toNat ≤ 262112 → s.becomes (.usbCmdTransfer data) (c.receive r.1 r.2))) ∧
    (∀ tid data, v.cfg.kind = 3 → c.fnOut n 0 = some tid → c.epLive n .dataOut = true → 8 < data.length → data.length ≤ 1048584 →
      s.becomes (.usbTunnelOut k .dataOut data) (c.pushUsb (msgCells tid (fld data 2 1) (fld data 0 2) false (data.drop 8)))) ∧
    (∀ b, c.epLive n .dataOut = true → v.cfg.kind = 1 → v.alt ≠ 0 → ntbParse b = none → s.becomes (.ncmNtbOut k b) (c.countFrames 1)) ∧
    (∀ b l tid, c.epLive n .dataOut = true → v.cfg.kind = 1 → v.alt ≠ 0 → ntbParse b = some l → c.fnOut n 0 = some tid →
      s.becomes (.ncmNtbOut k b) (l.foldl (fun a f =>
        if v.cfg.maxSegment < f.length then a.countFrames 1 else a.pushUsb (frameCells tid (4 * framePcp f) f)) c)) ∧
    (∀ m cbw data, m = c.mscOf n → c.epLive n .dataOut = true → v.cfg.kind = 2 → m.cmd = none → m.resetWait = false → m.recovery = false →
      (cbw.length ≠ 31 → s.becomes (.mscCbw k cbw data)
        ((c.setMsc n { m with recovery := true }).setVport n { v with halts := insertSorted 10 (insertSorted 9 v.halts) })) ∧
      (cbw.length = 31 → fld cbw 0 4 = 0x43425355 → fld cbw 12 1 % 128 = 0 → fld cbw 13 1 < v.cfg.luns → 1 ≤ fld cbw 14 1 → fld cbw 14 1 ≤ 16 →
        s.becomes (.mscCbw k cbw data) (c.mscRun n cbw data))) ∧
    (∀ m, m = c.mscOf n → v.cfg.kind = 2 → v.configured = true → m.reqs = [] →
      s.becomes (.mscReset k) ((c.setMsc n { m with cmd := none, reqs := [], resetWait := false, recovery := false }).setInq (epKey n .dataIn) [])) ∧
    (∀ m, m = c.mscOf n → (m.resetWait = true → s.becomes (.mscResetTimeout k) (c.setMsc n { m with resetWait := false })) ∧
      (m.resetWait = false → s.becomes (.mscResetTimeout k) c)) ∧
    (u.attached = true → u.suspended = false → n ≠ 0 → v.configured = true → v.halts.contains 10 = true →
      s.becomes (.usbInToken k .dataIn) (c.emit (.usbHandshake n 10 2 0))) ∧
    (u.attached = true → u.suspended = false → n ≠ 0 → v.configured = true → v.halts.contains 3 = false →
      (c.cmd.queues.get {} usbQKey).recs = [] → s.becomes (.usbInToken k .event) (c.inNak n .event)) ∧
    (u.attached = true → u.suspended = false → n ≠ 0 → v.configured = true → v.halts.contains 3 = false → ∀ q e r,
      q = c.cmd.queues.get {} usbQKey → q.recs = e :: r → s.becomes (.usbInToken k .event)
        ((({ c with cmd := { c.cmd with queues := c.cmd.queues.set usbQKey { q with recs := r } },
                    usb := u.nextSeq (epKey n .event) } : Chip).emit (.usbData n 3 e.bytes)).flushOverflow usbQKey)) ∧
    (u.attached = true → u.suspended = false → n = 0 → u.hubConf = true → c.hubByte ≠ 0 →
      s.becomes (.usbInToken k .hubStatus) (c.emit (.usbData 0 0 (le 1 c.hubByte)))) ∧
    (∀ ep d m z r, u.attached = true → u.suspended = false → n ≠ 0 → v.configured = true → v.halts.contains ep.code = false → ep ≠ .event →
      c.inq (epKey n ep) = .xfer d m z :: r → (m = true → u.mps ≤ d.length) → (d ≠ [] ∨ z = true) →
      ∃ t, exec (.usbInToken k ep) s = .next t ∧ t.chip.out = c.out ++ [.usbData n ep.code (d.take u.mps)] ∧
        t.chip.inq (epKey n ep) = (if d.length < u.mps ∨ (d.length = u.mps ∧ m = false ∧ z = false) then r else .xfer (d.drop u.mps) m z :: r) ∧
        t.chip.usb.seqs = (u.nextSeq (epKey n ep)).seqs ∧ t.chip.cmd = c.cmd ∧ t.chip.fab = c.fab ∧ t.guard = s.guard ∧ t.fuses = s.fuses) ∧
    (u.attached = true → u.speed = 3 → u.inq = [] → (∀ e ∈ u.outUsed, e.2 = 0) → (∀ r ∈ c.cmd.replies, r.sess ≠ .usb) →
      s.becomes .usbLgoU1u2 (c.emit (.usbLink u.cfg.u1u2))) ∧
    (∀ (p : Packet) (d : Chip), s.heard 0x0A03 p d → d.roomFor p 64 → ∃ b, b.length = 64 ∧
      b.take 2 = le 1 d.usb.state ++ le 1 d.usb.speed ∧ s.becomes (.dockPortStatus p) (d.replied p b))

/-- Chapter 14's rows that are not commands. -/
def Obligations.NandEndsAct : Prop :=
  ∀ (s : State) (op : Nat) (c u : Chip), c = s.chip → u = c.setCrock (fun k => { k with ops := k.ops.erase op }) →
    (c.crock.ops.find op = none → (∀ r, s.becomes (.nandReadDone op r) c) ∧ (∀ g, s.becomes (.nandProgramDone op g) c) ∧
      ∀ g, s.becomes (.nandEraseDone op g) c) ∧
    (∀ e r, c.crock.ops.find op = some (.census e) → s.becomes (.nandReadDone op r) (((u.countReads e r).classify e r).censusNext)) ∧
    (∀ (d v : Chip) (e : Nat) (k : Census), k = { d.crock.census with checked := sat32 d.crock.census.checked 1 } →
      v = d.setCrock (fun y => { y with censusLeft := y.censusLeft.filter (· != e), census := k }) →
      d.classify e .good = v.setCrock (fun y => { y with census := { k with good := sat32 k.good 1 } }) ∧
      (∀ r, (r = .marginal ∨ ∃ n, r = .retry n) →
        d.classify e r = (v.queueRefresh e).setCrock (fun y => { y with census := { k with refresh := sat32 k.refresh 1 } })) ∧
      d.classify e .rebuilt =
        v.setCrock (fun y => { y with census := { k with rebuilt := sat32 k.rebuilt 1 }, rebuiltQ := y.rebuiltQ ++ [e] }) ∧
      (d.classify e .lost).crock.census = { k with lostEb := sat32 k.lostEb 1 } ∧
      (∀ w l, (d.crock.ops.all fun y => decide (y.1 < d.crock.nextOp)) = true → (w, l) ∈ d.unitsIn e →
        ∃ y ∈ (d.classify e .lost).crock.ops, y.2 = .censusUnit w l)) ∧
    (∀ vol lba b e r, c.crock.ops.find op = some (.move vol lba) → c.nand.map.find (blkKey vol lba) = some b → b.lost = false → b.eb = some e →
      (r ≠ .lost → s.becomes (.nandReadDone op r)
        (((u.countReads e r).setCrock fun y => { y with staged := y.staged ++ [{ id := b.seq, vol, lba, data := b.data }] }).crockGo)) ∧
      s.becomes (.nandReadDone op .lost) ((((u.countReads e .lost).markLost vol lba).postLost vol 1 lba).moveCheck)) ∧
    (∀ id e t, c.crock.ops.find op = some (.program id e) → u.crock.staged.find? (fun y => y.id == id) = some t →
      s.becomes (.nandProgramDone op true) ((u.programOk t (some e)).moveCheck) ∧
      (c.fmt.spare ≠ [] → s.becomes (.nandProgramDone op false)
        (((u.retireEb e).setCrock fun k => { k with staged := k.staged.map fun y => if y.id = id then { y with running := false } else y }).crockGo)) ∧
      (c.fmt.spare = [] → s.becomes (.nandProgramDone op false) (((u.retireEb e).programLost t).censusNext))) ∧
    (∀ (d : Chip) (t : Staged) (e : Option Nat) (tid tag : Nat), t.by' = some (tid, tag) →
      (∀ b, d.nand.map.find (blkKey t.vol t.lba) = some b → b.seq ≤ t.id) →
      (d.commitBlock t e).nand.map.find (blkKey t.vol t.lba) = some { eb := e, data := t.data, seq := t.id, at' := d.poweredS, lost := false } ∧
      ∀ k, k ≠ blkKey t.vol t.lba → (d.commitBlock t e).nand.map.find k = d.nand.map.find k) ∧
    (∀ e, c.crock.ops.find op = some (.erase e) →
      s.becomes (.nandEraseDone op false) ((u.retireEb e).crockGo) ∧
      ∀ (m : OnfiPage) (d : Chip) (w : EBlock), c.crock.media = some m → 0 < m.peRated → w = { cycles := (c.ebOf e).cycles + 1 } →
        d = u.setEb e (fun _ => w) →
        s.becomes (.nandEraseDone op true)
          (((d.sample 9 (Nat.min 15 (((c.ebOf e).cycles + 1) * 16 / m.peRated))).setCrock fun k =>
            { k with erased := insertSorted e k.erased }).crockGo)) ∧
    (((c.crock.state ≠ .census ∨ c.crock.censusLeft ≠ [] ∨ (∃ k e, c.crock.ops.find k = some (.census e))) → s.becomes .censusDone c) ∧
      (c.crock.state = .census → c.crock.censusLeft = [] → c.crock.ops = [] → ∃ t, exec .censusDone s = .next t ∧ t.chip.crock.state = .ready ∧
        t.chip.crock.reason = 0 ∧ t.chip.nand.censusOpen = false ∧ t.guard = s.guard ∧ t.fuses = s.fuses ∧ t.chip.nand.map = c.nand.map)) ∧
    (((∃ e, c.crock.moving = some e) ∨ (c.crock.state ≠ .ready ∧ c.crock.state ≠ .census) ∨ c.crock.halted = true) →
      s.becomes .backgroundMaintenance c) ∧
    (∀ e l, c.crock.moving = none → c.crock.state = .ready → c.crock.halted = false →
      (c.crock.rebuiltQ = e :: l → s.becomes .backgroundMaintenance ((c.setCrock fun k => { k with rebuiltQ := l }).startMove e)) ∧
      (c.crock.rebuiltQ = [] → c.crock.refreshQ = e :: l →
        s.becomes .backgroundMaintenance ((c.setCrock fun k => { k with refreshQ := l }).startMove e))) ∧
    (∀ e, ((c.unitsIn e = [] ∨ c.poweredS - (c.ebOf e).at' ≤ c.retentionS) → s.becomes (.retentionAgeExpiry e) c) ∧
      (c.unitsIn e ≠ [] → c.retentionS < c.poweredS - (c.ebOf e).at' → e ∉ c.crock.refreshQ → e ∉ c.crock.rebuiltQ →
        s.becomes (.retentionAgeExpiry e) (c.setCrock fun k => { k with refreshQ := k.refreshQ ++ [e] }))) ∧
    (∀ h pct slc bad, c.crock.format = some (h, pct, slc) →
      s.becomes (.crockFormatDone bad false) ((c.setCrock fun k => { k with format := none }).complete h 0x0401 0x0810 0) ∧
      ∃ t, exec (.crockFormatDone bad true) s = .next t ∧ t.chip.nand.fmt = some (c.layout bad pct slc) ∧ t.chip.nand.map = [] ∧
        t.chip.nand.formatting = false ∧ t.chip.nand.grown = [] ∧ t.chip.crock.state = .ready ∧ t.chip.crock.format = none) ∧
    (c.crock.format = none → ∀ bad g, s.becomes (.crockFormatDone bad g) c) ∧
    (∀ v y h, c.nand.vols.find v = some y → y.deleting = some h →
      s.becomes (.volumeDeleteDone v) (((c.trimVol v).setNand fun n => { n with vols := n.vols.erase v }).flushCheck.complete h 0 0 0)) ∧
    (∀ v, (∀ y, c.nand.vols.find v = some y → y.deleting = none) → s.becomes (.volumeDeleteDone v) c)

/-- Chapter 14's commands. -/
def Obligations.CrockCommandsAct : Prop :=
  ∀ (s : State) (p : Packet) (c : Chip) (x : Ctx) (b : Bytes) (v : Nat), b = p.params → v = fld b 0 1 →
    (s.heard 0x0801 p c → c.roomFor p 64 → ∃ d, d.length = 64 ∧ s.becomes (.crockGetInfo p) (c.replied p d) ∧ fld d 0 1 = c.crock.state.code ∧
      fld d 6 2 = c.crock.reason % 65536 ∧ fld d 16 8 = c.fmt.logical % 2 ^ 64 ∧ fld d 32 4 = c.fmt.spare.length % 2 ^ 32 ∧
      fld d 44 4 = c.crock.holdup % 2 ^ 32 ∧ fld d 62 2 = c.nand.grown.length % 65536) ∧
    (s.heard 0x0802 p c → x = s.ctxOf 0x0802 p c → (fld b 4 1 = 0 ∨ 2 ≤ fld b 4 1) → fld b 4 1 ≤ 28 → fld b 5 1 ≤ 1 → rsvd b 6 2 = true →
      (fld b 0 4 ≠ 0x464F524D → s.becomes (.crockFormat p) (c.refused p 0x0104 0)) ∧
      (fld b 0 4 = 0x464F524D → (c.crock.state = .noMedia ∨ c.crock.state = .failed) → s.becomes (.crockFormat p) (c.refused p 0x0204 0x0801)) ∧
      (fld b 0 4 = 0x464F524D → c.crock.state ≠ .noMedia → c.crock.state ≠ .failed → c.crock.format = none → c.blockTunnel = true →
        s.becomes (.crockFormat p) (c.refused p 0x0202 0)) ∧
      (fld b 0 4 = 0x464F524D → c.crock.state ≠ .noMedia → c.crock.state ≠ .failed → c.crock.format = none → c.blockTunnel = false →
        c.recordFree (c.issuer p.sess).1 = true → ∃ d : Chip, s.becomes (.crockFormat p) ((d.accepts p x).commitPoint x.handle) ∧
          (∃ k n, d = { c with crock := k, csys := { c.csys with nand := n } } ∧ n = { c.nand with formatting := true, map := [], censusOpen := false } ∧
            k.state = .unformatted ∧ k.staged = [] ∧ k.ops = [] ∧
            k.format = some (x.handle, (if fld b 4 1 = 0 then 7 else fld b 4 1), fld b 5 1 == 1)))) ∧
    (∀ o n, o = fld b 1 1 → n = fld b 8 8 → s.heard 0x0803 p c → v ≤ 63 → o ≤ 63 → fld b 2 1 ≤ 3 → rsvd b 3 5 = true → 1 ≤ n →
      (c.crock.state = .ready ∨ c.crock.state = .census) →
      ((c.issuer p.sess).2 = 2 → o ≠ (c.issuer p.sess).1 → s.becomes (.volumeCreate p) (c.refused p 0x0201 0x0002)) ∧
      (((c.issuer p.sess).2 ≠ 2 ∨ o = (c.issuer p.sess).1) →
        (c.nand.vols.find v ≠ none → s.becomes (.volumeCreate p) (c.refused p 0x0204 0x0806)) ∧
        (c.nand.vols.find v = none → c.volGrant o ≤ (c.nand.vols.filter fun e => e.2.owner == o).length →
          s.becomes (.volumeCreate p) (c.refused p 0x0203 0x0601)) ∧
        (c.nand.vols.find v = none → (c.nand.vols.filter fun e => e.2.owner == o).length < c.volGrant o →
          (c.freeBlocks < n → s.becomes (.volumeCreate p) (c.refused p 0x0203 0x0807)) ∧
          (n ≤ c.freeBlocks → ∀ (y : Volume) (st : VolState),
            st = (if c.crock.state = .census then .census else if c.fmt.spare = [] then .readOnly else .online) →
            y = { owner := o, vflags := fld b 2 1, blocks := n, state := st } →
            s.becomes (.volumeCreate p) ((c.setVol v y).replied p))))) ∧
    (∀ y, v ≤ 63 → (c.crock.state = .ready ∨ c.crock.state = .census) → c.nand.vols.find v = some y → y.deleting = none →
      (((c.issuer p.sess).2 = 2 ∧ y.owner ≠ (c.issuer p.sess).1) → rsvd b 1 3 = true →
        (s.heard 0x0804 p c → s.becomes (.volumeDelete p) (c.refused p 0x0201 0x0002)) ∧
        (s.heard 0x0806 p c → s.becomes (.volumeGet p) (c.refused p 0x0201 0x0002)) ∧
        (s.heard 0x0807 p c → s.becomes (.crockFlush p) (c.refused p 0x0201 0x0002))) ∧
      (((c.issuer p.sess).2 ≠ 2 ∨ y.owner = (c.issuer p.sess).1) →
        (s.heard 0x0804 p c → x = s.ctxOf 0x0804 p c → rsvd b 1 3 = true →
          (0 < c.attached v true + c.attached v false → s.becomes (.volumeDelete p) (c.refused p 0x0202 0)) ∧
          (c.attached v true + c.attached v false = 0 → c.recordFree (c.issuer p.sess).1 = true →
            s.becomes (.volumeDelete p) (((c.setVol v { y with deleting := some x.handle }).accepts p x).commitPoint x.handle))) ∧
        (s.heard 0x0805 p c → fld b 2 1 ≤ 3 → rsvd b 3 5 = true →
          (fld b 1 1 = 1 → c.crock.holdup < c.holdupNeed → s.becomes (.volumeSet p) (c.refused p 0x0204 0x0812)) ∧
          (fld b 1 1 ≤ 1 → (fld b 1 1 = 0 ∨ c.holdupNeed ≤ c.crock.holdup) →
            s.becomes (.volumeSet p)
              (((c.setVol v { y with back := fld b 1 1 == 1, unback := false, vflags := fld b 2 1 }).blkAll).replied p))) ∧
        (s.heard 0x0806 p c → rsvd b 1 3 = true → c.roomFor p 32 → s.becomes (.volumeGet p) (c.replied p
          (le 1 v ++ le 1 y.state.code ++ le 1 y.owner ++ le 1 y.vflags ++ le 1 (b2n y.back) ++ zeros 1 ++ le 2 y.reason ++ le 8 y.blocks ++
            le 4 (Nat.min 0xFFFFFFFF (c.nand.map.filter fun e => e.1 / 2 ^ 48 == v && e.2.lost).length) ++
            le 1 (Nat.min 255 (c.attached v false)) ++ le 1 (Nat.min 255 (c.attached v true)) ++ zeros 2 ++ le 4 y.windowOverrun ++ le 4 y.discarded))) ∧
        (s.heard 0x0807 p c → x = s.ctxOf 0x0807 p c → rsvd b 1 3 = true → c.recordFree (c.issuer p.sess).1 = true →
          (c.unflushed v c.nand.seq = false → s.becomes (.crockFlush p) ((c.accepts p x).complete x.handle 0 0 0)) ∧
          (c.unflushed v c.nand.seq = true → s.becomes (.crockFlush p)
            ((c.setCrock fun k => { k with flushes := k.flushes ++ [(x.handle, v, c.nand.seq)] }).accepts p x))))) ∧
    (v ≤ 63 → c.nand.vols.find v = none → (c.crock.state = .ready ∨ c.crock.state = .census) → s.heard 0x0806 p c → rsvd b 1 3 = true →
      s.becomes (.volumeGet p) (c.refused p 0x0204 0x0805)) ∧
    (∀ k, k = c.crock.census → s.heard 0x0808 p c → (c.crock.state = .ready ∨ c.crock.state = .census) → c.roomFor p 48 →
      s.becomes (.censusGet p) (c.replied p
        (le 6 k.startTurn ++ zeros 2 ++ le 4 k.durationUs ++ le 4 k.checked ++ le 4 k.good ++ le 4 k.refresh ++ le 4 k.rebuilt ++ le 4 k.lostEb ++
          le 4 k.lostBlocks ++ le 4 (c.crock.rebuiltQ.length + c.crock.refreshQ.length) ++ le 4 (b2n k.interrupted) ++ zeros 4))) ∧
    ((c.crock.state = .noMedia ∨ c.crock.state = .failed) → (s.heard 0x0808 p c → s.becomes (.censusGet p) (c.refused p 0x0204 0x0801)) ∧
      (s.heard 0x0807 p c → v ≤ 63 → rsvd b 1 3 = true → s.becomes (.crockFlush p) (c.refused p 0x0204 0x0801))) ∧
    (∀ d, d = c.setCrock (fun k => { k with holdup := fld b 0 4, refreshShare := fld b 4 1 }) → s.heard 0x0809 p c → fld b 0 4 ≤ 1000000 →
      1 ≤ fld b 4 1 → fld b 4 1 ≤ 50 → rsvd b 6 2 = true → (c.crock.state = .ready ∨ c.crock.state = .census) →
      (fld b 5 1 = 0 → c.holdupNeed ≤ fld b 0 4 → s.becomes (.crockCtrl p) (d.flushCheck.replied p)) ∧
      (fld b 5 1 = 0 → fld b 0 4 < c.holdupNeed → s.becomes (.crockCtrl p)
        (((c.nand.vols.filter fun e => e.2.back).foldl (fun d e => d.setVol e.1 { e.2 with unback := true }) d).flushCheck.replied p)) ∧
      (fld b 5 1 = 1 → c.holdupNeed ≤ fld b 0 4 → s.becomes (.crockCtrl p)
        ((d.storeConfig fun z => { z with crock := some (fld b 0 4, fld b 4 1) }).flushCheck.replied p)))

/-- R401, with the bridge's own bus request absent so that R398 does not apply. -/
def Obligations.TrivetRegisters : Prop :=
  ∀ (s : State) (am : BitVec 6) (addr : BitVec 32) (data : Bytes) (rmw : Bool) (c : Chip) (i : Nat) (w : LegIn) (n a : Nat), c = s.chip →
    a = addr.toNat % 2 ^ amSpace am.toNat → c.legOn = true → c.leg.cfg.mode = 1 → c.leg.slave = none → c.leg.owned = false →
    c.leg.requesting = false → c.decodeIn am.toNat a 4 = some (i, w) → w.trivet = true → n < 8 → a = w.base + 4 * n → data.length = 4 →
    (c.leg.trivets.find n = none →
      s.becomes (.inboundCycle am addr (.read 4) rmw)
        (((c.setLeg fun l => { l with trivets := l.trivets.set n 0xFFFE }).slaveEnd true (some [0, 0, 0, 0])).legSettle)) ∧
    (∀ o, c.leg.trivets.find n = some o → o < 2 ^ 16 →
      s.becomes (.inboundCycle am addr (.read 4) rmw)
        ((c.slaveEnd true (some [0x80, 0, BitVec.ofNat 8 (o / 256), BitVec.ofNat 8 (o % 256)])).legSettle)) ∧
    (c.leg.trivets.find n = some 0xFFFE →
      s.becomes (.inboundCycle am addr (.write data) rmw)
        (((({ c with leg := { c.leg with trivets := c.leg.trivets.erase n } } : Chip).slaveEnd true none).legKick).legSettle)) ∧
    (c.leg.trivets.find n ≠ some 0xFFFE →
      s.becomes (.inboundCycle am addr (.write data) rmw)
        ((({ c with leg := { c.leg with trivetWrites := sat32 c.leg.trivetWrites 1 } } : Chip).slaveEnd true none).legSettle))

/-- Chapter 16's rows of the aperture and of the bridge as bus master. -/
def Obligations.LegacyBusActs : Prop :=
  ∀ (s : State) (c : Chip), c = s.chip →
    (c.legOn = false → s.becomes .legacyTagGranted c ∧ (∀ l, s.becomes (.busGrant l) c) ∧ (∀ g d, s.becomes (.busCycleDone g d) c) ∧
      s.becomes .busTimerExpiry c ∧ s.becomes .readyTimeout c ∧ (∀ b x y, s.becomes (.vmeArbitration b x y) c) ∧ (∀ a, s.becomes (.vmeSysreset a) c) ∧
      (∀ x y, s.becomes (.vmeSysfailAcfail x y) c) ∧ (∀ am a x r, s.becomes (.inboundCycle am a x r) c) ∧ s.becomes .inboundCycleEnd c ∧
      (∀ l d g, s.becomes (.irqPoll l d g) c) ∧ (∀ n, s.becomes (.prefetchExpiry n) c)) ∧
    (∀ (a : ApAccess) (vi : Nat) (ur : Chip → Chip), vi = a.vi.val → (∀ d, ur d = (d.aerError 3).emit (.apertureCpl vi a.tag 1 [])) →
      (c.hostReach = false → (∀ d, s.becomes (.apertureWrite a d) c) ∧ s.becomes (.apertureRead a) c ∧ ∀ o d, s.becomes (.apertureAtomic a o d) c) ∧
      (c.hostReach = true → (c.inst vi).state = .absent → (∀ d, s.becomes (.apertureWrite a d) c) ∧
        s.becomes (.apertureRead a) (c.emit (.apertureCpl vi a.tag 0 (zeros a.len)))) ∧
      (c.hostReach = true → (c.inst vi).state ≠ .absent →
        (∀ data d l, c.apertureCheck s a 1 = (d, l) → l ≠ [] →
          (d.apertureWin a = none → s.becomes (.apertureWrite a data) (d.legCount 2 1)) ∧
          (∀ i w, d.apertureWin a = some (i, w) →
            (d.poisoned i = true → s.becomes (.apertureWrite a data) (d.discardWrite i)) ∧
            (d.poisoned i = false → ∀ r : LegReq, r = { client := 0x1000 + vi, xtag := 0, op := 2, posted := true, idx := i, win := w,
                                                        off := w.slide + a.off, len := a.len, data := sliceB data 0 a.len, parts := l } →
              (d.leg.apWait = [] → d.leg.tagsKept < 64 → s.becomes (.apertureWrite a data) ((d.legAccept r).legSettle)) ∧
              ((d.leg.apWait ≠ [] ∨ 64 ≤ d.leg.tagsKept) →
                s.becomes (.apertureWrite a data) ((d.setLeg fun k => { k with apWait := k.apWait ++ [r] }).legSettle))))) ∧
        (∀ d l, c.apertureCheck s a 0 = (d, l) → ((l = [] ∨ d.apertureWin a = none) → s.becomes (.apertureRead a) (ur d)) ∧
          (l ≠ [] → ∀ i w, d.apertureWin a = some (i, w) → ∀ r : LegReq,
            r = { client := 0x1000 + vi, xtag := a.tag, op := 1, idx := i, win := w, off := w.slide + a.off, len := a.len, parts := l,
                  buf := legBuf a.len l } → s.becomes (.apertureRead a) ((d.apertureReq r).legSettle))) ∧
        (∀ o x, (a.len ≠ 4 ∧ a.len ≠ 8) → s.becomes (.apertureAtomic a o x) (ur c)) ∧
        (∀ o x d l, (a.len = 4 ∨ a.len = 8) → c.apertureCheck s a 2 = (d, l) →
          ((l = [] ∨ d.apertureWin a = none) → s.becomes (.apertureAtomic a o x) (ur d)) ∧
          (l ≠ [] → d.strobe = false → ∀ i w, d.apertureWin a = some (i, w) → ∀ r : LegReq,
            r = { client := 0x1000 + vi, xtag := a.tag, op := 3, idx := i, win := w, off := w.slide + a.off, len := a.len,
                  data := sliceB x 0 (if o.val = 2 then 2 * a.len else a.len), atop := o.val, parts := [(0, a.len)],
                  buf := List.replicate a.len 0xFF } →
            s.becomes (.apertureAtomic a o x) ((d.apertureReq r).legSettle))))) ∧
    (c.legOn = true →
      (∀ r l, c.leg.apWait = r :: l →
        (c.leg.tagsKept < 64 → s.becomes .legacyTagGranted (((c.setLeg fun k => { k with apWait := l }).legAccept r).legSettle)) ∧
        (64 ≤ c.leg.tagsKept → s.becomes .legacyTagGranted c.legSettle)) ∧
      (∀ n : Fin 4, c.leg.cfg.mode = 1 →
        (c.leg.requesting = true → c.leg.cfg.brLevel = n.val → s.becomes (.busGrant n)
          ((((((c.setLeg fun k => { k with requesting := false, owned := true }).drive (.vmeBrq n.val) 0).drive .vmeBbsy 1).vxFor true none).legKick).legSettle)) ∧
        ((c.leg.requesting = false ∨ c.leg.cfg.brLevel ≠ n.val) → s.becomes (.busGrant n)
          (((c.setLeg fun k => { k with grantedTo := some n.val }).drive (.vmeBgo n.val) 1).legSettle))) ∧
      (∀ d, s.becomes (.busCycleDone true d) ((c.cycleEnd none d).legSettle) ∧ s.becomes (.busCycleDone false d) ((c.cycleEnd (some 1) d).legSettle)) ∧
      (c.leg.cfg.mode = 1 → (c.syscon = true → c.leg.running = false → s.becomes .busTimerExpiry (((c.drive .vmeBerr 1).cycleEnd (some 2) []).legSettle)) ∧
        (c.syscon = true → c.leg.running = true → s.becomes .busTimerExpiry ((((c.drive .vmeBerr 1).cycleEnd (some 2) []).drive .vmeBerr 0).legSettle)) ∧
        (c.syscon = false → s.becomes .busTimerExpiry ((c.cycleEnd (some 2) []).legSettle))) ∧
      (c.strobe = true → bitOf c.leg.cfg.ready 0 = true → s.becomes .readyTimeout ((c.cycleEnd (some 3) []).legSettle)) ∧
      (∀ (brq : BitVec 4) bclr bbsy c1 c2 d, c.leg.cfg.mode = 1 →
        (∀ k, c.leg.grantedTo = some k → c.leg.bbsy = false → bbsy = true → c1 = c.drive (.vmeBgo k) 0) →
        ((c.leg.grantedTo = none ∨ c.leg.bbsy = true ∨ bbsy = false) → c1 = c) →
        ((c.leg.bbsy = true ∧ bbsy = false ∧ c.syscon = true ∧ bitOf c.leg.cfg.sysflags 1 = true) → c2 = c1.drive .vmeBclr 0) →
        ((c.leg.bbsy = false ∨ bbsy = true ∨ c.syscon = false ∨ bitOf c.leg.cfg.sysflags 1 = false) → c2 = c1) →
        d = (c2.setLeg fun k => { k with brqOthers := brq.toNat, bclr, bbsy }) →
        (c.leg.owned = false → s.becomes (.vmeArbitration brq bclr bbsy) ((d.arbitrate.legKick).legSettle)) ∧
        (c.leg.owned = true → c.leg.cfg.release = 1 → c.leg.running = false → c.leg.q = [] → (brq ≠ 0 ∨ bclr = true) →
          s.becomes (.vmeArbitration brq bclr bbsy) ((d.busRelease.arbitrate.legKick).legSettle))) ∧
      (c.leg.q = [] → s.becomes (.vmeSysreset true)
        ((((c.setLeg fun k => { k with sysreset := true, running := false }).busRelease).post 0x0B05 0
          (b2n c.leg.sysfail + 2 * b2n c.leg.acfail + 4)).legSettle)) ∧
      (c.leg.sysresetDrive = false → s.becomes (.vmeSysreset false) (((c.setLeg fun k => { k with sysreset := false }).legKick).legSettle)) ∧
      (∀ x y, c.leg.cfg.mode = 1 →
        ((c.leg.sysfail ≠ x ∨ c.leg.acfail ≠ y) → s.becomes (.vmeSysfailAcfail x y)
          (((c.setLeg fun k => { k with sysfail := x, acfail := y }).post 0x0B05 0 (b2n x + 2 * b2n y + 4 * b2n c.leg.sysreset)).legSettle)) ∧
        (c.leg.sysfail = x → c.leg.acfail = y → s.becomes (.vmeSysfailAcfail x y) c.legSettle))) ∧
    (∀ (d e : Chip) (r : LegReq) (k : LegCycle) (m : List LegCycle) (l : List LegReq) (w : Nat) (b : Bytes), d.leg.running = true → d.leg.q = r :: l →
      r.cycles = k :: m → r.op = 2 → r.posted = true → (w = 1 ∨ w = 2 ∨ w = 3) → e = (d.legCount (if w = 1 then 0 else 1) 1).cycleOver →
      d.cycleEnd (some w) b = ((((e.legFinish { r with cycles := m } 0 0).poison r.idx k.addr r.tag w).afterCycle true false).legKick)) ∧
    (∀ (d : Chip) (i a t w : Nat), d.poisoned i = false →
      ((d.poison i a t w).legHealth i).poisoned = some { addr := a, tag := t, cause := w, turn := d.turn } ∧
      (∀ j, j ≠ i → (d.poison i a t w).legHealth j = d.legHealth j) ∧
      (∀ r ∈ (d.poison i a t w).leg.q, r.idx = i → r.op = 2 → r.posted = true → r.started = true))

/-- Chapter 16's rows of the bridge as slave and interrupt handler, and its timers. -/
def Obligations.LegacySlaveActs : Prop :=
  ∀ (s : State) (c : Chip), c = s.chip → c.legOn = true →
    (∀ (am : BitVec 6) (addr : BitVec 32) (x : SlaveCycle) (rmw : Bool) (n a i : Nat) (w : LegIn) (d : Chip),
      a = addr.toNat % 2 ^ amSpace am.toNat → n = (match x with | .read k => k | .write b => b.length) → 0 < n →
      (c.leg.cfg.mode ≠ 1 → s.becomes (.inboundCycle am addr x rmw) c.legSettle) ∧
      (c.leg.cfg.mode = 1 → c.leg.slave = none → c.leg.owned = false →
        (c.decodeIn am.toNat a n = none → s.becomes (.inboundCycle am addr x rmw) c.legSettle) ∧
        (c.decodeIn am.toNat a n = some (i, w) →
          d = (if c.leg.requesting then
            (((c.setLeg fun k => { k with requesting := false, backedOff := true }).drive (.vmeBrq c.leg.cfg.brLevel) 0).legCount 5 1) else c) →
          (w.trivet = true → s.becomes (.inboundCycle am addr x rmw) ((d.trivetCycle (a - w.base) x).legSettle)) ∧
          (w.trivet = false → s.becomes (.inboundCycle am addr x rmw) ((d.hostCycle s i w am.toNat a x rmw).legSettle))))) ∧
    (∀ (d : Chip) (i am a k h : Nat) (w : LegIn) (b : Bytes) (rmw : Bool) (v : GkVerdict), h = (w.target + (a - w.base)) % 2 ^ 64 →
      (v = (s.guard.active.get {} 1).decide' s.fuses.lifecycle 3 (if rmw then 2 else 0) h k rmw → v.nobyte = true → v.all = false →
        ∃ y : Violation, d.hostCycle s i w am a (.read k) rmw = ((d.violate 1 y).legCount 6 1).slaveEnd false none ∧ y.addr = h ∧ y.size = k ∧ y.level = 3) ∧
      (v = (s.guard.active.get {} 1).decide' s.fuses.lifecycle 3 1 h b.length false → v.all = true → v.nobyte = false → (d.tunOf w.tid).state = .open →
        (d.tunOf w.tid).index = 0 → (d.tunOf w.tid).inPort = 9 →
        ∃ p : List (Nat × Bytes), p = (allowedRuns v.bytes).map (fun z => (h + z.1, sliceB b z.1 z.2)) ∧ ∀ u : LegSlave,
          u = { win := i, tid := w.tid, len := b.length, waiting := p } →
          d.hostCycle s i w am a (.write b) false = ({ d with leg := { d.leg with slave := some u } } : Chip).inboundRoom)) ∧
    (∀ u, c.leg.slave = some u →
      (u.isRead = true → u.reads = [] → s.becomes .inboundResponse ((c.slaveEnd (!u.failed) (some u.buf)).legSettle)) ∧
      ((u.isRead = false ∨ u.reads ≠ []) → s.becomes .inboundResponse c.legSettle) ∧
      s.becomes .inboundTimeout ((c.slaveEnd false none).legSettle)) ∧
    (c.leg.slave = none → s.becomes .inboundResponse c.legSettle ∧ s.becomes .inboundTimeout c.legSettle) ∧
    s.becomes .inboundCycleEnd ((((((c.drive .vmeDtack 0).drive .vmeBerr 0).setVx 1 none).setLeg fun k => { k with backedOff := false, slave := none }).legKick).legSettle) ∧
    (∀ (lv : BitVec 8) (id : BitVec 32) (good : Bool) (n o v : Nat), 1 ≤ n → n ≤ 7 →
      lv.getLsbD n = true → bitOf c.leg.cfg.irqEnable n = true → bitOf c.leg.irqMasked n = false →
      (∀ m, n < m → m ≤ 7 → (lv.getLsbD m && bitOf c.leg.cfg.irqEnable m && !bitOf c.leg.irqMasked m) = false) →
      o = nth 0xFF c.leg.cfg.irqOwner (n - 1) → c.strobe = false → v = (if good then id.toNat % 2 ^ (8 * 2 ^ bitsOf c.leg.cfg.iackWidth (2 * n - 2) 2) else 0) →
      ∀ d, d = (c.emit (.vmeIack n (bitsOf c.leg.cfg.iackWidth (2 * n - 2) 2))).setLeg (fun k => { k with irqMasked := setBit k.irqMasked n true }) →
      (o = 0xFF → s.becomes (.irqPoll lv id good) (((d.post 0x0B02 0 (n + 256 * b2n (!good) + v * 2 ^ 32)).wakeEvent 4).legSettle)) ∧
      (o ≠ 0xFF → s.becomes (.irqPoll lv id good) (((d.postVi o 0x0B02 0 (n + 256 * b2n (!good) + v * 2 ^ 32)).wakeEvent 4).legSettle))) ∧
    (∀ (lv : BitVec 8) id good, (∀ m, 1 ≤ m → m ≤ 7 → (lv.getLsbD m && bitOf c.leg.cfg.irqEnable m && !bitOf c.leg.irqMasked m) = false) →
      s.becomes (.irqPoll lv id good) c.legSettle) ∧
    (∀ n x, c.leg.lines[n]? = some x → s.becomes (.prefetchExpiry n) ((c.dropLines (· == x)).legSettle)) ∧
    (∀ (d : Chip) x, x ∉ (d.dropLines (· == x)).leg.lines ∧ (x.bytes ≠ [] → d.leg.lines.filter (· == x) = [x] →
      (d.dropLines (· == x)).leg.cnt.get 0 4 = sat32 (d.leg.cnt.get 0 4) 1 ∧ (d.dropLines (· == x)).leg.ring = (x.addr :: d.leg.ring).take 16)) ∧
    (∀ n : Fin 8, (c.leg.trivets.find n.val = none → s.becomes (.trivetHoldExpiry n) c) ∧
      (∀ o, c.leg.trivets.find n.val = some o → s.becomes (.trivetHoldExpiry n)
        (((((c.setLeg fun k => { k with trivets := k.trivets.erase n.val }).post 0x0B04 0x0B10 (n.val + o * 65536)).legKick).legSettle)))) ∧
    (∀ r l, c.leg.q = r :: l → r.op = 3 → r.hasTrivet = false → r.dead = false →
      s.becomes .trivetWaitTimeout (((c.legFinish r 0x0202 0x0B08).legKick).legSettle)) ∧
    (c.leg.q = [] → s.becomes .trivetWaitTimeout c.legSettle)

/-- Chapter 16's commands. -/
def Obligations.LegacyCommandsAct : Prop :=
  ∀ (s : State) (p : Packet) (c : Chip) (b : Bytes) (i : Nat), b = p.params → i = fld b 0 1 →
    (∀ k, s.heard 0x0B01 p c → k = legCfgOf b → k.valid = true → fld b 1 1 ≤ 15 → rsvd b 19 1 = true → rsvd b 25 1 = true → rsvd b 32 16 = true →
      (bitOf (fld b 1 1) 0 = true → k.busTimer ≤ k.inTimeout → s.becomes (.legacyConfig p) (c.refused p 0x0104 0x0B0E)) ∧
      ((bitOf (fld b 1 1) 0 = false ∨ k.inTimeout < k.busTimer) → ∀ same : Prop,
        (same ↔ k.mode = c.leg.cfg.mode ∧ k.sysflags = c.leg.cfg.sysflags ∧ k.brLevel = c.leg.cfg.brLevel ∧ k.release = c.leg.cfg.release) →
        (c.leg.q ≠ [] → ¬same → s.becomes (.legacyConfig p) (c.refused p 0x0204 0x0B0D)) ∧
        ((c.leg.q = [] ∨ same) → bitOf (fld b 1 1) 3 = false → s.becomes (.legacyConfig p) ((c.legApply k).replied p)) ∧
        ((c.leg.q = [] ∨ same) → bitOf (fld b 1 1) 3 = true →
          s.becomes (.legacyConfig p) (((c.storeConfig fun z => { z with leg := some k }).legApply k).replied p)))) ∧
    (∀ (w : LegWin) (g fl : Nat), s.heard 0x0B02 p c → fl = fld b 1 1 → i ≤ 15 → fl ≤ 127 → g = (if 65535 ≤ (c.legWin i).gen then 1 else (c.legWin i).gen + 1) →
      w = { enable := bitOf fl 0, posted := bitOf fl 1, prefetch := bitOf fl 2, rmw := bitOf fl 3, aperture := bitOf fl 4, width := fld b 2 1,
            am := fld b 3 1, owner := fld b 4 1, trivet := fld b 5 1, size := fld b 8 4, base := fld b 12 4, slide := fld b 16 4, gen := g } →
      (c.strobe = false → w.width ≤ 4 ∧ w.am ∈ [0x09, 0x0D, 0x39, 0x3D, 0x29, 0x2D] ∧ w.base + w.size ≤ 2 ^ amSpace w.am) →
      (c.strobe = true → w.width ≤ 1 ∧ w.base + w.size ≤ 2 ^ 24) → w.owner ≤ 63 → w.trivet ≤ 7 → w.size % 4096 = 0 → 4096 ≤ w.size →
      w.base % 4096 = 0 → w.slide % 4096 = 0 → w.slide ≤ w.size - 32768 → rsvd b 20 12 = true →
      (w.aperture = true → w.owner ≠ 0 → ∀ e ∈ c.leg.wins, e.1 ≠ i → e.2.aperture = true → e.2.owner ≠ w.owner) →
      (c.poisoned i = true → s.becomes (.windowSet p) (c.refused p 0x0204 0x0B04)) ∧
      (c.poisoned i = false → bitOf fl 5 = true → fld b 6 2 ≠ (c.legWin i).gen → s.becomes (.windowSet p) (c.refused p 0x0204 0x0B0F)) ∧
      (c.poisoned i = false → (bitOf fl 5 = false ∨ fld b 6 2 = (c.legWin i).gen) →
        ∀ d, d = (c.dropLines fun l => l.win == i).setLeg (fun l => { l with wins := l.wins.set i w }) →
        (bitOf fl 6 = false → s.becomes (.windowSet p) (d.replied p [] g)) ∧
        (bitOf fl 6 = true →
          s.becomes (.windowSet p) ((d.storeConfig fun z => { z with legWins := z.legWins.set i w }).replied p [] g)))) ∧
    (∀ w : LegIn, s.heard 0x0B03 p c → i ≤ 7 → fld b 1 1 ≤ 7 → rsvd b 3 1 = true → rsvd b 6 2 = true → rsvd b 24 8 = true →
      w = { enable := bitOf (fld b 1 1) 0, trivet := bitOf (fld b 1 1) 1, amsel := fld b 2 1, tid := fld b 4 2, base := fld b 8 4, size := fld b 12 4,
            target := fld b 16 8 } →
      w.amsel ≤ 127 → w.tid ≤ 1023 → w.size % 4096 = 0 → 4096 ≤ w.size → w.base % 4096 = 0 → w.base + w.size ≤ 2 ^ 32 →
      (bitOf w.amsel 0 = true → w.base + w.size ≤ 2 ^ 16) → (bitOf w.amsel 1 = true → w.base + w.size ≤ 2 ^ 24) → (w.trivet = true → w.size = 4096) →
      (w.enable = true → w.trivet = false → c.hostTid w.tid = false → s.becomes (.inboundSet p) (c.refused p 0x0204 0x0B0B)) ∧
      ((w.enable = false ∨ w.trivet = true ∨ c.hostTid w.tid = true) → ∀ d, d = c.setLeg (fun l => { l with ins := l.ins.set i w }) →
        (bitOf (fld b 1 1) 2 = false → s.becomes (.inboundSet p) (d.replied p)) ∧
        (bitOf (fld b 1 1) 2 = true →
          s.becomes (.inboundSet p) ((d.storeConfig fun z => { z with legIns := z.legIns.set i w }).replied p)))) ∧
    (∀ v, s.heard 0x0B04 p c → v = fld b 4 4 → i ≤ 15 → rsvd b 1 3 = true → v % 4096 = 0 → v ≤ (c.legWin i).size - 32768 →
      ((c.issuer p.sess).2 = 2 → ((c.legWin i).aperture = false ∨ (c.legWin i).owner ≠ (c.issuer p.sess).1) →
        s.becomes (.windowSlide p) (c.refused p 0x0201 0x0002)) ∧
      (((c.issuer p.sess).2 ≠ 2 ∨ ((c.legWin i).aperture = true ∧ (c.legWin i).owner = (c.issuer p.sess).1)) →
        s.becomes (.windowSlide p) ((c.setLeg fun l => { l with wins := l.wins.set i { c.legWin i with slide := v } }).replied p))) ∧
    (∀ e, s.heard 0x0B05 p c → i ≤ 15 → rsvd b 1 3 = true → c.roomFor p 16 → (c.legHealth i).poisoned = some e →
      ((c.issuer p.sess).2 ≠ 2 ∨ (c.legWin i).owner = (c.issuer p.sess).1) →
      s.becomes (.clearWindowError p)
        (((c.setHealth i fun h => { h with poisoned := none, discarded := 0 }).dropLines fun l => l.win == i).replied p
          (le 4 e.addr ++ le 1 e.tag ++ le 1 e.cause ++ le 6 e.turn ++ le 4 (c.legHealth i).discarded))) ∧
    (∀ t m, s.heard 0x0B06 p c → t = fld b 0 2 → m = fld b 2 2 → t ≤ 1023 → rsvd b 4 4 = true →
      (m = 0 → s.becomes (.legacyGrant p) ((c.setLeg fun l => { l with grants := l.grants.erase t }).replied p)) ∧
      (m ≠ 0 → s.becomes (.legacyGrant p) ((c.setLeg fun l => { l with grants := l.grants.set t m }).replied p))) ∧
    (s.heard 0x0B07 p c → 1 ≤ i → i ≤ 7 → rsvd b 1 3 = true →
      ((c.issuer p.sess).2 = 2 → nth 0xFF c.leg.cfg.irqOwner (i - 1) ≠ (c.issuer p.sess).1 → s.becomes (.irqRearm p) (c.refused p 0x0201 0x0002)) ∧
      (((c.issuer p.sess).2 ≠ 2 ∨ nth 0xFF c.leg.cfg.irqOwner (i - 1) = (c.issuer p.sess).1) →
        s.becomes (.irqRearm p) ((c.setLeg fun l => { l with irqMasked := setBit l.irqMasked i false }).replied p))) ∧
    (∀ u, s.heard 0x0B08 p c → u = 0x1000 + (c.issuer p.sess).1 → i ≤ 7 → rsvd b 2 2 = true →
      (fld b 1 1 = 0 → c.leg.trivets.find i = none →
        s.becomes (.trivet p) ((c.setLeg fun l => { l with trivets := l.trivets.set i u }).replied p [] u)) ∧
      (∀ o, fld b 1 1 = 0 → c.leg.trivets.find i = some o → s.becomes (.trivet p) (c.refused p 0x0202 0x0B08 o)) ∧
      (fld b 1 1 = 1 → c.leg.trivets.find i = some u → s.becomes (.trivet p)
        ((((c.setLeg fun l => { l with trivets := l.trivets.erase i }).legKick).legSettle).replied p [] 0xFFFF)) ∧
      (∀ o, fld b 1 1 = 1 → c.leg.trivets.find i = some o → o ≠ u → s.becomes (.trivet p) (c.refused p 0x0204 0x0B09 o)) ∧
      (fld b 1 1 = 1 → u < 0xFFFF → c.leg.trivets.find i = none → s.becomes (.trivet p) (c.refused p 0x0204 0x0B09 0xFFFF)) ∧
      (fld b 1 1 = 2 → (c.issuer p.sess).2 = 2 → s.becomes (.trivet p) (c.refused p 0x0201 0x0002)) ∧
      (∀ o, fld b 1 1 = 2 → (c.issuer p.sess).2 = 1 → c.leg.trivets.find i = some o → o ≠ 0xFFFF → s.becomes (.trivet p)
        ((((c.setLeg fun l => { l with trivets := l.trivets.erase i }).legKick).legSettle).replied p [] 0xFFFF))) ∧
    (s.heard 0x0B09 p c → c.roomFor p 152 → ∃ d, d.length = 152 ∧ s.becomes (.legacyStatus p) (c.replied p d) ∧ fld d 0 1 = c.leg.cfg.mode % 256 ∧
      fld d 1 1 = c.leg.cfg.sysflags % 256 ∧ fld d 2 1 = c.leg.q.length % 256 ∧ fld d 3 1 = c.leg.irqMasked % 256 ∧
      (∀ k, k < 16 → bitOf (fld d 4 2) k = c.poisoned k ∧ fld d (8 + 2 * k) 2 = (c.legWin k).gen % 65536) ∧
      (∀ k, k < 8 → ((c.issuer p.sess).2 = 1 → fld d (40 + 2 * k) 2 = c.trivetOwner k % 65536) ∧ fld d (56 + 4 * k) 4 = c.leg.cnt.get 0 k % 2 ^ 32))

/-- R413 and R414, with the trip that both end in. -/
def Obligations.BreakerTrips : Prop :=
  ∀ (s : State) (ch : Fin 14) (c : Chip) (x : PowerChan), c = s.chip → x = c.chan ch.val →
    (x.state = .on → x.timer = none →
      s.becomes (.inLimitChange ch true)
        (((c.setChan ch.val { x with inLimit := true, timer := some x.conf.faultUs }).powerGood ch.val false).powerSettle)) ∧
    (x.state = .on → s.becomes (.inLimitChange ch false) ((c.setChan ch.val { x with inLimit := false, timer := none }).powerSettle)) ∧
    (∀ u, x.timer = some u → s.becomes (.faultTimerExpiry ch false) ((c.trip ch.val 1).powerSettle) ∧
      s.becomes (.faultTimerExpiry ch true) ((c.trip ch.val 2).powerSettle)) ∧
    (x.timer = none → ∀ b, s.becomes (.faultTimerExpiry ch b) c.powerSettle) ∧
    ((x.state = .start ∨ x.state = .on) → s.becomes (.severeTrip ch) ((c.trip ch.val 2).powerSettle)) ∧
    (∀ (n cause : Nat) (d y : Chip) (k : PowerChan), y = d.trip n cause → k = d.chan n →
      (y.chan n).gate = false ∧ (y.chan n).timer = none ∧ (y.chan n).pg = false ∧ (∀ m, m ≠ n → y.chan m = d.chan m) ∧
      (isTrunkCh n = false → (y.chan n).cause = cause ∧ (y.chan n).faultCount = Nat.min 255 (k.faultCount + 1) ∧
        (y.chan n).trips = sat16 k.trips 1 ∧
        ((k.conf.retryMax = 255 ∨ Nat.min 255 (k.faultCount + 1) < k.conf.retryMax) → (y.chan n).state = .retryWait) ∧
        (k.conf.retryMax ≠ 255 → k.conf.retryMax ≤ Nat.min 255 (k.faultCount + 1) → (y.chan n).state = .latched)) ∧
      (isTrunkCh n = true → (y.chan n).tripPending = some cause ∧ (y.chan n).state = .standby ∧ (y.chan n).faultCount = k.faultCount) ∧
      (d.pwr.selected = some n → y.pwr.selected = none ∧ y.pwr.dead = some (0x0C06, n)) ∧
      (d.pwr.selected ≠ some n → y.pwr.selected = d.pwr.selected))

/-- Chapter 17's rows but the breaker's. -/
def Obligations.PowerRowsAct : Prop :=
  ∀ (s : State) (c : Chip), c = s.chip →
    (∀ (ch : Fin 14) (n : Nat) (x : PowerChan), n = ch.val → x = c.chan n →
      (isTrunkCh n = false → x.state = .start → s.becomes (.vsnsPgReached ch) (((c.setChan n { x with vPg := true }).chanOn n).powerSettle)) ∧
      (isTrunkCh n = true → x.state = .start →
        s.becomes (.vsnsPgReached ch) ((((c.setChan n { x with vPg := true }).chanOn n).railUp (n - 2)).powerSettle)) ∧
      (isTrunkCh n = false → x.state ≠ .start → s.becomes (.vsnsPgReached ch) ((c.setChan n { x with vPg := true }).powerSettle)) ∧
      (x.state = .on → x.inLimit = false → x.timer = none → x.vPg = true → s.becomes (.powerGoodAssert ch) ((c.powerGood n true).powerSettle)) ∧
      ((x.state ≠ .on ∨ x.inLimit = true ∨ x.timer ≠ none ∨ x.vPg = false) → s.becomes (.powerGoodAssert ch) c.powerSettle) ∧
      s.becomes (.vsnsSag ch) (((c.setChan n { x with vPg := false }).powerGood n false).powerSettle) ∧
      (x.state = .on → x.gateWin = true → x.gateGood = false → s.becomes (.gateRiseTimeout ch) ((c.damage n 3).powerSettle)) ∧
      (x.gateGood = true → s.becomes (.gateRiseTimeout ch) c.powerSettle) ∧
      (x.gate = false → x.state ≠ .damaged → x.scaled n = true → s.becomes (.shortDetect ch) ((c.damage n 4).powerSettle)) ∧
      ((x.gate = true ∨ x.state = .damaged) → s.becomes (.shortDetect ch) c.powerSettle) ∧
      (x.state = .retryWait → c.slotReady n = true → s.becomes (.retryTimer ch) ((c.startSlot n).powerSettle)) ∧
      (x.state = .retryWait → c.slotReady n = false → s.becomes (.retryTimer ch) ((c.proceed n).powerSettle)) ∧
      (x.state ≠ .retryWait → s.becomes (.retryTimer ch) c.powerSettle) ∧
      (x.pg = true → s.becomes (.faultCountClear ch) ((c.setChan n { x with faultCount := 0 }).powerSettle)) ∧
      (x.pg = false → s.becomes (.faultCountClear ch) c.powerSettle)) ∧
    (∀ (d : Chip) (n : Nat) (v : Bool), ((d.chan n).pg = v → d.powerGood n v = d) ∧
      ((d.chan n).pg ≠ v → d.powerGood n v = (d.setChan n { d.chan n with pg := v }).post 0x0C02 0 (n + 256 * b2n v))) ∧
    (∀ (d : Chip) (n k : Nat), ((d.damage n k).chan n).gate = false ∧ ((d.damage n k).chan n).state = .damaged ∧ ((d.damage n k).chan n).cause = k ∧
      ((d.damage n k).chan n).faultCount = (d.chan n).faultCount) ∧
    (∀ (k : Fin 8) (n : Nat) (x : PowerChan), n = 6 + k.val → x = c.chan n →
      (x.present = true → s.becomes (.slotInsert k) c.powerSettle) ∧
      (∀ d, x.present = false → d = (c.setChan n { x with present := true }).post 0x0C06 0 (n + 256) →
        (x.state = .absent → s.becomes (.slotInsert k) ((d.startSlot n).powerSettle)) ∧
        (x.state ≠ .absent → s.becomes (.slotInsert k) d.powerSettle)) ∧
      (x.present = false → ∀ b, s.becomes (.slotRemove k b) c.powerSettle) ∧
      (∀ d, x.present = true → d = (c.setChan n { x with present := false }).post 0x0C06 0 n →
        ((x.state = .start ∨ x.state = .on) → s.becomes (.slotRemove k false) ((d.gateLow n .absent).powerSettle)) ∧
        (x.state ≠ .start → x.state ≠ .on → s.becomes (.slotRemove k false) d.powerSettle)) ∧
      (∀ u d, x.present = true → x.timer = some u → d = c.trip n 1 →
        s.becomes (.slotRemove k true) (((d.setChan n { d.chan n with present := false }).post 0x0C06 0 n).powerSettle)) ∧
      (x.present = true → s.becomes (.slotRemoveLong k) c.powerSettle) ∧
      (x.present = false → (x.state = .latched ∨ x.state = .retryWait) →
        s.becomes (.slotRemoveLong k) ((c.setChan n { x with faultCount := 0, state := .absent }).powerSettle)) ∧
      (x.present = false → x.state ≠ .latched → x.state ≠ .retryWait →
        s.becomes (.slotRemoveLong k) ((c.setChan n { x with faultCount := 0 }).powerSettle))) ∧
    (∀ (d : Chip) (n : Nat), (d.slotReady n = false → d.startSlot n = d) ∧
      (d.slotReady n = true → d.pwr.staggering = true →
        d.startSlot n = { d with pwr := { d.pwr with waiting := insertSorted n d.pwr.waiting } }) ∧
      (d.slotReady n = true → d.pwr.staggering = false → 0 < d.pwr.feed.staggerMs →
        d.startSlot n = ({ d with pwr := { d.pwr with staggering := true } } : Chip).startChan n)) ∧
    (∀ n l, c.pwr.waiting = n :: l → c.slotReady n = true → (c.chan n).state = .absent →
      s.becomes .staggerTimer ((({ c with pwr := { c.pwr with waiting := l, staggering := true } } : Chip).startChan n).powerSettle)) ∧
    (c.pwr.waiting = [] → s.becomes .staggerTimer ((({ c with pwr := { c.pwr with staggering := false, waiting := [] } } : Chip)).powerSettle)) ∧
    (∀ (f : Fin 6) (d : Chip),
      (c.candidate f.val = true → s.becomes (.feedValidTimer f) (((c.setChan f.val { c.chan f.val with inWindow := true }).feedCame).powerSettle)) ∧
      (c.candidate f.val = false → s.becomes (.feedValidTimer f) c.powerSettle) ∧
      (d = c.setChan f.val { c.chan f.val with inWindow := false } →
        (c.pwr.selected ≠ some f.val → s.becomes (.feedInvalid f) d.powerSettle) ∧
        (c.pwr.selected = some f.val → d.bestFeed = none → c.pwr.lost = false →
          s.becomes (.feedInvalid f) ((({ d with pwr := { d.pwr with lost := true } } : Chip).post 0x0C05 0 f.val).powerSettle)) ∧
        (c.pwr.selected = some f.val → d.bestFeed ≠ none → ∃ e, e = d.gateLow f.val .standby ∧
          s.becomes (.feedInvalid f)
            ((({ e with pwr := { e.pwr with selected := none, dead := some (0x0C04, f.val) } } : Chip)).powerSettle))) ∧
      (∀ n, c.pwr.selected = some n → c.pwr.feed.revert = true → c.feedValid f.val = true →
        nth 0 c.pwr.feed.prio n < nth 0 c.pwr.feed.prio f.val → s.becomes (.feedRestoreTimer f) ((c.openFeed 0x0C05).powerSettle)) ∧
      ((c.pwr.feed.revert = false ∨ c.pwr.selected = none) → s.becomes (.feedRestoreTimer f) c.powerSettle)) ∧
    (c.pwr.dead = none → s.becomes .feedDeadTimeEnd c.powerSettle) ∧
    (∀ r o n d, c.pwr.dead = some (r, o) → c.bestFeed = some n →
      d = ({ c with pwr := { c.pwr with selected := some n, dead := none, lost := false } } : Chip).chanOn n →
      s.becomes .feedDeadTimeEnd
        ((({ d with pwr := { d.pwr with feedSwitches := sat32 d.pwr.feedSwitches 1 } } : Chip).post 0x0C04 r (o + 256 * n)).powerSettle)) ∧
    (∀ r o, c.pwr.dead = some (r, o) → c.bestFeed = none → c.pwr.lost = false →
      s.becomes .feedDeadTimeEnd ((({ c with pwr := { c.pwr with dead := none, lost := true } } : Chip).post 0x0C05 0 0xFF).powerSettle)) ∧
    (c.pwr.pwrfail = true → s.becomes .pwrfailAssert c.powerSettle) ∧ (c.pwr.pwrfail = false → s.becomes .pwrfailRelease c.powerSettle) ∧
    (∀ d, c.pwr.pwrfail = false →
      d = (List.range 14).foldl (fun d n => if isSlotCh n && (d.chan n).conf.shed && ((d.chan n).state == .start || (d.chan n).state == .on)
        then d.gateLow n .shed else d) ((c.setPwr fun p => { p with pwrfail := true, powerFails := sat32 p.powerFails 1 }).bump 35 1) →
      s.becomes .pwrfailAssert (((d.crockPowerFail.lifePowerFail s.fuses.lifecycle).post 0x0C07 0 1).powerSettle)) ∧
    (∀ d, c.pwr.pwrfail = true → (∀ n, n < 14 → (c.chan n).state ≠ .shed) → d = c.setPwr (fun p => { p with pwrfail := false }) →
      s.becomes .pwrfailRelease ((d.crockResume.post 0x0C07 0 0).powerSettle)) ∧
    (∀ isns vsns gate, ∃ t, exec (.adcFrame isns vsns gate) s = .next t ∧ (∃ p, t.chip = { c with pwr := p }) ∧
      t.chip.pwr.adcNext = (c.pwr.adcNext + 1) % 14 ∧
      (∀ n, n < 14 → (t.chip.chan n).iMa = nth 0 isns n % 4096 * (c.chan n).conf.iFs / 4096 ∧ (t.chip.chan n).gate = (c.chan n).gate ∧
        (t.chip.chan n).state = (c.chan n).state ∧ (t.chip.chan n).faultCount = (c.chan n).faultCount) ∧
      (t.chip.chan c.pwr.adcNext).vMv = vsns % 4096 * (c.chan c.pwr.adcNext).conf.vFs / 4096 ∧ (t.chip.chan c.pwr.adcNext).gateCode = gate % 4096)

/-- Chapter 18's frames as a trunk's end receives them. -/
def Obligations.ContractFramesAct : Prop :=
  ∀ (s : State) (n : Fin 4) (c : Chip) (x : TrunkPower), c = s.chip → x = c.tpOf n.val →
    (∀ (b : Bytes) (d : Chip), d = (c.setTp n.val { x with frameErrors := sat32 x.frameErrors 1 }).powerSettle →
      (b.length ≠ 36 → s.becomes (.sbCapsRx n b) d) ∧
      (b.length ≠ 4 → (∀ id, s.becomes (.sbRequestRx n id b) d ∧ s.becomes (.sbFastSwapArmRx n id b) d) ∧ s.becomes (.sbAcceptRx n b) d ∧
        s.becomes (.sbRejectRx n b) d ∧ s.becomes (.sbWaitRx n b) d ∧ s.becomes (.sbReadyRx n b) d) ∧
      (b.length ≠ 32 → s.becomes (.sbCableInfoRx n b) d)) ∧
    ((x.pstate = .hardReset ∨ x.faulted = true) → s.becomes (.sbHardResetRx n) c.powerSettle ∧ (∀ us, s.becomes (.sbFastSwapRx n us) c.powerSettle) ∧
      ∀ id, s.becomes (.sbGetCapsRx n id) c.powerSettle ∧ s.becomes (.sbSwapRoleRx n id) c.powerSettle ∧ s.becomes (.sbSoftResetRx n id) c.powerSettle) ∧
    (x.pstate ≠ .hardReset → x.faulted = false →
      (∀ (b : Bytes) (p : PeerCaps) (d : Chip), b.length = 36 → p = parseCaps b → x.exch = none → x.prole = 0 →
        d = c.setTp n.val { x with peer := some p, deferred := x.deferred.filter fun z => z.1 != 0x03 } →
        (x.bias = true → (d.winsSource n.val (leNat s.fuses.serialLow) p = true → s.becomes (.sbCapsRx n b) d.powerSettle) ∧
          (d.winsSource n.val (leNat s.fuses.serialLow) p = false → s.becomes (.sbCapsRx n b)
            (((d.setTp n.val { x with peer := some p, deferred := x.deferred.filter fun z => z.1 != 0x03, yields := true }).setBias n.val false).powerSettle))) ∧
        (x.bias = false → (x.cfg.noPower = false ∨ bitOf p.cflags 2 = false) → s.becomes (.sbCapsRx n b) d.powerSettle)) ∧
      (∀ (d : Chip) (k : Nat) (p : PeerCaps), (p.prec < d.prec n.val → d.winsSource n.val k p = true) ∧
        (d.prec n.val < p.prec → d.winsSource n.val k p = false) ∧
        (d.prec n.val = p.prec → (d.devRole = 0 ↔ p.devRole = 0) → (d.winsSource n.val k p = true ↔ k < p.serialLow))) ∧
      (∀ (b : Bytes) (p : PeerCaps) (y : TrunkPower) (i v ma op : Nat), b.length = 36 → p = parseCaps b → x.exch = none → x.prole = 2 → x.pstate = .safe →
        x.cableDone = true → x.cfg.noPower = false → y = { x with peer := some p, deferred := x.deferred.filter fun z => z.1 != 0x03 } →
        y.choose = some (i, v, ma, op) →
        s.becomes (.sbCapsRx n b)
          (((c.setTp n.val { y with chooseDue := false, req := some (i, v, ma, op), pstate := .negotiating }).sbAsk n.val 0x03
            (le 1 i ++ zeros 1 ++ le 2 op)).powerSettle)) ∧
      (∀ id d a, x.lastRx = none → a = c.capsBody n.val s.fuses.serialLow → d = c.sbPeer n.val 0x01 a →
        s.becomes (.sbGetCapsRx n id) ((d.setTp n.val { d.tpOf n.val with lastRx := some (0x02, id, some (0x01, a)) }).powerSettle)) ∧
      (∀ id t a, x.lastRx = some (0x02, id, some (t, a)) → s.becomes (.sbGetCapsRx n id) ((c.sbPeer n.val t a).powerSettle)) ∧
      (∀ (b : Bytes) (id i op : Nat) (c1 : Chip) (ans : Chip → Nat × Bytes → Chip), b.length = 4 → i = fld b 0 1 → op = fld b 2 2 → x.lastRx = none →
        c1 = c.setTp n.val { x with capsDue := false, offersChanged := false } →
        (∀ d y, ans d y = (let e := d.sbPeer n.val y.1 y.2; (e.setTp n.val { e.tpOf n.val with lastRx := some (0x03, id, some y) }).powerSettle)) →
        (x.prole ≠ 1 → x.exch = none → s.becomes (.sbRequestRx n id b) ((c.sbAsk n.val 0x0B []).powerSettle)) ∧
        (x.prole = 1 → x.exch = none → x.pstate ≠ .swapping →
          (x.pstate = .transition → s.becomes (.sbRequestRx n id b) (ans c1 (0x05, le 1 0x03 ++ zeros 1 ++ le 2 0x0D0E))) ∧
          (x.pstate ≠ .transition → (5 < i ∨ (nth (0, 0) x.cfg.offers i).1 = 0 ∨ op = 0 ∨ (nth (0, 0) x.cfg.offers i).2 < op) →
            s.becomes (.sbRequestRx n id b) (ans c1 (0x05, le 1 0x03 ++ zeros 1 ++ le 2 0x0D01))) ∧
          (∀ o, o = nth (0, 0) x.cfg.offers i → x.pstate ≠ .transition → i ≤ 5 → o.1 ≠ 0 → 1 ≤ op → op ≤ o.2 →
            ((x.cableLimit.1 < o.1 ∨ x.cableLimit.2 < o.2) →
              s.becomes (.sbRequestRx n id b) (ans c1 (0x05, le 1 0x03 ++ zeros 1 ++ le 2 0x0D02))) ∧
            (o.1 ≤ x.cableLimit.1 → o.2 ≤ x.cableLimit.2 →
              s.becomes (.sbRequestRx n id b)
                (ans (((c1.disarm n.val).contractEnd n.val 0).startTransition n.val o.1 o.2 op) (0x04, le 1 0x03 ++ zeros 3)))))) ∧
      (∀ b : Bytes, b.length = 4 → x.exch = none → s.becomes (.sbAcceptRx n b) ((c.sbAsk n.val 0x0B []).powerSettle) ∧
        s.becomes (.sbRejectRx n b) ((c.sbAsk n.val 0x0B []).powerSettle) ∧ s.becomes (.sbWaitRx n b) ((c.sbAsk n.val 0x0B []).powerSettle)) ∧
      (∀ (b : Bytes) (e : SbExch) (d : Chip), b.length = 4 → x.exch = some e → e.frame.type = fld b 0 1 →
        (∀ i v ma op, fld b 0 1 = 0x03 → x.req = some (i, v, ma, op) → x.handle = none → d = c.setTp n.val { x with exch := none, waits := 0, deferred := none } →
          s.becomes (.sbAcceptRx n b) ((((d.disarm n.val).contractEnd n.val 0).startTransition n.val v ma op).powerSettle)) ∧
        (fld b 0 1 = 0x08 → x.handle = none → d = c.setTp n.val { x with exch := none, waits := 0, deferred := none } →
          s.becomes (.sbAcceptRx n b) ((d.swapStart n.val).powerSettle)) ∧
        (d = c.setTp n.val { x with exch := none, req := none, waits := 0, deferred := none, lastReason := fld b 2 2, pstate := x.base } →
          s.becomes (.sbRejectRx n b) ((d.powerDone n.val 0x0302 (fld b 2 2)).powerSettle)) ∧
        ((x.waits < 2 ∨ x.handle = none) → s.becomes (.sbWaitRx n b)
          ((c.setTp n.val { x with exch := none, waits := x.waits + 1, deferred := some (e.frame.type, e.frame.body) }).powerSettle)) ∧
        (2 ≤ x.waits → x.handle ≠ none → s.becomes (.sbWaitRx n b)
          (((c.setTp n.val { x with exch := none, waits := 0, deferred := none, lastReason := 0x0D09, pstate := x.base }).powerDone n.val 0x0303 0x0D09).powerSettle))) ∧
      (∀ (b : Bytes) (v l op : Nat), b.length = 4 → x.prole = 2 → x.pstate = .transition → x.pend = some (v, l, op) → fld b 0 1 = v →
        s.becomes (.sbReadyRx n b)
          ((((c.contractMake n.val v (fld b 2 2) op (fld b 1 1)).powerDoneIf n.val 1 0 0).autoArm n.val).powerSettle)) ∧
      (∀ id (ans : Chip → Nat × Bytes → Chip), x.lastRx = none → x.exch = none → (x.prole = 1 ∨ x.prole = 2) → x.pstate = .contract →
        (∀ d y, ans d y = (let e := d.sbPeer n.val y.1 y.2; (e.setTp n.val { e.tpOf n.val with lastRx := some (0x08, id, some y) }).powerSettle)) →
        (x.cfg.swapAllow = false → s.becomes (.sbSwapRoleRx n id) (ans c (0x05, le 1 0x08 ++ zeros 1 ++ le 2 0x0D04))) ∧
        (∀ p, x.cfg.swapAllow = true → ((x.prole = 2 ∧ c.localFeedValid = false) ∨ (x.prole = 1 ∧ x.peer = some p ∧ bitOf p.cflags 0 = false)) →
          s.becomes (.sbSwapRoleRx n id) (ans c (0x05, le 1 0x08 ++ zeros 1 ++ le 2 0x0D03))) ∧
        (∀ p, x.cfg.swapAllow = true → ((x.prole = 2 ∧ c.localFeedValid = true) ∨ (x.prole = 1 ∧ x.peer = some p ∧ bitOf p.cflags 0 = true)) →
          s.becomes (.sbSwapRoleRx n id) (ans (c.swapStart n.val) (0x04, le 1 0x08 ++ zeros 3)))) ∧
      (∀ id (b : Bytes) (ans : Chip → Nat × Bytes → Chip), b.length = 4 → x.lastRx = none → x.prole = 1 → x.contractOn = true → x.pstate = .contract →
        (∀ d y, ans d y = (let e := d.sbPeer n.val y.1 y.2; (e.setTp n.val { e.tpOf n.val with lastRx := some (0x09, id, some y) }).powerSettle)) →
        (x.cfg.fsAllow = false → s.becomes (.sbFastSwapArmRx n id b) (ans c (0x05, le 1 0x09 ++ zeros 1 ++ le 2 0x0D04))) ∧
        (x.cfg.fsAllow = true → fld b 0 1 = x.volt → 1 ≤ fld b 2 2 → fld b 2 2 ≤ 5000 → fld b 2 2 ≤ x.cableLimit.2 →
          s.becomes (.sbFastSwapArmRx n id b) (ans (c.setTp n.val { x with armed := true, fsMa := fld b 2 2 }) (0x04, le 1 0x09 ++ zeros 3)))) ∧
      (∀ us d, x.armed = true → x.prole = 1 → d = c.gateLow (2 + n.val) .standby →
        s.becomes (.sbFastSwapRx n us)
          ((((d.setTp n.val { x with
              prole := 2, attach := 2, armed := false, fsDetect := false, sinking := true, contractOn := false,
              pstate := .safe, capsDue := false, cableDone := false }).setBias n.val false).fastSwapPost n.val us).powerSettle)) ∧
      (∀ us, (x.armed = false ∨ x.prole ≠ 1) → x.exch = none → s.becomes (.sbFastSwapRx n us) ((c.sbAsk n.val 0x0B []).powerSettle)) ∧
      (∀ id d e, x.lastRx = none → x.exch = none → d = (c.powerDone n.val 0x0302 0x0D08).softReset n.val → e = d.sbPeer n.val 0x04 (le 1 0x0B ++ zeros 3) →
        s.becomes (.sbSoftResetRx n id) ((e.setTp n.val { e.tpOf n.val with lastRx := some (0x0B, id, some (0x04, le 1 0x0B ++ zeros 3)) }).powerSettle)) ∧
      s.becomes (.sbHardResetRx n) ((c.hardEnter n.val 0x0D07 false).powerSettle) ∧
      (∀ b : Bytes, b.length = 32 → (fld b 0 1 ≠ 1 → s.becomes (.sbCableInfoRx n b) ((c.cableRead n.val false).powerSettle)) ∧
        (fld b 0 1 = 1 → s.becomes (.sbCableInfoRx n b) (((c.setTp n.val { x with cable := b }).cableRead n.val true).powerSettle)))) ∧
    (∀ prole known info, ∃ b : Bytes, s.becomes (.sbCableQueryRx n prole known info) (c.emit (.cableAnswer n.val b)) ∧ b.length = 32 ∧
      fld b 2 1 = b2n known ∧ (known = false → fld b 8 4 = 0) ∧ (known = true → prole = 0 → fld b 8 4 = fld info 8 4))

/-- Chapter 18's rows that are not frames or commands. -/
def Obligations.ContractTimersAct : Prop :=
  ∀ (s : State) (n : Fin 4) (c : Chip) (x : TrunkPower), c = s.chip → x = c.tpOf n.val →
    (x.pstate ≠ .hardReset → x.faulted = false → x.prole = 0 →
      (x.bias = true → s.becomes (.attachDetected n) ((c.becomeSource n.val).powerSettle) ∧ s.becomes (.sourceSeen n) c.powerSettle) ∧
      (x.bias = false → s.becomes (.attachDetected n) c.powerSettle ∧ ∀ d, d = c.setTp n.val { x with
          prole := 2, attach := 2, pstate := .safe, volt := 1, limit := 500, op := 500, cableDone := false, chooseDue := false } →
        s.becomes (.sourceSeen n) ((((d.trunkLimits n.val 500 12000 12000 110).postAttach n.val true).sbAsk n.val 0x02 []).powerSettle)) ∧
      (x.pstate = .detached → s.becomes (.getCapsTimer n) (((c.setTp n.val { x with attach := 3 }).sbAsk n.val 0x02 []).powerSettle))) ∧
    (x.prole ≠ 0 → s.becomes (.attachDetected n) c.powerSettle ∧ s.becomes (.sourceSeen n) c.powerSettle ∧ s.becomes (.getCapsTimer n) c.powerSettle) ∧
    (x.prole = 0 → x.peer = none → x.attach = 0 → s.becomes (.sidebandDetach n) c.powerSettle) ∧
    (x.prole ≠ 0 → ∀ d e, d = ((c.disarm n.val).trunkOff n.val).contractEnd n.val 0x0D06 → e = ((d.powerDone n.val 0x0302 0x0D06).vsel n.val 0).cableReply n.val →
      s.becomes (.sidebandDetach n)
        ((((e.setTp n.val (e.tpOf n.val).open).postAttach n.val false).lanesDetach n.val 0x0401).powerSettle) ∧
      (e.tpOf n.val).open.prole = 0 ∧ (e.tpOf n.val).open.contractOn = false ∧ (e.tpOf n.val).open.armed = false) ∧
    (x.prole = 1 → x.capsDue = true → x.pstate = .safe → x.faulted = false → (c.chan (2 + n.val)).state = .on → ∀ d e,
      d = c.setTp n.val { x with capsSent := x.capsSent + 1, pstate := .negotiating } → e = d.sbPeer n.val 0x01 (d.capsBody n.val s.fuses.serialLow) →
      (x.capsSent ≠ 19 → s.becomes (.capsTxTimer n) e.powerSettle) ∧
      (x.capsSent = 19 → s.becomes (.capsTxTimer n)
        (((e.setTp n.val { e.tpOf n.val with lastReason := 0x0D09 }).post 0x0D03 0x0D09 n.val).powerSettle))) ∧
    ((x.prole ≠ 1 ∨ x.capsDue = false) → s.becomes (.capsTxTimer n) c.powerSettle) ∧
    s.becomes (.sidebandFrameBad n) (c.setTp n.val { x with frameErrors := sat32 x.frameErrors 1 }) ∧
    (∀ f, x.lastTx = some f → s.becomes (.sidebandCollision n)
      ((c.setTp n.val { x with frameErrors := sat32 x.frameErrors 1 }).emit (sbOut n.val f.marker f.type f.id f.body))) ∧
    (x.exch = none → s.becomes (.sidebandRetryTimer n false) c.powerSettle) ∧
    (∀ e, x.exch = some e →
      (e.tries < 3 → s.becomes (.sidebandRetryTimer n false)
        (((c.setTp n.val { x with exch := some { e with tries := e.tries + 1 } }).emit
          (sbOut n.val false e.frame.type e.frame.id e.frame.body)).powerSettle)) ∧
      (3 ≤ e.tries → s.becomes (.sidebandRetryTimer n false) ((c.noResponse n.val e).powerSettle))) ∧
    (∀ e, x.cableExch = some e → 3 ≤ e.tries → s.becomes (.sidebandRetryTimer n true) ((c.cableRead n.val false).powerSettle)) ∧
    (x.prole ≠ 0 → x.pstate ≠ .hardReset → x.pstate ≠ .swapping → x.faulted = false →
      s.becomes (.cableQueryTimer n) ((c.sbCableQuery n.val).powerSettle)) ∧
    (x.prole = 0 → s.becomes (.cableQueryTimer n) c.powerSettle) ∧
    (x.pend = none → s.becomes (.voltageSettled n) c.powerSettle) ∧
    (∀ v l op k, x.pend = some (v, l, op) → x.prole = 1 → x.pstate = .transition → 0 < op → k = (x.cid + 1) % 256 →
      s.becomes (.voltageSettled n) (((c.sbPeer n.val 0x07 (le 1 v ++ le 1 k ++ le 2 l)).contractMake n.val v l op k).powerSettle)) ∧
    (∀ (d : Chip) (y : TrunkPower) (v l op k : Nat), y = (d.contractMake n.val v l op k).tpOf n.val → (d.tpOf n.val).prole = 1 →
      y.contractOn = true ∧ y.pstate = .contract ∧ y.volt = v ∧ y.limit = l ∧ y.op = op ∧ y.cid = k ∧ y.prole = 1 ∧ y.pend = none) ∧
    ((x.pstate = .transition ∨ x.pstate = .swapping) → s.becomes (.transitionTimeout n false) ((c.hardSend n.val 0x0D05).powerSettle)) ∧
    (x.pstate = .transition → s.becomes (.transitionTimeout n true) ((c.hardSend n.val 0x0D0B).powerSettle)) ∧
    (x.pstate ≠ .transition → x.pstate ≠ .swapping → ∀ o, s.becomes (.transitionTimeout n o) c.powerSettle) ∧
    ((c.chan (2 + n.val)).tripPending = none → s.becomes (.trunkTripConfirm n) c.powerSettle) ∧
    (∀ k d, (c.chan (2 + n.val)).tripPending = some k →
      d = (c.setChan (2 + n.val) { c.chan (2 + n.val) with tripPending := none }).recordTrip (2 + n.val) k false →
      (x.prole = 0 → s.becomes (.trunkTripConfirm n) d.powerSettle) ∧
      (x.prole ≠ 0 → x.pstate ≠ .hardReset → x.faulted = false → s.becomes (.trunkTripConfirm n) ((d.hardSend n.val 0x0D0A).powerSettle))) ∧
    (x.pstate ≠ .hardReset → s.becomes (.hardResetRecovery n) c.powerSettle) ∧
    (∀ d, x.pstate = .hardReset → d = c.setTp n.val { x.open with attach := 3 } →
      (x.faulted = true → s.becomes (.hardResetRecovery n) (((d.setBias n.val false).powerDone n.val 0x0302 0x0D0F).powerSettle)) ∧
      (x.faulted = false → s.becomes (.hardResetRecovery n) ((d.setBias n.val (d.wantsBias n.val)).powerSettle))) ∧
    (x.offersChanged = true → x.prole = 1 → x.pstate = .contract →
      s.becomes (.requestWaitTimeout n) ((((c.disarm n.val).contractEnd n.val 0x0D09).startTransition n.val 1 500 0).powerSettle)) ∧
    (x.offersChanged = false → s.becomes (.requestWaitTimeout n) c.powerSettle) ∧
    (x.deferred = none → s.becomes (.waitDelayExpiry n) c.powerSettle) ∧
    (∀ t b d, x.deferred = some (t, b) → x.pstate ≠ .hardReset → x.faulted = false → d = c.sbAsk n.val t b →
      s.becomes (.waitDelayExpiry n) ((d.setTp n.val { d.tpOf n.val with waits := x.waits }).powerSettle)) ∧
    (∀ d, x.pstate = .swapping → x.swap = 1 → d = c.sbPeer n.val 0x07 (le 1 0 ++ le 1 x.cid ++ le 2 0) →
      s.becomes (.lineDischarged n)
        (((d.setTp n.val { d.tpOf n.val with volt := 0, limit := 0, op := 0, prole := 2, attach := 2, swap := 3 }).setBias n.val false).powerSettle)) ∧
    (x.swap ≠ 1 → s.becomes (.lineDischarged n) c.powerSettle) ∧
    (x.armed = true → x.pstate = .contract →
      (x.prole = 1 → s.becomes (.fastSwapDetect n) (((c.setTp n.val { x with fsDetect := true }).gateLow (2 + n.val) .standby).powerSettle)) ∧
      (x.prole ≠ 1 → s.becomes (.fastSwapDetect n) ((c.setTp n.val { x with fsDetect := true }).powerSettle))) ∧
    (x.armed = false → s.becomes (.fastSwapDetect n) c.powerSettle ∧ ∀ us, s.becomes (.fastSwapTakeover n us) c.powerSettle) ∧
    (∀ us d e, x.armed = true → x.fsDetect = true → x.prole = 2 → (c.chan (2 + n.val)).state ≠ .damaged → c.pwr.selected ≠ some (2 + n.val) →
      d = c.trunkLimits n.val x.fsMa (voltMv x.volt) (voltMv x.volt) 110 →
      e = (d.setTp n.val { x with
        prole := 1, attach := 1, armed := false, fsDetect := false, sinking := false, contractOn := false, pstate := .safe,
        limit := x.fsMa, capsDue := true, capsSent := 0, cableDone := false }).chanOn (2 + n.val) →
      s.becomes (.fastSwapTakeover n us) ((((e.sbPeer n.val 0x0A []).setBias n.val true).fastSwapPost n.val us).powerSettle))

/-- Commands 0x0C01 to 0x0C04 and 0x0D01 to 0x0D04. -/
def Obligations.PowerCommandsAct : Prop :=
  ∀ (s : State) (p : Packet) (c : Chip) (x : Ctx) (b : Bytes) (n : Nat), b = p.params → n = fld b 0 1 →
    (∀ k, s.heard 0x0C01 p c → k = chanCfgOf b → n ≤ 13 → fld b 1 1 ≤ 7 → rsvd b 3 1 = true → k.ranges = true →
      (isTrunkCh n = false → k.limits n = false → s.becomes (.pwrChannelSet p) (c.refused p 0x0104 0x0C01)) ∧
      ((isTrunkCh n = true ∨ k.limits n = true) →
        (bitOf (fld b 1 1) 2 = false → s.becomes (.pwrChannelSet p) (((c.applyChan n k).powerSettle).replied p)) ∧
        (bitOf (fld b 1 1) 2 = true → s.becomes (.pwrChannelSet p)
          ((((c.applyChan n k).storeConfig fun z => { z with channels := z.channels.set n k }).powerSettle).replied p)))) ∧
    (∀ k op, s.heard 0x0C02 p c → k = c.chan n → op = fld b 1 1 → n ≤ 13 → rsvd b 2 2 = true →
      (op ≤ 1 → isTrunkCh n = true → s.becomes (.pwrChannelCtrl p) (c.refused p 0x0204 0x0C02)) ∧
      (op = 1 → isTrunkCh n = false → k.state = .damaged → s.becomes (.pwrChannelCtrl p) (c.refused p 0x0204 0x0C03)) ∧
      (op = 1 → isTrunkCh n = false → k.state ≠ .damaged → k.conf.iFs = 0 → s.becomes (.pwrChannelCtrl p) (c.refused p 0x0204 0x0C08)) ∧
      (op = 0 → isTrunkCh n = false → k.state ≠ .damaged →
        s.becomes (.pwrChannelCtrl p) ((((c.setChan n { k with admin := false }).chanDown n .off).powerSettle).replied p)) ∧
      (op = 1 → isTrunkCh n = false → k.state = .off → k.conf.iFs ≠ 0 →
        s.becomes (.pwrChannelCtrl p) ((((c.setChan n { k with admin := true }).proceed n).powerSettle).replied p)) ∧
      (op = 1 → isTrunkCh n = false → k.state ≠ .off → k.state ≠ .damaged → k.conf.iFs ≠ 0 →
        s.becomes (.pwrChannelCtrl p) (((c.setChan n { k with admin := true }).powerSettle).replied p)) ∧
      (op = 2 → (k.state = .latched ∨ k.state = .damaged) →
        s.becomes (.pwrChannelCtrl p) ((((c.setChan n { k with faultCount := 0 }).proceed n).powerSettle).replied p)) ∧
      (op = 2 → k.state ≠ .latched → k.state ≠ .damaged →
        s.becomes (.pwrChannelCtrl p) (((c.setChan n { k with faultCount := 0 }).powerSettle).replied p))) ∧
    (∀ f : FeedCfg, s.heard 0x0C03 p c → (∀ i, i < 6 → fld b i 1 ≤ 15) → 2 ≤ fld b 6 1 → fld b 6 1 ≤ 50 → fld b 7 1 ≤ 3 → 1 ≤ fld b 8 2 → fld b 8 2 ≤ 1000 →
      10 ≤ fld b 10 2 → fld b 10 2 ≤ 60000 → fld b 12 2 ≤ 1000 → 10 ≤ fld b 14 2 → fld b 14 2 ≤ 1000 →
      f = { prio := (sliceB b 0 6).map BitVec.toNat, deadUs := fld b 6 1, revert := bitOf (fld b 7 1) 0, validMs := fld b 8 2,
            restoreMs := fld b 10 2, staggerMs := fld b 12 2, presenceMs := fld b 14 2 } →
      (bitOf (fld b 7 1) 1 = false → s.becomes (.pwrFeedSet p) (((c.applyFeed f).powerSettle).replied p)) ∧
      (bitOf (fld b 7 1) 1 = true →
        s.becomes (.pwrFeedSet p) ((((c.applyFeed f).storeConfig fun z => { z with feed := some f }).powerSettle).replied p))) ∧
    (s.heard 0x0C04 p c → c.roomFor p 240 → ∃ d, d.length = 240 ∧ s.becomes (.pwrStatus p) (c.replied p d) ∧
      fld d 0 1 = c.pwr.selected.getD 0xFF % 256 ∧ fld d 1 1 = b2n c.pwr.pwrfail + 2 * b2n c.pwr.lost ∧
      ∀ i, i < 14 → sliceB d (16 + 16 * i) 16 = c.chanRecord i ∧ fld d (16 + 16 * i) 1 = (c.chan i).state.code ∧
        fld d (18 + 16 * i) 1 = (c.chan i).faultCount % 256 ∧ fld d (19 + 16 * i) 1 = (c.chan i).cause % 256) ∧
    (∀ (t : TrunkPower) (k : TPowerCfg) (ob : Bytes) (scale pf : Nat), s.heard 0x0D01 p c → t = c.tpOf n → ob = sliceB b 8 24 → pf = fld b 1 1 →
      scale = (c.chan (2 + n)).conf.iFs * 100 / (c.chan (2 + n)).conf.severePct → n ≤ 3 → pf ≤ 63 → fld b 2 1 ≤ 15 → rsvd b 3 5 = true →
      offersOk ob = true → fld b 32 1 ≤ 7 → rsvd b 33 1 = true → 1 ≤ fld b 34 2 → fld b 34 2 ≤ 5000 → 1 ≤ fld b 36 2 → fld b 36 2 ≤ 5000 → rsvd b 38 2 = true →
      k = { srcEn := bitOf pf 0, sinkEn := bitOf pf 1, swapAllow := bitOf pf 2, fsAllow := bitOf pf 3, noPower := bitOf pf 4, prec := some (fld b 2 1),
            offers := offersOf ob, sinkVolts := fld b 32 1, sinkMa := fld b 34 2, fsMa := fld b 36 2 } →
      ((∃ o ∈ offersOf ob, o.1 ≠ 0 ∧ scale < o.2) → s.becomes (.trunkPowerSet p) (c.refused p 0x0104 0x0C01)) ∧
      ((∀ o ∈ offersOf ob, o.1 = 0 ∨ o.2 ≤ scale) → bitOf pf 5 = true → (offersOf ob = t.cfg.offers ∨ t.prole ≠ 1) →
        s.becomes (.trunkPowerSet p)
          ((((c.setTp n { t with cfg := k }).storeConfig fun z => { z with tpower := z.tpower.set n k }).powerSettle).replied p)) ∧
      ((∀ o ∈ offersOf ob, o.1 = 0 ∨ o.2 ≤ scale) → bitOf pf 5 = false →
        ((offersOf ob = t.cfg.offers ∨ t.prole ≠ 1) → s.becomes (.trunkPowerSet p) (((c.setTp n { t with cfg := k }).powerSettle).replied p)) ∧
        (∀ d, offersOf ob ≠ t.cfg.offers → t.prole = 1 → t.pstate ≠ .hardReset → t.faulted = false →
          d = c.setTp n { t with cfg := k, offersChanged := t.contractOn } →
          s.becomes (.trunkPowerSet p) (((d.sbPeer n 0x01 (d.capsBody n s.fuses.serialLow)).powerSettle).replied p)))) ∧
    (∀ t op, s.heard 0x0D02 p c → x = s.ctxOf 0x0D02 p c → t = c.tpOf n → op = fld b 1 1 → n ≤ 3 → 1 ≤ op → op ≤ 7 → rsvd b 2 6 = true →
      (t.faulted = true → op ≠ 7 → s.becomes (.trunkPowerOp p) (c.refused p 0x0204 0x0D0F)) ∧
      (t.faulted = false → op = 7 → s.becomes (.trunkPowerOp p) (c.refused p 0x0204 0x0D0D)) ∧
      (t.faulted = false → op ≠ 7 → c.peerThere n = false → t.pstate ≠ .hardReset → s.becomes (.trunkPowerOp p) (c.refused p 0x0204 0x0D0D)) ∧
      (t.faulted = false → (op = 1 ∨ op = 5) → t.prole ≠ 2 → s.becomes (.trunkPowerOp p) (c.refused p 0x0204 0x0D0D)) ∧
      (t.faulted = false → c.peerThere n = true → op ≠ 7 → ((op ≠ 1 ∧ op ≠ 5) ∨ t.prole = 2) →
        (∀ h o, t.handle = some (h, o) → s.becomes (.trunkPowerOp p) (c.refused p 0x0202 0 h)) ∧
        (t.handle = none → c.recordFree (c.issuer p.sess).1 = true → ∀ d, d = c.setTp n { t with handle := some (x.handle, op) } →
          (op = 4 → s.becomes (.trunkPowerOp p) ((((d.hardSend n 0x0D07).powerSettle).accepts p x).commitPoint x.handle)) ∧
          (op = 6 → s.becomes (.trunkPowerOp p) ((((c.disarm n).powerSettle).accepts p x).complete x.handle 0 0 0)) ∧
          (t.pstate ≠ .transition → t.pstate ≠ .swapping → t.pstate ≠ .hardReset →
            (op = 2 → s.becomes (.trunkPowerOp p) (((d.sbAsk n 0x08 []).powerSettle).accepts p x)) ∧
            (op = 3 → s.becomes (.trunkPowerOp p) (((d.sbAsk n 0x0B []).powerSettle).accepts p x)) ∧
            (op = 5 → t.cfg.fsAllow = true → c.localFeedValid = true →
              s.becomes (.trunkPowerOp p) (((d.autoArm n).powerSettle).accepts p x)) ∧
            (op = 1 → t.peer = none → s.becomes (.trunkPowerOp p) (((d.sbAsk n 0x02 []).powerSettle).accepts p x))) ∧
          (op ≤ 3 → (t.pstate = .transition ∨ t.pstate = .swapping ∨ t.pstate = .hardReset) →
            s.becomes (.trunkPowerOp p) (c.refused p 0x0204 0x0D0E)))) ∧
      (t.faulted = true → op = 7 → t.handle = none → c.recordFree (c.issuer p.sess).1 = true →
        s.becomes (.trunkPowerOp p)
          ((((c.setTp n { t.open with faulted := false, hardTimes := [], pstate := .detached }).powerSettle).accepts p x).complete x.handle 0 0 0))) ∧
    (∀ t, s.heard 0x0D03 p c → t = c.tpOf n → n ≤ 3 → rsvd b 1 3 = true → c.roomFor p 64 → ∃ d, d.length = 64 ∧
      s.becomes (.trunkPowerStatus p) (c.replied p d) ∧ fld d 0 1 = n ∧ fld d 2 1 = t.prole % 256 ∧ fld d 3 1 = t.pstate.code ∧
      fld d 4 1 = t.volt % 256 ∧ fld d 8 2 = t.limit % 65536 ∧ fld d 10 2 = t.op % 65536 ∧ fld d 48 4 = t.contracts % 2 ^ 32 ∧
      fld d 52 4 = t.hardResets % 2 ^ 32 ∧ fld d 56 4 = t.fastSwaps % 2 ^ 32 ∧ fld d 60 4 = t.frameErrors % 2 ^ 32) ∧
    (∀ t d, s.heard 0x0D04 p c → t = c.tpOf n → n ≤ 3 → rsvd b 2 2 = true → c.roomFor p 36 →
      d = le 1 n ++ le 1 (b2n t.cableValid) ++ zeros 2 ++ sliceB t.cable 0 32 →
      ((fld b 1 1 = 0 ∨ (fld b 1 1 = 1 ∧ t.prole = 0)) → s.becomes (.cableGet p) (c.replied p d)) ∧
      (fld b 1 1 = 1 → t.prole ≠ 0 → t.pstate ≠ .hardReset → t.faulted = false →
        s.becomes (.cableGet p)
          ((c.sbCableQuery n).setTp n { (c.sbCableQuery n).tpOf n with cableDue := ((c.sbCableQuery n).tpOf n).cableDue ++ [(p.sess, p.tag.toNat)] }))) ∧
    (∀ (e : Chip) (y : TrunkPower), y = e.tpOf n → ∀ ses t, y.cableDue = [(ses, t)] →
      ∀ a : Reply, a = { sess := ses, status := 0, tag := t, data := le 1 n ++ le 1 (b2n y.cableValid) ++ zeros 2 ++ sliceB y.cable 0 32 } →
        e.cableReply n = (e.setTp n { y with cableDue := [] }).postReply a)

/-- Commands 0x0E01 to 0x0E12. `sv` is RESULT with the service indicator, `lg` says that a command that needs a login may run, `mine` that
slot `i` is filled and the issuer's, `free` that slot `i` can be filled for VI `v`, and `put` is a slot's filling. -/
def Obligations.KeyCommandsAct : Prop :=
  ∀ (s : State) (p : Packet) (c : Chip) (b : Bytes) (i iss lvl : Nat) (sv : Nat → Nat) (lg : Prop) (mine : Nat → KeySlot → Prop)
    (free : Nat → Prop) (put : Nat → Nat → Nat → Bytes → Bytes → Nat → Chip),
    b = p.params → i = fld b 0 1 → iss = (c.issuer p.sess).1 → lvl = (c.issuer p.sess).2 →
    (∀ r, sv r = if c.approved then setBit r 31 true else r) →
    lg = (c.approved = false ∨ c.keys.logged.contains p.sess.key = true) →
    (∀ j k, mine j k = (c.keyRestoring j = false ∧ c.kslot j = some k ∧ (lvl = 1 ∨ k.owner = iss))) →
    (∀ v, free v = (c.keys.zeroizeL = false ∧ c.keyRestoring i = false ∧ c.kslot i = none ∧ (i < 16 → v = 0) ∧
      (16 ≤ i → c.keyUsed v < c.keyGrant v))) →
    (∀ v a o key l par, put v a o key l par =
      (let y : KeySlot := { attr := a % 2 ^ 21 + o * 2 ^ 21 + bitsOf a 23 3 * 2 ^ 23 + v * 2 ^ 26, key, label := sliceB l 0 16, parent := par }
       let d := c.setKeys fun k => { k with slots := k.slots.set i y }
       if bitOf a 19 then d.storeSlot i else d)) →
    (∀ op i, (op, i) ∈ [(0x0E02, Instr.keyGenerate p), (0x0E03, .keyDerive p), (0x0E04, .keyLoadClear p), (0x0E05, .keyImport p),
        (0x0E06, .keyExport p), (0x0E07, .keyZeroize p), (0x0E08, .keySetAttr p), (0x0E0B, .keyLifecycle p), (0x0E0C, .idcertWrite p),
        (0x0E0D, .anchorSet p), (0x0E0E, .sealSet p), (0x0E0F, .rekey p), (0x0E11, .cryptoOp p), (0x0E12, .cryptoResult p)] →
      s.heard op p c → c.approved = true → c.keys.logged.contains p.sess.key = false → s.becomes i (c.refused p 0x0201 0x0E07)) ∧
    (s.heard 0x0E01 p c → rsvd b 2 2 = true →
      (∀ x, x = s.ctxOf 0x0E01 p c → i = 0 → c.roomFor p 180 → s.becomes (.keyStatus p) (c.replied p (c.keySummary x) (sv 0))) ∧
      (i = 1 → lvl ≠ 3 → c.keyRestoring (fld b 1 1) = false → c.roomFor p 32 →
        (c.kslot (fld b 1 1) = none → s.becomes (.keyStatus p) (c.replied p (zeros 32) (sv 0))) ∧
        (∀ k, mine (fld b 1 1) k →
          s.becomes (.keyStatus p) (c.replied p (le 4 k.attr ++ sliceB k.label 0 16 ++ le 4 k.gen ++ zeros 8) (sv 0))) ∧
        (∀ k, c.kslot (fld b 1 1) = some k → lvl ≠ 1 → k.owner ≠ iss → s.becomes (.keyStatus p) (c.refused p 0x0201 0x0002)))) ∧
    (∀ v a ty, v = (if lvl = 2 then iss else fld b 1 1) → a = fld b 4 4 → ty = bitsOf a 23 3 → lg → attrReserved a = false → v ≤ 63 →
      (rsvd b 2 2 = true → c.keys.zeroizeL = true → s.heard 0x0E02 p c → s.becomes (.keyGenerate p) (c.refused p 0x0204 0x0E0E)) ∧
      (rsvd b 2 2 = true → c.keys.zeroizeL = false → c.keyRestoring i = false → c.kslot i ≠ none → s.heard 0x0E02 p c →
        s.becomes (.keyGenerate p) (c.refused p 0x0204 0x0E01)) ∧
      (∀ key, rsvd b 2 2 = true → free v → attrOk a = true → ty ≠ 5 → s.heard 0x0E02 p c →
        key = (if ty ≤ 2 then c.freshBytes (keyLen ty) else p384Scalar (c.freshBytes 56)) →
        (3 ≤ ty → Config.pairwisePass c.clk.fresh = false →
          s.becomes (.keyGenerate p) ((c.nextFresh.lockdown 0x010B).refused p 0x0F01 0x010B)) ∧
        ((ty ≤ 2 ∨ Config.pairwisePass c.clk.fresh = true) → (bitOf a 17 = true → c.loginTaken v = false) → (bitOf a 19 = true → c.storeReady = true) →
          s.becomes (.keyGenerate p) (((put v a 0 key (sliceB b 8 16) 0xFFFF).nextFresh).replied p [] (sv 0)))) ∧
      (free v → attrOk a = true → ty ≠ 5 → s.heard 0x0E03 p c → ∀ x, x = s.ctxOf 0x0E03 p c →
        (∀ e, c.parentFor x (fld b 2 2) v = .error e → e.1 ≠ 1 → s.becomes (.keyDerive p) (c.refused p e.1 e.2)) ∧
        (∀ ki, c.parentFor x (fld b 2 2) v = .ok ki → (bitOf a 17 = true → c.loginTaken v = false) → (bitOf a 19 = true → c.storeReady = true) →
          s.becomes (.keyDerive p)
            ((put v a 1 (c.deriveKey ki (sliceB b 8 16) v ty (bitOf a 18)) (sliceB b 8 16) (fld b 2 2)).replied p [] (sv 0)))) ∧
      (s.heard 0x0E04 p c → (p.sess == .usb && c.approved) = true → s.becomes (.keyLoadClear p) (c.refused p 0x0201 0x0E06)) ∧
      (s.heard 0x0E04 p c → (p.sess == .usb && c.approved) = false →
        (s.fuses.lifecycle = 3 → s.becomes (.keyLoadClear p) (c.refused p 0x0204 0x0E0A)) ∧
        (s.fuses.lifecycle ≠ 3 → rsvd b 2 2 = true → free v → attrOk a = true → b.length ≠ 24 + keyLen ty →
          s.becomes (.keyLoadClear p) (c.refused p 0x0104 0x0E05)) ∧
        (s.fuses.lifecycle ≠ 3 → rsvd b 2 2 = true → free v → attrOk a = true → b.length = 24 + keyLen ty →
          (bitOf a 17 = true → c.loginTaken v = false) → (bitOf a 19 = true → c.storeReady = true) →
          s.becomes (.keyLoadClear p) ((put v a 2 (b.drop 24) (sliceB b 8 16) 0xFFFF).replied p [] (sv 0))))) ∧
    (∀ (x : Ctx) (d : Chip) (f pr : Nat), x = s.ctxOf 0x0E03 p c → d = c → f = s.fuses.lifecycle →
      (pr = 0xFFFF → (f = 1 ∨ f = 2) → d.parentFor x pr 0 = .ok Config.rootSecret) ∧
      (pr = 0xFFFF → f ≠ 1 → f ≠ 2 → d.parentFor x pr 0 = .error (0x0204, 0x0E0A)) ∧
      (∀ k v, pr < 256 → mine pr k → k.owner = v → k.ty ≠ 4 →
        d.parentFor x pr v = if k.use 3 then .ok k.key else .error (0x0201, 0x0E04))) ∧
    (∀ v q w g, v = (if lvl = 2 then iss else 0) → lg → s.heard 0x0E05 p c → rsvd b 2 6 = true → free v → mine (fld b 1 1) q → q.owner = v →
      q.use 4 = true → w = sliceB b 48 136 →
      ((fld b 8 4 ≠ 0x4B534C42 ∨ fld b 13 1 ≠ 2 ∨ Config.kwUnwrap q.key w = none) → s.becomes (.keyImport p) (c.refused p 0x0301 0x0E0C)) ∧
      (fld b 8 4 = 0x4B534C42 → fld b 13 1 = 2 → Config.kwUnwrap q.key w = some g → ∀ k, k = slotOfPlain g → attrOk k.attr = true →
        (bitOf k.attr 17 = true → c.loginTaken v = false) → (bitOf k.attr 19 = true → c.storeReady = true) →
        s.becomes (.keyImport p) ((put v k.attr k.origin k.key k.label k.parent).replied p [] (sv 0)))) ∧
    (∀ k, mine i k → lg →
      (∀ q, s.heard 0x0E06 p c → rsvd b 2 2 = true → mine (fld b 1 1) q →
        (k.locked = true → s.becomes (.keyExport p) (c.refused p 0x0204 0x0E03)) ∧
        (k.locked = false → q.owner = k.owner → q.use 4 = false → s.becomes (.keyExport p) (c.refused p 0x0201 0x0E04)) ∧
        (k.locked = false → q.owner = k.owner → q.use 4 = true → c.roomFor p 176 →
          s.becomes (.keyExport p) (c.replied p (k.blob i 2 k.gen q.key) (sv 0)))) ∧
      (s.heard 0x0E07 p c → rsvd b 2 2 = true →
        (fld b 1 1 = 0 → s.becomes (.keyZeroize p) (((c.zeroizeSlots fun j _ => j == i).postZeroized 0x010F 0 i).replied p [] (sv 0))) ∧
        (fld b 1 1 = 1 → s.becomes (.keyZeroize p) ((c.zeroizeOwner k.owner 0x010F i).replied p [] (sv 0)))) ∧
      (∀ t pe a, s.heard 0x0E08 p c → t = fld b 1 1 → t ≤ 7 → rsvd b 2 6 = true → c.storeReady = true →
        pe = (if bitOf t 2 then bitOf t 1 else k.persist) → a = setBit (setBit k.attr 20 (k.locked || bitOf t 0)) 19 pe → ∀ d,
        d = c.setKeys (fun y => { y with slots := y.slots.set i { k with attr := a } }) →
        (a = k.attr → s.becomes (.keySetAttr p) (d.replied p [] (sv 0))) ∧
        (a ≠ k.attr → pe = true → s.becomes (.keySetAttr p) ((d.storeSlot i).replied p [] (sv 0))) ∧
        (a ≠ k.attr → pe = false → k.persist = true →
          s.becomes (.keySetAttr p) (({ d with csys := { d.csys with blobs := d.csys.blobs.erase i } }).replied p [] (sv 0))))) ∧
    (lg → s.heard 0x0E07 p c → rsvd b 2 2 = true → (fld b 1 1 = 2 ∨ fld b 1 1 = 3) →
      (lvl ≠ 1 → s.becomes (.keyZeroize p) (c.refused p 0x0201 0x0002)) ∧
      (lvl = 1 → s.becomes (.keyZeroize p) ((c.zeroizeAll (fld b 1 1 = 3) false 0x010F i).replied p [] (sv 0)))) ∧
    (s.heard 0x0E09 p c → c.roomFor p 48 → ∀ n, n = c.freshBytes 48 →
      s.becomes (.keyChallenge p) (((c.setKeys fun k => { k with nonces := k.nonces.set p.sess.key n }).nextFresh).replied p n (sv 0))) ∧
    (s.heard 0x0E0A p c →
      (c.keys.lockout.contains iss = true → s.becomes (.keyLogin p) (c.refused p 0x0201 0x0E08)) ∧
      (c.keys.lockout.contains iss = false → ∀ (v j : Nat) (k : KeySlot) (d : Chip), v = (if lvl = 2 then iss else 0) →
        d = c.setKeys (fun y => { y with nonces := y.nonces.erase p.sess.key }) →
        (c.keys.slots.find? (fun e => e.2.owner == v && e.2.login) = none → s.becomes (.keyLogin p) (d.refused p 0x0204 0x0E02)) ∧
        (c.keys.slots.find? (fun e => e.2.owner == v && e.2.login) = some (j, k) → ∀ m, m = c.keys.fails.get 0 iss + 1 →
          (∀ n, c.keys.nonces.find p.sess.key = some n → sliceB b 0 48 = sliceB (Config.hmac384 k.key (n ++ le 1 iss)) 0 48 →
            s.becomes (.keyLogin p) ((d.setKeys fun y =>
              { y with logged := insertSorted p.sess.key y.logged, fails := y.fails.set iss 0 }).replied p [] (sv 0))) ∧
          ((∀ n, c.keys.nonces.find p.sess.key = some n → sliceB b 0 48 ≠ sliceB (Config.hmac384 k.key (n ++ le 1 iss)) 0 48) →
            (m < 8 → s.becomes (.keyLogin p) ((d.setKeys fun y => { y with fails := y.fails.set iss m }).refused p 0x0201 0x0E09)) ∧
            (8 ≤ m → s.becomes (.keyLogin p) ((d.setKeys fun y =>
              { y with fails := y.fails.set iss 0, lockout := insertSorted iss y.lockout }).refused p 0x0201 0x0E09)))))) ∧
    (lg → ∀ x, s.heard 0x0E0B p c → x = s.ctxOf 0x0E0B p c → 1 ≤ i → i ≤ 5 → fld b 4 4 = 0x4C435943 → rsvd b 1 3 = true →
      (∀ h o, c.keys.lifeOp = some (h, o) → s.becomes (.keyLifecycle p) (c.refused p 0x0202 0 h)) ∧
      (c.keys.lifeOp = none → i ≤ 3 → s.fuses.lifecycle + 1 ≠ i → s.becomes (.keyLifecycle p) (c.refused p 0x0204 0x0E0A)) ∧
      (c.keys.lifeOp = none → (i ≤ 3 → s.fuses.lifecycle + 1 = i) → c.recordFree iss = true →
        s.becomes (.keyLifecycle p) ((c.setKeys fun k => { k with lifeOp := some (x.handle, i) }).accepts p x))) ∧
    (lg → ∀ x off data, s.heard 0x0E0C p c → x = s.ctxOf 0x0E0C p c → off = fld b 0 4 → data = b.drop 8 → rsvd b 4 4 = true →
      (s.fuses.lifecycle ≠ 1 → s.becomes (.idcertWrite p) (c.refused p 0x0204 0x0E0A)) ∧
      (s.fuses.lifecycle = 1 → (c.keys.certOwner = none ∨ c.keys.certOwner = some p.sess) → off + data.length ≤ 65536 →
        (off = 0 ∨ (c.keys.certOwner ≠ none ∧ off = c.keys.certStaged)) → c.gkCommand x 1 (0x20010000 + off) data.length = (c, true) →
        s.becomes (.idcertWrite p)
          (({ c with
              flash := { c.flash with idcert := (if off = 0 then [] else c.flash.idcert) ++ data },
              keys := { c.keys with certOwner := some p.sess, certStaged := off + data.length } }).replied p [] (sv 0)))) ∧
    (lg → ∀ (f : Nat) (g : Tab Bytes → Tab Bytes) (d : Chip), s.heard 0x0E0D p c → f = fld b 1 1 → i ≤ 7 → f ≤ 3 → rsvd b 2 2 = true →
      (∀ t, g t = if bitOf f 0 then t.set i (sliceB b 4 48) else t.erase i) → d = c.setKeys (fun k => { k with anchors := g k.anchors }) →
      (f < 2 → s.becomes (.anchorSet p) (d.replied p [] (sv 0))) ∧
      (2 ≤ f → s.becomes (.anchorSet p) ((d.storeConfig fun k => { k with anchors := g k.anchors }).replied p [] (sv 0)))) ∧
    (lg → ∀ (k : SealCfg) (f t : Nat), s.heard 0x0E0E p c → f = fld b 2 1 → t = fld b 3 1 → i ≤ 3 → fld b 1 1 ≤ 1 → f ≤ 15 → rsvd b 5 3 = true →
      k = { mode := fld b 1 1, auth := bitOf f 0, anonOk := bitOf f 1, requireTime := bitOf f 2, tagFailMax := if t = 0 then 4 else t, anchors := fld b 4 1 } →
      ((c.sealOf i).cfg.mode = 1 → fld b 1 1 = 0 → c.sealNeeded i = true → s.becomes (.sealSet p) (c.refused p 0x0204 0x0E0F)) ∧
      (((c.sealOf i).cfg.mode ≠ 1 ∨ fld b 1 1 ≠ 0 ∨ c.sealNeeded i = false) →
        (bitOf f 3 = false → s.becomes (.sealSet p) ((c.setSeal i { c.sealOf i with cfg := k }).replied p [] (sv 0))) ∧
        (bitOf f 3 = true → s.becomes (.sealSet p)
          (((c.setSeal i { c.sealOf i with cfg := k }).storeConfig fun z => { z with sealing := z.sealing.set i k }).replied p [] (sv 0))))) ∧
    (lg → ∀ (x : Ctx) (y : Seal), s.heard 0x0E0F p c → x = s.ctxOf 0x0E0F p c → y = c.sealOf i → i ≤ 3 → fld b 1 1 ≤ 1 → rsvd b 2 2 = true →
      (∀ h, y.rekey = some h → s.becomes (.rekey p) (c.refused p 0x0202 0 h)) ∧
      (y.rekey = none → (y.keys = none ∨ y.sealedOn = false) → s.becomes (.rekey p) (c.refused p 0x0204 0x0E19)) ∧
      (∀ k, y.rekey = none → y.keys = some k → y.sealedOn = true → c.recordFree iss = true →
        (fld b 1 1 = 1 → s.becomes (.rekey p) ((((c.setSeal i { y with rekey := some x.handle }).kxStart i true).settlePairwise).accepts p x)) ∧
        (fld b 1 1 = 0 → ∀ e, (y.next = some e ∨ (y.next = none ∧ e = (k.next y.initiator, (c.turn + 9) % 2 ^ 48))) →
          s.becomes (.rekey p) (((c.setSeal i { y with rekey := some x.handle, next := some e }).accepts p x).commitPoint x.handle)))) ∧
    (∀ x, s.heard 0x0E10 p c → x = s.ctxOf 0x0E10 p c →
      (∀ h, c.keys.selftest = some h → s.becomes (.keySelftest p) (c.refused p 0x0202 0 h)) ∧
      (c.keys.selftest = none → c.recordFree iss = true →
        s.becomes (.keySelftest p) (((c.setKeys fun k => { k with selftest := some x.handle }).accepts p x).commitPoint x.handle))) ∧
    (lg → ∀ (x : Ctx) (a n : Nat), s.heard 0x0E11 p c → x = s.ctxOf 0x0E11 p c → a = fld b 2 2 → n = fld b 4 4 → 1 ≤ i → i ≤ 8 → a ≤ 4096 →
      (3 ≤ i → a = 0) → rsvd b 20 4 = true → (i = 8 → 1 ≤ n ∧ n ≤ 65536) → (i ≠ 8 → cryptoTail i ≤ n) →
      b.length = 24 + a + (if i = 8 then 0 else n) →
      (∀ ty u k, cryptoNeeds i = some (ty, u) → mine (fld b 1 1) k → (k.ty ≠ ty ∨ k.use u = false) →
        s.becomes (.cryptoOp p) (c.refused p 0x0201 0x0E04)) ∧
      ((cryptoNeeds i = none ∨ ∃ ty u k, cryptoNeeds i = some (ty, u) ∧ mine (fld b 1 1) k ∧ k.ty = ty ∧ k.use u = true) →
        (4194304 < c.cryptoHeld + cryptoOut i n c.approved → s.becomes (.cryptoOp p) (c.refused p 0x0203 0x0E1A)) ∧
        (∀ (d : Chip) (j : CryptoJob), c.cryptoHeld + cryptoOut i n c.approved ≤ 4194304 → c.recordFree iss = true →
          j = { handle := x.handle, op := i, slot := fld b 1 1, aadLen := a, iv := sliceB b 8 12, input := b.drop 24, want := if i = 8 then n else 0 } →
          d = (c.setKeys fun k => { k with jobs := k.jobs ++ [j] }).accepts p x →
          (c.keys.jobs = [] → s.becomes (.cryptoOp p) (d.commitPoint x.handle)) ∧
          (c.keys.jobs ≠ [] → s.becomes (.cryptoOp p) d)))) ∧
    (lg → ∀ (h off n rel : Nat), s.heard 0x0E12 p c → h = fld b 0 4 → off = fld b 4 4 → n = fld b 8 3 → rel = fld b 11 1 → rel ≤ 1 → 1 ≤ n →
      n ≤ 1048576 →
      (c.rec? h = none → s.becomes (.cryptoResult p) (c.refused p 0x0501 0)) ∧
      (∀ r, c.rec? h = some r →
        (lvl ≠ 1 → h / 2 ^ 24 ≠ iss → s.becomes (.cryptoResult p) (c.refused p 0x0201 0x0002)) ∧
        ((lvl = 1 ∨ h / 2 ^ 24 = iss) →
          ((c.keys.outputs.find h = none ∨ r.complete = false) → s.becomes (.cryptoResult p) (c.refused p 0x0204 0x0E1B)) ∧
          (∀ o d, c.keys.outputs.find h = some o → r.complete = true → d = (o.drop off).take n → c.roomFor p d.length →
            (rel = 0 → s.becomes (.cryptoResult p) (c.replied p d (sv (o.length - (off + d.length))))) ∧
            (rel = 1 → s.becomes (.cryptoResult p)
              (({ c with
                  keys := { c.keys with outputs := c.keys.outputs.erase h },
                  cmd := { c.cmd with handles := c.cmd.handles.filter fun y => y.handle != h } }).replied p d
                (sv (o.length - (off + d.length)))))))))

/-- The rows of chapter 19 that are not commands, and chapter 20's commands. -/
def Obligations.KeyRowsAndGatekeepersAct : Prop :=
  ∀ (s : State) (c : Chip), c = s.chip →
    (∀ i, s.becomes (.loginLockoutEnd i) (c.setKeys fun k => { k with lockout := k.lockout.filter (· != i) })) ∧
    (∀ d, d = c.setKeys (fun k => { k with lifeOp := none }) →
      ((c.keys.lifeOp = none ∨ c.keys.selftest ≠ none) → exec .keyLifecycleDone s = .next s) ∧
      (∀ h o, c.keys.lifeOp = some (h, o) → c.keys.selftest = none →
        (d.cancelled h = true → s.becomes .keyLifecycleDone (d.complete h 0x0302 0x0007 0)) ∧
        (d.cancelled h = false → 4 ≤ o → s.becomes .keyLifecycleDone ((d.storeConfig fun k => { k with approved := o == 4 }).complete h 0 0 0)) ∧
        (d.cancelled h = false → o ≤ 3 → ∀ e, e = (if o = 3 then
            ((d.commitPoint h).zeroizeAll true false 0x010F).setKeys fun k => { k with approved := false } else d.commitPoint h) →
          exec .keyLifecycleDone s =
            .next { s with chip := e.complete h 0 0 0, fuses := { s.fuses with lifecycle := Nat.max s.fuses.lifecycle o } }))) ∧
    s.becomes .entropyHealthFail (c.lockdown 0x010B) ∧
    (∀ h, c.keys.selftest = some h → ∀ d, d = c.setKeys (fun k => { k with selftest := none, selftestTurn := c.turn }) →
      s.becomes .selftestPeriodic c ∧ s.becomes (.selftestDone false) (d.lockdown 0x010B) ∧
      (h = 0 → s.becomes (.selftestDone true) d) ∧ (h ≠ 0 → s.becomes (.selftestDone true) (d.complete h 0 0 0))) ∧
    (c.keys.selftest = none → s.becomes .selftestPeriodic (c.setKeys fun k => { k with selftest := some 0 }) ∧
      ∀ b, s.becomes (.selftestDone b) c) ∧
    ((c.keys.jobs = [] ∨ c.keys.selftest ≠ none) → s.becomes .cryptoOpDone c) ∧
    (∀ (j : CryptoJob) (l : List CryptoJob) (d : Chip), c.keys.jobs = j :: l → c.keys.selftest = none →
      d = (c.setKeys fun k => { k with jobs := l }).nextFresh →
      c.openRec? j.handle ≠ none → c.cancelled j.handle = false →
      (cryptoNeeds j.op ≠ none → c.kslot j.slot = none → s.becomes .cryptoOpDone (d.complete j.handle 0x0204 0x0E02 0).cryptoStart) ∧
      (∀ key, ((cryptoNeeds j.op = none ∧ key = []) ∨ (cryptoNeeds j.op ≠ none ∧ ∃ k, c.kslot j.slot = some k ∧ k.key = key)) →
        (c.cryptoRun j key = none → s.becomes .cryptoOpDone (d.complete j.handle 0x0301 0 0).cryptoStart) ∧
        (∀ out, c.cryptoRun j key = some out →
          ((j.op = 4 ∨ j.op = 7) → s.becomes .cryptoOpDone (d.complete j.handle 0 0 out.length).cryptoStart) ∧
          (j.op ≠ 4 → j.op ≠ 7 → s.becomes .cryptoOpDone
            ((d.setKeys fun k => { k with outputs := k.outputs.set j.handle out }).complete j.handle 0 0 out.length).cryptoStart)))) ∧
    (∀ j l, c.keys.jobs = j :: l → c.keys.selftest = none → c.openRec? j.handle ≠ none → c.cancelled j.handle = true →
      s.becomes .cryptoOpDone (((c.setKeys fun k => { k with jobs := l }).nextFresh).complete j.handle 0x0302 0x0007 0).cryptoStart) ∧
    ((c.storeReady = false ∨ c.keys.restored = true) → s.becomes .keyRestore c) ∧
    (c.storeReady = true → c.keys.restored = false → ∃ d, s.becomes .keyRestore d ∧ d.keys.restored = true) ∧
    (∀ (n : Fin 4) (x : Seal), x = c.sealOf n.val →
      (c.inData n.val = true → x.cfg.auth = true → x.phase ≠ .done → x.phase ≠ .refused → s.becomes (.kxTimeout n) (c.kxRefuse n.val 0x0E15)) ∧
      ((c.inData n.val = false ∨ x.cfg.auth = false ∨ x.phase = .done ∨ x.phase = .refused) → s.becomes (.kxTimeout n) c) ∧
      (c.inData n.val = true → x.cfg.auth = true → x.phase = .refused →
        s.becomes (.kxRetryTimer n) ((c.kxStart n.val x.keys.isSome).settlePairwise)) ∧
      ((c.inData n.val = false ∨ x.cfg.auth = false ∨ x.phase ≠ .refused) → s.becomes (.kxRetryTimer n) c) ∧
      (x.next = none → ∀ k, s.becomes (.epochChange n k) c) ∧
      (∀ e f, x.next = some (e, f) →
        (seqBefore 48 c.turn f = true → ∀ k, s.becomes (.epochChange n k) c) ∧
        (seqBefore 48 c.turn f = false → s.becomes (.epochChange n true) (c.sealRotate n.val) ∧
          s.becomes (.epochChange n false) (c.lockdown 0x010B)))) ∧
    (∀ (p : Packet) (c : Chip) (b : Bytes) (k i : Nat) (r : Region) (sh : RuleSet), b = p.params → k = fld b 0 1 → i = fld b 1 1 →
      r = { base := fld b 8 8, limit := fld b 16 8, perm := fld b 24 4 } → sh = s.guard.shadow.get {} k → k ≤ 4 →
      (c.gkOff k = true →
        (s.heard 0x0F01 p c → i ≤ 127 → rsvd b 2 6 = true → rsvd b 28 12 = true → r.perm < 2 ^ 15 → bitOf r.perm 1 = false →
          s.becomes (.gkSet p) (c.refused p 0x0204 0x000B)) ∧
        (s.heard 0x0F05 p c → rsvd b 1 3 = true → s.becomes (.gkClear p) (c.refused p 0x0204 0x000B))) ∧
      (c.gkOff k = false →
        (∀ h e, (Tab.get ({} : GkLog) c.gk k).sync = some (h, e) → s.heard 0x0F03 p c → i ≤ 1 → rsvd b 2 2 = true → s.becomes (.gkSync p) (c.refused p 0x0202 0 h)) ∧
        ((Tab.get ({} : GkLog) c.gk k).sync = none →
          (s.heard 0x0F01 p c → i ≤ 127 → rsvd b 2 6 = true → rsvd b 28 12 = true → r.perm < 2 ^ 15 → bitOf r.perm 1 = false →
            (s.guard.locked k i → s.becomes (.gkSet p) (c.refused p 0x0204 0x0F02)) ∧
            (¬ s.guard.locked k i → r.valid k = false → s.becomes (.gkSet p) (c.refused p 0x0104 0x0F03)) ∧
            (¬ s.guard.locked k i → r.valid k = true → exec (.gkSet p) s = .next { s with
                chip := c.replied p
                guard := { s.guard with shadow := s.guard.shadow.set k { sh with regions := sh.regions.set i r } } })) ∧
          (s.heard 0x0F02 p c → i ≤ 1 → rsvd b 2 2 = true → fld b 4 4 < 2 ^ 15 → fld b 4 4 % 8 = 0 → exec (.gkMode p) s = .next { s with
              chip := c.replied p
              guard := { s.guard with shadow := s.guard.shadow.set k { sh with straddle := i, dflt := fld b 4 4 } } }) ∧
          (∀ x, s.heard 0x0F03 p c → x = s.ctxOf 0x0F03 p c → i ≤ 1 → rsvd b 2 2 = true → c.recordFree (c.issuer p.sess).1 = true →
            (firstOverlap sh.regions = none → s.becomes (.gkSync p)
              (({ c with gk := c.gk.set k { Tab.get ({} : GkLog) c.gk k with sync := some (x.handle, i == 1) } }).accepts p x)) ∧
            (∀ u v, firstOverlap sh.regions = some (u, v) → s.becomes (.gkSync p)
              (((c.post 0x0F02 0x0F01 (k + 256 * u + 65536 * v)).accepts p x).complete x.handle 0x0104 0x0F01 (u + 256 * v))))) ∧
        (∀ (w f n : Nat) (g : RuleSet) (l : GkLog), s.heard 0x0F04 p c → w = fld b 1 1 → f = fld b 2 1 → n = fld b 3 1 → w ≤ 1 → f ≤ 127 → 1 ≤ n → f + n ≤ 128 →
          g = (if w = 0 then s.guard.active else s.guard.shadow).get {} k → l = Tab.get ({} : GkLog) c.gk k → c.roomFor p (64 + 32 * n) →
          s.becomes (.gkGet p) (c.replied p (le 1 k ++ le 1 g.straddle ++ le 1 w ++ zeros 1 ++ le 4 g.dflt ++ le 4 l.syncs ++ le 4 l.unmapped ++ zeros 16 ++
            l.first.bytes ++ ((List.range n).map fun j => (g.regions.get {} (f + j)).bytes).flatten))) ∧
        (s.heard 0x0F05 p c → rsvd b 1 3 = true → c.roomFor p 32 →
          s.becomes (.gkClear p) (({ c with gk := c.gk.set k { Tab.get ({} : GkLog) c.gk k with first := ({} : Violation) } }).replied p (Tab.get ({} : GkLog) c.gk k).first.bytes)))) ∧
    (∀ (k : Fin 5) (l : GkLog) (d : Chip) (sh : RuleSet), l = Tab.get ({} : GkLog) c.gk k.val → d = { c with gk := c.gk.set k.val { l with sync := none } } →
      sh = s.guard.shadow.get {} k.val →
      (l.sync = none → exec (.gkSyncDone k) s = .next s) ∧
      (∀ (h : Nat) (e : Bool), l.sync = some (h, e) → d.cancelled h = true → s.becomes (.gkSyncDone k) (d.complete h 0x0302 0x0007 0)) ∧
      (∀ (h : Nat) (e : Bool), l.sync = some (h, e) → d.cancelled h = false → firstOverlap sh.regions = none → exec (.gkSyncDone k) s = .next { s with
          chip := ({ c with gk := c.gk.set k.val { l with sync := none, syncs := sat32 l.syncs 1 } }).complete h 0 0 0
          guard := { s.guard with
            active := s.guard.active.set k.val sh
            stored := if e then s.guard.stored.set k.val sh else s.guard.stored } })) ∧
    (∀ (a : Nat) (o : DebugOp) (d : Chip) (v : GkVerdict) (kd n : Nat), d = { c with dev := { c.dev with tapReset := false } } →
      kd = (match o with | .read _ => 0 | .write _ => 1 | .execute => 3) → n = (match o with | .read n => n | .write b => b.length | .execute => 4) →
      v = (s.guard.active.get {} 4).decide' s.fuses.lifecycle 4 kd a n true →
      (v.all = true → s.becomes (.debugAccess a o) (d.debugPerform a o)) ∧
      (v.all = false → s.becomes (.debugAccess a o) ((d.violate 4
        { addr := a, size := n, kind := kd, level := 4, master := 3, id := 0, region := v.region, straddle := v.straddle }).emit .dbgError)) ∧
      (∀ i, n ≠ 0 → (s.guard.active.get {} 4).regionAt a = some i → bitOf (regionOf s.guard.active 4 i).perm 2 = true →
        (s.fuses.lifecycle ≠ 3 → v.all = false) ∧
        (s.fuses.lifecycle = 3 → (∀ j, j < n → (s.guard.active.get {} 4).regionAt (a + j) = some i) → v.all = true))) ∧
    s.becomes .tapReset { c with dev := { c.dev with tapReset := true } }

/-- Chapter 21's rows, REFCLK_FAIL, REFCLK_RESTORE and SUPPLY_EXCURSION. -/
def Obligations.LifetimeAndBoardAct : Prop :=
  ∀ (s : State) (c : Chip), c = s.chip →
    (∀ r : TickReading, ∃ d e f : Chip, s.becomes (.lifetimeTick r) (f.lifeSamples r) ∧ d = c.bump 0 1 ∧
      (r.hot = true → e = d.bump 10 1) ∧ (r.hot = false → e = d) ∧
      (c.dev.mode = .keepalive → f = e.bump 13 1) ∧ (c.dev.mode = .quiet → f = e.bump 14 1) ∧
      (c.dev.mode ≠ .keepalive → c.dev.mode ≠ .quiet → f = e)) ∧
    (∀ (d : Chip) (r : TickReading) (u v w : Nat), u = (if r.tj < -30 then 0 else Nat.min 15 ((r.tj + 30) / 10 + 1).toNat) →
      v = Nat.min 15 ((r.coreMv + 40) / 5).toNat → w = Nat.min 15 (r.watts / 4) →
      (d.lifeSamples r).life.counters = d.life.counters ∧
      (∀ b, b < 16 → (d.lifeSamples r).life.hist.get 0 b = if b = u then sat32 (d.life.hist.get 0 b) 1 else d.life.hist.get 0 b) ∧
      (∀ b, b < 16 → (d.lifeSamples r).life.hist.get 0 (16 + b) = if b = v then sat32 (d.life.hist.get 0 (16 + b)) 1 else d.life.hist.get 0 (16 + b)) ∧
      (∀ b, b < 16 → (d.lifeSamples r).life.hist.get 0 (32 + b) = if b = w then sat32 (d.life.hist.get 0 (32 + b)) 1 else d.life.hist.get 0 (32 + b))) ∧
    (∀ (d : Chip) (x : LifeRec), d = c.setLife (fun l => { l with lastPeriodic := c.poweredS }) → x = d.lifeSnap s.fuses.lifecycle 2 (c.life.saveSeq + 1) →
      x.counters = c.life.counters ∧ x.hist = c.life.hist ∧
      (c.life.saving = none → ∃ e, s.becomes .lifetimePeriodicSave e ∧ e.life.saving = some { record := x, handle := 0 } ∧
        e.life.counters = c.life.counters ∧ e.life.next = c.life.next) ∧
      (c.life.saving ≠ none → s.becomes .lifetimePeriodicSave
        (d.setLife fun l => { l with next := l.next ++ [{ record := { rflags := 2 }, handle := 0 }] }))) ∧
    (∀ f k, c.life.saving = none → s.becomes (.lifetimeSaveDone f k) c) ∧
    (∀ (f k copy : Bool) (v : LifeSave) (d e : Chip), c.life.saving = some v →
      copy = (k && !bitOf v.record.rflags 0 && c.storeReady && (c.inRole .hub || c.inRole .dock)) →
      d = c.setLife (fun l => { l with
        saving := none, slot := (l.slot + 1) % 512, saveSeq := if f || copy then v.record.seq else l.saveSeq,
        journal := if f then l.journal.set l.slot v.record else l.journal.erase l.slot,
        crockCopy := if copy then some v.record else l.crockCopy }) →
      ((f || copy) = true → v.handle = 0 → e = d) ∧ ((f || copy) = true → v.handle ≠ 0 → e = d.complete v.handle 0 0 0) ∧
      ((f || copy) = false → v.handle = 0 → e = d.post 0x1002 0x1003 (v.record.seq % 2 ^ 32)) ∧
      ((f || copy) = false → v.handle ≠ 0 → e = (d.post 0x1002 0x1003 (v.record.seq % 2 ^ 32)).complete v.handle 0x0401 0x1003 0) →
      (e.life.next = [] → s.becomes (.lifetimeSaveDone f k) e) ∧
      (∀ n l, e.life.next = n :: l → s.becomes (.lifetimeSaveDone f k)
        ((e.setLife fun y => { y with next := l }).lifeStart s.fuses.lifecycle n.record.rflags n.handle))) ∧
    (c.life.crockCopy = none → s.becomes .lifetimeCrockRestore c) ∧
    (∀ r b, c.life.crockCopy = some r → c.life.restored = some b → r.seq ≤ b.seq → s.becomes .lifetimeCrockRestore c) ∧
    (∀ r, c.life.crockCopy = some r → c.life.restored = none → ∃ d, s.becomes .lifetimeCrockRestore d ∧ d.life.restored = some r ∧
      d.life.saveSeq = Nat.max c.life.saveSeq r.seq) ∧
    (∀ (p : Packet) (c : Chip) (x : Ctx) (g e : Bytes), g = (c.lifeSnap s.fuses.lifecycle 8 c.life.saveSeq).bytes →
      e = g ++ sliceB p.params 0 32 ++ sliceB s.fuses.serialNo 0 12 ++ sliceB (Config.sha384 c.dev.meas.flatten) 0 48 →
      g.length = 1220 ∧
      (s.heard 0x1001 p c → c.roomFor p 1220 → s.becomes (.lifetimeGet p) (c.replied p g)) ∧
      (s.heard 0x1002 p c → c.roomFor p 1412 →
        ((s.fuses.lifecycle = 1 ∨ s.fuses.lifecycle = 2) → s.becomes (.lifetimeExport p) (c.nextFresh.replied p
          (e ++ le 4 0 ++ sliceB (Config.ecdsaSign c.identityKey (e ++ le 4 0) c.clk.fresh) 0 96))) ∧
        (s.fuses.lifecycle ≠ 1 → s.fuses.lifecycle ≠ 2 → s.becomes (.lifetimeExport p) (c.nextFresh.replied p (e ++ le 4 1 ++ zeros 96)))) ∧
      (s.heard 0x1003 p c → x = s.ctxOf 0x1003 p c →
        (∀ v, (c.life.saving.toList ++ c.life.next).find? (fun v => v.handle != 0 && (c.openRec? v.handle).isSome) = some v →
          s.becomes (.lifetimeSave p) (c.refused p 0x0202 0 v.handle)) ∧
        ((c.life.saving.toList ++ c.life.next).find? (fun v => v.handle != 0 && (c.openRec? v.handle).isSome) = none →
          c.recordFree (c.issuer p.sess).1 = true → s.becomes (.lifetimeSave p)
            (((c.lifeSave s.fuses.lifecycle 4 x.handle).accepts p x).commitPoint x.handle)))) ∧
    (∀ (n : Fin 3) (d : Chip), d = { c with dev := { c.dev with refFailed := insertSorted n.val c.dev.refFailed } } →
      s.becomes (.refclkRestore n) { c with dev := { c.dev with refFailed := c.dev.refFailed.filter (· != n.val) } } ∧
      (c.dev.refFailed.contains n.val = true → s.becomes (.refclkFail n) c) ∧
      (c.dev.refFailed.contains n.val = false →
        (n.val = 0 → s.becomes (.refclkFail n) ((((d.trunkNoClock 0).trunkNoClock 1).trunkNoClock 2).trunkNoClock 3)) ∧
        (n.val = 1 → s.becomes (.refclkFail n) d.ethAllDown) ∧ (n.val = 2 → s.becomes (.refclkFail n) d.hostLost))) ∧
    (∀ (d : Chip) (n : Nat), (d.laneOf n).phase = .data →
      ((d.laneOf n).following = true → d.trunkNoClock n = d) ∧ ((d.laneOf n).following = false → d.trunkNoClock n = d.linkDown n 0x0402)) ∧
    s.becomes (.supplyExcursion true) (c.bump 11 1) ∧ s.becomes (.supplyExcursion false) (c.bump 12 1) ∧
    (∀ (d : Chip) (i j : Nat), (d.bump i 1).life.counters.get 0 j = if j = i then sat64 (d.life.counters.get 0 j) 1 else d.life.counters.get 0 j)
end

