-- ==== Sys2Proof/Laws/State.lean ====
section
/-!
SUPPORT. For each update of one sub-state, what it leaves of each sub-state; and which sub-states the operations every family shares
(events, completions, replies, interrupts) can change.
-/
namespace Sys2Proof.Machine

variable (c : Chip)

/-! `emit` -/

@[simp] theorem Chip.emit_clk (o : Out) : (c.emit o).clk = c.clk := rfl
@[simp] theorem Chip.emit_dev (o : Out) : (c.emit o).dev = c.dev := rfl
@[simp] theorem Chip.emit_flash (o : Out) : (c.emit o).flash = c.flash := rfl
@[simp] theorem Chip.emit_cmd (o : Out) : (c.emit o).cmd = c.cmd := rfl
@[simp] theorem Chip.emit_spi (o : Out) : (c.emit o).spi = c.spi := rfl
@[simp] theorem Chip.emit_host (o : Out) : (c.emit o).host = c.host := rfl
@[simp] theorem Chip.emit_lane (o : Out) : (c.emit o).lane = c.lane := rfl
@[simp] theorem Chip.emit_frm (o : Out) : (c.emit o).frm = c.frm := rfl
@[simp] theorem Chip.emit_time (o : Out) : (c.emit o).time = c.time := rfl
@[simp] theorem Chip.emit_gear (o : Out) : (c.emit o).gear = c.gear := rfl
@[simp] theorem Chip.emit_fab (o : Out) : (c.emit o).fab = c.fab := rfl
@[simp] theorem Chip.emit_keys (o : Out) : (c.emit o).keys = c.keys := rfl
@[simp] theorem Chip.emit_sealing (o : Out) : (c.emit o).sealing = c.sealing := rfl
@[simp] theorem Chip.emit_csys (o : Out) : (c.emit o).csys = c.csys := rfl
@[simp] theorem Chip.emit_crock (o : Out) : (c.emit o).crock = c.crock := rfl
@[simp] theorem Chip.emit_disp (o : Out) : (c.emit o).disp = c.disp := rfl
@[simp] theorem Chip.emit_eth (o : Out) : (c.emit o).eth = c.eth := rfl
@[simp] theorem Chip.emit_usb (o : Out) : (c.emit o).usb = c.usb := rfl
@[simp] theorem Chip.emit_leg (o : Out) : (c.emit o).leg = c.leg := rfl
@[simp] theorem Chip.emit_pwr (o : Out) : (c.emit o).pwr = c.pwr := rfl
@[simp] theorem Chip.emit_gk (o : Out) : (c.emit o).gk = c.gk := rfl
@[simp] theorem Chip.emit_life (o : Out) : (c.emit o).life = c.life := rfl
@[simp] theorem Chip.emit_sram (o : Out) : (c.emit o).sram = c.sram := rfl
@[simp] theorem Chip.emit_out (o : Out) : (c.emit o).out = c.out ++ [o] := rfl

/-! `drive` -/

@[simp] theorem Chip.drive_clk (p : PinId) (v : Nat) : (c.drive p v).clk = c.clk := rfl
@[simp] theorem Chip.drive_dev (p : PinId) (v : Nat) : (c.drive p v).dev = c.dev := rfl
@[simp] theorem Chip.drive_flash (p : PinId) (v : Nat) : (c.drive p v).flash = c.flash := rfl
@[simp] theorem Chip.drive_cmd (p : PinId) (v : Nat) : (c.drive p v).cmd = c.cmd := rfl
@[simp] theorem Chip.drive_spi (p : PinId) (v : Nat) : (c.drive p v).spi = c.spi := rfl
@[simp] theorem Chip.drive_host (p : PinId) (v : Nat) : (c.drive p v).host = c.host := rfl
@[simp] theorem Chip.drive_lane (p : PinId) (v : Nat) : (c.drive p v).lane = c.lane := rfl
@[simp] theorem Chip.drive_frm (p : PinId) (v : Nat) : (c.drive p v).frm = c.frm := rfl
@[simp] theorem Chip.drive_time (p : PinId) (v : Nat) : (c.drive p v).time = c.time := rfl
@[simp] theorem Chip.drive_gear (p : PinId) (v : Nat) : (c.drive p v).gear = c.gear := rfl
@[simp] theorem Chip.drive_fab (p : PinId) (v : Nat) : (c.drive p v).fab = c.fab := rfl
@[simp] theorem Chip.drive_keys (p : PinId) (v : Nat) : (c.drive p v).keys = c.keys := rfl
@[simp] theorem Chip.drive_sealing (p : PinId) (v : Nat) : (c.drive p v).sealing = c.sealing := rfl
@[simp] theorem Chip.drive_csys (p : PinId) (v : Nat) : (c.drive p v).csys = c.csys := rfl
@[simp] theorem Chip.drive_crock (p : PinId) (v : Nat) : (c.drive p v).crock = c.crock := rfl
@[simp] theorem Chip.drive_disp (p : PinId) (v : Nat) : (c.drive p v).disp = c.disp := rfl
@[simp] theorem Chip.drive_eth (p : PinId) (v : Nat) : (c.drive p v).eth = c.eth := rfl
@[simp] theorem Chip.drive_usb (p : PinId) (v : Nat) : (c.drive p v).usb = c.usb := rfl
@[simp] theorem Chip.drive_leg (p : PinId) (v : Nat) : (c.drive p v).leg = c.leg := rfl
@[simp] theorem Chip.drive_pwr (p : PinId) (v : Nat) : (c.drive p v).pwr = c.pwr := rfl
@[simp] theorem Chip.drive_gk (p : PinId) (v : Nat) : (c.drive p v).gk = c.gk := rfl
@[simp] theorem Chip.drive_life (p : PinId) (v : Nat) : (c.drive p v).life = c.life := rfl
@[simp] theorem Chip.drive_sram (p : PinId) (v : Nat) : (c.drive p v).sram = c.sram := rfl
@[simp] theorem Chip.drive_out (p : PinId) (v : Nat) : (c.drive p v).out = c.out ++ [.pin p v] := rfl

/-! `nextFresh` -/

@[simp] theorem Chip.nextFresh_clk : (c.nextFresh).clk = { c.clk with fresh := c.clk.fresh + 1 } := rfl
@[simp] theorem Chip.nextFresh_dev : (c.nextFresh).dev = c.dev := rfl
@[simp] theorem Chip.nextFresh_flash : (c.nextFresh).flash = c.flash := rfl
@[simp] theorem Chip.nextFresh_cmd : (c.nextFresh).cmd = c.cmd := rfl
@[simp] theorem Chip.nextFresh_spi : (c.nextFresh).spi = c.spi := rfl
@[simp] theorem Chip.nextFresh_host : (c.nextFresh).host = c.host := rfl
@[simp] theorem Chip.nextFresh_lane : (c.nextFresh).lane = c.lane := rfl
@[simp] theorem Chip.nextFresh_frm : (c.nextFresh).frm = c.frm := rfl
@[simp] theorem Chip.nextFresh_time : (c.nextFresh).time = c.time := rfl
@[simp] theorem Chip.nextFresh_gear : (c.nextFresh).gear = c.gear := rfl
@[simp] theorem Chip.nextFresh_fab : (c.nextFresh).fab = c.fab := rfl
@[simp] theorem Chip.nextFresh_keys : (c.nextFresh).keys = c.keys := rfl
@[simp] theorem Chip.nextFresh_sealing : (c.nextFresh).sealing = c.sealing := rfl
@[simp] theorem Chip.nextFresh_csys : (c.nextFresh).csys = c.csys := rfl
@[simp] theorem Chip.nextFresh_crock : (c.nextFresh).crock = c.crock := rfl
@[simp] theorem Chip.nextFresh_disp : (c.nextFresh).disp = c.disp := rfl
@[simp] theorem Chip.nextFresh_eth : (c.nextFresh).eth = c.eth := rfl
@[simp] theorem Chip.nextFresh_usb : (c.nextFresh).usb = c.usb := rfl
@[simp] theorem Chip.nextFresh_leg : (c.nextFresh).leg = c.leg := rfl
@[simp] theorem Chip.nextFresh_pwr : (c.nextFresh).pwr = c.pwr := rfl
@[simp] theorem Chip.nextFresh_gk : (c.nextFresh).gk = c.gk := rfl
@[simp] theorem Chip.nextFresh_life : (c.nextFresh).life = c.life := rfl
@[simp] theorem Chip.nextFresh_sram : (c.nextFresh).sram = c.sram := rfl
@[simp] theorem Chip.nextFresh_out : (c.nextFresh).out = c.out := rfl

/-! `pass` -/

@[simp] theorem Chip.pass_localPs (d : Nat) : (c.pass d).clk.localPs = c.clk.localPs + d := rfl
@[simp] theorem Chip.pass_adj (d : Nat) : (c.pass d).clk.adj = c.clk.adj := rfl
@[simp] theorem Chip.pass_fresh (d : Nat) : (c.pass d).clk.fresh = c.clk.fresh := rfl
@[simp] theorem Chip.pass_dev (d : Nat) : (c.pass d).dev = c.dev := rfl
@[simp] theorem Chip.pass_flash (d : Nat) : (c.pass d).flash = c.flash := rfl
@[simp] theorem Chip.pass_cmd (d : Nat) : (c.pass d).cmd = c.cmd := rfl
@[simp] theorem Chip.pass_spi (d : Nat) : (c.pass d).spi = c.spi := rfl
@[simp] theorem Chip.pass_host (d : Nat) : (c.pass d).host = c.host := rfl
@[simp] theorem Chip.pass_lane (d : Nat) : (c.pass d).lane = c.lane := rfl
@[simp] theorem Chip.pass_frm (d : Nat) : (c.pass d).frm = c.frm := rfl
@[simp] theorem Chip.pass_time (d : Nat) :
    (c.pass d).time = { c.time with slew := if 0 ≤ c.time.slew then c.time.slew - (c.slewOf d).1 else c.time.slew + (c.slewOf d).1 } := by
  unfold Chip.pass; by_cases h : 0 ≤ c.time.slew <;> simp [h]
@[simp] theorem Chip.pass_gear (d : Nat) : (c.pass d).gear = c.gear := rfl
@[simp] theorem Chip.pass_fab (d : Nat) : (c.pass d).fab = c.fab := rfl
@[simp] theorem Chip.pass_keys (d : Nat) : (c.pass d).keys = c.keys := rfl
@[simp] theorem Chip.pass_sealing (d : Nat) : (c.pass d).sealing = c.sealing := rfl
@[simp] theorem Chip.pass_csys (d : Nat) : (c.pass d).csys = c.csys := rfl
@[simp] theorem Chip.pass_crock (d : Nat) : (c.pass d).crock = c.crock := rfl
@[simp] theorem Chip.pass_disp (d : Nat) : (c.pass d).disp = c.disp := rfl
@[simp] theorem Chip.pass_eth (d : Nat) : (c.pass d).eth = c.eth := rfl
@[simp] theorem Chip.pass_usb (d : Nat) : (c.pass d).usb = c.usb := rfl
@[simp] theorem Chip.pass_leg (d : Nat) : (c.pass d).leg = c.leg := rfl
@[simp] theorem Chip.pass_pwr (d : Nat) : (c.pass d).pwr = c.pwr := rfl
@[simp] theorem Chip.pass_gk (d : Nat) : (c.pass d).gk = c.gk := rfl
@[simp] theorem Chip.pass_life (d : Nat) : (c.pass d).life = c.life := rfl
@[simp] theorem Chip.pass_sram (d : Nat) : (c.pass d).sram = c.sram := rfl
@[simp] theorem Chip.pass_out (d : Nat) : (c.pass d).out = c.out := rfl

/-! `storeConfig` -/

@[simp] theorem Chip.storeConfig_clk (f : Persist → Persist) : (c.storeConfig f).clk = c.clk := rfl
@[simp] theorem Chip.storeConfig_dev (f : Persist → Persist) : (c.storeConfig f).dev = c.dev := rfl
@[simp] theorem Chip.storeConfig_flash (f : Persist → Persist) : (c.storeConfig f).flash = { c.flash with config := f c.flash.config, configOk := true, configGen := c.flash.configGen + 1 } := rfl
@[simp] theorem Chip.storeConfig_cmd (f : Persist → Persist) : (c.storeConfig f).cmd = c.cmd := rfl
@[simp] theorem Chip.storeConfig_spi (f : Persist → Persist) : (c.storeConfig f).spi = c.spi := rfl
@[simp] theorem Chip.storeConfig_host (f : Persist → Persist) : (c.storeConfig f).host = c.host := rfl
@[simp] theorem Chip.storeConfig_lane (f : Persist → Persist) : (c.storeConfig f).lane = c.lane := rfl
@[simp] theorem Chip.storeConfig_frm (f : Persist → Persist) : (c.storeConfig f).frm = c.frm := rfl
@[simp] theorem Chip.storeConfig_time (f : Persist → Persist) : (c.storeConfig f).time = c.time := rfl
@[simp] theorem Chip.storeConfig_gear (f : Persist → Persist) : (c.storeConfig f).gear = c.gear := rfl
@[simp] theorem Chip.storeConfig_fab (f : Persist → Persist) : (c.storeConfig f).fab = c.fab := rfl
@[simp] theorem Chip.storeConfig_keys (f : Persist → Persist) : (c.storeConfig f).keys = c.keys := rfl
@[simp] theorem Chip.storeConfig_sealing (f : Persist → Persist) : (c.storeConfig f).sealing = c.sealing := rfl
@[simp] theorem Chip.storeConfig_csys (f : Persist → Persist) : (c.storeConfig f).csys = c.csys := rfl
@[simp] theorem Chip.storeConfig_crock (f : Persist → Persist) : (c.storeConfig f).crock = c.crock := rfl
@[simp] theorem Chip.storeConfig_disp (f : Persist → Persist) : (c.storeConfig f).disp = c.disp := rfl
@[simp] theorem Chip.storeConfig_eth (f : Persist → Persist) : (c.storeConfig f).eth = c.eth := rfl
@[simp] theorem Chip.storeConfig_usb (f : Persist → Persist) : (c.storeConfig f).usb = c.usb := rfl
@[simp] theorem Chip.storeConfig_leg (f : Persist → Persist) : (c.storeConfig f).leg = c.leg := rfl
@[simp] theorem Chip.storeConfig_pwr (f : Persist → Persist) : (c.storeConfig f).pwr = c.pwr := rfl
@[simp] theorem Chip.storeConfig_gk (f : Persist → Persist) : (c.storeConfig f).gk = c.gk := rfl
@[simp] theorem Chip.storeConfig_life (f : Persist → Persist) : (c.storeConfig f).life = c.life := rfl
@[simp] theorem Chip.storeConfig_sram (f : Persist → Persist) : (c.storeConfig f).sram = c.sram := rfl
@[simp] theorem Chip.storeConfig_out (f : Persist → Persist) : (c.storeConfig f).out = c.out := rfl

/-! `bump` -/

@[simp] theorem Chip.bump_clk (i n : Nat) : (c.bump i n).clk = c.clk := rfl
@[simp] theorem Chip.bump_dev (i n : Nat) : (c.bump i n).dev = c.dev := rfl
@[simp] theorem Chip.bump_flash (i n : Nat) : (c.bump i n).flash = c.flash := rfl
@[simp] theorem Chip.bump_cmd (i n : Nat) : (c.bump i n).cmd = c.cmd := rfl
@[simp] theorem Chip.bump_spi (i n : Nat) : (c.bump i n).spi = c.spi := rfl
@[simp] theorem Chip.bump_host (i n : Nat) : (c.bump i n).host = c.host := rfl
@[simp] theorem Chip.bump_lane (i n : Nat) : (c.bump i n).lane = c.lane := rfl
@[simp] theorem Chip.bump_frm (i n : Nat) : (c.bump i n).frm = c.frm := rfl
@[simp] theorem Chip.bump_time (i n : Nat) : (c.bump i n).time = c.time := rfl
@[simp] theorem Chip.bump_gear (i n : Nat) : (c.bump i n).gear = c.gear := rfl
@[simp] theorem Chip.bump_fab (i n : Nat) : (c.bump i n).fab = c.fab := rfl
@[simp] theorem Chip.bump_keys (i n : Nat) : (c.bump i n).keys = c.keys := rfl
@[simp] theorem Chip.bump_sealing (i n : Nat) : (c.bump i n).sealing = c.sealing := rfl
@[simp] theorem Chip.bump_csys (i n : Nat) : (c.bump i n).csys = c.csys := rfl
@[simp] theorem Chip.bump_crock (i n : Nat) : (c.bump i n).crock = c.crock := rfl
@[simp] theorem Chip.bump_disp (i n : Nat) : (c.bump i n).disp = c.disp := rfl
@[simp] theorem Chip.bump_eth (i n : Nat) : (c.bump i n).eth = c.eth := rfl
@[simp] theorem Chip.bump_usb (i n : Nat) : (c.bump i n).usb = c.usb := rfl
@[simp] theorem Chip.bump_leg (i n : Nat) : (c.bump i n).leg = c.leg := rfl
@[simp] theorem Chip.bump_pwr (i n : Nat) : (c.bump i n).pwr = c.pwr := rfl
@[simp] theorem Chip.bump_gk (i n : Nat) : (c.bump i n).gk = c.gk := rfl
@[simp] theorem Chip.bump_life (i n : Nat) : (c.bump i n).life = { c.life with counters := c.life.counters.set i (sat64 (c.life.counters.get 0 i) n) } := rfl
@[simp] theorem Chip.bump_sram (i n : Nat) : (c.bump i n).sram = c.sram := rfl
@[simp] theorem Chip.bump_out (i n : Nat) : (c.bump i n).out = c.out := rfl

/-! `sample` -/

@[simp] theorem Chip.sample_clk (h b : Nat) : (c.sample h b).clk = c.clk := rfl
@[simp] theorem Chip.sample_dev (h b : Nat) : (c.sample h b).dev = c.dev := rfl
@[simp] theorem Chip.sample_flash (h b : Nat) : (c.sample h b).flash = c.flash := rfl
@[simp] theorem Chip.sample_cmd (h b : Nat) : (c.sample h b).cmd = c.cmd := rfl
@[simp] theorem Chip.sample_spi (h b : Nat) : (c.sample h b).spi = c.spi := rfl
@[simp] theorem Chip.sample_host (h b : Nat) : (c.sample h b).host = c.host := rfl
@[simp] theorem Chip.sample_lane (h b : Nat) : (c.sample h b).lane = c.lane := rfl
@[simp] theorem Chip.sample_frm (h b : Nat) : (c.sample h b).frm = c.frm := rfl
@[simp] theorem Chip.sample_time (h b : Nat) : (c.sample h b).time = c.time := rfl
@[simp] theorem Chip.sample_gear (h b : Nat) : (c.sample h b).gear = c.gear := rfl
@[simp] theorem Chip.sample_fab (h b : Nat) : (c.sample h b).fab = c.fab := rfl
@[simp] theorem Chip.sample_keys (h b : Nat) : (c.sample h b).keys = c.keys := rfl
@[simp] theorem Chip.sample_sealing (h b : Nat) : (c.sample h b).sealing = c.sealing := rfl
@[simp] theorem Chip.sample_csys (h b : Nat) : (c.sample h b).csys = c.csys := rfl
@[simp] theorem Chip.sample_crock (h b : Nat) : (c.sample h b).crock = c.crock := rfl
@[simp] theorem Chip.sample_disp (h b : Nat) : (c.sample h b).disp = c.disp := rfl
@[simp] theorem Chip.sample_eth (h b : Nat) : (c.sample h b).eth = c.eth := rfl
@[simp] theorem Chip.sample_usb (h b : Nat) : (c.sample h b).usb = c.usb := rfl
@[simp] theorem Chip.sample_leg (h b : Nat) : (c.sample h b).leg = c.leg := rfl
@[simp] theorem Chip.sample_pwr (h b : Nat) : (c.sample h b).pwr = c.pwr := rfl
@[simp] theorem Chip.sample_gk (h b : Nat) : (c.sample h b).gk = c.gk := rfl
@[simp] theorem Chip.sample_life (h b : Nat) : (c.sample h b).life = { c.life with hist := c.life.hist.set (16 * h + b) (sat32 (c.life.hist.get 0 (16 * h + b)) 1) } := rfl
@[simp] theorem Chip.sample_sram (h b : Nat) : (c.sample h b).sram = c.sram := rfl
@[simp] theorem Chip.sample_out (h b : Nat) : (c.sample h b).out = c.out := rfl

/-! `setLife` -/

@[simp] theorem Chip.setLife_clk (f : Life → Life) : (c.setLife f).clk = c.clk := rfl
@[simp] theorem Chip.setLife_dev (f : Life → Life) : (c.setLife f).dev = c.dev := rfl
@[simp] theorem Chip.setLife_flash (f : Life → Life) : (c.setLife f).flash = c.flash := rfl
@[simp] theorem Chip.setLife_cmd (f : Life → Life) : (c.setLife f).cmd = c.cmd := rfl
@[simp] theorem Chip.setLife_spi (f : Life → Life) : (c.setLife f).spi = c.spi := rfl
@[simp] theorem Chip.setLife_host (f : Life → Life) : (c.setLife f).host = c.host := rfl
@[simp] theorem Chip.setLife_lane (f : Life → Life) : (c.setLife f).lane = c.lane := rfl
@[simp] theorem Chip.setLife_frm (f : Life → Life) : (c.setLife f).frm = c.frm := rfl
@[simp] theorem Chip.setLife_time (f : Life → Life) : (c.setLife f).time = c.time := rfl
@[simp] theorem Chip.setLife_gear (f : Life → Life) : (c.setLife f).gear = c.gear := rfl
@[simp] theorem Chip.setLife_fab (f : Life → Life) : (c.setLife f).fab = c.fab := rfl
@[simp] theorem Chip.setLife_keys (f : Life → Life) : (c.setLife f).keys = c.keys := rfl
@[simp] theorem Chip.setLife_sealing (f : Life → Life) : (c.setLife f).sealing = c.sealing := rfl
@[simp] theorem Chip.setLife_csys (f : Life → Life) : (c.setLife f).csys = c.csys := rfl
@[simp] theorem Chip.setLife_crock (f : Life → Life) : (c.setLife f).crock = c.crock := rfl
@[simp] theorem Chip.setLife_disp (f : Life → Life) : (c.setLife f).disp = c.disp := rfl
@[simp] theorem Chip.setLife_eth (f : Life → Life) : (c.setLife f).eth = c.eth := rfl
@[simp] theorem Chip.setLife_usb (f : Life → Life) : (c.setLife f).usb = c.usb := rfl
@[simp] theorem Chip.setLife_leg (f : Life → Life) : (c.setLife f).leg = c.leg := rfl
@[simp] theorem Chip.setLife_pwr (f : Life → Life) : (c.setLife f).pwr = c.pwr := rfl
@[simp] theorem Chip.setLife_gk (f : Life → Life) : (c.setLife f).gk = c.gk := rfl
@[simp] theorem Chip.setLife_life (f : Life → Life) : (c.setLife f).life = f c.life := rfl
@[simp] theorem Chip.setLife_sram (f : Life → Life) : (c.setLife f).sram = c.sram := rfl
@[simp] theorem Chip.setLife_out (f : Life → Life) : (c.setLife f).out = c.out := rfl

/-! `setInst` -/

@[simp] theorem Chip.setInst_clk (vi : Nat) (i : Inst) : (c.setInst vi i).clk = c.clk := rfl
@[simp] theorem Chip.setInst_dev (vi : Nat) (i : Inst) : (c.setInst vi i).dev = c.dev := rfl
@[simp] theorem Chip.setInst_flash (vi : Nat) (i : Inst) : (c.setInst vi i).flash = c.flash := rfl
@[simp] theorem Chip.setInst_cmd (vi : Nat) (i : Inst) : (c.setInst vi i).cmd = c.cmd := rfl
@[simp] theorem Chip.setInst_spi (vi : Nat) (i : Inst) : (c.setInst vi i).spi = c.spi := rfl
@[simp] theorem Chip.setInst_host (vi : Nat) (i : Inst) : (c.setInst vi i).host = { c.host with inst := c.host.inst.set vi i } := rfl
@[simp] theorem Chip.setInst_lane (vi : Nat) (i : Inst) : (c.setInst vi i).lane = c.lane := rfl
@[simp] theorem Chip.setInst_frm (vi : Nat) (i : Inst) : (c.setInst vi i).frm = c.frm := rfl
@[simp] theorem Chip.setInst_time (vi : Nat) (i : Inst) : (c.setInst vi i).time = c.time := rfl
@[simp] theorem Chip.setInst_gear (vi : Nat) (i : Inst) : (c.setInst vi i).gear = c.gear := rfl
@[simp] theorem Chip.setInst_fab (vi : Nat) (i : Inst) : (c.setInst vi i).fab = c.fab := rfl
@[simp] theorem Chip.setInst_keys (vi : Nat) (i : Inst) : (c.setInst vi i).keys = c.keys := rfl
@[simp] theorem Chip.setInst_sealing (vi : Nat) (i : Inst) : (c.setInst vi i).sealing = c.sealing := rfl
@[simp] theorem Chip.setInst_csys (vi : Nat) (i : Inst) : (c.setInst vi i).csys = c.csys := rfl
@[simp] theorem Chip.setInst_crock (vi : Nat) (i : Inst) : (c.setInst vi i).crock = c.crock := rfl
@[simp] theorem Chip.setInst_disp (vi : Nat) (i : Inst) : (c.setInst vi i).disp = c.disp := rfl
@[simp] theorem Chip.setInst_eth (vi : Nat) (i : Inst) : (c.setInst vi i).eth = c.eth := rfl
@[simp] theorem Chip.setInst_usb (vi : Nat) (i : Inst) : (c.setInst vi i).usb = c.usb := rfl
@[simp] theorem Chip.setInst_leg (vi : Nat) (i : Inst) : (c.setInst vi i).leg = c.leg := rfl
@[simp] theorem Chip.setInst_pwr (vi : Nat) (i : Inst) : (c.setInst vi i).pwr = c.pwr := rfl
@[simp] theorem Chip.setInst_gk (vi : Nat) (i : Inst) : (c.setInst vi i).gk = c.gk := rfl
@[simp] theorem Chip.setInst_life (vi : Nat) (i : Inst) : (c.setInst vi i).life = c.life := rfl
@[simp] theorem Chip.setInst_sram (vi : Nat) (i : Inst) : (c.setInst vi i).sram = c.sram := rfl
@[simp] theorem Chip.setInst_out (vi : Nat) (i : Inst) : (c.setInst vi i).out = c.out := rfl

/-! `setVec` -/

@[simp] theorem Chip.setVec_clk (v : Nat) (x : Vec) : (c.setVec v x).clk = c.clk := rfl
@[simp] theorem Chip.setVec_dev (v : Nat) (x : Vec) : (c.setVec v x).dev = c.dev := rfl
@[simp] theorem Chip.setVec_flash (v : Nat) (x : Vec) : (c.setVec v x).flash = c.flash := rfl
@[simp] theorem Chip.setVec_cmd (v : Nat) (x : Vec) : (c.setVec v x).cmd = c.cmd := rfl
@[simp] theorem Chip.setVec_spi (v : Nat) (x : Vec) : (c.setVec v x).spi = c.spi := rfl
@[simp] theorem Chip.setVec_host (v : Nat) (x : Vec) : (c.setVec v x).host = { c.host with vecs := c.host.vecs.set v x } := rfl
@[simp] theorem Chip.setVec_lane (v : Nat) (x : Vec) : (c.setVec v x).lane = c.lane := rfl
@[simp] theorem Chip.setVec_frm (v : Nat) (x : Vec) : (c.setVec v x).frm = c.frm := rfl
@[simp] theorem Chip.setVec_time (v : Nat) (x : Vec) : (c.setVec v x).time = c.time := rfl
@[simp] theorem Chip.setVec_gear (v : Nat) (x : Vec) : (c.setVec v x).gear = c.gear := rfl
@[simp] theorem Chip.setVec_fab (v : Nat) (x : Vec) : (c.setVec v x).fab = c.fab := rfl
@[simp] theorem Chip.setVec_keys (v : Nat) (x : Vec) : (c.setVec v x).keys = c.keys := rfl
@[simp] theorem Chip.setVec_sealing (v : Nat) (x : Vec) : (c.setVec v x).sealing = c.sealing := rfl
@[simp] theorem Chip.setVec_csys (v : Nat) (x : Vec) : (c.setVec v x).csys = c.csys := rfl
@[simp] theorem Chip.setVec_crock (v : Nat) (x : Vec) : (c.setVec v x).crock = c.crock := rfl
@[simp] theorem Chip.setVec_disp (v : Nat) (x : Vec) : (c.setVec v x).disp = c.disp := rfl
@[simp] theorem Chip.setVec_eth (v : Nat) (x : Vec) : (c.setVec v x).eth = c.eth := rfl
@[simp] theorem Chip.setVec_usb (v : Nat) (x : Vec) : (c.setVec v x).usb = c.usb := rfl
@[simp] theorem Chip.setVec_leg (v : Nat) (x : Vec) : (c.setVec v x).leg = c.leg := rfl
@[simp] theorem Chip.setVec_pwr (v : Nat) (x : Vec) : (c.setVec v x).pwr = c.pwr := rfl
@[simp] theorem Chip.setVec_gk (v : Nat) (x : Vec) : (c.setVec v x).gk = c.gk := rfl
@[simp] theorem Chip.setVec_life (v : Nat) (x : Vec) : (c.setVec v x).life = c.life := rfl
@[simp] theorem Chip.setVec_sram (v : Nat) (x : Vec) : (c.setVec v x).sram = c.sram := rfl
@[simp] theorem Chip.setVec_out (v : Nat) (x : Vec) : (c.setVec v x).out = c.out := rfl

/-! `setHost` -/

@[simp] theorem Chip.setHost_clk (f : HostPort → HostPort) : (c.setHost f).clk = c.clk := rfl
@[simp] theorem Chip.setHost_dev (f : HostPort → HostPort) : (c.setHost f).dev = c.dev := rfl
@[simp] theorem Chip.setHost_flash (f : HostPort → HostPort) : (c.setHost f).flash = c.flash := rfl
@[simp] theorem Chip.setHost_cmd (f : HostPort → HostPort) : (c.setHost f).cmd = c.cmd := rfl
@[simp] theorem Chip.setHost_spi (f : HostPort → HostPort) : (c.setHost f).spi = c.spi := rfl
@[simp] theorem Chip.setHost_host (f : HostPort → HostPort) : (c.setHost f).host = f c.host := rfl
@[simp] theorem Chip.setHost_lane (f : HostPort → HostPort) : (c.setHost f).lane = c.lane := rfl
@[simp] theorem Chip.setHost_frm (f : HostPort → HostPort) : (c.setHost f).frm = c.frm := rfl
@[simp] theorem Chip.setHost_time (f : HostPort → HostPort) : (c.setHost f).time = c.time := rfl
@[simp] theorem Chip.setHost_gear (f : HostPort → HostPort) : (c.setHost f).gear = c.gear := rfl
@[simp] theorem Chip.setHost_fab (f : HostPort → HostPort) : (c.setHost f).fab = c.fab := rfl
@[simp] theorem Chip.setHost_keys (f : HostPort → HostPort) : (c.setHost f).keys = c.keys := rfl
@[simp] theorem Chip.setHost_sealing (f : HostPort → HostPort) : (c.setHost f).sealing = c.sealing := rfl
@[simp] theorem Chip.setHost_csys (f : HostPort → HostPort) : (c.setHost f).csys = c.csys := rfl
@[simp] theorem Chip.setHost_crock (f : HostPort → HostPort) : (c.setHost f).crock = c.crock := rfl
@[simp] theorem Chip.setHost_disp (f : HostPort → HostPort) : (c.setHost f).disp = c.disp := rfl
@[simp] theorem Chip.setHost_eth (f : HostPort → HostPort) : (c.setHost f).eth = c.eth := rfl
@[simp] theorem Chip.setHost_usb (f : HostPort → HostPort) : (c.setHost f).usb = c.usb := rfl
@[simp] theorem Chip.setHost_leg (f : HostPort → HostPort) : (c.setHost f).leg = c.leg := rfl
@[simp] theorem Chip.setHost_pwr (f : HostPort → HostPort) : (c.setHost f).pwr = c.pwr := rfl
@[simp] theorem Chip.setHost_gk (f : HostPort → HostPort) : (c.setHost f).gk = c.gk := rfl
@[simp] theorem Chip.setHost_life (f : HostPort → HostPort) : (c.setHost f).life = c.life := rfl
@[simp] theorem Chip.setHost_sram (f : HostPort → HostPort) : (c.setHost f).sram = c.sram := rfl
@[simp] theorem Chip.setHost_out (f : HostPort → HostPort) : (c.setHost f).out = c.out := rfl

/-! `setQp` -/

@[simp] theorem Chip.setQp_clk (k : Nat) (q : QueuePair) : (c.setQp k q).clk = c.clk := rfl
@[simp] theorem Chip.setQp_dev (k : Nat) (q : QueuePair) : (c.setQp k q).dev = c.dev := rfl
@[simp] theorem Chip.setQp_flash (k : Nat) (q : QueuePair) : (c.setQp k q).flash = c.flash := rfl
@[simp] theorem Chip.setQp_cmd (k : Nat) (q : QueuePair) : (c.setQp k q).cmd = c.cmd := rfl
@[simp] theorem Chip.setQp_spi (k : Nat) (q : QueuePair) : (c.setQp k q).spi = c.spi := rfl
@[simp] theorem Chip.setQp_host (k : Nat) (q : QueuePair) : (c.setQp k q).host = { c.host with qps := c.host.qps.set k q } := rfl
@[simp] theorem Chip.setQp_lane (k : Nat) (q : QueuePair) : (c.setQp k q).lane = c.lane := rfl
@[simp] theorem Chip.setQp_frm (k : Nat) (q : QueuePair) : (c.setQp k q).frm = c.frm := rfl
@[simp] theorem Chip.setQp_time (k : Nat) (q : QueuePair) : (c.setQp k q).time = c.time := rfl
@[simp] theorem Chip.setQp_gear (k : Nat) (q : QueuePair) : (c.setQp k q).gear = c.gear := rfl
@[simp] theorem Chip.setQp_fab (k : Nat) (q : QueuePair) : (c.setQp k q).fab = c.fab := rfl
@[simp] theorem Chip.setQp_keys (k : Nat) (q : QueuePair) : (c.setQp k q).keys = c.keys := rfl
@[simp] theorem Chip.setQp_sealing (k : Nat) (q : QueuePair) : (c.setQp k q).sealing = c.sealing := rfl
@[simp] theorem Chip.setQp_csys (k : Nat) (q : QueuePair) : (c.setQp k q).csys = c.csys := rfl
@[simp] theorem Chip.setQp_crock (k : Nat) (q : QueuePair) : (c.setQp k q).crock = c.crock := rfl
@[simp] theorem Chip.setQp_disp (k : Nat) (q : QueuePair) : (c.setQp k q).disp = c.disp := rfl
@[simp] theorem Chip.setQp_eth (k : Nat) (q : QueuePair) : (c.setQp k q).eth = c.eth := rfl
@[simp] theorem Chip.setQp_usb (k : Nat) (q : QueuePair) : (c.setQp k q).usb = c.usb := rfl
@[simp] theorem Chip.setQp_leg (k : Nat) (q : QueuePair) : (c.setQp k q).leg = c.leg := rfl
@[simp] theorem Chip.setQp_pwr (k : Nat) (q : QueuePair) : (c.setQp k q).pwr = c.pwr := rfl
@[simp] theorem Chip.setQp_gk (k : Nat) (q : QueuePair) : (c.setQp k q).gk = c.gk := rfl
@[simp] theorem Chip.setQp_life (k : Nat) (q : QueuePair) : (c.setQp k q).life = c.life := rfl
@[simp] theorem Chip.setQp_sram (k : Nat) (q : QueuePair) : (c.setQp k q).sram = c.sram := rfl
@[simp] theorem Chip.setQp_out (k : Nat) (q : QueuePair) : (c.setQp k q).out = c.out := rfl

/-! `setDring` -/

@[simp] theorem Chip.setDring_clk (k : Nat) (r : DataRing) : (c.setDring k r).clk = c.clk := rfl
@[simp] theorem Chip.setDring_dev (k : Nat) (r : DataRing) : (c.setDring k r).dev = c.dev := rfl
@[simp] theorem Chip.setDring_flash (k : Nat) (r : DataRing) : (c.setDring k r).flash = c.flash := rfl
@[simp] theorem Chip.setDring_cmd (k : Nat) (r : DataRing) : (c.setDring k r).cmd = c.cmd := rfl
@[simp] theorem Chip.setDring_spi (k : Nat) (r : DataRing) : (c.setDring k r).spi = c.spi := rfl
@[simp] theorem Chip.setDring_host (k : Nat) (r : DataRing) : (c.setDring k r).host = { c.host with rings := c.host.rings.set k r } := rfl
@[simp] theorem Chip.setDring_lane (k : Nat) (r : DataRing) : (c.setDring k r).lane = c.lane := rfl
@[simp] theorem Chip.setDring_frm (k : Nat) (r : DataRing) : (c.setDring k r).frm = c.frm := rfl
@[simp] theorem Chip.setDring_time (k : Nat) (r : DataRing) : (c.setDring k r).time = c.time := rfl
@[simp] theorem Chip.setDring_gear (k : Nat) (r : DataRing) : (c.setDring k r).gear = c.gear := rfl
@[simp] theorem Chip.setDring_fab (k : Nat) (r : DataRing) : (c.setDring k r).fab = c.fab := rfl
@[simp] theorem Chip.setDring_keys (k : Nat) (r : DataRing) : (c.setDring k r).keys = c.keys := rfl
@[simp] theorem Chip.setDring_sealing (k : Nat) (r : DataRing) : (c.setDring k r).sealing = c.sealing := rfl
@[simp] theorem Chip.setDring_csys (k : Nat) (r : DataRing) : (c.setDring k r).csys = c.csys := rfl
@[simp] theorem Chip.setDring_crock (k : Nat) (r : DataRing) : (c.setDring k r).crock = c.crock := rfl
@[simp] theorem Chip.setDring_disp (k : Nat) (r : DataRing) : (c.setDring k r).disp = c.disp := rfl
@[simp] theorem Chip.setDring_eth (k : Nat) (r : DataRing) : (c.setDring k r).eth = c.eth := rfl
@[simp] theorem Chip.setDring_usb (k : Nat) (r : DataRing) : (c.setDring k r).usb = c.usb := rfl
@[simp] theorem Chip.setDring_leg (k : Nat) (r : DataRing) : (c.setDring k r).leg = c.leg := rfl
@[simp] theorem Chip.setDring_pwr (k : Nat) (r : DataRing) : (c.setDring k r).pwr = c.pwr := rfl
@[simp] theorem Chip.setDring_gk (k : Nat) (r : DataRing) : (c.setDring k r).gk = c.gk := rfl
@[simp] theorem Chip.setDring_life (k : Nat) (r : DataRing) : (c.setDring k r).life = c.life := rfl
@[simp] theorem Chip.setDring_sram (k : Nat) (r : DataRing) : (c.setDring k r).sram = c.sram := rfl
@[simp] theorem Chip.setDring_out (k : Nat) (r : DataRing) : (c.setDring k r).out = c.out := rfl

/-! `count` -/

@[simp] theorem Chip.count_clk (t : Nat) (f : CmdCounters → CmdCounters) : (c.count t f).clk = c.clk := rfl
@[simp] theorem Chip.count_dev (t : Nat) (f : CmdCounters → CmdCounters) : (c.count t f).dev = c.dev := rfl
@[simp] theorem Chip.count_flash (t : Nat) (f : CmdCounters → CmdCounters) : (c.count t f).flash = c.flash := rfl
@[simp] theorem Chip.count_cmd (t : Nat) (f : CmdCounters → CmdCounters) : (c.count t f).cmd = { c.cmd with counters := c.cmd.counters.upd {} t f } := rfl
@[simp] theorem Chip.count_spi (t : Nat) (f : CmdCounters → CmdCounters) : (c.count t f).spi = c.spi := rfl
@[simp] theorem Chip.count_host (t : Nat) (f : CmdCounters → CmdCounters) : (c.count t f).host = c.host := rfl
@[simp] theorem Chip.count_lane (t : Nat) (f : CmdCounters → CmdCounters) : (c.count t f).lane = c.lane := rfl
@[simp] theorem Chip.count_frm (t : Nat) (f : CmdCounters → CmdCounters) : (c.count t f).frm = c.frm := rfl
@[simp] theorem Chip.count_time (t : Nat) (f : CmdCounters → CmdCounters) : (c.count t f).time = c.time := rfl
@[simp] theorem Chip.count_gear (t : Nat) (f : CmdCounters → CmdCounters) : (c.count t f).gear = c.gear := rfl
@[simp] theorem Chip.count_fab (t : Nat) (f : CmdCounters → CmdCounters) : (c.count t f).fab = c.fab := rfl
@[simp] theorem Chip.count_keys (t : Nat) (f : CmdCounters → CmdCounters) : (c.count t f).keys = c.keys := rfl
@[simp] theorem Chip.count_sealing (t : Nat) (f : CmdCounters → CmdCounters) : (c.count t f).sealing = c.sealing := rfl
@[simp] theorem Chip.count_csys (t : Nat) (f : CmdCounters → CmdCounters) : (c.count t f).csys = c.csys := rfl
@[simp] theorem Chip.count_crock (t : Nat) (f : CmdCounters → CmdCounters) : (c.count t f).crock = c.crock := rfl
@[simp] theorem Chip.count_disp (t : Nat) (f : CmdCounters → CmdCounters) : (c.count t f).disp = c.disp := rfl
@[simp] theorem Chip.count_eth (t : Nat) (f : CmdCounters → CmdCounters) : (c.count t f).eth = c.eth := rfl
@[simp] theorem Chip.count_usb (t : Nat) (f : CmdCounters → CmdCounters) : (c.count t f).usb = c.usb := rfl
@[simp] theorem Chip.count_leg (t : Nat) (f : CmdCounters → CmdCounters) : (c.count t f).leg = c.leg := rfl
@[simp] theorem Chip.count_pwr (t : Nat) (f : CmdCounters → CmdCounters) : (c.count t f).pwr = c.pwr := rfl
@[simp] theorem Chip.count_gk (t : Nat) (f : CmdCounters → CmdCounters) : (c.count t f).gk = c.gk := rfl
@[simp] theorem Chip.count_life (t : Nat) (f : CmdCounters → CmdCounters) : (c.count t f).life = c.life := rfl
@[simp] theorem Chip.count_sram (t : Nat) (f : CmdCounters → CmdCounters) : (c.count t f).sram = c.sram := rfl
@[simp] theorem Chip.count_out (t : Nat) (f : CmdCounters → CmdCounters) : (c.count t f).out = c.out := rfl

/-! `updRec` -/

@[simp] theorem Chip.updRec_clk (h : Nat) (f : HandleRec → HandleRec) : (c.updRec h f).clk = c.clk := rfl
@[simp] theorem Chip.updRec_dev (h : Nat) (f : HandleRec → HandleRec) : (c.updRec h f).dev = c.dev := rfl
@[simp] theorem Chip.updRec_flash (h : Nat) (f : HandleRec → HandleRec) : (c.updRec h f).flash = c.flash := rfl
@[simp] theorem Chip.updRec_cmd (h : Nat) (f : HandleRec → HandleRec) : (c.updRec h f).cmd = { c.cmd with handles := c.cmd.handles.map fun r => if r.handle = h then f r else r } := rfl
@[simp] theorem Chip.updRec_spi (h : Nat) (f : HandleRec → HandleRec) : (c.updRec h f).spi = c.spi := rfl
@[simp] theorem Chip.updRec_host (h : Nat) (f : HandleRec → HandleRec) : (c.updRec h f).host = c.host := rfl
@[simp] theorem Chip.updRec_lane (h : Nat) (f : HandleRec → HandleRec) : (c.updRec h f).lane = c.lane := rfl
@[simp] theorem Chip.updRec_frm (h : Nat) (f : HandleRec → HandleRec) : (c.updRec h f).frm = c.frm := rfl
@[simp] theorem Chip.updRec_time (h : Nat) (f : HandleRec → HandleRec) : (c.updRec h f).time = c.time := rfl
@[simp] theorem Chip.updRec_gear (h : Nat) (f : HandleRec → HandleRec) : (c.updRec h f).gear = c.gear := rfl
@[simp] theorem Chip.updRec_fab (h : Nat) (f : HandleRec → HandleRec) : (c.updRec h f).fab = c.fab := rfl
@[simp] theorem Chip.updRec_keys (h : Nat) (f : HandleRec → HandleRec) : (c.updRec h f).keys = c.keys := rfl
@[simp] theorem Chip.updRec_sealing (h : Nat) (f : HandleRec → HandleRec) : (c.updRec h f).sealing = c.sealing := rfl
@[simp] theorem Chip.updRec_csys (h : Nat) (f : HandleRec → HandleRec) : (c.updRec h f).csys = c.csys := rfl
@[simp] theorem Chip.updRec_crock (h : Nat) (f : HandleRec → HandleRec) : (c.updRec h f).crock = c.crock := rfl
@[simp] theorem Chip.updRec_disp (h : Nat) (f : HandleRec → HandleRec) : (c.updRec h f).disp = c.disp := rfl
@[simp] theorem Chip.updRec_eth (h : Nat) (f : HandleRec → HandleRec) : (c.updRec h f).eth = c.eth := rfl
@[simp] theorem Chip.updRec_usb (h : Nat) (f : HandleRec → HandleRec) : (c.updRec h f).usb = c.usb := rfl
@[simp] theorem Chip.updRec_leg (h : Nat) (f : HandleRec → HandleRec) : (c.updRec h f).leg = c.leg := rfl
@[simp] theorem Chip.updRec_pwr (h : Nat) (f : HandleRec → HandleRec) : (c.updRec h f).pwr = c.pwr := rfl
@[simp] theorem Chip.updRec_gk (h : Nat) (f : HandleRec → HandleRec) : (c.updRec h f).gk = c.gk := rfl
@[simp] theorem Chip.updRec_life (h : Nat) (f : HandleRec → HandleRec) : (c.updRec h f).life = c.life := rfl
@[simp] theorem Chip.updRec_sram (h : Nat) (f : HandleRec → HandleRec) : (c.updRec h f).sram = c.sram := rfl
@[simp] theorem Chip.updRec_out (h : Nat) (f : HandleRec → HandleRec) : (c.updRec h f).out = c.out := rfl

/-! `commitPoint` -/

@[simp] theorem Chip.commitPoint_clk (h : Nat) : (c.commitPoint h).clk = c.clk := rfl
@[simp] theorem Chip.commitPoint_dev (h : Nat) : (c.commitPoint h).dev = c.dev := rfl
@[simp] theorem Chip.commitPoint_flash (h : Nat) : (c.commitPoint h).flash = c.flash := rfl
@[simp] theorem Chip.commitPoint_cmd (h : Nat) : (c.commitPoint h).cmd = { c.cmd with handles := c.cmd.handles.map fun r => if r.handle = h then { r with committed := true } else r } := rfl
@[simp] theorem Chip.commitPoint_spi (h : Nat) : (c.commitPoint h).spi = c.spi := rfl
@[simp] theorem Chip.commitPoint_host (h : Nat) : (c.commitPoint h).host = c.host := rfl
@[simp] theorem Chip.commitPoint_lane (h : Nat) : (c.commitPoint h).lane = c.lane := rfl
@[simp] theorem Chip.commitPoint_frm (h : Nat) : (c.commitPoint h).frm = c.frm := rfl
@[simp] theorem Chip.commitPoint_time (h : Nat) : (c.commitPoint h).time = c.time := rfl
@[simp] theorem Chip.commitPoint_gear (h : Nat) : (c.commitPoint h).gear = c.gear := rfl
@[simp] theorem Chip.commitPoint_fab (h : Nat) : (c.commitPoint h).fab = c.fab := rfl
@[simp] theorem Chip.commitPoint_keys (h : Nat) : (c.commitPoint h).keys = c.keys := rfl
@[simp] theorem Chip.commitPoint_sealing (h : Nat) : (c.commitPoint h).sealing = c.sealing := rfl
@[simp] theorem Chip.commitPoint_csys (h : Nat) : (c.commitPoint h).csys = c.csys := rfl
@[simp] theorem Chip.commitPoint_crock (h : Nat) : (c.commitPoint h).crock = c.crock := rfl
@[simp] theorem Chip.commitPoint_disp (h : Nat) : (c.commitPoint h).disp = c.disp := rfl
@[simp] theorem Chip.commitPoint_eth (h : Nat) : (c.commitPoint h).eth = c.eth := rfl
@[simp] theorem Chip.commitPoint_usb (h : Nat) : (c.commitPoint h).usb = c.usb := rfl
@[simp] theorem Chip.commitPoint_leg (h : Nat) : (c.commitPoint h).leg = c.leg := rfl
@[simp] theorem Chip.commitPoint_pwr (h : Nat) : (c.commitPoint h).pwr = c.pwr := rfl
@[simp] theorem Chip.commitPoint_gk (h : Nat) : (c.commitPoint h).gk = c.gk := rfl
@[simp] theorem Chip.commitPoint_life (h : Nat) : (c.commitPoint h).life = c.life := rfl
@[simp] theorem Chip.commitPoint_sram (h : Nat) : (c.commitPoint h).sram = c.sram := rfl
@[simp] theorem Chip.commitPoint_out (h : Nat) : (c.commitPoint h).out = c.out := rfl

/-! `setLane` -/

@[simp] theorem Chip.setLane_clk (n : Nat) (l : LanePort) : (c.setLane n l).clk = c.clk := rfl
@[simp] theorem Chip.setLane_dev (n : Nat) (l : LanePort) : (c.setLane n l).dev = c.dev := rfl
@[simp] theorem Chip.setLane_flash (n : Nat) (l : LanePort) : (c.setLane n l).flash = c.flash := rfl
@[simp] theorem Chip.setLane_cmd (n : Nat) (l : LanePort) : (c.setLane n l).cmd = c.cmd := rfl
@[simp] theorem Chip.setLane_spi (n : Nat) (l : LanePort) : (c.setLane n l).spi = c.spi := rfl
@[simp] theorem Chip.setLane_host (n : Nat) (l : LanePort) : (c.setLane n l).host = c.host := rfl
@[simp] theorem Chip.setLane_lane (n : Nat) (l : LanePort) : (c.setLane n l).lane = c.lane.set n l := rfl
@[simp] theorem Chip.setLane_frm (n : Nat) (l : LanePort) : (c.setLane n l).frm = c.frm := rfl
@[simp] theorem Chip.setLane_time (n : Nat) (l : LanePort) : (c.setLane n l).time = c.time := rfl
@[simp] theorem Chip.setLane_gear (n : Nat) (l : LanePort) : (c.setLane n l).gear = c.gear := rfl
@[simp] theorem Chip.setLane_fab (n : Nat) (l : LanePort) : (c.setLane n l).fab = c.fab := rfl
@[simp] theorem Chip.setLane_keys (n : Nat) (l : LanePort) : (c.setLane n l).keys = c.keys := rfl
@[simp] theorem Chip.setLane_sealing (n : Nat) (l : LanePort) : (c.setLane n l).sealing = c.sealing := rfl
@[simp] theorem Chip.setLane_csys (n : Nat) (l : LanePort) : (c.setLane n l).csys = c.csys := rfl
@[simp] theorem Chip.setLane_crock (n : Nat) (l : LanePort) : (c.setLane n l).crock = c.crock := rfl
@[simp] theorem Chip.setLane_disp (n : Nat) (l : LanePort) : (c.setLane n l).disp = c.disp := rfl
@[simp] theorem Chip.setLane_eth (n : Nat) (l : LanePort) : (c.setLane n l).eth = c.eth := rfl
@[simp] theorem Chip.setLane_usb (n : Nat) (l : LanePort) : (c.setLane n l).usb = c.usb := rfl
@[simp] theorem Chip.setLane_leg (n : Nat) (l : LanePort) : (c.setLane n l).leg = c.leg := rfl
@[simp] theorem Chip.setLane_pwr (n : Nat) (l : LanePort) : (c.setLane n l).pwr = c.pwr := rfl
@[simp] theorem Chip.setLane_gk (n : Nat) (l : LanePort) : (c.setLane n l).gk = c.gk := rfl
@[simp] theorem Chip.setLane_life (n : Nat) (l : LanePort) : (c.setLane n l).life = c.life := rfl
@[simp] theorem Chip.setLane_sram (n : Nat) (l : LanePort) : (c.setLane n l).sram = c.sram := rfl
@[simp] theorem Chip.setLane_out (n : Nat) (l : LanePort) : (c.setLane n l).out = c.out := rfl

/-! `setFrm` -/

@[simp] theorem Chip.setFrm_clk (n : Nat) (f : Framing) : (c.setFrm n f).clk = c.clk := rfl
@[simp] theorem Chip.setFrm_dev (n : Nat) (f : Framing) : (c.setFrm n f).dev = c.dev := rfl
@[simp] theorem Chip.setFrm_flash (n : Nat) (f : Framing) : (c.setFrm n f).flash = c.flash := rfl
@[simp] theorem Chip.setFrm_cmd (n : Nat) (f : Framing) : (c.setFrm n f).cmd = c.cmd := rfl
@[simp] theorem Chip.setFrm_spi (n : Nat) (f : Framing) : (c.setFrm n f).spi = c.spi := rfl
@[simp] theorem Chip.setFrm_host (n : Nat) (f : Framing) : (c.setFrm n f).host = c.host := rfl
@[simp] theorem Chip.setFrm_lane (n : Nat) (f : Framing) : (c.setFrm n f).lane = c.lane := rfl
@[simp] theorem Chip.setFrm_frm (n : Nat) (f : Framing) : (c.setFrm n f).frm = c.frm.set n f := rfl
@[simp] theorem Chip.setFrm_time (n : Nat) (f : Framing) : (c.setFrm n f).time = c.time := rfl
@[simp] theorem Chip.setFrm_gear (n : Nat) (f : Framing) : (c.setFrm n f).gear = c.gear := rfl
@[simp] theorem Chip.setFrm_fab (n : Nat) (f : Framing) : (c.setFrm n f).fab = c.fab := rfl
@[simp] theorem Chip.setFrm_keys (n : Nat) (f : Framing) : (c.setFrm n f).keys = c.keys := rfl
@[simp] theorem Chip.setFrm_sealing (n : Nat) (f : Framing) : (c.setFrm n f).sealing = c.sealing := rfl
@[simp] theorem Chip.setFrm_csys (n : Nat) (f : Framing) : (c.setFrm n f).csys = c.csys := rfl
@[simp] theorem Chip.setFrm_crock (n : Nat) (f : Framing) : (c.setFrm n f).crock = c.crock := rfl
@[simp] theorem Chip.setFrm_disp (n : Nat) (f : Framing) : (c.setFrm n f).disp = c.disp := rfl
@[simp] theorem Chip.setFrm_eth (n : Nat) (f : Framing) : (c.setFrm n f).eth = c.eth := rfl
@[simp] theorem Chip.setFrm_usb (n : Nat) (f : Framing) : (c.setFrm n f).usb = c.usb := rfl
@[simp] theorem Chip.setFrm_leg (n : Nat) (f : Framing) : (c.setFrm n f).leg = c.leg := rfl
@[simp] theorem Chip.setFrm_pwr (n : Nat) (f : Framing) : (c.setFrm n f).pwr = c.pwr := rfl
@[simp] theorem Chip.setFrm_gk (n : Nat) (f : Framing) : (c.setFrm n f).gk = c.gk := rfl
@[simp] theorem Chip.setFrm_life (n : Nat) (f : Framing) : (c.setFrm n f).life = c.life := rfl
@[simp] theorem Chip.setFrm_sram (n : Nat) (f : Framing) : (c.setFrm n f).sram = c.sram := rfl
@[simp] theorem Chip.setFrm_out (n : Nat) (f : Framing) : (c.setFrm n f).out = c.out := rfl

/-! `setTp` -/

@[simp] theorem Chip.setTp_clk (n : Nat) (x : TrunkPower) : (c.setTp n x).clk = c.clk := rfl
@[simp] theorem Chip.setTp_dev (n : Nat) (x : TrunkPower) : (c.setTp n x).dev = c.dev := rfl
@[simp] theorem Chip.setTp_flash (n : Nat) (x : TrunkPower) : (c.setTp n x).flash = c.flash := rfl
@[simp] theorem Chip.setTp_cmd (n : Nat) (x : TrunkPower) : (c.setTp n x).cmd = c.cmd := rfl
@[simp] theorem Chip.setTp_spi (n : Nat) (x : TrunkPower) : (c.setTp n x).spi = c.spi := rfl
@[simp] theorem Chip.setTp_host (n : Nat) (x : TrunkPower) : (c.setTp n x).host = c.host := rfl
@[simp] theorem Chip.setTp_lane (n : Nat) (x : TrunkPower) : (c.setTp n x).lane = c.lane := rfl
@[simp] theorem Chip.setTp_frm (n : Nat) (x : TrunkPower) : (c.setTp n x).frm = c.frm := rfl
@[simp] theorem Chip.setTp_time (n : Nat) (x : TrunkPower) : (c.setTp n x).time = c.time := rfl
@[simp] theorem Chip.setTp_gear (n : Nat) (x : TrunkPower) : (c.setTp n x).gear = c.gear := rfl
@[simp] theorem Chip.setTp_fab (n : Nat) (x : TrunkPower) : (c.setTp n x).fab = c.fab := rfl
@[simp] theorem Chip.setTp_keys (n : Nat) (x : TrunkPower) : (c.setTp n x).keys = c.keys := rfl
@[simp] theorem Chip.setTp_sealing (n : Nat) (x : TrunkPower) : (c.setTp n x).sealing = c.sealing := rfl
@[simp] theorem Chip.setTp_csys (n : Nat) (x : TrunkPower) : (c.setTp n x).csys = c.csys := rfl
@[simp] theorem Chip.setTp_crock (n : Nat) (x : TrunkPower) : (c.setTp n x).crock = c.crock := rfl
@[simp] theorem Chip.setTp_disp (n : Nat) (x : TrunkPower) : (c.setTp n x).disp = c.disp := rfl
@[simp] theorem Chip.setTp_eth (n : Nat) (x : TrunkPower) : (c.setTp n x).eth = c.eth := rfl
@[simp] theorem Chip.setTp_usb (n : Nat) (x : TrunkPower) : (c.setTp n x).usb = c.usb := rfl
@[simp] theorem Chip.setTp_leg (n : Nat) (x : TrunkPower) : (c.setTp n x).leg = c.leg := rfl
@[simp] theorem Chip.setTp_pwr (n : Nat) (x : TrunkPower) : (c.setTp n x).pwr = { c.pwr with tp := c.pwr.tp.set n x } := rfl
@[simp] theorem Chip.setTp_gk (n : Nat) (x : TrunkPower) : (c.setTp n x).gk = c.gk := rfl
@[simp] theorem Chip.setTp_life (n : Nat) (x : TrunkPower) : (c.setTp n x).life = c.life := rfl
@[simp] theorem Chip.setTp_sram (n : Nat) (x : TrunkPower) : (c.setTp n x).sram = c.sram := rfl
@[simp] theorem Chip.setTp_out (n : Nat) (x : TrunkPower) : (c.setTp n x).out = c.out := rfl

/-! `setChan` -/

@[simp] theorem Chip.setChan_clk (n : Nat) (x : PowerChan) : (c.setChan n x).clk = c.clk := rfl
@[simp] theorem Chip.setChan_dev (n : Nat) (x : PowerChan) : (c.setChan n x).dev = c.dev := rfl
@[simp] theorem Chip.setChan_flash (n : Nat) (x : PowerChan) : (c.setChan n x).flash = c.flash := rfl
@[simp] theorem Chip.setChan_cmd (n : Nat) (x : PowerChan) : (c.setChan n x).cmd = c.cmd := rfl
@[simp] theorem Chip.setChan_spi (n : Nat) (x : PowerChan) : (c.setChan n x).spi = c.spi := rfl
@[simp] theorem Chip.setChan_host (n : Nat) (x : PowerChan) : (c.setChan n x).host = c.host := rfl
@[simp] theorem Chip.setChan_lane (n : Nat) (x : PowerChan) : (c.setChan n x).lane = c.lane := rfl
@[simp] theorem Chip.setChan_frm (n : Nat) (x : PowerChan) : (c.setChan n x).frm = c.frm := rfl
@[simp] theorem Chip.setChan_time (n : Nat) (x : PowerChan) : (c.setChan n x).time = c.time := rfl
@[simp] theorem Chip.setChan_gear (n : Nat) (x : PowerChan) : (c.setChan n x).gear = c.gear := rfl
@[simp] theorem Chip.setChan_fab (n : Nat) (x : PowerChan) : (c.setChan n x).fab = c.fab := rfl
@[simp] theorem Chip.setChan_keys (n : Nat) (x : PowerChan) : (c.setChan n x).keys = c.keys := rfl
@[simp] theorem Chip.setChan_sealing (n : Nat) (x : PowerChan) : (c.setChan n x).sealing = c.sealing := rfl
@[simp] theorem Chip.setChan_csys (n : Nat) (x : PowerChan) : (c.setChan n x).csys = c.csys := rfl
@[simp] theorem Chip.setChan_crock (n : Nat) (x : PowerChan) : (c.setChan n x).crock = c.crock := rfl
@[simp] theorem Chip.setChan_disp (n : Nat) (x : PowerChan) : (c.setChan n x).disp = c.disp := rfl
@[simp] theorem Chip.setChan_eth (n : Nat) (x : PowerChan) : (c.setChan n x).eth = c.eth := rfl
@[simp] theorem Chip.setChan_usb (n : Nat) (x : PowerChan) : (c.setChan n x).usb = c.usb := rfl
@[simp] theorem Chip.setChan_leg (n : Nat) (x : PowerChan) : (c.setChan n x).leg = c.leg := rfl
@[simp] theorem Chip.setChan_pwr (n : Nat) (x : PowerChan) : (c.setChan n x).pwr = { c.pwr with ch := c.pwr.ch.set n x } := rfl
@[simp] theorem Chip.setChan_gk (n : Nat) (x : PowerChan) : (c.setChan n x).gk = c.gk := rfl
@[simp] theorem Chip.setChan_life (n : Nat) (x : PowerChan) : (c.setChan n x).life = c.life := rfl
@[simp] theorem Chip.setChan_sram (n : Nat) (x : PowerChan) : (c.setChan n x).sram = c.sram := rfl
@[simp] theorem Chip.setChan_out (n : Nat) (x : PowerChan) : (c.setChan n x).out = c.out := rfl

/-! `setPwr` -/

@[simp] theorem Chip.setPwr_clk (f : Power → Power) : (c.setPwr f).clk = c.clk := rfl
@[simp] theorem Chip.setPwr_dev (f : Power → Power) : (c.setPwr f).dev = c.dev := rfl
@[simp] theorem Chip.setPwr_flash (f : Power → Power) : (c.setPwr f).flash = c.flash := rfl
@[simp] theorem Chip.setPwr_cmd (f : Power → Power) : (c.setPwr f).cmd = c.cmd := rfl
@[simp] theorem Chip.setPwr_spi (f : Power → Power) : (c.setPwr f).spi = c.spi := rfl
@[simp] theorem Chip.setPwr_host (f : Power → Power) : (c.setPwr f).host = c.host := rfl
@[simp] theorem Chip.setPwr_lane (f : Power → Power) : (c.setPwr f).lane = c.lane := rfl
@[simp] theorem Chip.setPwr_frm (f : Power → Power) : (c.setPwr f).frm = c.frm := rfl
@[simp] theorem Chip.setPwr_time (f : Power → Power) : (c.setPwr f).time = c.time := rfl
@[simp] theorem Chip.setPwr_gear (f : Power → Power) : (c.setPwr f).gear = c.gear := rfl
@[simp] theorem Chip.setPwr_fab (f : Power → Power) : (c.setPwr f).fab = c.fab := rfl
@[simp] theorem Chip.setPwr_keys (f : Power → Power) : (c.setPwr f).keys = c.keys := rfl
@[simp] theorem Chip.setPwr_sealing (f : Power → Power) : (c.setPwr f).sealing = c.sealing := rfl
@[simp] theorem Chip.setPwr_csys (f : Power → Power) : (c.setPwr f).csys = c.csys := rfl
@[simp] theorem Chip.setPwr_crock (f : Power → Power) : (c.setPwr f).crock = c.crock := rfl
@[simp] theorem Chip.setPwr_disp (f : Power → Power) : (c.setPwr f).disp = c.disp := rfl
@[simp] theorem Chip.setPwr_eth (f : Power → Power) : (c.setPwr f).eth = c.eth := rfl
@[simp] theorem Chip.setPwr_usb (f : Power → Power) : (c.setPwr f).usb = c.usb := rfl
@[simp] theorem Chip.setPwr_leg (f : Power → Power) : (c.setPwr f).leg = c.leg := rfl
@[simp] theorem Chip.setPwr_pwr (f : Power → Power) : (c.setPwr f).pwr = f c.pwr := rfl
@[simp] theorem Chip.setPwr_gk (f : Power → Power) : (c.setPwr f).gk = c.gk := rfl
@[simp] theorem Chip.setPwr_life (f : Power → Power) : (c.setPwr f).life = c.life := rfl
@[simp] theorem Chip.setPwr_sram (f : Power → Power) : (c.setPwr f).sram = c.sram := rfl
@[simp] theorem Chip.setPwr_out (f : Power → Power) : (c.setPwr f).out = c.out := rfl

/-! `setSeal` -/

@[simp] theorem Chip.setSeal_clk (n : Nat) (x : Seal) : (c.setSeal n x).clk = c.clk := rfl
@[simp] theorem Chip.setSeal_dev (n : Nat) (x : Seal) : (c.setSeal n x).dev = c.dev := rfl
@[simp] theorem Chip.setSeal_flash (n : Nat) (x : Seal) : (c.setSeal n x).flash = c.flash := rfl
@[simp] theorem Chip.setSeal_cmd (n : Nat) (x : Seal) : (c.setSeal n x).cmd = c.cmd := rfl
@[simp] theorem Chip.setSeal_spi (n : Nat) (x : Seal) : (c.setSeal n x).spi = c.spi := rfl
@[simp] theorem Chip.setSeal_host (n : Nat) (x : Seal) : (c.setSeal n x).host = c.host := rfl
@[simp] theorem Chip.setSeal_lane (n : Nat) (x : Seal) : (c.setSeal n x).lane = c.lane := rfl
@[simp] theorem Chip.setSeal_frm (n : Nat) (x : Seal) : (c.setSeal n x).frm = c.frm := rfl
@[simp] theorem Chip.setSeal_time (n : Nat) (x : Seal) : (c.setSeal n x).time = c.time := rfl
@[simp] theorem Chip.setSeal_gear (n : Nat) (x : Seal) : (c.setSeal n x).gear = c.gear := rfl
@[simp] theorem Chip.setSeal_fab (n : Nat) (x : Seal) : (c.setSeal n x).fab = c.fab := rfl
@[simp] theorem Chip.setSeal_keys (n : Nat) (x : Seal) : (c.setSeal n x).keys = c.keys := rfl
@[simp] theorem Chip.setSeal_sealing (n : Nat) (x : Seal) : (c.setSeal n x).sealing = c.sealing.set n x := rfl
@[simp] theorem Chip.setSeal_csys (n : Nat) (x : Seal) : (c.setSeal n x).csys = c.csys := rfl
@[simp] theorem Chip.setSeal_crock (n : Nat) (x : Seal) : (c.setSeal n x).crock = c.crock := rfl
@[simp] theorem Chip.setSeal_disp (n : Nat) (x : Seal) : (c.setSeal n x).disp = c.disp := rfl
@[simp] theorem Chip.setSeal_eth (n : Nat) (x : Seal) : (c.setSeal n x).eth = c.eth := rfl
@[simp] theorem Chip.setSeal_usb (n : Nat) (x : Seal) : (c.setSeal n x).usb = c.usb := rfl
@[simp] theorem Chip.setSeal_leg (n : Nat) (x : Seal) : (c.setSeal n x).leg = c.leg := rfl
@[simp] theorem Chip.setSeal_pwr (n : Nat) (x : Seal) : (c.setSeal n x).pwr = c.pwr := rfl
@[simp] theorem Chip.setSeal_gk (n : Nat) (x : Seal) : (c.setSeal n x).gk = c.gk := rfl
@[simp] theorem Chip.setSeal_life (n : Nat) (x : Seal) : (c.setSeal n x).life = c.life := rfl
@[simp] theorem Chip.setSeal_sram (n : Nat) (x : Seal) : (c.setSeal n x).sram = c.sram := rfl
@[simp] theorem Chip.setSeal_out (n : Nat) (x : Seal) : (c.setSeal n x).out = c.out := rfl

/-! `setTun` -/

@[simp] theorem Chip.setTun_clk (n : Nat) (t : Tun) : (c.setTun n t).clk = c.clk := rfl
@[simp] theorem Chip.setTun_dev (n : Nat) (t : Tun) : (c.setTun n t).dev = c.dev := rfl
@[simp] theorem Chip.setTun_flash (n : Nat) (t : Tun) : (c.setTun n t).flash = c.flash := rfl
@[simp] theorem Chip.setTun_cmd (n : Nat) (t : Tun) : (c.setTun n t).cmd = c.cmd := rfl
@[simp] theorem Chip.setTun_spi (n : Nat) (t : Tun) : (c.setTun n t).spi = c.spi := rfl
@[simp] theorem Chip.setTun_host (n : Nat) (t : Tun) : (c.setTun n t).host = c.host := rfl
@[simp] theorem Chip.setTun_lane (n : Nat) (t : Tun) : (c.setTun n t).lane = c.lane := rfl
@[simp] theorem Chip.setTun_frm (n : Nat) (t : Tun) : (c.setTun n t).frm = c.frm := rfl
@[simp] theorem Chip.setTun_time (n : Nat) (t : Tun) : (c.setTun n t).time = c.time := rfl
@[simp] theorem Chip.setTun_gear (n : Nat) (t : Tun) : (c.setTun n t).gear = c.gear := rfl
@[simp] theorem Chip.setTun_fab (n : Nat) (t : Tun) : (c.setTun n t).fab = { c.fab with tun := c.fab.tun.set n t } := rfl
@[simp] theorem Chip.setTun_keys (n : Nat) (t : Tun) : (c.setTun n t).keys = c.keys := rfl
@[simp] theorem Chip.setTun_sealing (n : Nat) (t : Tun) : (c.setTun n t).sealing = c.sealing := rfl
@[simp] theorem Chip.setTun_csys (n : Nat) (t : Tun) : (c.setTun n t).csys = c.csys := rfl
@[simp] theorem Chip.setTun_crock (n : Nat) (t : Tun) : (c.setTun n t).crock = c.crock := rfl
@[simp] theorem Chip.setTun_disp (n : Nat) (t : Tun) : (c.setTun n t).disp = c.disp := rfl
@[simp] theorem Chip.setTun_eth (n : Nat) (t : Tun) : (c.setTun n t).eth = c.eth := rfl
@[simp] theorem Chip.setTun_usb (n : Nat) (t : Tun) : (c.setTun n t).usb = c.usb := rfl
@[simp] theorem Chip.setTun_leg (n : Nat) (t : Tun) : (c.setTun n t).leg = c.leg := rfl
@[simp] theorem Chip.setTun_pwr (n : Nat) (t : Tun) : (c.setTun n t).pwr = c.pwr := rfl
@[simp] theorem Chip.setTun_gk (n : Nat) (t : Tun) : (c.setTun n t).gk = c.gk := rfl
@[simp] theorem Chip.setTun_life (n : Nat) (t : Tun) : (c.setTun n t).life = c.life := rfl
@[simp] theorem Chip.setTun_sram (n : Nat) (t : Tun) : (c.setTun n t).sram = c.sram := rfl
@[simp] theorem Chip.setTun_out (n : Nat) (t : Tun) : (c.setTun n t).out = c.out := rfl

/-! `setPort` -/

@[simp] theorem Chip.setPort_clk (n : Nat) (x : OutPort) : (c.setPort n x).clk = c.clk := rfl
@[simp] theorem Chip.setPort_dev (n : Nat) (x : OutPort) : (c.setPort n x).dev = c.dev := rfl
@[simp] theorem Chip.setPort_flash (n : Nat) (x : OutPort) : (c.setPort n x).flash = c.flash := rfl
@[simp] theorem Chip.setPort_cmd (n : Nat) (x : OutPort) : (c.setPort n x).cmd = c.cmd := rfl
@[simp] theorem Chip.setPort_spi (n : Nat) (x : OutPort) : (c.setPort n x).spi = c.spi := rfl
@[simp] theorem Chip.setPort_host (n : Nat) (x : OutPort) : (c.setPort n x).host = c.host := rfl
@[simp] theorem Chip.setPort_lane (n : Nat) (x : OutPort) : (c.setPort n x).lane = c.lane := rfl
@[simp] theorem Chip.setPort_frm (n : Nat) (x : OutPort) : (c.setPort n x).frm = c.frm := rfl
@[simp] theorem Chip.setPort_time (n : Nat) (x : OutPort) : (c.setPort n x).time = c.time := rfl
@[simp] theorem Chip.setPort_gear (n : Nat) (x : OutPort) : (c.setPort n x).gear = c.gear := rfl
@[simp] theorem Chip.setPort_fab (n : Nat) (x : OutPort) : (c.setPort n x).fab = { c.fab with ports := c.fab.ports.set n x } := rfl
@[simp] theorem Chip.setPort_keys (n : Nat) (x : OutPort) : (c.setPort n x).keys = c.keys := rfl
@[simp] theorem Chip.setPort_sealing (n : Nat) (x : OutPort) : (c.setPort n x).sealing = c.sealing := rfl
@[simp] theorem Chip.setPort_csys (n : Nat) (x : OutPort) : (c.setPort n x).csys = c.csys := rfl
@[simp] theorem Chip.setPort_crock (n : Nat) (x : OutPort) : (c.setPort n x).crock = c.crock := rfl
@[simp] theorem Chip.setPort_disp (n : Nat) (x : OutPort) : (c.setPort n x).disp = c.disp := rfl
@[simp] theorem Chip.setPort_eth (n : Nat) (x : OutPort) : (c.setPort n x).eth = c.eth := rfl
@[simp] theorem Chip.setPort_usb (n : Nat) (x : OutPort) : (c.setPort n x).usb = c.usb := rfl
@[simp] theorem Chip.setPort_leg (n : Nat) (x : OutPort) : (c.setPort n x).leg = c.leg := rfl
@[simp] theorem Chip.setPort_pwr (n : Nat) (x : OutPort) : (c.setPort n x).pwr = c.pwr := rfl
@[simp] theorem Chip.setPort_gk (n : Nat) (x : OutPort) : (c.setPort n x).gk = c.gk := rfl
@[simp] theorem Chip.setPort_life (n : Nat) (x : OutPort) : (c.setPort n x).life = c.life := rfl
@[simp] theorem Chip.setPort_sram (n : Nat) (x : OutPort) : (c.setPort n x).sram = c.sram := rfl
@[simp] theorem Chip.setPort_out (n : Nat) (x : OutPort) : (c.setPort n x).out = c.out := rfl

/-! `setFw` -/

@[simp] theorem Chip.setFw_clk (n t : Nat) (x : FwQueue) : (c.setFw n t x).clk = c.clk := rfl
@[simp] theorem Chip.setFw_dev (n t : Nat) (x : FwQueue) : (c.setFw n t x).dev = c.dev := rfl
@[simp] theorem Chip.setFw_flash (n t : Nat) (x : FwQueue) : (c.setFw n t x).flash = c.flash := rfl
@[simp] theorem Chip.setFw_cmd (n t : Nat) (x : FwQueue) : (c.setFw n t x).cmd = c.cmd := rfl
@[simp] theorem Chip.setFw_spi (n t : Nat) (x : FwQueue) : (c.setFw n t x).spi = c.spi := rfl
@[simp] theorem Chip.setFw_host (n t : Nat) (x : FwQueue) : (c.setFw n t x).host = c.host := rfl
@[simp] theorem Chip.setFw_lane (n t : Nat) (x : FwQueue) : (c.setFw n t x).lane = c.lane := rfl
@[simp] theorem Chip.setFw_frm (n t : Nat) (x : FwQueue) : (c.setFw n t x).frm = c.frm := rfl
@[simp] theorem Chip.setFw_time (n t : Nat) (x : FwQueue) : (c.setFw n t x).time = c.time := rfl
@[simp] theorem Chip.setFw_gear (n t : Nat) (x : FwQueue) : (c.setFw n t x).gear = c.gear := rfl
@[simp] theorem Chip.setFw_fab (n t : Nat) (x : FwQueue) : (c.setFw n t x).fab = { c.fab with fw := c.fab.fw.set (qKey n t) x } := rfl
@[simp] theorem Chip.setFw_keys (n t : Nat) (x : FwQueue) : (c.setFw n t x).keys = c.keys := rfl
@[simp] theorem Chip.setFw_sealing (n t : Nat) (x : FwQueue) : (c.setFw n t x).sealing = c.sealing := rfl
@[simp] theorem Chip.setFw_csys (n t : Nat) (x : FwQueue) : (c.setFw n t x).csys = c.csys := rfl
@[simp] theorem Chip.setFw_crock (n t : Nat) (x : FwQueue) : (c.setFw n t x).crock = c.crock := rfl
@[simp] theorem Chip.setFw_disp (n t : Nat) (x : FwQueue) : (c.setFw n t x).disp = c.disp := rfl
@[simp] theorem Chip.setFw_eth (n t : Nat) (x : FwQueue) : (c.setFw n t x).eth = c.eth := rfl
@[simp] theorem Chip.setFw_usb (n t : Nat) (x : FwQueue) : (c.setFw n t x).usb = c.usb := rfl
@[simp] theorem Chip.setFw_leg (n t : Nat) (x : FwQueue) : (c.setFw n t x).leg = c.leg := rfl
@[simp] theorem Chip.setFw_pwr (n t : Nat) (x : FwQueue) : (c.setFw n t x).pwr = c.pwr := rfl
@[simp] theorem Chip.setFw_gk (n t : Nat) (x : FwQueue) : (c.setFw n t x).gk = c.gk := rfl
@[simp] theorem Chip.setFw_life (n t : Nat) (x : FwQueue) : (c.setFw n t x).life = c.life := rfl
@[simp] theorem Chip.setFw_sram (n t : Nat) (x : FwQueue) : (c.setFw n t x).sram = c.sram := rfl
@[simp] theorem Chip.setFw_out (n t : Nat) (x : FwQueue) : (c.setFw n t x).out = c.out := rfl

/-! `setPot` -/

@[simp] theorem Chip.setPot_clk (f : Stockpot → Stockpot) : (c.setPot f).clk = c.clk := rfl
@[simp] theorem Chip.setPot_dev (f : Stockpot → Stockpot) : (c.setPot f).dev = c.dev := rfl
@[simp] theorem Chip.setPot_flash (f : Stockpot → Stockpot) : (c.setPot f).flash = c.flash := rfl
@[simp] theorem Chip.setPot_cmd (f : Stockpot → Stockpot) : (c.setPot f).cmd = c.cmd := rfl
@[simp] theorem Chip.setPot_spi (f : Stockpot → Stockpot) : (c.setPot f).spi = c.spi := rfl
@[simp] theorem Chip.setPot_host (f : Stockpot → Stockpot) : (c.setPot f).host = c.host := rfl
@[simp] theorem Chip.setPot_lane (f : Stockpot → Stockpot) : (c.setPot f).lane = c.lane := rfl
@[simp] theorem Chip.setPot_frm (f : Stockpot → Stockpot) : (c.setPot f).frm = c.frm := rfl
@[simp] theorem Chip.setPot_time (f : Stockpot → Stockpot) : (c.setPot f).time = c.time := rfl
@[simp] theorem Chip.setPot_gear (f : Stockpot → Stockpot) : (c.setPot f).gear = c.gear := rfl
@[simp] theorem Chip.setPot_fab (f : Stockpot → Stockpot) : (c.setPot f).fab = { c.fab with pot := f c.fab.pot } := rfl
@[simp] theorem Chip.setPot_keys (f : Stockpot → Stockpot) : (c.setPot f).keys = c.keys := rfl
@[simp] theorem Chip.setPot_sealing (f : Stockpot → Stockpot) : (c.setPot f).sealing = c.sealing := rfl
@[simp] theorem Chip.setPot_csys (f : Stockpot → Stockpot) : (c.setPot f).csys = c.csys := rfl
@[simp] theorem Chip.setPot_crock (f : Stockpot → Stockpot) : (c.setPot f).crock = c.crock := rfl
@[simp] theorem Chip.setPot_disp (f : Stockpot → Stockpot) : (c.setPot f).disp = c.disp := rfl
@[simp] theorem Chip.setPot_eth (f : Stockpot → Stockpot) : (c.setPot f).eth = c.eth := rfl
@[simp] theorem Chip.setPot_usb (f : Stockpot → Stockpot) : (c.setPot f).usb = c.usb := rfl
@[simp] theorem Chip.setPot_leg (f : Stockpot → Stockpot) : (c.setPot f).leg = c.leg := rfl
@[simp] theorem Chip.setPot_pwr (f : Stockpot → Stockpot) : (c.setPot f).pwr = c.pwr := rfl
@[simp] theorem Chip.setPot_gk (f : Stockpot → Stockpot) : (c.setPot f).gk = c.gk := rfl
@[simp] theorem Chip.setPot_life (f : Stockpot → Stockpot) : (c.setPot f).life = c.life := rfl
@[simp] theorem Chip.setPot_sram (f : Stockpot → Stockpot) : (c.setPot f).sram = c.sram := rfl
@[simp] theorem Chip.setPot_out (f : Stockpot → Stockpot) : (c.setPot f).out = c.out := rfl

/-! `setRing` -/

@[simp] theorem Chip.setRing_clk (i : Nat) (x : LadleRing) : (c.setRing i x).clk = c.clk := rfl
@[simp] theorem Chip.setRing_dev (i : Nat) (x : LadleRing) : (c.setRing i x).dev = c.dev := rfl
@[simp] theorem Chip.setRing_flash (i : Nat) (x : LadleRing) : (c.setRing i x).flash = c.flash := rfl
@[simp] theorem Chip.setRing_cmd (i : Nat) (x : LadleRing) : (c.setRing i x).cmd = c.cmd := rfl
@[simp] theorem Chip.setRing_spi (i : Nat) (x : LadleRing) : (c.setRing i x).spi = c.spi := rfl
@[simp] theorem Chip.setRing_host (i : Nat) (x : LadleRing) : (c.setRing i x).host = c.host := rfl
@[simp] theorem Chip.setRing_lane (i : Nat) (x : LadleRing) : (c.setRing i x).lane = c.lane := rfl
@[simp] theorem Chip.setRing_frm (i : Nat) (x : LadleRing) : (c.setRing i x).frm = c.frm := rfl
@[simp] theorem Chip.setRing_time (i : Nat) (x : LadleRing) : (c.setRing i x).time = c.time := rfl
@[simp] theorem Chip.setRing_gear (i : Nat) (x : LadleRing) : (c.setRing i x).gear = c.gear := rfl
@[simp] theorem Chip.setRing_fab (i : Nat) (x : LadleRing) : (c.setRing i x).fab = { c.fab with ladle := { c.fab.ladle with rings := c.fab.ladle.rings.set i x } } := rfl
@[simp] theorem Chip.setRing_keys (i : Nat) (x : LadleRing) : (c.setRing i x).keys = c.keys := rfl
@[simp] theorem Chip.setRing_sealing (i : Nat) (x : LadleRing) : (c.setRing i x).sealing = c.sealing := rfl
@[simp] theorem Chip.setRing_csys (i : Nat) (x : LadleRing) : (c.setRing i x).csys = c.csys := rfl
@[simp] theorem Chip.setRing_crock (i : Nat) (x : LadleRing) : (c.setRing i x).crock = c.crock := rfl
@[simp] theorem Chip.setRing_disp (i : Nat) (x : LadleRing) : (c.setRing i x).disp = c.disp := rfl
@[simp] theorem Chip.setRing_eth (i : Nat) (x : LadleRing) : (c.setRing i x).eth = c.eth := rfl
@[simp] theorem Chip.setRing_usb (i : Nat) (x : LadleRing) : (c.setRing i x).usb = c.usb := rfl
@[simp] theorem Chip.setRing_leg (i : Nat) (x : LadleRing) : (c.setRing i x).leg = c.leg := rfl
@[simp] theorem Chip.setRing_pwr (i : Nat) (x : LadleRing) : (c.setRing i x).pwr = c.pwr := rfl
@[simp] theorem Chip.setRing_gk (i : Nat) (x : LadleRing) : (c.setRing i x).gk = c.gk := rfl
@[simp] theorem Chip.setRing_life (i : Nat) (x : LadleRing) : (c.setRing i x).life = c.life := rfl
@[simp] theorem Chip.setRing_sram (i : Nat) (x : LadleRing) : (c.setRing i x).sram = c.sram := rfl
@[simp] theorem Chip.setRing_out (i : Nat) (x : LadleRing) : (c.setRing i x).out = c.out := rfl

/-! `setGslot` -/

@[simp] theorem Chip.setGslot_clk (i : Nat) (x : GearSlot) : (c.setGslot i x).clk = c.clk := rfl
@[simp] theorem Chip.setGslot_dev (i : Nat) (x : GearSlot) : (c.setGslot i x).dev = c.dev := rfl
@[simp] theorem Chip.setGslot_flash (i : Nat) (x : GearSlot) : (c.setGslot i x).flash = c.flash := rfl
@[simp] theorem Chip.setGslot_cmd (i : Nat) (x : GearSlot) : (c.setGslot i x).cmd = c.cmd := rfl
@[simp] theorem Chip.setGslot_spi (i : Nat) (x : GearSlot) : (c.setGslot i x).spi = c.spi := rfl
@[simp] theorem Chip.setGslot_host (i : Nat) (x : GearSlot) : (c.setGslot i x).host = c.host := rfl
@[simp] theorem Chip.setGslot_lane (i : Nat) (x : GearSlot) : (c.setGslot i x).lane = c.lane := rfl
@[simp] theorem Chip.setGslot_frm (i : Nat) (x : GearSlot) : (c.setGslot i x).frm = c.frm := rfl
@[simp] theorem Chip.setGslot_time (i : Nat) (x : GearSlot) : (c.setGslot i x).time = c.time := rfl
@[simp] theorem Chip.setGslot_gear (i : Nat) (x : GearSlot) : (c.setGslot i x).gear = { c.gear with slots := c.gear.slots.set i x } := rfl
@[simp] theorem Chip.setGslot_fab (i : Nat) (x : GearSlot) : (c.setGslot i x).fab = c.fab := rfl
@[simp] theorem Chip.setGslot_keys (i : Nat) (x : GearSlot) : (c.setGslot i x).keys = c.keys := rfl
@[simp] theorem Chip.setGslot_sealing (i : Nat) (x : GearSlot) : (c.setGslot i x).sealing = c.sealing := rfl
@[simp] theorem Chip.setGslot_csys (i : Nat) (x : GearSlot) : (c.setGslot i x).csys = c.csys := rfl
@[simp] theorem Chip.setGslot_crock (i : Nat) (x : GearSlot) : (c.setGslot i x).crock = c.crock := rfl
@[simp] theorem Chip.setGslot_disp (i : Nat) (x : GearSlot) : (c.setGslot i x).disp = c.disp := rfl
@[simp] theorem Chip.setGslot_eth (i : Nat) (x : GearSlot) : (c.setGslot i x).eth = c.eth := rfl
@[simp] theorem Chip.setGslot_usb (i : Nat) (x : GearSlot) : (c.setGslot i x).usb = c.usb := rfl
@[simp] theorem Chip.setGslot_leg (i : Nat) (x : GearSlot) : (c.setGslot i x).leg = c.leg := rfl
@[simp] theorem Chip.setGslot_pwr (i : Nat) (x : GearSlot) : (c.setGslot i x).pwr = c.pwr := rfl
@[simp] theorem Chip.setGslot_gk (i : Nat) (x : GearSlot) : (c.setGslot i x).gk = c.gk := rfl
@[simp] theorem Chip.setGslot_life (i : Nat) (x : GearSlot) : (c.setGslot i x).life = c.life := rfl
@[simp] theorem Chip.setGslot_sram (i : Nat) (x : GearSlot) : (c.setGslot i x).sram = c.sram := rfl
@[simp] theorem Chip.setGslot_out (i : Nat) (x : GearSlot) : (c.setGslot i x).out = c.out := rfl

/-! `setGear` -/

@[simp] theorem Chip.setGear_clk (f : Gears → Gears) : (c.setGear f).clk = c.clk := rfl
@[simp] theorem Chip.setGear_dev (f : Gears → Gears) : (c.setGear f).dev = c.dev := rfl
@[simp] theorem Chip.setGear_flash (f : Gears → Gears) : (c.setGear f).flash = c.flash := rfl
@[simp] theorem Chip.setGear_cmd (f : Gears → Gears) : (c.setGear f).cmd = c.cmd := rfl
@[simp] theorem Chip.setGear_spi (f : Gears → Gears) : (c.setGear f).spi = c.spi := rfl
@[simp] theorem Chip.setGear_host (f : Gears → Gears) : (c.setGear f).host = c.host := rfl
@[simp] theorem Chip.setGear_lane (f : Gears → Gears) : (c.setGear f).lane = c.lane := rfl
@[simp] theorem Chip.setGear_frm (f : Gears → Gears) : (c.setGear f).frm = c.frm := rfl
@[simp] theorem Chip.setGear_time (f : Gears → Gears) : (c.setGear f).time = c.time := rfl
@[simp] theorem Chip.setGear_gear (f : Gears → Gears) : (c.setGear f).gear = f c.gear := rfl
@[simp] theorem Chip.setGear_fab (f : Gears → Gears) : (c.setGear f).fab = c.fab := rfl
@[simp] theorem Chip.setGear_keys (f : Gears → Gears) : (c.setGear f).keys = c.keys := rfl
@[simp] theorem Chip.setGear_sealing (f : Gears → Gears) : (c.setGear f).sealing = c.sealing := rfl
@[simp] theorem Chip.setGear_csys (f : Gears → Gears) : (c.setGear f).csys = c.csys := rfl
@[simp] theorem Chip.setGear_crock (f : Gears → Gears) : (c.setGear f).crock = c.crock := rfl
@[simp] theorem Chip.setGear_disp (f : Gears → Gears) : (c.setGear f).disp = c.disp := rfl
@[simp] theorem Chip.setGear_eth (f : Gears → Gears) : (c.setGear f).eth = c.eth := rfl
@[simp] theorem Chip.setGear_usb (f : Gears → Gears) : (c.setGear f).usb = c.usb := rfl
@[simp] theorem Chip.setGear_leg (f : Gears → Gears) : (c.setGear f).leg = c.leg := rfl
@[simp] theorem Chip.setGear_pwr (f : Gears → Gears) : (c.setGear f).pwr = c.pwr := rfl
@[simp] theorem Chip.setGear_gk (f : Gears → Gears) : (c.setGear f).gk = c.gk := rfl
@[simp] theorem Chip.setGear_life (f : Gears → Gears) : (c.setGear f).life = c.life := rfl
@[simp] theorem Chip.setGear_sram (f : Gears → Gears) : (c.setGear f).sram = c.sram := rfl
@[simp] theorem Chip.setGear_out (f : Gears → Gears) : (c.setGear f).out = c.out := rfl

/-! `setTime` -/

@[simp] theorem Chip.setTime_clk (f : TimeUnit → TimeUnit) : (c.setTime f).clk = c.clk := rfl
@[simp] theorem Chip.setTime_dev (f : TimeUnit → TimeUnit) : (c.setTime f).dev = c.dev := rfl
@[simp] theorem Chip.setTime_flash (f : TimeUnit → TimeUnit) : (c.setTime f).flash = c.flash := rfl
@[simp] theorem Chip.setTime_cmd (f : TimeUnit → TimeUnit) : (c.setTime f).cmd = c.cmd := rfl
@[simp] theorem Chip.setTime_spi (f : TimeUnit → TimeUnit) : (c.setTime f).spi = c.spi := rfl
@[simp] theorem Chip.setTime_host (f : TimeUnit → TimeUnit) : (c.setTime f).host = c.host := rfl
@[simp] theorem Chip.setTime_lane (f : TimeUnit → TimeUnit) : (c.setTime f).lane = c.lane := rfl
@[simp] theorem Chip.setTime_frm (f : TimeUnit → TimeUnit) : (c.setTime f).frm = c.frm := rfl
@[simp] theorem Chip.setTime_time (f : TimeUnit → TimeUnit) : (c.setTime f).time = f c.time := rfl
@[simp] theorem Chip.setTime_gear (f : TimeUnit → TimeUnit) : (c.setTime f).gear = c.gear := rfl
@[simp] theorem Chip.setTime_fab (f : TimeUnit → TimeUnit) : (c.setTime f).fab = c.fab := rfl
@[simp] theorem Chip.setTime_keys (f : TimeUnit → TimeUnit) : (c.setTime f).keys = c.keys := rfl
@[simp] theorem Chip.setTime_sealing (f : TimeUnit → TimeUnit) : (c.setTime f).sealing = c.sealing := rfl
@[simp] theorem Chip.setTime_csys (f : TimeUnit → TimeUnit) : (c.setTime f).csys = c.csys := rfl
@[simp] theorem Chip.setTime_crock (f : TimeUnit → TimeUnit) : (c.setTime f).crock = c.crock := rfl
@[simp] theorem Chip.setTime_disp (f : TimeUnit → TimeUnit) : (c.setTime f).disp = c.disp := rfl
@[simp] theorem Chip.setTime_eth (f : TimeUnit → TimeUnit) : (c.setTime f).eth = c.eth := rfl
@[simp] theorem Chip.setTime_usb (f : TimeUnit → TimeUnit) : (c.setTime f).usb = c.usb := rfl
@[simp] theorem Chip.setTime_leg (f : TimeUnit → TimeUnit) : (c.setTime f).leg = c.leg := rfl
@[simp] theorem Chip.setTime_pwr (f : TimeUnit → TimeUnit) : (c.setTime f).pwr = c.pwr := rfl
@[simp] theorem Chip.setTime_gk (f : TimeUnit → TimeUnit) : (c.setTime f).gk = c.gk := rfl
@[simp] theorem Chip.setTime_life (f : TimeUnit → TimeUnit) : (c.setTime f).life = c.life := rfl
@[simp] theorem Chip.setTime_sram (f : TimeUnit → TimeUnit) : (c.setTime f).sram = c.sram := rfl
@[simp] theorem Chip.setTime_out (f : TimeUnit → TimeUnit) : (c.setTime f).out = c.out := rfl

/-! `setPtp` -/

@[simp] theorem Chip.setPtp_clk (n : Nat) (p : PtpPort) : (c.setPtp n p).clk = c.clk := rfl
@[simp] theorem Chip.setPtp_dev (n : Nat) (p : PtpPort) : (c.setPtp n p).dev = c.dev := rfl
@[simp] theorem Chip.setPtp_flash (n : Nat) (p : PtpPort) : (c.setPtp n p).flash = c.flash := rfl
@[simp] theorem Chip.setPtp_cmd (n : Nat) (p : PtpPort) : (c.setPtp n p).cmd = c.cmd := rfl
@[simp] theorem Chip.setPtp_spi (n : Nat) (p : PtpPort) : (c.setPtp n p).spi = c.spi := rfl
@[simp] theorem Chip.setPtp_host (n : Nat) (p : PtpPort) : (c.setPtp n p).host = c.host := rfl
@[simp] theorem Chip.setPtp_lane (n : Nat) (p : PtpPort) : (c.setPtp n p).lane = c.lane := rfl
@[simp] theorem Chip.setPtp_frm (n : Nat) (p : PtpPort) : (c.setPtp n p).frm = c.frm := rfl
@[simp] theorem Chip.setPtp_time (n : Nat) (p : PtpPort) : (c.setPtp n p).time = { c.time with ptp := c.time.ptp.set n p } := rfl
@[simp] theorem Chip.setPtp_gear (n : Nat) (p : PtpPort) : (c.setPtp n p).gear = c.gear := rfl
@[simp] theorem Chip.setPtp_fab (n : Nat) (p : PtpPort) : (c.setPtp n p).fab = c.fab := rfl
@[simp] theorem Chip.setPtp_keys (n : Nat) (p : PtpPort) : (c.setPtp n p).keys = c.keys := rfl
@[simp] theorem Chip.setPtp_sealing (n : Nat) (p : PtpPort) : (c.setPtp n p).sealing = c.sealing := rfl
@[simp] theorem Chip.setPtp_csys (n : Nat) (p : PtpPort) : (c.setPtp n p).csys = c.csys := rfl
@[simp] theorem Chip.setPtp_crock (n : Nat) (p : PtpPort) : (c.setPtp n p).crock = c.crock := rfl
@[simp] theorem Chip.setPtp_disp (n : Nat) (p : PtpPort) : (c.setPtp n p).disp = c.disp := rfl
@[simp] theorem Chip.setPtp_eth (n : Nat) (p : PtpPort) : (c.setPtp n p).eth = c.eth := rfl
@[simp] theorem Chip.setPtp_usb (n : Nat) (p : PtpPort) : (c.setPtp n p).usb = c.usb := rfl
@[simp] theorem Chip.setPtp_leg (n : Nat) (p : PtpPort) : (c.setPtp n p).leg = c.leg := rfl
@[simp] theorem Chip.setPtp_pwr (n : Nat) (p : PtpPort) : (c.setPtp n p).pwr = c.pwr := rfl
@[simp] theorem Chip.setPtp_gk (n : Nat) (p : PtpPort) : (c.setPtp n p).gk = c.gk := rfl
@[simp] theorem Chip.setPtp_life (n : Nat) (p : PtpPort) : (c.setPtp n p).life = c.life := rfl
@[simp] theorem Chip.setPtp_sram (n : Nat) (p : PtpPort) : (c.setPtp n p).sram = c.sram := rfl
@[simp] theorem Chip.setPtp_out (n : Nat) (p : PtpPort) : (c.setPtp n p).out = c.out := rfl

/-! `setKeys` -/

@[simp] theorem Chip.setKeys_clk (f : Keys → Keys) : (c.setKeys f).clk = c.clk := rfl
@[simp] theorem Chip.setKeys_dev (f : Keys → Keys) : (c.setKeys f).dev = c.dev := rfl
@[simp] theorem Chip.setKeys_flash (f : Keys → Keys) : (c.setKeys f).flash = c.flash := rfl
@[simp] theorem Chip.setKeys_cmd (f : Keys → Keys) : (c.setKeys f).cmd = c.cmd := rfl
@[simp] theorem Chip.setKeys_spi (f : Keys → Keys) : (c.setKeys f).spi = c.spi := rfl
@[simp] theorem Chip.setKeys_host (f : Keys → Keys) : (c.setKeys f).host = c.host := rfl
@[simp] theorem Chip.setKeys_lane (f : Keys → Keys) : (c.setKeys f).lane = c.lane := rfl
@[simp] theorem Chip.setKeys_frm (f : Keys → Keys) : (c.setKeys f).frm = c.frm := rfl
@[simp] theorem Chip.setKeys_time (f : Keys → Keys) : (c.setKeys f).time = c.time := rfl
@[simp] theorem Chip.setKeys_gear (f : Keys → Keys) : (c.setKeys f).gear = c.gear := rfl
@[simp] theorem Chip.setKeys_fab (f : Keys → Keys) : (c.setKeys f).fab = c.fab := rfl
@[simp] theorem Chip.setKeys_keys (f : Keys → Keys) : (c.setKeys f).keys = f c.keys := rfl
@[simp] theorem Chip.setKeys_sealing (f : Keys → Keys) : (c.setKeys f).sealing = c.sealing := rfl
@[simp] theorem Chip.setKeys_csys (f : Keys → Keys) : (c.setKeys f).csys = c.csys := rfl
@[simp] theorem Chip.setKeys_crock (f : Keys → Keys) : (c.setKeys f).crock = c.crock := rfl
@[simp] theorem Chip.setKeys_disp (f : Keys → Keys) : (c.setKeys f).disp = c.disp := rfl
@[simp] theorem Chip.setKeys_eth (f : Keys → Keys) : (c.setKeys f).eth = c.eth := rfl
@[simp] theorem Chip.setKeys_usb (f : Keys → Keys) : (c.setKeys f).usb = c.usb := rfl
@[simp] theorem Chip.setKeys_leg (f : Keys → Keys) : (c.setKeys f).leg = c.leg := rfl
@[simp] theorem Chip.setKeys_pwr (f : Keys → Keys) : (c.setKeys f).pwr = c.pwr := rfl
@[simp] theorem Chip.setKeys_gk (f : Keys → Keys) : (c.setKeys f).gk = c.gk := rfl
@[simp] theorem Chip.setKeys_life (f : Keys → Keys) : (c.setKeys f).life = c.life := rfl
@[simp] theorem Chip.setKeys_sram (f : Keys → Keys) : (c.setKeys f).sram = c.sram := rfl
@[simp] theorem Chip.setKeys_out (f : Keys → Keys) : (c.setKeys f).out = c.out := rfl

/-! `setCrock` -/

@[simp] theorem Chip.setCrock_clk (f : Crock → Crock) : (c.setCrock f).clk = c.clk := rfl
@[simp] theorem Chip.setCrock_dev (f : Crock → Crock) : (c.setCrock f).dev = c.dev := rfl
@[simp] theorem Chip.setCrock_flash (f : Crock → Crock) : (c.setCrock f).flash = c.flash := rfl
@[simp] theorem Chip.setCrock_cmd (f : Crock → Crock) : (c.setCrock f).cmd = c.cmd := rfl
@[simp] theorem Chip.setCrock_spi (f : Crock → Crock) : (c.setCrock f).spi = c.spi := rfl
@[simp] theorem Chip.setCrock_host (f : Crock → Crock) : (c.setCrock f).host = c.host := rfl
@[simp] theorem Chip.setCrock_lane (f : Crock → Crock) : (c.setCrock f).lane = c.lane := rfl
@[simp] theorem Chip.setCrock_frm (f : Crock → Crock) : (c.setCrock f).frm = c.frm := rfl
@[simp] theorem Chip.setCrock_time (f : Crock → Crock) : (c.setCrock f).time = c.time := rfl
@[simp] theorem Chip.setCrock_gear (f : Crock → Crock) : (c.setCrock f).gear = c.gear := rfl
@[simp] theorem Chip.setCrock_fab (f : Crock → Crock) : (c.setCrock f).fab = c.fab := rfl
@[simp] theorem Chip.setCrock_keys (f : Crock → Crock) : (c.setCrock f).keys = c.keys := rfl
@[simp] theorem Chip.setCrock_sealing (f : Crock → Crock) : (c.setCrock f).sealing = c.sealing := rfl
@[simp] theorem Chip.setCrock_csys (f : Crock → Crock) : (c.setCrock f).csys = c.csys := rfl
@[simp] theorem Chip.setCrock_crock (f : Crock → Crock) : (c.setCrock f).crock = f c.crock := rfl
@[simp] theorem Chip.setCrock_disp (f : Crock → Crock) : (c.setCrock f).disp = c.disp := rfl
@[simp] theorem Chip.setCrock_eth (f : Crock → Crock) : (c.setCrock f).eth = c.eth := rfl
@[simp] theorem Chip.setCrock_usb (f : Crock → Crock) : (c.setCrock f).usb = c.usb := rfl
@[simp] theorem Chip.setCrock_leg (f : Crock → Crock) : (c.setCrock f).leg = c.leg := rfl
@[simp] theorem Chip.setCrock_pwr (f : Crock → Crock) : (c.setCrock f).pwr = c.pwr := rfl
@[simp] theorem Chip.setCrock_gk (f : Crock → Crock) : (c.setCrock f).gk = c.gk := rfl
@[simp] theorem Chip.setCrock_life (f : Crock → Crock) : (c.setCrock f).life = c.life := rfl
@[simp] theorem Chip.setCrock_sram (f : Crock → Crock) : (c.setCrock f).sram = c.sram := rfl
@[simp] theorem Chip.setCrock_out (f : Crock → Crock) : (c.setCrock f).out = c.out := rfl

/-! `setNand` -/

@[simp] theorem Chip.setNand_clk (f : Nand → Nand) : (c.setNand f).clk = c.clk := rfl
@[simp] theorem Chip.setNand_dev (f : Nand → Nand) : (c.setNand f).dev = c.dev := rfl
@[simp] theorem Chip.setNand_flash (f : Nand → Nand) : (c.setNand f).flash = c.flash := rfl
@[simp] theorem Chip.setNand_cmd (f : Nand → Nand) : (c.setNand f).cmd = c.cmd := rfl
@[simp] theorem Chip.setNand_spi (f : Nand → Nand) : (c.setNand f).spi = c.spi := rfl
@[simp] theorem Chip.setNand_host (f : Nand → Nand) : (c.setNand f).host = c.host := rfl
@[simp] theorem Chip.setNand_lane (f : Nand → Nand) : (c.setNand f).lane = c.lane := rfl
@[simp] theorem Chip.setNand_frm (f : Nand → Nand) : (c.setNand f).frm = c.frm := rfl
@[simp] theorem Chip.setNand_time (f : Nand → Nand) : (c.setNand f).time = c.time := rfl
@[simp] theorem Chip.setNand_gear (f : Nand → Nand) : (c.setNand f).gear = c.gear := rfl
@[simp] theorem Chip.setNand_fab (f : Nand → Nand) : (c.setNand f).fab = c.fab := rfl
@[simp] theorem Chip.setNand_keys (f : Nand → Nand) : (c.setNand f).keys = c.keys := rfl
@[simp] theorem Chip.setNand_sealing (f : Nand → Nand) : (c.setNand f).sealing = c.sealing := rfl
@[simp] theorem Chip.setNand_csys (f : Nand → Nand) : (c.setNand f).csys = { c.csys with nand := f c.csys.nand } := rfl
@[simp] theorem Chip.setNand_crock (f : Nand → Nand) : (c.setNand f).crock = c.crock := rfl
@[simp] theorem Chip.setNand_disp (f : Nand → Nand) : (c.setNand f).disp = c.disp := rfl
@[simp] theorem Chip.setNand_eth (f : Nand → Nand) : (c.setNand f).eth = c.eth := rfl
@[simp] theorem Chip.setNand_usb (f : Nand → Nand) : (c.setNand f).usb = c.usb := rfl
@[simp] theorem Chip.setNand_leg (f : Nand → Nand) : (c.setNand f).leg = c.leg := rfl
@[simp] theorem Chip.setNand_pwr (f : Nand → Nand) : (c.setNand f).pwr = c.pwr := rfl
@[simp] theorem Chip.setNand_gk (f : Nand → Nand) : (c.setNand f).gk = c.gk := rfl
@[simp] theorem Chip.setNand_life (f : Nand → Nand) : (c.setNand f).life = c.life := rfl
@[simp] theorem Chip.setNand_sram (f : Nand → Nand) : (c.setNand f).sram = c.sram := rfl
@[simp] theorem Chip.setNand_out (f : Nand → Nand) : (c.setNand f).out = c.out := rfl

/-! `setVol` -/

@[simp] theorem Chip.setVol_clk (v : Nat) (x : Volume) : (c.setVol v x).clk = c.clk := rfl
@[simp] theorem Chip.setVol_dev (v : Nat) (x : Volume) : (c.setVol v x).dev = c.dev := rfl
@[simp] theorem Chip.setVol_flash (v : Nat) (x : Volume) : (c.setVol v x).flash = c.flash := rfl
@[simp] theorem Chip.setVol_cmd (v : Nat) (x : Volume) : (c.setVol v x).cmd = c.cmd := rfl
@[simp] theorem Chip.setVol_spi (v : Nat) (x : Volume) : (c.setVol v x).spi = c.spi := rfl
@[simp] theorem Chip.setVol_host (v : Nat) (x : Volume) : (c.setVol v x).host = c.host := rfl
@[simp] theorem Chip.setVol_lane (v : Nat) (x : Volume) : (c.setVol v x).lane = c.lane := rfl
@[simp] theorem Chip.setVol_frm (v : Nat) (x : Volume) : (c.setVol v x).frm = c.frm := rfl
@[simp] theorem Chip.setVol_time (v : Nat) (x : Volume) : (c.setVol v x).time = c.time := rfl
@[simp] theorem Chip.setVol_gear (v : Nat) (x : Volume) : (c.setVol v x).gear = c.gear := rfl
@[simp] theorem Chip.setVol_fab (v : Nat) (x : Volume) : (c.setVol v x).fab = c.fab := rfl
@[simp] theorem Chip.setVol_keys (v : Nat) (x : Volume) : (c.setVol v x).keys = c.keys := rfl
@[simp] theorem Chip.setVol_sealing (v : Nat) (x : Volume) : (c.setVol v x).sealing = c.sealing := rfl
@[simp] theorem Chip.setVol_csys (v : Nat) (x : Volume) : (c.setVol v x).csys = { c.csys with nand := { c.csys.nand with vols := c.csys.nand.vols.set v x } } := rfl
@[simp] theorem Chip.setVol_crock (v : Nat) (x : Volume) : (c.setVol v x).crock = c.crock := rfl
@[simp] theorem Chip.setVol_disp (v : Nat) (x : Volume) : (c.setVol v x).disp = c.disp := rfl
@[simp] theorem Chip.setVol_eth (v : Nat) (x : Volume) : (c.setVol v x).eth = c.eth := rfl
@[simp] theorem Chip.setVol_usb (v : Nat) (x : Volume) : (c.setVol v x).usb = c.usb := rfl
@[simp] theorem Chip.setVol_leg (v : Nat) (x : Volume) : (c.setVol v x).leg = c.leg := rfl
@[simp] theorem Chip.setVol_pwr (v : Nat) (x : Volume) : (c.setVol v x).pwr = c.pwr := rfl
@[simp] theorem Chip.setVol_gk (v : Nat) (x : Volume) : (c.setVol v x).gk = c.gk := rfl
@[simp] theorem Chip.setVol_life (v : Nat) (x : Volume) : (c.setVol v x).life = c.life := rfl
@[simp] theorem Chip.setVol_sram (v : Nat) (x : Volume) : (c.setVol v x).sram = c.sram := rfl
@[simp] theorem Chip.setVol_out (v : Nat) (x : Volume) : (c.setVol v x).out = c.out := rfl

/-! `setHub` -/

@[simp] theorem Chip.setHub_clk (h : Nat) (x : HubHead) : (c.setHub h x).clk = c.clk := rfl
@[simp] theorem Chip.setHub_dev (h : Nat) (x : HubHead) : (c.setHub h x).dev = c.dev := rfl
@[simp] theorem Chip.setHub_flash (h : Nat) (x : HubHead) : (c.setHub h x).flash = c.flash := rfl
@[simp] theorem Chip.setHub_cmd (h : Nat) (x : HubHead) : (c.setHub h x).cmd = c.cmd := rfl
@[simp] theorem Chip.setHub_spi (h : Nat) (x : HubHead) : (c.setHub h x).spi = c.spi := rfl
@[simp] theorem Chip.setHub_host (h : Nat) (x : HubHead) : (c.setHub h x).host = c.host := rfl
@[simp] theorem Chip.setHub_lane (h : Nat) (x : HubHead) : (c.setHub h x).lane = c.lane := rfl
@[simp] theorem Chip.setHub_frm (h : Nat) (x : HubHead) : (c.setHub h x).frm = c.frm := rfl
@[simp] theorem Chip.setHub_time (h : Nat) (x : HubHead) : (c.setHub h x).time = c.time := rfl
@[simp] theorem Chip.setHub_gear (h : Nat) (x : HubHead) : (c.setHub h x).gear = c.gear := rfl
@[simp] theorem Chip.setHub_fab (h : Nat) (x : HubHead) : (c.setHub h x).fab = c.fab := rfl
@[simp] theorem Chip.setHub_keys (h : Nat) (x : HubHead) : (c.setHub h x).keys = c.keys := rfl
@[simp] theorem Chip.setHub_sealing (h : Nat) (x : HubHead) : (c.setHub h x).sealing = c.sealing := rfl
@[simp] theorem Chip.setHub_csys (h : Nat) (x : HubHead) : (c.setHub h x).csys = c.csys := rfl
@[simp] theorem Chip.setHub_crock (h : Nat) (x : HubHead) : (c.setHub h x).crock = c.crock := rfl
@[simp] theorem Chip.setHub_disp (h : Nat) (x : HubHead) : (c.setHub h x).disp = { c.disp with hub := c.disp.hub.set h x } := rfl
@[simp] theorem Chip.setHub_eth (h : Nat) (x : HubHead) : (c.setHub h x).eth = c.eth := rfl
@[simp] theorem Chip.setHub_usb (h : Nat) (x : HubHead) : (c.setHub h x).usb = c.usb := rfl
@[simp] theorem Chip.setHub_leg (h : Nat) (x : HubHead) : (c.setHub h x).leg = c.leg := rfl
@[simp] theorem Chip.setHub_pwr (h : Nat) (x : HubHead) : (c.setHub h x).pwr = c.pwr := rfl
@[simp] theorem Chip.setHub_gk (h : Nat) (x : HubHead) : (c.setHub h x).gk = c.gk := rfl
@[simp] theorem Chip.setHub_life (h : Nat) (x : HubHead) : (c.setHub h x).life = c.life := rfl
@[simp] theorem Chip.setHub_sram (h : Nat) (x : HubHead) : (c.setHub h x).sram = c.sram := rfl
@[simp] theorem Chip.setHub_out (h : Nat) (x : HubHead) : (c.setHub h x).out = c.out := rfl

/-! `setDock` -/

@[simp] theorem Chip.setDock_clk (h : Nat) (x : DockHead) : (c.setDock h x).clk = c.clk := rfl
@[simp] theorem Chip.setDock_dev (h : Nat) (x : DockHead) : (c.setDock h x).dev = c.dev := rfl
@[simp] theorem Chip.setDock_flash (h : Nat) (x : DockHead) : (c.setDock h x).flash = c.flash := rfl
@[simp] theorem Chip.setDock_cmd (h : Nat) (x : DockHead) : (c.setDock h x).cmd = c.cmd := rfl
@[simp] theorem Chip.setDock_spi (h : Nat) (x : DockHead) : (c.setDock h x).spi = c.spi := rfl
@[simp] theorem Chip.setDock_host (h : Nat) (x : DockHead) : (c.setDock h x).host = c.host := rfl
@[simp] theorem Chip.setDock_lane (h : Nat) (x : DockHead) : (c.setDock h x).lane = c.lane := rfl
@[simp] theorem Chip.setDock_frm (h : Nat) (x : DockHead) : (c.setDock h x).frm = c.frm := rfl
@[simp] theorem Chip.setDock_time (h : Nat) (x : DockHead) : (c.setDock h x).time = c.time := rfl
@[simp] theorem Chip.setDock_gear (h : Nat) (x : DockHead) : (c.setDock h x).gear = c.gear := rfl
@[simp] theorem Chip.setDock_fab (h : Nat) (x : DockHead) : (c.setDock h x).fab = c.fab := rfl
@[simp] theorem Chip.setDock_keys (h : Nat) (x : DockHead) : (c.setDock h x).keys = c.keys := rfl
@[simp] theorem Chip.setDock_sealing (h : Nat) (x : DockHead) : (c.setDock h x).sealing = c.sealing := rfl
@[simp] theorem Chip.setDock_csys (h : Nat) (x : DockHead) : (c.setDock h x).csys = c.csys := rfl
@[simp] theorem Chip.setDock_crock (h : Nat) (x : DockHead) : (c.setDock h x).crock = c.crock := rfl
@[simp] theorem Chip.setDock_disp (h : Nat) (x : DockHead) : (c.setDock h x).disp = { c.disp with dock := c.disp.dock.set h x } := rfl
@[simp] theorem Chip.setDock_eth (h : Nat) (x : DockHead) : (c.setDock h x).eth = c.eth := rfl
@[simp] theorem Chip.setDock_usb (h : Nat) (x : DockHead) : (c.setDock h x).usb = c.usb := rfl
@[simp] theorem Chip.setDock_leg (h : Nat) (x : DockHead) : (c.setDock h x).leg = c.leg := rfl
@[simp] theorem Chip.setDock_pwr (h : Nat) (x : DockHead) : (c.setDock h x).pwr = c.pwr := rfl
@[simp] theorem Chip.setDock_gk (h : Nat) (x : DockHead) : (c.setDock h x).gk = c.gk := rfl
@[simp] theorem Chip.setDock_life (h : Nat) (x : DockHead) : (c.setDock h x).life = c.life := rfl
@[simp] theorem Chip.setDock_sram (h : Nat) (x : DockHead) : (c.setDock h x).sram = c.sram := rfl
@[simp] theorem Chip.setDock_out (h : Nat) (x : DockHead) : (c.setDock h x).out = c.out := rfl

/-! `setEth` -/

@[simp] theorem Chip.setEth_clk (f : Eth → Eth) : (c.setEth f).clk = c.clk := rfl
@[simp] theorem Chip.setEth_dev (f : Eth → Eth) : (c.setEth f).dev = c.dev := rfl
@[simp] theorem Chip.setEth_flash (f : Eth → Eth) : (c.setEth f).flash = c.flash := rfl
@[simp] theorem Chip.setEth_cmd (f : Eth → Eth) : (c.setEth f).cmd = c.cmd := rfl
@[simp] theorem Chip.setEth_spi (f : Eth → Eth) : (c.setEth f).spi = c.spi := rfl
@[simp] theorem Chip.setEth_host (f : Eth → Eth) : (c.setEth f).host = c.host := rfl
@[simp] theorem Chip.setEth_lane (f : Eth → Eth) : (c.setEth f).lane = c.lane := rfl
@[simp] theorem Chip.setEth_frm (f : Eth → Eth) : (c.setEth f).frm = c.frm := rfl
@[simp] theorem Chip.setEth_time (f : Eth → Eth) : (c.setEth f).time = c.time := rfl
@[simp] theorem Chip.setEth_gear (f : Eth → Eth) : (c.setEth f).gear = c.gear := rfl
@[simp] theorem Chip.setEth_fab (f : Eth → Eth) : (c.setEth f).fab = c.fab := rfl
@[simp] theorem Chip.setEth_keys (f : Eth → Eth) : (c.setEth f).keys = c.keys := rfl
@[simp] theorem Chip.setEth_sealing (f : Eth → Eth) : (c.setEth f).sealing = c.sealing := rfl
@[simp] theorem Chip.setEth_csys (f : Eth → Eth) : (c.setEth f).csys = c.csys := rfl
@[simp] theorem Chip.setEth_crock (f : Eth → Eth) : (c.setEth f).crock = c.crock := rfl
@[simp] theorem Chip.setEth_disp (f : Eth → Eth) : (c.setEth f).disp = c.disp := rfl
@[simp] theorem Chip.setEth_eth (f : Eth → Eth) : (c.setEth f).eth = f c.eth := rfl
@[simp] theorem Chip.setEth_usb (f : Eth → Eth) : (c.setEth f).usb = c.usb := rfl
@[simp] theorem Chip.setEth_leg (f : Eth → Eth) : (c.setEth f).leg = c.leg := rfl
@[simp] theorem Chip.setEth_pwr (f : Eth → Eth) : (c.setEth f).pwr = c.pwr := rfl
@[simp] theorem Chip.setEth_gk (f : Eth → Eth) : (c.setEth f).gk = c.gk := rfl
@[simp] theorem Chip.setEth_life (f : Eth → Eth) : (c.setEth f).life = c.life := rfl
@[simp] theorem Chip.setEth_sram (f : Eth → Eth) : (c.setEth f).sram = c.sram := rfl
@[simp] theorem Chip.setEth_out (f : Eth → Eth) : (c.setEth f).out = c.out := rfl

/-! `setEthPort` -/

@[simp] theorem Chip.setEthPort_clk (n : Nat) (p : EthPort) : (c.setEthPort n p).clk = c.clk := rfl
@[simp] theorem Chip.setEthPort_dev (n : Nat) (p : EthPort) : (c.setEthPort n p).dev = c.dev := rfl
@[simp] theorem Chip.setEthPort_flash (n : Nat) (p : EthPort) : (c.setEthPort n p).flash = c.flash := rfl
@[simp] theorem Chip.setEthPort_cmd (n : Nat) (p : EthPort) : (c.setEthPort n p).cmd = c.cmd := rfl
@[simp] theorem Chip.setEthPort_spi (n : Nat) (p : EthPort) : (c.setEthPort n p).spi = c.spi := rfl
@[simp] theorem Chip.setEthPort_host (n : Nat) (p : EthPort) : (c.setEthPort n p).host = c.host := rfl
@[simp] theorem Chip.setEthPort_lane (n : Nat) (p : EthPort) : (c.setEthPort n p).lane = c.lane := rfl
@[simp] theorem Chip.setEthPort_frm (n : Nat) (p : EthPort) : (c.setEthPort n p).frm = c.frm := rfl
@[simp] theorem Chip.setEthPort_time (n : Nat) (p : EthPort) : (c.setEthPort n p).time = c.time := rfl
@[simp] theorem Chip.setEthPort_gear (n : Nat) (p : EthPort) : (c.setEthPort n p).gear = c.gear := rfl
@[simp] theorem Chip.setEthPort_fab (n : Nat) (p : EthPort) : (c.setEthPort n p).fab = c.fab := rfl
@[simp] theorem Chip.setEthPort_keys (n : Nat) (p : EthPort) : (c.setEthPort n p).keys = c.keys := rfl
@[simp] theorem Chip.setEthPort_sealing (n : Nat) (p : EthPort) : (c.setEthPort n p).sealing = c.sealing := rfl
@[simp] theorem Chip.setEthPort_csys (n : Nat) (p : EthPort) : (c.setEthPort n p).csys = c.csys := rfl
@[simp] theorem Chip.setEthPort_crock (n : Nat) (p : EthPort) : (c.setEthPort n p).crock = c.crock := rfl
@[simp] theorem Chip.setEthPort_disp (n : Nat) (p : EthPort) : (c.setEthPort n p).disp = c.disp := rfl
@[simp] theorem Chip.setEthPort_eth (n : Nat) (p : EthPort) : (c.setEthPort n p).eth = { c.eth with ports := c.eth.ports.set n p } := rfl
@[simp] theorem Chip.setEthPort_usb (n : Nat) (p : EthPort) : (c.setEthPort n p).usb = c.usb := rfl
@[simp] theorem Chip.setEthPort_leg (n : Nat) (p : EthPort) : (c.setEthPort n p).leg = c.leg := rfl
@[simp] theorem Chip.setEthPort_pwr (n : Nat) (p : EthPort) : (c.setEthPort n p).pwr = c.pwr := rfl
@[simp] theorem Chip.setEthPort_gk (n : Nat) (p : EthPort) : (c.setEthPort n p).gk = c.gk := rfl
@[simp] theorem Chip.setEthPort_life (n : Nat) (p : EthPort) : (c.setEthPort n p).life = c.life := rfl
@[simp] theorem Chip.setEthPort_sram (n : Nat) (p : EthPort) : (c.setEthPort n p).sram = c.sram := rfl
@[simp] theorem Chip.setEthPort_out (n : Nat) (p : EthPort) : (c.setEthPort n p).out = c.out := rfl

/-! `setUsb` -/

@[simp] theorem Chip.setUsb_clk (f : Usb → Usb) : (c.setUsb f).clk = c.clk := rfl
@[simp] theorem Chip.setUsb_dev (f : Usb → Usb) : (c.setUsb f).dev = c.dev := rfl
@[simp] theorem Chip.setUsb_flash (f : Usb → Usb) : (c.setUsb f).flash = c.flash := rfl
@[simp] theorem Chip.setUsb_cmd (f : Usb → Usb) : (c.setUsb f).cmd = c.cmd := rfl
@[simp] theorem Chip.setUsb_spi (f : Usb → Usb) : (c.setUsb f).spi = c.spi := rfl
@[simp] theorem Chip.setUsb_host (f : Usb → Usb) : (c.setUsb f).host = c.host := rfl
@[simp] theorem Chip.setUsb_lane (f : Usb → Usb) : (c.setUsb f).lane = c.lane := rfl
@[simp] theorem Chip.setUsb_frm (f : Usb → Usb) : (c.setUsb f).frm = c.frm := rfl
@[simp] theorem Chip.setUsb_time (f : Usb → Usb) : (c.setUsb f).time = c.time := rfl
@[simp] theorem Chip.setUsb_gear (f : Usb → Usb) : (c.setUsb f).gear = c.gear := rfl
@[simp] theorem Chip.setUsb_fab (f : Usb → Usb) : (c.setUsb f).fab = c.fab := rfl
@[simp] theorem Chip.setUsb_keys (f : Usb → Usb) : (c.setUsb f).keys = c.keys := rfl
@[simp] theorem Chip.setUsb_sealing (f : Usb → Usb) : (c.setUsb f).sealing = c.sealing := rfl
@[simp] theorem Chip.setUsb_csys (f : Usb → Usb) : (c.setUsb f).csys = c.csys := rfl
@[simp] theorem Chip.setUsb_crock (f : Usb → Usb) : (c.setUsb f).crock = c.crock := rfl
@[simp] theorem Chip.setUsb_disp (f : Usb → Usb) : (c.setUsb f).disp = c.disp := rfl
@[simp] theorem Chip.setUsb_eth (f : Usb → Usb) : (c.setUsb f).eth = c.eth := rfl
@[simp] theorem Chip.setUsb_usb (f : Usb → Usb) : (c.setUsb f).usb = f c.usb := rfl
@[simp] theorem Chip.setUsb_leg (f : Usb → Usb) : (c.setUsb f).leg = c.leg := rfl
@[simp] theorem Chip.setUsb_pwr (f : Usb → Usb) : (c.setUsb f).pwr = c.pwr := rfl
@[simp] theorem Chip.setUsb_gk (f : Usb → Usb) : (c.setUsb f).gk = c.gk := rfl
@[simp] theorem Chip.setUsb_life (f : Usb → Usb) : (c.setUsb f).life = c.life := rfl
@[simp] theorem Chip.setUsb_sram (f : Usb → Usb) : (c.setUsb f).sram = c.sram := rfl
@[simp] theorem Chip.setUsb_out (f : Usb → Usb) : (c.setUsb f).out = c.out := rfl

/-! `setVport` -/

@[simp] theorem Chip.setVport_clk (n : Nat) (v : VPort) : (c.setVport n v).clk = c.clk := rfl
@[simp] theorem Chip.setVport_dev (n : Nat) (v : VPort) : (c.setVport n v).dev = c.dev := rfl
@[simp] theorem Chip.setVport_flash (n : Nat) (v : VPort) : (c.setVport n v).flash = c.flash := rfl
@[simp] theorem Chip.setVport_cmd (n : Nat) (v : VPort) : (c.setVport n v).cmd = c.cmd := rfl
@[simp] theorem Chip.setVport_spi (n : Nat) (v : VPort) : (c.setVport n v).spi = c.spi := rfl
@[simp] theorem Chip.setVport_host (n : Nat) (v : VPort) : (c.setVport n v).host = c.host := rfl
@[simp] theorem Chip.setVport_lane (n : Nat) (v : VPort) : (c.setVport n v).lane = c.lane := rfl
@[simp] theorem Chip.setVport_frm (n : Nat) (v : VPort) : (c.setVport n v).frm = c.frm := rfl
@[simp] theorem Chip.setVport_time (n : Nat) (v : VPort) : (c.setVport n v).time = c.time := rfl
@[simp] theorem Chip.setVport_gear (n : Nat) (v : VPort) : (c.setVport n v).gear = c.gear := rfl
@[simp] theorem Chip.setVport_fab (n : Nat) (v : VPort) : (c.setVport n v).fab = c.fab := rfl
@[simp] theorem Chip.setVport_keys (n : Nat) (v : VPort) : (c.setVport n v).keys = c.keys := rfl
@[simp] theorem Chip.setVport_sealing (n : Nat) (v : VPort) : (c.setVport n v).sealing = c.sealing := rfl
@[simp] theorem Chip.setVport_csys (n : Nat) (v : VPort) : (c.setVport n v).csys = c.csys := rfl
@[simp] theorem Chip.setVport_crock (n : Nat) (v : VPort) : (c.setVport n v).crock = c.crock := rfl
@[simp] theorem Chip.setVport_disp (n : Nat) (v : VPort) : (c.setVport n v).disp = c.disp := rfl
@[simp] theorem Chip.setVport_eth (n : Nat) (v : VPort) : (c.setVport n v).eth = c.eth := rfl
@[simp] theorem Chip.setVport_usb (n : Nat) (v : VPort) : (c.setVport n v).usb = { c.usb with ports := c.usb.ports.set n v } := rfl
@[simp] theorem Chip.setVport_leg (n : Nat) (v : VPort) : (c.setVport n v).leg = c.leg := rfl
@[simp] theorem Chip.setVport_pwr (n : Nat) (v : VPort) : (c.setVport n v).pwr = c.pwr := rfl
@[simp] theorem Chip.setVport_gk (n : Nat) (v : VPort) : (c.setVport n v).gk = c.gk := rfl
@[simp] theorem Chip.setVport_life (n : Nat) (v : VPort) : (c.setVport n v).life = c.life := rfl
@[simp] theorem Chip.setVport_sram (n : Nat) (v : VPort) : (c.setVport n v).sram = c.sram := rfl
@[simp] theorem Chip.setVport_out (n : Nat) (v : VPort) : (c.setVport n v).out = c.out := rfl

/-! `setLeg` -/

@[simp] theorem Chip.setLeg_clk (f : Legacy → Legacy) : (c.setLeg f).clk = c.clk := rfl
@[simp] theorem Chip.setLeg_dev (f : Legacy → Legacy) : (c.setLeg f).dev = c.dev := rfl
@[simp] theorem Chip.setLeg_flash (f : Legacy → Legacy) : (c.setLeg f).flash = c.flash := rfl
@[simp] theorem Chip.setLeg_cmd (f : Legacy → Legacy) : (c.setLeg f).cmd = c.cmd := rfl
@[simp] theorem Chip.setLeg_spi (f : Legacy → Legacy) : (c.setLeg f).spi = c.spi := rfl
@[simp] theorem Chip.setLeg_host (f : Legacy → Legacy) : (c.setLeg f).host = c.host := rfl
@[simp] theorem Chip.setLeg_lane (f : Legacy → Legacy) : (c.setLeg f).lane = c.lane := rfl
@[simp] theorem Chip.setLeg_frm (f : Legacy → Legacy) : (c.setLeg f).frm = c.frm := rfl
@[simp] theorem Chip.setLeg_time (f : Legacy → Legacy) : (c.setLeg f).time = c.time := rfl
@[simp] theorem Chip.setLeg_gear (f : Legacy → Legacy) : (c.setLeg f).gear = c.gear := rfl
@[simp] theorem Chip.setLeg_fab (f : Legacy → Legacy) : (c.setLeg f).fab = c.fab := rfl
@[simp] theorem Chip.setLeg_keys (f : Legacy → Legacy) : (c.setLeg f).keys = c.keys := rfl
@[simp] theorem Chip.setLeg_sealing (f : Legacy → Legacy) : (c.setLeg f).sealing = c.sealing := rfl
@[simp] theorem Chip.setLeg_csys (f : Legacy → Legacy) : (c.setLeg f).csys = c.csys := rfl
@[simp] theorem Chip.setLeg_crock (f : Legacy → Legacy) : (c.setLeg f).crock = c.crock := rfl
@[simp] theorem Chip.setLeg_disp (f : Legacy → Legacy) : (c.setLeg f).disp = c.disp := rfl
@[simp] theorem Chip.setLeg_eth (f : Legacy → Legacy) : (c.setLeg f).eth = c.eth := rfl
@[simp] theorem Chip.setLeg_usb (f : Legacy → Legacy) : (c.setLeg f).usb = c.usb := rfl
@[simp] theorem Chip.setLeg_leg (f : Legacy → Legacy) : (c.setLeg f).leg = f c.leg := rfl
@[simp] theorem Chip.setLeg_pwr (f : Legacy → Legacy) : (c.setLeg f).pwr = c.pwr := rfl
@[simp] theorem Chip.setLeg_gk (f : Legacy → Legacy) : (c.setLeg f).gk = c.gk := rfl
@[simp] theorem Chip.setLeg_life (f : Legacy → Legacy) : (c.setLeg f).life = c.life := rfl
@[simp] theorem Chip.setLeg_sram (f : Legacy → Legacy) : (c.setLeg f).sram = c.sram := rfl
@[simp] theorem Chip.setLeg_out (f : Legacy → Legacy) : (c.setLeg f).out = c.out := rfl

/-! `setHealth` -/

@[simp] theorem Chip.setHealth_clk (i : Nat) (f : LegHealth → LegHealth) : (c.setHealth i f).clk = c.clk := rfl
@[simp] theorem Chip.setHealth_dev (i : Nat) (f : LegHealth → LegHealth) : (c.setHealth i f).dev = c.dev := rfl
@[simp] theorem Chip.setHealth_flash (i : Nat) (f : LegHealth → LegHealth) : (c.setHealth i f).flash = c.flash := rfl
@[simp] theorem Chip.setHealth_cmd (i : Nat) (f : LegHealth → LegHealth) : (c.setHealth i f).cmd = c.cmd := rfl
@[simp] theorem Chip.setHealth_spi (i : Nat) (f : LegHealth → LegHealth) : (c.setHealth i f).spi = c.spi := rfl
@[simp] theorem Chip.setHealth_host (i : Nat) (f : LegHealth → LegHealth) : (c.setHealth i f).host = c.host := rfl
@[simp] theorem Chip.setHealth_lane (i : Nat) (f : LegHealth → LegHealth) : (c.setHealth i f).lane = c.lane := rfl
@[simp] theorem Chip.setHealth_frm (i : Nat) (f : LegHealth → LegHealth) : (c.setHealth i f).frm = c.frm := rfl
@[simp] theorem Chip.setHealth_time (i : Nat) (f : LegHealth → LegHealth) : (c.setHealth i f).time = c.time := rfl
@[simp] theorem Chip.setHealth_gear (i : Nat) (f : LegHealth → LegHealth) : (c.setHealth i f).gear = c.gear := rfl
@[simp] theorem Chip.setHealth_fab (i : Nat) (f : LegHealth → LegHealth) : (c.setHealth i f).fab = c.fab := rfl
@[simp] theorem Chip.setHealth_keys (i : Nat) (f : LegHealth → LegHealth) : (c.setHealth i f).keys = c.keys := rfl
@[simp] theorem Chip.setHealth_sealing (i : Nat) (f : LegHealth → LegHealth) : (c.setHealth i f).sealing = c.sealing := rfl
@[simp] theorem Chip.setHealth_csys (i : Nat) (f : LegHealth → LegHealth) : (c.setHealth i f).csys = c.csys := rfl
@[simp] theorem Chip.setHealth_crock (i : Nat) (f : LegHealth → LegHealth) : (c.setHealth i f).crock = c.crock := rfl
@[simp] theorem Chip.setHealth_disp (i : Nat) (f : LegHealth → LegHealth) : (c.setHealth i f).disp = c.disp := rfl
@[simp] theorem Chip.setHealth_eth (i : Nat) (f : LegHealth → LegHealth) : (c.setHealth i f).eth = c.eth := rfl
@[simp] theorem Chip.setHealth_usb (i : Nat) (f : LegHealth → LegHealth) : (c.setHealth i f).usb = c.usb := rfl
@[simp] theorem Chip.setHealth_leg (i : Nat) (f : LegHealth → LegHealth) : (c.setHealth i f).leg = { c.leg with health := c.leg.health.set i (f (c.legHealth i)) } := rfl
@[simp] theorem Chip.setHealth_pwr (i : Nat) (f : LegHealth → LegHealth) : (c.setHealth i f).pwr = c.pwr := rfl
@[simp] theorem Chip.setHealth_gk (i : Nat) (f : LegHealth → LegHealth) : (c.setHealth i f).gk = c.gk := rfl
@[simp] theorem Chip.setHealth_life (i : Nat) (f : LegHealth → LegHealth) : (c.setHealth i f).life = c.life := rfl
@[simp] theorem Chip.setHealth_sram (i : Nat) (f : LegHealth → LegHealth) : (c.setHealth i f).sram = c.sram := rfl
@[simp] theorem Chip.setHealth_out (i : Nat) (f : LegHealth → LegHealth) : (c.setHealth i f).out = c.out := rfl

/-! `legCount` -/

@[simp] theorem Chip.legCount_clk (i d : Nat) : (c.legCount i d).clk = c.clk := rfl
@[simp] theorem Chip.legCount_dev (i d : Nat) : (c.legCount i d).dev = c.dev := rfl
@[simp] theorem Chip.legCount_flash (i d : Nat) : (c.legCount i d).flash = c.flash := rfl
@[simp] theorem Chip.legCount_cmd (i d : Nat) : (c.legCount i d).cmd = c.cmd := rfl
@[simp] theorem Chip.legCount_spi (i d : Nat) : (c.legCount i d).spi = c.spi := rfl
@[simp] theorem Chip.legCount_host (i d : Nat) : (c.legCount i d).host = c.host := rfl
@[simp] theorem Chip.legCount_lane (i d : Nat) : (c.legCount i d).lane = c.lane := rfl
@[simp] theorem Chip.legCount_frm (i d : Nat) : (c.legCount i d).frm = c.frm := rfl
@[simp] theorem Chip.legCount_time (i d : Nat) : (c.legCount i d).time = c.time := rfl
@[simp] theorem Chip.legCount_gear (i d : Nat) : (c.legCount i d).gear = c.gear := rfl
@[simp] theorem Chip.legCount_fab (i d : Nat) : (c.legCount i d).fab = c.fab := rfl
@[simp] theorem Chip.legCount_keys (i d : Nat) : (c.legCount i d).keys = c.keys := rfl
@[simp] theorem Chip.legCount_sealing (i d : Nat) : (c.legCount i d).sealing = c.sealing := rfl
@[simp] theorem Chip.legCount_csys (i d : Nat) : (c.legCount i d).csys = c.csys := rfl
@[simp] theorem Chip.legCount_crock (i d : Nat) : (c.legCount i d).crock = c.crock := rfl
@[simp] theorem Chip.legCount_disp (i d : Nat) : (c.legCount i d).disp = c.disp := rfl
@[simp] theorem Chip.legCount_eth (i d : Nat) : (c.legCount i d).eth = c.eth := rfl
@[simp] theorem Chip.legCount_usb (i d : Nat) : (c.legCount i d).usb = c.usb := rfl
@[simp] theorem Chip.legCount_leg (i d : Nat) : (c.legCount i d).leg = { c.leg with cnt := c.leg.cnt.set i (sat32 (c.leg.cnt.get 0 i) d) } := rfl
@[simp] theorem Chip.legCount_pwr (i d : Nat) : (c.legCount i d).pwr = c.pwr := rfl
@[simp] theorem Chip.legCount_gk (i d : Nat) : (c.legCount i d).gk = c.gk := rfl
@[simp] theorem Chip.legCount_life (i d : Nat) : (c.legCount i d).life = c.life := rfl
@[simp] theorem Chip.legCount_sram (i d : Nat) : (c.legCount i d).sram = c.sram := rfl
@[simp] theorem Chip.legCount_out (i d : Nat) : (c.legCount i d).out = c.out := rfl

/-! Events, completions, interrupts: only the command unit, the host port, the lifetime counters and the outbox -/

/-- The block without the four sub-states that posting an event can change. -/
def Chip.rest (c : Chip) : Chip := { c with cmd := {}, host := {}, life := {}, out := [] }

theorem Chip.rest_clk : c.rest.clk = c.clk := rfl
theorem Chip.rest_dev : c.rest.dev = c.dev := rfl
theorem Chip.rest_flash : c.rest.flash = c.flash := rfl
theorem Chip.rest_spi : c.rest.spi = c.spi := rfl
theorem Chip.rest_lane : c.rest.lane = c.lane := rfl
theorem Chip.rest_frm : c.rest.frm = c.frm := rfl
theorem Chip.rest_time : c.rest.time = c.time := rfl
theorem Chip.rest_gear : c.rest.gear = c.gear := rfl
theorem Chip.rest_fab : c.rest.fab = c.fab := rfl
theorem Chip.rest_keys : c.rest.keys = c.keys := rfl
theorem Chip.rest_sealing : c.rest.sealing = c.sealing := rfl
theorem Chip.rest_csys : c.rest.csys = c.csys := rfl
theorem Chip.rest_crock : c.rest.crock = c.crock := rfl
theorem Chip.rest_disp : c.rest.disp = c.disp := rfl
theorem Chip.rest_eth : c.rest.eth = c.eth := rfl
theorem Chip.rest_usb : c.rest.usb = c.usb := rfl
theorem Chip.rest_leg : c.rest.leg = c.leg := rfl
theorem Chip.rest_pwr : c.rest.pwr = c.pwr := rfl
theorem Chip.rest_gk : c.rest.gk = c.gk := rfl
theorem Chip.rest_sram : c.rest.sram = c.sram := rfl

@[simp] theorem Chip.emit_rest (o : Out) : (c.emit o).rest = c.rest := rfl
@[simp] theorem Chip.drive_rest (p : PinId) (v : Nat) : (c.drive p v).rest = c.rest := rfl
@[simp] theorem Chip.bump_rest (i n : Nat) : (c.bump i n).rest = c.rest := rfl
@[simp] theorem Chip.sample_rest (h b : Nat) : (c.sample h b).rest = c.rest := rfl
@[simp] theorem Chip.setInst_rest (vi : Nat) (i : Inst) : (c.setInst vi i).rest = c.rest := rfl
@[simp] theorem Chip.setVec_rest (v : Nat) (x : Vec) : (c.setVec v x).rest = c.rest := rfl
@[simp] theorem Chip.setHost_rest (f : HostPort → HostPort) : (c.setHost f).rest = c.rest := rfl
@[simp] theorem Chip.setQp_rest (k : Nat) (q : QueuePair) : (c.setQp k q).rest = c.rest := rfl
@[simp] theorem Chip.setDring_rest (k : Nat) (r : DataRing) : (c.setDring k r).rest = c.rest := rfl
@[simp] theorem Chip.count_rest (t : Nat) (f : CmdCounters → CmdCounters) : (c.count t f).rest = c.rest := rfl
@[simp] theorem Chip.updRec_rest (h : Nat) (f : HandleRec → HandleRec) : (c.updRec h f).rest = c.rest := rfl
@[simp] theorem Chip.commitPoint_rest (h : Nat) : (c.commitPoint h).rest = c.rest := rfl

@[simp] theorem Chip.withCmd_rest (x : Cmd) : ({ c with cmd := x } : Chip).rest = c.rest := rfl
@[simp] theorem Chip.withHost_rest (x : HostPort) : ({ c with host := x } : Chip).rest = c.rest := rfl
@[simp] theorem Chip.withLife_rest (x : Life) : ({ c with life := x } : Chip).rest = c.rest := rfl
@[simp] theorem Chip.withOut_rest (x : List Out) : ({ c with out := x } : Chip).rest = c.rest := rfl
@[simp] theorem Chip.emits_rest (l : List Out) : (c.emits l).rest = c.rest := rfl
@[simp] theorem Chip.dmaWrite_rest (vi a : Nat) (d : Bytes) : (c.dmaWrite vi a d).rest = c.rest := by
  unfold Chip.dmaWrite; split <;> simp
@[simp] theorem Chip.dmaRead_rest (vi a l : Nat) (w : ReadFor) : (c.dmaRead vi a l w).rest = c.rest := by
  unfold Chip.dmaRead; split <;> simp
@[simp] theorem Chip.raise_rest (v : Nat) : (c.raise v).rest = c.rest := by
  unfold Chip.raise; dsimp only; split <;> simp
@[simp] theorem Chip.raiseRing_rest (vi rv t : Nat) (q : Bool) : (c.raiseRing vi rv t q).rest = c.rest := by
  unfold Chip.raiseRing; dsimp only; repeat' split
  all_goals simp
@[simp] theorem Chip.irqCause_rest (b : Nat) : (c.irqCause b).rest = c.rest := by
  unfold Chip.irqCause; dsimp only; repeat' split
  all_goals simp
@[simp] theorem Chip.postLog_rest (e : EventRec) : (c.postLog e).rest = c.rest := by
  simp [Chip.postLog]
@[simp] theorem Chip.pushRec_rest (k : Nat) (e : EventRec) : (c.pushRec k e).rest = c.rest := by
  unfold Chip.pushRec; dsimp only; repeat' split
  all_goals simp
@[simp] theorem Chip.flushOverflow_rest (k : Nat) : (c.flushOverflow k).rest = c.rest := by
  unfold Chip.flushOverflow; dsimp only; repeat' split
  all_goals simp
@[simp] theorem Chip.postQueue_rest (k : Nat) (e : EventRec) : (c.postQueue k e).rest = c.rest := by
  unfold Chip.postQueue; dsimp only; repeat' split
  all_goals simp
@[simp] theorem Chip.postMgr_rest (e : EventRec) : (c.postMgr e).rest = c.rest := by
  unfold Chip.postMgr; repeat' split
  all_goals simp
@[simp] theorem Chip.postInst_rest (vi : Nat) (e : EventRec) : (c.postInst vi e).rest = c.rest := by
  unfold Chip.postInst; split <;> simp
@[simp] theorem Chip.post_rest (x r d st : Nat) : (c.post x r d st).rest = c.rest := by
  unfold Chip.post; dsimp only; split <;> simp
@[simp] theorem Chip.postVi_rest (vi x r d : Nat) : (c.postVi vi x r d).rest = c.rest := by
  unfold Chip.postVi; dsimp only; split <;> simp
@[simp] theorem Chip.postForHandle_rest (r : HandleRec) (e : EventRec) : (c.postForHandle r e).rest = c.rest := by
  unfold Chip.postForHandle; dsimp only; repeat' split
  all_goals simp
@[simp] theorem Chip.postCompletion_rest (r : HandleRec) : (c.postCompletion r).rest = c.rest := Chip.postForHandle_rest c r _
@[simp] theorem Chip.complete_rest (h st rs x : Nat) : (c.complete h st rs x).rest = c.rest := by
  unfold Chip.complete; split
  · rfl
  · dsimp only; split <;> simp
@[simp] theorem Chip.writeCqe_rest (vi qp : Nat) (r : Reply) : (c.writeCqe vi qp r).rest = c.rest := by
  unfold Chip.writeCqe; dsimp only; repeat' split
  all_goals simp

@[simp] theorem Chip.irqCause_clk (b : Nat) : (c.irqCause b).clk = c.clk := (congrArg Chip.clk (c.irqCause_rest b) :)
@[simp] theorem Chip.irqCause_dev (b : Nat) : (c.irqCause b).dev = c.dev := (congrArg Chip.dev (c.irqCause_rest b) :)
@[simp] theorem Chip.irqCause_flash (b : Nat) : (c.irqCause b).flash = c.flash := (congrArg Chip.flash (c.irqCause_rest b) :)
@[simp] theorem Chip.irqCause_spi (b : Nat) : (c.irqCause b).spi = c.spi := (congrArg Chip.spi (c.irqCause_rest b) :)
@[simp] theorem Chip.irqCause_lane (b : Nat) : (c.irqCause b).lane = c.lane := (congrArg Chip.lane (c.irqCause_rest b) :)
@[simp] theorem Chip.irqCause_frm (b : Nat) : (c.irqCause b).frm = c.frm := (congrArg Chip.frm (c.irqCause_rest b) :)
@[simp] theorem Chip.irqCause_time (b : Nat) : (c.irqCause b).time = c.time := (congrArg Chip.time (c.irqCause_rest b) :)
@[simp] theorem Chip.irqCause_gear (b : Nat) : (c.irqCause b).gear = c.gear := (congrArg Chip.gear (c.irqCause_rest b) :)
@[simp] theorem Chip.irqCause_fab (b : Nat) : (c.irqCause b).fab = c.fab := (congrArg Chip.fab (c.irqCause_rest b) :)
@[simp] theorem Chip.irqCause_keys (b : Nat) : (c.irqCause b).keys = c.keys := (congrArg Chip.keys (c.irqCause_rest b) :)
@[simp] theorem Chip.irqCause_sealing (b : Nat) : (c.irqCause b).sealing = c.sealing := (congrArg Chip.sealing (c.irqCause_rest b) :)
@[simp] theorem Chip.irqCause_csys (b : Nat) : (c.irqCause b).csys = c.csys := (congrArg Chip.csys (c.irqCause_rest b) :)
@[simp] theorem Chip.irqCause_crock (b : Nat) : (c.irqCause b).crock = c.crock := (congrArg Chip.crock (c.irqCause_rest b) :)
@[simp] theorem Chip.irqCause_disp (b : Nat) : (c.irqCause b).disp = c.disp := (congrArg Chip.disp (c.irqCause_rest b) :)
@[simp] theorem Chip.irqCause_eth (b : Nat) : (c.irqCause b).eth = c.eth := (congrArg Chip.eth (c.irqCause_rest b) :)
@[simp] theorem Chip.irqCause_usb (b : Nat) : (c.irqCause b).usb = c.usb := (congrArg Chip.usb (c.irqCause_rest b) :)
@[simp] theorem Chip.irqCause_leg (b : Nat) : (c.irqCause b).leg = c.leg := (congrArg Chip.leg (c.irqCause_rest b) :)
@[simp] theorem Chip.irqCause_pwr (b : Nat) : (c.irqCause b).pwr = c.pwr := (congrArg Chip.pwr (c.irqCause_rest b) :)
@[simp] theorem Chip.irqCause_gk (b : Nat) : (c.irqCause b).gk = c.gk := (congrArg Chip.gk (c.irqCause_rest b) :)
@[simp] theorem Chip.irqCause_sram (b : Nat) : (c.irqCause b).sram = c.sram := (congrArg Chip.sram (c.irqCause_rest b) :)

@[simp] theorem Chip.raise_clk (v : Nat) : (c.raise v).clk = c.clk := (congrArg Chip.clk (c.raise_rest v) :)
@[simp] theorem Chip.raise_dev (v : Nat) : (c.raise v).dev = c.dev := (congrArg Chip.dev (c.raise_rest v) :)
@[simp] theorem Chip.raise_flash (v : Nat) : (c.raise v).flash = c.flash := (congrArg Chip.flash (c.raise_rest v) :)
@[simp] theorem Chip.raise_spi (v : Nat) : (c.raise v).spi = c.spi := (congrArg Chip.spi (c.raise_rest v) :)
@[simp] theorem Chip.raise_lane (v : Nat) : (c.raise v).lane = c.lane := (congrArg Chip.lane (c.raise_rest v) :)
@[simp] theorem Chip.raise_frm (v : Nat) : (c.raise v).frm = c.frm := (congrArg Chip.frm (c.raise_rest v) :)
@[simp] theorem Chip.raise_time (v : Nat) : (c.raise v).time = c.time := (congrArg Chip.time (c.raise_rest v) :)
@[simp] theorem Chip.raise_gear (v : Nat) : (c.raise v).gear = c.gear := (congrArg Chip.gear (c.raise_rest v) :)
@[simp] theorem Chip.raise_fab (v : Nat) : (c.raise v).fab = c.fab := (congrArg Chip.fab (c.raise_rest v) :)
@[simp] theorem Chip.raise_keys (v : Nat) : (c.raise v).keys = c.keys := (congrArg Chip.keys (c.raise_rest v) :)
@[simp] theorem Chip.raise_sealing (v : Nat) : (c.raise v).sealing = c.sealing := (congrArg Chip.sealing (c.raise_rest v) :)
@[simp] theorem Chip.raise_csys (v : Nat) : (c.raise v).csys = c.csys := (congrArg Chip.csys (c.raise_rest v) :)
@[simp] theorem Chip.raise_crock (v : Nat) : (c.raise v).crock = c.crock := (congrArg Chip.crock (c.raise_rest v) :)
@[simp] theorem Chip.raise_disp (v : Nat) : (c.raise v).disp = c.disp := (congrArg Chip.disp (c.raise_rest v) :)
@[simp] theorem Chip.raise_eth (v : Nat) : (c.raise v).eth = c.eth := (congrArg Chip.eth (c.raise_rest v) :)
@[simp] theorem Chip.raise_usb (v : Nat) : (c.raise v).usb = c.usb := (congrArg Chip.usb (c.raise_rest v) :)
@[simp] theorem Chip.raise_leg (v : Nat) : (c.raise v).leg = c.leg := (congrArg Chip.leg (c.raise_rest v) :)
@[simp] theorem Chip.raise_pwr (v : Nat) : (c.raise v).pwr = c.pwr := (congrArg Chip.pwr (c.raise_rest v) :)
@[simp] theorem Chip.raise_gk (v : Nat) : (c.raise v).gk = c.gk := (congrArg Chip.gk (c.raise_rest v) :)
@[simp] theorem Chip.raise_sram (v : Nat) : (c.raise v).sram = c.sram := (congrArg Chip.sram (c.raise_rest v) :)

@[simp] theorem Chip.postLog_clk (e : EventRec) : (c.postLog e).clk = c.clk := (congrArg Chip.clk (c.postLog_rest e) :)
@[simp] theorem Chip.postLog_dev (e : EventRec) : (c.postLog e).dev = c.dev := (congrArg Chip.dev (c.postLog_rest e) :)
@[simp] theorem Chip.postLog_flash (e : EventRec) : (c.postLog e).flash = c.flash := (congrArg Chip.flash (c.postLog_rest e) :)
@[simp] theorem Chip.postLog_spi (e : EventRec) : (c.postLog e).spi = c.spi := (congrArg Chip.spi (c.postLog_rest e) :)
@[simp] theorem Chip.postLog_lane (e : EventRec) : (c.postLog e).lane = c.lane := (congrArg Chip.lane (c.postLog_rest e) :)
@[simp] theorem Chip.postLog_frm (e : EventRec) : (c.postLog e).frm = c.frm := (congrArg Chip.frm (c.postLog_rest e) :)
@[simp] theorem Chip.postLog_time (e : EventRec) : (c.postLog e).time = c.time := (congrArg Chip.time (c.postLog_rest e) :)
@[simp] theorem Chip.postLog_gear (e : EventRec) : (c.postLog e).gear = c.gear := (congrArg Chip.gear (c.postLog_rest e) :)
@[simp] theorem Chip.postLog_fab (e : EventRec) : (c.postLog e).fab = c.fab := (congrArg Chip.fab (c.postLog_rest e) :)
@[simp] theorem Chip.postLog_keys (e : EventRec) : (c.postLog e).keys = c.keys := (congrArg Chip.keys (c.postLog_rest e) :)
@[simp] theorem Chip.postLog_sealing (e : EventRec) : (c.postLog e).sealing = c.sealing := (congrArg Chip.sealing (c.postLog_rest e) :)
@[simp] theorem Chip.postLog_csys (e : EventRec) : (c.postLog e).csys = c.csys := (congrArg Chip.csys (c.postLog_rest e) :)
@[simp] theorem Chip.postLog_crock (e : EventRec) : (c.postLog e).crock = c.crock := (congrArg Chip.crock (c.postLog_rest e) :)
@[simp] theorem Chip.postLog_disp (e : EventRec) : (c.postLog e).disp = c.disp := (congrArg Chip.disp (c.postLog_rest e) :)
@[simp] theorem Chip.postLog_eth (e : EventRec) : (c.postLog e).eth = c.eth := (congrArg Chip.eth (c.postLog_rest e) :)
@[simp] theorem Chip.postLog_usb (e : EventRec) : (c.postLog e).usb = c.usb := (congrArg Chip.usb (c.postLog_rest e) :)
@[simp] theorem Chip.postLog_leg (e : EventRec) : (c.postLog e).leg = c.leg := (congrArg Chip.leg (c.postLog_rest e) :)
@[simp] theorem Chip.postLog_pwr (e : EventRec) : (c.postLog e).pwr = c.pwr := (congrArg Chip.pwr (c.postLog_rest e) :)
@[simp] theorem Chip.postLog_gk (e : EventRec) : (c.postLog e).gk = c.gk := (congrArg Chip.gk (c.postLog_rest e) :)
@[simp] theorem Chip.postLog_sram (e : EventRec) : (c.postLog e).sram = c.sram := (congrArg Chip.sram (c.postLog_rest e) :)

@[simp] theorem Chip.postQueue_clk (k : Nat) (e : EventRec) : (c.postQueue k e).clk = c.clk := (congrArg Chip.clk (c.postQueue_rest k e) :)
@[simp] theorem Chip.postQueue_dev (k : Nat) (e : EventRec) : (c.postQueue k e).dev = c.dev := (congrArg Chip.dev (c.postQueue_rest k e) :)
@[simp] theorem Chip.postQueue_flash (k : Nat) (e : EventRec) : (c.postQueue k e).flash = c.flash := (congrArg Chip.flash (c.postQueue_rest k e) :)
@[simp] theorem Chip.postQueue_spi (k : Nat) (e : EventRec) : (c.postQueue k e).spi = c.spi := (congrArg Chip.spi (c.postQueue_rest k e) :)
@[simp] theorem Chip.postQueue_lane (k : Nat) (e : EventRec) : (c.postQueue k e).lane = c.lane := (congrArg Chip.lane (c.postQueue_rest k e) :)
@[simp] theorem Chip.postQueue_frm (k : Nat) (e : EventRec) : (c.postQueue k e).frm = c.frm := (congrArg Chip.frm (c.postQueue_rest k e) :)
@[simp] theorem Chip.postQueue_time (k : Nat) (e : EventRec) : (c.postQueue k e).time = c.time := (congrArg Chip.time (c.postQueue_rest k e) :)
@[simp] theorem Chip.postQueue_gear (k : Nat) (e : EventRec) : (c.postQueue k e).gear = c.gear := (congrArg Chip.gear (c.postQueue_rest k e) :)
@[simp] theorem Chip.postQueue_fab (k : Nat) (e : EventRec) : (c.postQueue k e).fab = c.fab := (congrArg Chip.fab (c.postQueue_rest k e) :)
@[simp] theorem Chip.postQueue_keys (k : Nat) (e : EventRec) : (c.postQueue k e).keys = c.keys := (congrArg Chip.keys (c.postQueue_rest k e) :)
@[simp] theorem Chip.postQueue_sealing (k : Nat) (e : EventRec) : (c.postQueue k e).sealing = c.sealing := (congrArg Chip.sealing (c.postQueue_rest k e) :)
@[simp] theorem Chip.postQueue_csys (k : Nat) (e : EventRec) : (c.postQueue k e).csys = c.csys := (congrArg Chip.csys (c.postQueue_rest k e) :)
@[simp] theorem Chip.postQueue_crock (k : Nat) (e : EventRec) : (c.postQueue k e).crock = c.crock := (congrArg Chip.crock (c.postQueue_rest k e) :)
@[simp] theorem Chip.postQueue_disp (k : Nat) (e : EventRec) : (c.postQueue k e).disp = c.disp := (congrArg Chip.disp (c.postQueue_rest k e) :)
@[simp] theorem Chip.postQueue_eth (k : Nat) (e : EventRec) : (c.postQueue k e).eth = c.eth := (congrArg Chip.eth (c.postQueue_rest k e) :)
@[simp] theorem Chip.postQueue_usb (k : Nat) (e : EventRec) : (c.postQueue k e).usb = c.usb := (congrArg Chip.usb (c.postQueue_rest k e) :)
@[simp] theorem Chip.postQueue_leg (k : Nat) (e : EventRec) : (c.postQueue k e).leg = c.leg := (congrArg Chip.leg (c.postQueue_rest k e) :)
@[simp] theorem Chip.postQueue_pwr (k : Nat) (e : EventRec) : (c.postQueue k e).pwr = c.pwr := (congrArg Chip.pwr (c.postQueue_rest k e) :)
@[simp] theorem Chip.postQueue_gk (k : Nat) (e : EventRec) : (c.postQueue k e).gk = c.gk := (congrArg Chip.gk (c.postQueue_rest k e) :)
@[simp] theorem Chip.postQueue_sram (k : Nat) (e : EventRec) : (c.postQueue k e).sram = c.sram := (congrArg Chip.sram (c.postQueue_rest k e) :)

@[simp] theorem Chip.postMgr_clk (e : EventRec) : (c.postMgr e).clk = c.clk := (congrArg Chip.clk (c.postMgr_rest e) :)
@[simp] theorem Chip.postMgr_dev (e : EventRec) : (c.postMgr e).dev = c.dev := (congrArg Chip.dev (c.postMgr_rest e) :)
@[simp] theorem Chip.postMgr_flash (e : EventRec) : (c.postMgr e).flash = c.flash := (congrArg Chip.flash (c.postMgr_rest e) :)
@[simp] theorem Chip.postMgr_spi (e : EventRec) : (c.postMgr e).spi = c.spi := (congrArg Chip.spi (c.postMgr_rest e) :)
@[simp] theorem Chip.postMgr_lane (e : EventRec) : (c.postMgr e).lane = c.lane := (congrArg Chip.lane (c.postMgr_rest e) :)
@[simp] theorem Chip.postMgr_frm (e : EventRec) : (c.postMgr e).frm = c.frm := (congrArg Chip.frm (c.postMgr_rest e) :)
@[simp] theorem Chip.postMgr_time (e : EventRec) : (c.postMgr e).time = c.time := (congrArg Chip.time (c.postMgr_rest e) :)
@[simp] theorem Chip.postMgr_gear (e : EventRec) : (c.postMgr e).gear = c.gear := (congrArg Chip.gear (c.postMgr_rest e) :)
@[simp] theorem Chip.postMgr_fab (e : EventRec) : (c.postMgr e).fab = c.fab := (congrArg Chip.fab (c.postMgr_rest e) :)
@[simp] theorem Chip.postMgr_keys (e : EventRec) : (c.postMgr e).keys = c.keys := (congrArg Chip.keys (c.postMgr_rest e) :)
@[simp] theorem Chip.postMgr_sealing (e : EventRec) : (c.postMgr e).sealing = c.sealing := (congrArg Chip.sealing (c.postMgr_rest e) :)
@[simp] theorem Chip.postMgr_csys (e : EventRec) : (c.postMgr e).csys = c.csys := (congrArg Chip.csys (c.postMgr_rest e) :)
@[simp] theorem Chip.postMgr_crock (e : EventRec) : (c.postMgr e).crock = c.crock := (congrArg Chip.crock (c.postMgr_rest e) :)
@[simp] theorem Chip.postMgr_disp (e : EventRec) : (c.postMgr e).disp = c.disp := (congrArg Chip.disp (c.postMgr_rest e) :)
@[simp] theorem Chip.postMgr_eth (e : EventRec) : (c.postMgr e).eth = c.eth := (congrArg Chip.eth (c.postMgr_rest e) :)
@[simp] theorem Chip.postMgr_usb (e : EventRec) : (c.postMgr e).usb = c.usb := (congrArg Chip.usb (c.postMgr_rest e) :)
@[simp] theorem Chip.postMgr_leg (e : EventRec) : (c.postMgr e).leg = c.leg := (congrArg Chip.leg (c.postMgr_rest e) :)
@[simp] theorem Chip.postMgr_pwr (e : EventRec) : (c.postMgr e).pwr = c.pwr := (congrArg Chip.pwr (c.postMgr_rest e) :)
@[simp] theorem Chip.postMgr_gk (e : EventRec) : (c.postMgr e).gk = c.gk := (congrArg Chip.gk (c.postMgr_rest e) :)
@[simp] theorem Chip.postMgr_sram (e : EventRec) : (c.postMgr e).sram = c.sram := (congrArg Chip.sram (c.postMgr_rest e) :)

@[simp] theorem Chip.postInst_clk (v : Nat) (e : EventRec) : (c.postInst v e).clk = c.clk := (congrArg Chip.clk (c.postInst_rest v e) :)
@[simp] theorem Chip.postInst_dev (v : Nat) (e : EventRec) : (c.postInst v e).dev = c.dev := (congrArg Chip.dev (c.postInst_rest v e) :)
@[simp] theorem Chip.postInst_flash (v : Nat) (e : EventRec) : (c.postInst v e).flash = c.flash := (congrArg Chip.flash (c.postInst_rest v e) :)
@[simp] theorem Chip.postInst_spi (v : Nat) (e : EventRec) : (c.postInst v e).spi = c.spi := (congrArg Chip.spi (c.postInst_rest v e) :)
@[simp] theorem Chip.postInst_lane (v : Nat) (e : EventRec) : (c.postInst v e).lane = c.lane := (congrArg Chip.lane (c.postInst_rest v e) :)
@[simp] theorem Chip.postInst_frm (v : Nat) (e : EventRec) : (c.postInst v e).frm = c.frm := (congrArg Chip.frm (c.postInst_rest v e) :)
@[simp] theorem Chip.postInst_time (v : Nat) (e : EventRec) : (c.postInst v e).time = c.time := (congrArg Chip.time (c.postInst_rest v e) :)
@[simp] theorem Chip.postInst_gear (v : Nat) (e : EventRec) : (c.postInst v e).gear = c.gear := (congrArg Chip.gear (c.postInst_rest v e) :)
@[simp] theorem Chip.postInst_fab (v : Nat) (e : EventRec) : (c.postInst v e).fab = c.fab := (congrArg Chip.fab (c.postInst_rest v e) :)
@[simp] theorem Chip.postInst_keys (v : Nat) (e : EventRec) : (c.postInst v e).keys = c.keys := (congrArg Chip.keys (c.postInst_rest v e) :)
@[simp] theorem Chip.postInst_sealing (v : Nat) (e : EventRec) : (c.postInst v e).sealing = c.sealing := (congrArg Chip.sealing (c.postInst_rest v e) :)
@[simp] theorem Chip.postInst_csys (v : Nat) (e : EventRec) : (c.postInst v e).csys = c.csys := (congrArg Chip.csys (c.postInst_rest v e) :)
@[simp] theorem Chip.postInst_crock (v : Nat) (e : EventRec) : (c.postInst v e).crock = c.crock := (congrArg Chip.crock (c.postInst_rest v e) :)
@[simp] theorem Chip.postInst_disp (v : Nat) (e : EventRec) : (c.postInst v e).disp = c.disp := (congrArg Chip.disp (c.postInst_rest v e) :)
@[simp] theorem Chip.postInst_eth (v : Nat) (e : EventRec) : (c.postInst v e).eth = c.eth := (congrArg Chip.eth (c.postInst_rest v e) :)
@[simp] theorem Chip.postInst_usb (v : Nat) (e : EventRec) : (c.postInst v e).usb = c.usb := (congrArg Chip.usb (c.postInst_rest v e) :)
@[simp] theorem Chip.postInst_leg (v : Nat) (e : EventRec) : (c.postInst v e).leg = c.leg := (congrArg Chip.leg (c.postInst_rest v e) :)
@[simp] theorem Chip.postInst_pwr (v : Nat) (e : EventRec) : (c.postInst v e).pwr = c.pwr := (congrArg Chip.pwr (c.postInst_rest v e) :)
@[simp] theorem Chip.postInst_gk (v : Nat) (e : EventRec) : (c.postInst v e).gk = c.gk := (congrArg Chip.gk (c.postInst_rest v e) :)
@[simp] theorem Chip.postInst_sram (v : Nat) (e : EventRec) : (c.postInst v e).sram = c.sram := (congrArg Chip.sram (c.postInst_rest v e) :)

@[simp] theorem Chip.post_clk (x r d st : Nat) : (c.post x r d st).clk = c.clk := (congrArg Chip.clk (c.post_rest x r d st) :)
@[simp] theorem Chip.post_dev (x r d st : Nat) : (c.post x r d st).dev = c.dev := (congrArg Chip.dev (c.post_rest x r d st) :)
@[simp] theorem Chip.post_flash (x r d st : Nat) : (c.post x r d st).flash = c.flash := (congrArg Chip.flash (c.post_rest x r d st) :)
@[simp] theorem Chip.post_spi (x r d st : Nat) : (c.post x r d st).spi = c.spi := (congrArg Chip.spi (c.post_rest x r d st) :)
@[simp] theorem Chip.post_lane (x r d st : Nat) : (c.post x r d st).lane = c.lane := (congrArg Chip.lane (c.post_rest x r d st) :)
@[simp] theorem Chip.post_frm (x r d st : Nat) : (c.post x r d st).frm = c.frm := (congrArg Chip.frm (c.post_rest x r d st) :)
@[simp] theorem Chip.post_time (x r d st : Nat) : (c.post x r d st).time = c.time := (congrArg Chip.time (c.post_rest x r d st) :)
@[simp] theorem Chip.post_gear (x r d st : Nat) : (c.post x r d st).gear = c.gear := (congrArg Chip.gear (c.post_rest x r d st) :)
@[simp] theorem Chip.post_fab (x r d st : Nat) : (c.post x r d st).fab = c.fab := (congrArg Chip.fab (c.post_rest x r d st) :)
@[simp] theorem Chip.post_keys (x r d st : Nat) : (c.post x r d st).keys = c.keys := (congrArg Chip.keys (c.post_rest x r d st) :)
@[simp] theorem Chip.post_sealing (x r d st : Nat) : (c.post x r d st).sealing = c.sealing := (congrArg Chip.sealing (c.post_rest x r d st) :)
@[simp] theorem Chip.post_csys (x r d st : Nat) : (c.post x r d st).csys = c.csys := (congrArg Chip.csys (c.post_rest x r d st) :)
@[simp] theorem Chip.post_crock (x r d st : Nat) : (c.post x r d st).crock = c.crock := (congrArg Chip.crock (c.post_rest x r d st) :)
@[simp] theorem Chip.post_disp (x r d st : Nat) : (c.post x r d st).disp = c.disp := (congrArg Chip.disp (c.post_rest x r d st) :)
@[simp] theorem Chip.post_eth (x r d st : Nat) : (c.post x r d st).eth = c.eth := (congrArg Chip.eth (c.post_rest x r d st) :)
@[simp] theorem Chip.post_usb (x r d st : Nat) : (c.post x r d st).usb = c.usb := (congrArg Chip.usb (c.post_rest x r d st) :)
@[simp] theorem Chip.post_leg (x r d st : Nat) : (c.post x r d st).leg = c.leg := (congrArg Chip.leg (c.post_rest x r d st) :)
@[simp] theorem Chip.post_pwr (x r d st : Nat) : (c.post x r d st).pwr = c.pwr := (congrArg Chip.pwr (c.post_rest x r d st) :)
@[simp] theorem Chip.post_gk (x r d st : Nat) : (c.post x r d st).gk = c.gk := (congrArg Chip.gk (c.post_rest x r d st) :)
@[simp] theorem Chip.post_sram (x r d st : Nat) : (c.post x r d st).sram = c.sram := (congrArg Chip.sram (c.post_rest x r d st) :)

@[simp] theorem Chip.postVi_clk (v x r d : Nat) : (c.postVi v x r d).clk = c.clk := (congrArg Chip.clk (c.postVi_rest v x r d) :)
@[simp] theorem Chip.postVi_dev (v x r d : Nat) : (c.postVi v x r d).dev = c.dev := (congrArg Chip.dev (c.postVi_rest v x r d) :)
@[simp] theorem Chip.postVi_flash (v x r d : Nat) : (c.postVi v x r d).flash = c.flash := (congrArg Chip.flash (c.postVi_rest v x r d) :)
@[simp] theorem Chip.postVi_spi (v x r d : Nat) : (c.postVi v x r d).spi = c.spi := (congrArg Chip.spi (c.postVi_rest v x r d) :)
@[simp] theorem Chip.postVi_lane (v x r d : Nat) : (c.postVi v x r d).lane = c.lane := (congrArg Chip.lane (c.postVi_rest v x r d) :)
@[simp] theorem Chip.postVi_frm (v x r d : Nat) : (c.postVi v x r d).frm = c.frm := (congrArg Chip.frm (c.postVi_rest v x r d) :)
@[simp] theorem Chip.postVi_time (v x r d : Nat) : (c.postVi v x r d).time = c.time := (congrArg Chip.time (c.postVi_rest v x r d) :)
@[simp] theorem Chip.postVi_gear (v x r d : Nat) : (c.postVi v x r d).gear = c.gear := (congrArg Chip.gear (c.postVi_rest v x r d) :)
@[simp] theorem Chip.postVi_fab (v x r d : Nat) : (c.postVi v x r d).fab = c.fab := (congrArg Chip.fab (c.postVi_rest v x r d) :)
@[simp] theorem Chip.postVi_keys (v x r d : Nat) : (c.postVi v x r d).keys = c.keys := (congrArg Chip.keys (c.postVi_rest v x r d) :)
@[simp] theorem Chip.postVi_sealing (v x r d : Nat) : (c.postVi v x r d).sealing = c.sealing := (congrArg Chip.sealing (c.postVi_rest v x r d) :)
@[simp] theorem Chip.postVi_csys (v x r d : Nat) : (c.postVi v x r d).csys = c.csys := (congrArg Chip.csys (c.postVi_rest v x r d) :)
@[simp] theorem Chip.postVi_crock (v x r d : Nat) : (c.postVi v x r d).crock = c.crock := (congrArg Chip.crock (c.postVi_rest v x r d) :)
@[simp] theorem Chip.postVi_disp (v x r d : Nat) : (c.postVi v x r d).disp = c.disp := (congrArg Chip.disp (c.postVi_rest v x r d) :)
@[simp] theorem Chip.postVi_eth (v x r d : Nat) : (c.postVi v x r d).eth = c.eth := (congrArg Chip.eth (c.postVi_rest v x r d) :)
@[simp] theorem Chip.postVi_usb (v x r d : Nat) : (c.postVi v x r d).usb = c.usb := (congrArg Chip.usb (c.postVi_rest v x r d) :)
@[simp] theorem Chip.postVi_leg (v x r d : Nat) : (c.postVi v x r d).leg = c.leg := (congrArg Chip.leg (c.postVi_rest v x r d) :)
@[simp] theorem Chip.postVi_pwr (v x r d : Nat) : (c.postVi v x r d).pwr = c.pwr := (congrArg Chip.pwr (c.postVi_rest v x r d) :)
@[simp] theorem Chip.postVi_gk (v x r d : Nat) : (c.postVi v x r d).gk = c.gk := (congrArg Chip.gk (c.postVi_rest v x r d) :)
@[simp] theorem Chip.postVi_sram (v x r d : Nat) : (c.postVi v x r d).sram = c.sram := (congrArg Chip.sram (c.postVi_rest v x r d) :)

@[simp] theorem Chip.postForHandle_clk (r : HandleRec) (e : EventRec) : (c.postForHandle r e).clk = c.clk := (congrArg Chip.clk (c.postForHandle_rest r e) :)
@[simp] theorem Chip.postForHandle_dev (r : HandleRec) (e : EventRec) : (c.postForHandle r e).dev = c.dev := (congrArg Chip.dev (c.postForHandle_rest r e) :)
@[simp] theorem Chip.postForHandle_flash (r : HandleRec) (e : EventRec) : (c.postForHandle r e).flash = c.flash := (congrArg Chip.flash (c.postForHandle_rest r e) :)
@[simp] theorem Chip.postForHandle_spi (r : HandleRec) (e : EventRec) : (c.postForHandle r e).spi = c.spi := (congrArg Chip.spi (c.postForHandle_rest r e) :)
@[simp] theorem Chip.postForHandle_lane (r : HandleRec) (e : EventRec) : (c.postForHandle r e).lane = c.lane := (congrArg Chip.lane (c.postForHandle_rest r e) :)
@[simp] theorem Chip.postForHandle_frm (r : HandleRec) (e : EventRec) : (c.postForHandle r e).frm = c.frm := (congrArg Chip.frm (c.postForHandle_rest r e) :)
@[simp] theorem Chip.postForHandle_time (r : HandleRec) (e : EventRec) : (c.postForHandle r e).time = c.time := (congrArg Chip.time (c.postForHandle_rest r e) :)
@[simp] theorem Chip.postForHandle_gear (r : HandleRec) (e : EventRec) : (c.postForHandle r e).gear = c.gear := (congrArg Chip.gear (c.postForHandle_rest r e) :)
@[simp] theorem Chip.postForHandle_fab (r : HandleRec) (e : EventRec) : (c.postForHandle r e).fab = c.fab := (congrArg Chip.fab (c.postForHandle_rest r e) :)
@[simp] theorem Chip.postForHandle_keys (r : HandleRec) (e : EventRec) : (c.postForHandle r e).keys = c.keys := (congrArg Chip.keys (c.postForHandle_rest r e) :)
@[simp] theorem Chip.postForHandle_sealing (r : HandleRec) (e : EventRec) : (c.postForHandle r e).sealing = c.sealing := (congrArg Chip.sealing (c.postForHandle_rest r e) :)
@[simp] theorem Chip.postForHandle_csys (r : HandleRec) (e : EventRec) : (c.postForHandle r e).csys = c.csys := (congrArg Chip.csys (c.postForHandle_rest r e) :)
@[simp] theorem Chip.postForHandle_crock (r : HandleRec) (e : EventRec) : (c.postForHandle r e).crock = c.crock := (congrArg Chip.crock (c.postForHandle_rest r e) :)
@[simp] theorem Chip.postForHandle_disp (r : HandleRec) (e : EventRec) : (c.postForHandle r e).disp = c.disp := (congrArg Chip.disp (c.postForHandle_rest r e) :)
@[simp] theorem Chip.postForHandle_eth (r : HandleRec) (e : EventRec) : (c.postForHandle r e).eth = c.eth := (congrArg Chip.eth (c.postForHandle_rest r e) :)
@[simp] theorem Chip.postForHandle_usb (r : HandleRec) (e : EventRec) : (c.postForHandle r e).usb = c.usb := (congrArg Chip.usb (c.postForHandle_rest r e) :)
@[simp] theorem Chip.postForHandle_leg (r : HandleRec) (e : EventRec) : (c.postForHandle r e).leg = c.leg := (congrArg Chip.leg (c.postForHandle_rest r e) :)
@[simp] theorem Chip.postForHandle_pwr (r : HandleRec) (e : EventRec) : (c.postForHandle r e).pwr = c.pwr := (congrArg Chip.pwr (c.postForHandle_rest r e) :)
@[simp] theorem Chip.postForHandle_gk (r : HandleRec) (e : EventRec) : (c.postForHandle r e).gk = c.gk := (congrArg Chip.gk (c.postForHandle_rest r e) :)
@[simp] theorem Chip.postForHandle_sram (r : HandleRec) (e : EventRec) : (c.postForHandle r e).sram = c.sram := (congrArg Chip.sram (c.postForHandle_rest r e) :)

@[simp] theorem Chip.complete_clk (h st rs x : Nat) : (c.complete h st rs x).clk = c.clk := (congrArg Chip.clk (c.complete_rest h st rs x) :)
@[simp] theorem Chip.complete_dev (h st rs x : Nat) : (c.complete h st rs x).dev = c.dev := (congrArg Chip.dev (c.complete_rest h st rs x) :)
@[simp] theorem Chip.complete_flash (h st rs x : Nat) : (c.complete h st rs x).flash = c.flash := (congrArg Chip.flash (c.complete_rest h st rs x) :)
@[simp] theorem Chip.complete_spi (h st rs x : Nat) : (c.complete h st rs x).spi = c.spi := (congrArg Chip.spi (c.complete_rest h st rs x) :)
@[simp] theorem Chip.complete_lane (h st rs x : Nat) : (c.complete h st rs x).lane = c.lane := (congrArg Chip.lane (c.complete_rest h st rs x) :)
@[simp] theorem Chip.complete_frm (h st rs x : Nat) : (c.complete h st rs x).frm = c.frm := (congrArg Chip.frm (c.complete_rest h st rs x) :)
@[simp] theorem Chip.complete_time (h st rs x : Nat) : (c.complete h st rs x).time = c.time := (congrArg Chip.time (c.complete_rest h st rs x) :)
@[simp] theorem Chip.complete_gear (h st rs x : Nat) : (c.complete h st rs x).gear = c.gear := (congrArg Chip.gear (c.complete_rest h st rs x) :)
@[simp] theorem Chip.complete_fab (h st rs x : Nat) : (c.complete h st rs x).fab = c.fab := (congrArg Chip.fab (c.complete_rest h st rs x) :)
@[simp] theorem Chip.complete_keys (h st rs x : Nat) : (c.complete h st rs x).keys = c.keys := (congrArg Chip.keys (c.complete_rest h st rs x) :)
@[simp] theorem Chip.complete_sealing (h st rs x : Nat) : (c.complete h st rs x).sealing = c.sealing := (congrArg Chip.sealing (c.complete_rest h st rs x) :)
@[simp] theorem Chip.complete_csys (h st rs x : Nat) : (c.complete h st rs x).csys = c.csys := (congrArg Chip.csys (c.complete_rest h st rs x) :)
@[simp] theorem Chip.complete_crock (h st rs x : Nat) : (c.complete h st rs x).crock = c.crock := (congrArg Chip.crock (c.complete_rest h st rs x) :)
@[simp] theorem Chip.complete_disp (h st rs x : Nat) : (c.complete h st rs x).disp = c.disp := (congrArg Chip.disp (c.complete_rest h st rs x) :)
@[simp] theorem Chip.complete_eth (h st rs x : Nat) : (c.complete h st rs x).eth = c.eth := (congrArg Chip.eth (c.complete_rest h st rs x) :)
@[simp] theorem Chip.complete_usb (h st rs x : Nat) : (c.complete h st rs x).usb = c.usb := (congrArg Chip.usb (c.complete_rest h st rs x) :)
@[simp] theorem Chip.complete_leg (h st rs x : Nat) : (c.complete h st rs x).leg = c.leg := (congrArg Chip.leg (c.complete_rest h st rs x) :)
@[simp] theorem Chip.complete_pwr (h st rs x : Nat) : (c.complete h st rs x).pwr = c.pwr := (congrArg Chip.pwr (c.complete_rest h st rs x) :)
@[simp] theorem Chip.complete_gk (h st rs x : Nat) : (c.complete h st rs x).gk = c.gk := (congrArg Chip.gk (c.complete_rest h st rs x) :)
@[simp] theorem Chip.complete_sram (h st rs x : Nat) : (c.complete h st rs x).sram = c.sram := (congrArg Chip.sram (c.complete_rest h st rs x) :)

@[simp] theorem Chip.writeCqe_clk (v q : Nat) (r : Reply) : (c.writeCqe v q r).clk = c.clk := (congrArg Chip.clk (c.writeCqe_rest v q r) :)
@[simp] theorem Chip.writeCqe_dev (v q : Nat) (r : Reply) : (c.writeCqe v q r).dev = c.dev := (congrArg Chip.dev (c.writeCqe_rest v q r) :)
@[simp] theorem Chip.writeCqe_flash (v q : Nat) (r : Reply) : (c.writeCqe v q r).flash = c.flash := (congrArg Chip.flash (c.writeCqe_rest v q r) :)
@[simp] theorem Chip.writeCqe_spi (v q : Nat) (r : Reply) : (c.writeCqe v q r).spi = c.spi := (congrArg Chip.spi (c.writeCqe_rest v q r) :)
@[simp] theorem Chip.writeCqe_lane (v q : Nat) (r : Reply) : (c.writeCqe v q r).lane = c.lane := (congrArg Chip.lane (c.writeCqe_rest v q r) :)
@[simp] theorem Chip.writeCqe_frm (v q : Nat) (r : Reply) : (c.writeCqe v q r).frm = c.frm := (congrArg Chip.frm (c.writeCqe_rest v q r) :)
@[simp] theorem Chip.writeCqe_time (v q : Nat) (r : Reply) : (c.writeCqe v q r).time = c.time := (congrArg Chip.time (c.writeCqe_rest v q r) :)
@[simp] theorem Chip.writeCqe_gear (v q : Nat) (r : Reply) : (c.writeCqe v q r).gear = c.gear := (congrArg Chip.gear (c.writeCqe_rest v q r) :)
@[simp] theorem Chip.writeCqe_fab (v q : Nat) (r : Reply) : (c.writeCqe v q r).fab = c.fab := (congrArg Chip.fab (c.writeCqe_rest v q r) :)
@[simp] theorem Chip.writeCqe_keys (v q : Nat) (r : Reply) : (c.writeCqe v q r).keys = c.keys := (congrArg Chip.keys (c.writeCqe_rest v q r) :)
@[simp] theorem Chip.writeCqe_sealing (v q : Nat) (r : Reply) : (c.writeCqe v q r).sealing = c.sealing := (congrArg Chip.sealing (c.writeCqe_rest v q r) :)
@[simp] theorem Chip.writeCqe_csys (v q : Nat) (r : Reply) : (c.writeCqe v q r).csys = c.csys := (congrArg Chip.csys (c.writeCqe_rest v q r) :)
@[simp] theorem Chip.writeCqe_crock (v q : Nat) (r : Reply) : (c.writeCqe v q r).crock = c.crock := (congrArg Chip.crock (c.writeCqe_rest v q r) :)
@[simp] theorem Chip.writeCqe_disp (v q : Nat) (r : Reply) : (c.writeCqe v q r).disp = c.disp := (congrArg Chip.disp (c.writeCqe_rest v q r) :)
@[simp] theorem Chip.writeCqe_eth (v q : Nat) (r : Reply) : (c.writeCqe v q r).eth = c.eth := (congrArg Chip.eth (c.writeCqe_rest v q r) :)
@[simp] theorem Chip.writeCqe_usb (v q : Nat) (r : Reply) : (c.writeCqe v q r).usb = c.usb := (congrArg Chip.usb (c.writeCqe_rest v q r) :)
@[simp] theorem Chip.writeCqe_leg (v q : Nat) (r : Reply) : (c.writeCqe v q r).leg = c.leg := (congrArg Chip.leg (c.writeCqe_rest v q r) :)
@[simp] theorem Chip.writeCqe_pwr (v q : Nat) (r : Reply) : (c.writeCqe v q r).pwr = c.pwr := (congrArg Chip.pwr (c.writeCqe_rest v q r) :)
@[simp] theorem Chip.writeCqe_gk (v q : Nat) (r : Reply) : (c.writeCqe v q r).gk = c.gk := (congrArg Chip.gk (c.writeCqe_rest v q r) :)
@[simp] theorem Chip.writeCqe_sram (v q : Nat) (r : Reply) : (c.writeCqe v q r).sram = c.sram := (congrArg Chip.sram (c.writeCqe_rest v q r) :)

@[simp] theorem Chip.dmaWrite_clk (v a : Nat) (d : Bytes) : (c.dmaWrite v a d).clk = c.clk := (congrArg Chip.clk (c.dmaWrite_rest v a d) :)
@[simp] theorem Chip.dmaWrite_dev (v a : Nat) (d : Bytes) : (c.dmaWrite v a d).dev = c.dev := (congrArg Chip.dev (c.dmaWrite_rest v a d) :)
@[simp] theorem Chip.dmaWrite_flash (v a : Nat) (d : Bytes) : (c.dmaWrite v a d).flash = c.flash := (congrArg Chip.flash (c.dmaWrite_rest v a d) :)
@[simp] theorem Chip.dmaWrite_spi (v a : Nat) (d : Bytes) : (c.dmaWrite v a d).spi = c.spi := (congrArg Chip.spi (c.dmaWrite_rest v a d) :)
@[simp] theorem Chip.dmaWrite_lane (v a : Nat) (d : Bytes) : (c.dmaWrite v a d).lane = c.lane := (congrArg Chip.lane (c.dmaWrite_rest v a d) :)
@[simp] theorem Chip.dmaWrite_frm (v a : Nat) (d : Bytes) : (c.dmaWrite v a d).frm = c.frm := (congrArg Chip.frm (c.dmaWrite_rest v a d) :)
@[simp] theorem Chip.dmaWrite_time (v a : Nat) (d : Bytes) : (c.dmaWrite v a d).time = c.time := (congrArg Chip.time (c.dmaWrite_rest v a d) :)
@[simp] theorem Chip.dmaWrite_gear (v a : Nat) (d : Bytes) : (c.dmaWrite v a d).gear = c.gear := (congrArg Chip.gear (c.dmaWrite_rest v a d) :)
@[simp] theorem Chip.dmaWrite_fab (v a : Nat) (d : Bytes) : (c.dmaWrite v a d).fab = c.fab := (congrArg Chip.fab (c.dmaWrite_rest v a d) :)
@[simp] theorem Chip.dmaWrite_keys (v a : Nat) (d : Bytes) : (c.dmaWrite v a d).keys = c.keys := (congrArg Chip.keys (c.dmaWrite_rest v a d) :)
@[simp] theorem Chip.dmaWrite_sealing (v a : Nat) (d : Bytes) : (c.dmaWrite v a d).sealing = c.sealing := (congrArg Chip.sealing (c.dmaWrite_rest v a d) :)
@[simp] theorem Chip.dmaWrite_csys (v a : Nat) (d : Bytes) : (c.dmaWrite v a d).csys = c.csys := (congrArg Chip.csys (c.dmaWrite_rest v a d) :)
@[simp] theorem Chip.dmaWrite_crock (v a : Nat) (d : Bytes) : (c.dmaWrite v a d).crock = c.crock := (congrArg Chip.crock (c.dmaWrite_rest v a d) :)
@[simp] theorem Chip.dmaWrite_disp (v a : Nat) (d : Bytes) : (c.dmaWrite v a d).disp = c.disp := (congrArg Chip.disp (c.dmaWrite_rest v a d) :)
@[simp] theorem Chip.dmaWrite_eth (v a : Nat) (d : Bytes) : (c.dmaWrite v a d).eth = c.eth := (congrArg Chip.eth (c.dmaWrite_rest v a d) :)
@[simp] theorem Chip.dmaWrite_usb (v a : Nat) (d : Bytes) : (c.dmaWrite v a d).usb = c.usb := (congrArg Chip.usb (c.dmaWrite_rest v a d) :)
@[simp] theorem Chip.dmaWrite_leg (v a : Nat) (d : Bytes) : (c.dmaWrite v a d).leg = c.leg := (congrArg Chip.leg (c.dmaWrite_rest v a d) :)
@[simp] theorem Chip.dmaWrite_pwr (v a : Nat) (d : Bytes) : (c.dmaWrite v a d).pwr = c.pwr := (congrArg Chip.pwr (c.dmaWrite_rest v a d) :)
@[simp] theorem Chip.dmaWrite_gk (v a : Nat) (d : Bytes) : (c.dmaWrite v a d).gk = c.gk := (congrArg Chip.gk (c.dmaWrite_rest v a d) :)
@[simp] theorem Chip.dmaWrite_sram (v a : Nat) (d : Bytes) : (c.dmaWrite v a d).sram = c.sram := (congrArg Chip.sram (c.dmaWrite_rest v a d) :)

@[simp] theorem Chip.dmaRead_clk (v a l : Nat) (w : ReadFor) : (c.dmaRead v a l w).clk = c.clk := (congrArg Chip.clk (c.dmaRead_rest v a l w) :)
@[simp] theorem Chip.dmaRead_dev (v a l : Nat) (w : ReadFor) : (c.dmaRead v a l w).dev = c.dev := (congrArg Chip.dev (c.dmaRead_rest v a l w) :)
@[simp] theorem Chip.dmaRead_flash (v a l : Nat) (w : ReadFor) : (c.dmaRead v a l w).flash = c.flash := (congrArg Chip.flash (c.dmaRead_rest v a l w) :)
@[simp] theorem Chip.dmaRead_spi (v a l : Nat) (w : ReadFor) : (c.dmaRead v a l w).spi = c.spi := (congrArg Chip.spi (c.dmaRead_rest v a l w) :)
@[simp] theorem Chip.dmaRead_lane (v a l : Nat) (w : ReadFor) : (c.dmaRead v a l w).lane = c.lane := (congrArg Chip.lane (c.dmaRead_rest v a l w) :)
@[simp] theorem Chip.dmaRead_frm (v a l : Nat) (w : ReadFor) : (c.dmaRead v a l w).frm = c.frm := (congrArg Chip.frm (c.dmaRead_rest v a l w) :)
@[simp] theorem Chip.dmaRead_time (v a l : Nat) (w : ReadFor) : (c.dmaRead v a l w).time = c.time := (congrArg Chip.time (c.dmaRead_rest v a l w) :)
@[simp] theorem Chip.dmaRead_gear (v a l : Nat) (w : ReadFor) : (c.dmaRead v a l w).gear = c.gear := (congrArg Chip.gear (c.dmaRead_rest v a l w) :)
@[simp] theorem Chip.dmaRead_fab (v a l : Nat) (w : ReadFor) : (c.dmaRead v a l w).fab = c.fab := (congrArg Chip.fab (c.dmaRead_rest v a l w) :)
@[simp] theorem Chip.dmaRead_keys (v a l : Nat) (w : ReadFor) : (c.dmaRead v a l w).keys = c.keys := (congrArg Chip.keys (c.dmaRead_rest v a l w) :)
@[simp] theorem Chip.dmaRead_sealing (v a l : Nat) (w : ReadFor) : (c.dmaRead v a l w).sealing = c.sealing := (congrArg Chip.sealing (c.dmaRead_rest v a l w) :)
@[simp] theorem Chip.dmaRead_csys (v a l : Nat) (w : ReadFor) : (c.dmaRead v a l w).csys = c.csys := (congrArg Chip.csys (c.dmaRead_rest v a l w) :)
@[simp] theorem Chip.dmaRead_crock (v a l : Nat) (w : ReadFor) : (c.dmaRead v a l w).crock = c.crock := (congrArg Chip.crock (c.dmaRead_rest v a l w) :)
@[simp] theorem Chip.dmaRead_disp (v a l : Nat) (w : ReadFor) : (c.dmaRead v a l w).disp = c.disp := (congrArg Chip.disp (c.dmaRead_rest v a l w) :)
@[simp] theorem Chip.dmaRead_eth (v a l : Nat) (w : ReadFor) : (c.dmaRead v a l w).eth = c.eth := (congrArg Chip.eth (c.dmaRead_rest v a l w) :)
@[simp] theorem Chip.dmaRead_usb (v a l : Nat) (w : ReadFor) : (c.dmaRead v a l w).usb = c.usb := (congrArg Chip.usb (c.dmaRead_rest v a l w) :)
@[simp] theorem Chip.dmaRead_leg (v a l : Nat) (w : ReadFor) : (c.dmaRead v a l w).leg = c.leg := (congrArg Chip.leg (c.dmaRead_rest v a l w) :)
@[simp] theorem Chip.dmaRead_pwr (v a l : Nat) (w : ReadFor) : (c.dmaRead v a l w).pwr = c.pwr := (congrArg Chip.pwr (c.dmaRead_rest v a l w) :)
@[simp] theorem Chip.dmaRead_gk (v a l : Nat) (w : ReadFor) : (c.dmaRead v a l w).gk = c.gk := (congrArg Chip.gk (c.dmaRead_rest v a l w) :)
@[simp] theorem Chip.dmaRead_sram (v a l : Nat) (w : ReadFor) : (c.dmaRead v a l w).sram = c.sram := (congrArg Chip.sram (c.dmaRead_rest v a l w) :)

/-! A reply changes the command unit, the SPI target, the host port, the lifetime counters' place and the outbox only -/

/-- The block without the five sub-states that posting a reply can change. -/
def Chip.rest2 (c : Chip) : Chip := { c.rest with spi := {} }

theorem Chip.rest2_of_rest {a b : Chip} (h : a.rest = b.rest) : a.rest2 = b.rest2 := by
  unfold Chip.rest2; rw [h]
@[simp] theorem Chip.writeCqe_rest2 (v q : Nat) (r : Reply) : (c.writeCqe v q r).rest2 = c.rest2 := Chip.rest2_of_rest (c.writeCqe_rest v q r)
@[simp] theorem Chip.count_rest2 (t : Nat) (f : CmdCounters → CmdCounters) : (c.count t f).rest2 = c.rest2 := rfl
@[simp] theorem Chip.withCmd_rest2 (x : Cmd) : ({ c with cmd := x } : Chip).rest2 = c.rest2 := rfl
@[simp] theorem Chip.withHost_rest2 (x : HostPort) : ({ c with host := x } : Chip).rest2 = c.rest2 := rfl
@[simp] theorem Chip.withSpi_rest2 (x : Spi) : ({ c with spi := x } : Chip).rest2 = c.rest2 := rfl
@[simp] theorem Chip.postReply_rest2 (r : Reply) : (c.postReply r).rest2 = c.rest2 := by
  unfold Chip.postReply; dsimp only; repeat' split
  all_goals first | (simp; done) | rfl

@[simp] theorem Chip.postReply_clk (r : Reply) : (c.postReply r).clk = c.clk := (congrArg Chip.clk (c.postReply_rest2 r) :)
@[simp] theorem Chip.postReply_dev (r : Reply) : (c.postReply r).dev = c.dev := (congrArg Chip.dev (c.postReply_rest2 r) :)
@[simp] theorem Chip.postReply_flash (r : Reply) : (c.postReply r).flash = c.flash := (congrArg Chip.flash (c.postReply_rest2 r) :)
@[simp] theorem Chip.postReply_lane (r : Reply) : (c.postReply r).lane = c.lane := (congrArg Chip.lane (c.postReply_rest2 r) :)
@[simp] theorem Chip.postReply_frm (r : Reply) : (c.postReply r).frm = c.frm := (congrArg Chip.frm (c.postReply_rest2 r) :)
@[simp] theorem Chip.postReply_time (r : Reply) : (c.postReply r).time = c.time := (congrArg Chip.time (c.postReply_rest2 r) :)
@[simp] theorem Chip.postReply_gear (r : Reply) : (c.postReply r).gear = c.gear := (congrArg Chip.gear (c.postReply_rest2 r) :)
@[simp] theorem Chip.postReply_fab (r : Reply) : (c.postReply r).fab = c.fab := (congrArg Chip.fab (c.postReply_rest2 r) :)
@[simp] theorem Chip.postReply_keys (r : Reply) : (c.postReply r).keys = c.keys := (congrArg Chip.keys (c.postReply_rest2 r) :)
@[simp] theorem Chip.postReply_sealing (r : Reply) : (c.postReply r).sealing = c.sealing := (congrArg Chip.sealing (c.postReply_rest2 r) :)
@[simp] theorem Chip.postReply_csys (r : Reply) : (c.postReply r).csys = c.csys := (congrArg Chip.csys (c.postReply_rest2 r) :)
@[simp] theorem Chip.postReply_crock (r : Reply) : (c.postReply r).crock = c.crock := (congrArg Chip.crock (c.postReply_rest2 r) :)
@[simp] theorem Chip.postReply_disp (r : Reply) : (c.postReply r).disp = c.disp := (congrArg Chip.disp (c.postReply_rest2 r) :)
@[simp] theorem Chip.postReply_eth (r : Reply) : (c.postReply r).eth = c.eth := (congrArg Chip.eth (c.postReply_rest2 r) :)
@[simp] theorem Chip.postReply_usb (r : Reply) : (c.postReply r).usb = c.usb := (congrArg Chip.usb (c.postReply_rest2 r) :)
@[simp] theorem Chip.postReply_leg (r : Reply) : (c.postReply r).leg = c.leg := (congrArg Chip.leg (c.postReply_rest2 r) :)
@[simp] theorem Chip.postReply_pwr (r : Reply) : (c.postReply r).pwr = c.pwr := (congrArg Chip.pwr (c.postReply_rest2 r) :)
@[simp] theorem Chip.postReply_gk (r : Reply) : (c.postReply r).gk = c.gk := (congrArg Chip.gk (c.postReply_rest2 r) :)
@[simp] theorem Chip.postReply_sram (r : Reply) : (c.postReply r).sram = c.sram := (congrArg Chip.sram (c.postReply_rest2 r) :)

end Sys2Proof.Machine
end

