-- ==== Sys2Proof/Laws/Command.lean ====
section
/-!
SUPPORT. What a command row can do, once for every opcode: the packet is not taken, refused by R31, or its opcode's own body runs and its
answer is posted.
-/
namespace Sys2Proof.Machine

@[simp] theorem reasonFor_zero (v : Nat) : reasonFor v 0 = 0 := by unfold reasonFor; split <;> rfl

/-! What the context of a packet holds -/

@[simp] theorem State.ctxOf_op (s : State) (op : Nat) (p : Packet) (c : Chip) : (s.ctxOf op p c).op = op := (rfl)
@[simp] theorem State.ctxOf_ps (s : State) (op : Nat) (p : Packet) (c : Chip) : (s.ctxOf op p c).ps = p.params := (rfl)
@[simp] theorem State.ctxOf_sess (s : State) (op : Nat) (p : Packet) (c : Chip) : (s.ctxOf op p c).sess = p.sess := (rfl)
@[simp] theorem State.ctxOf_iss (s : State) (op : Nat) (p : Packet) (c : Chip) : (s.ctxOf op p c).iss = (c.issuer p.sess).1 := (rfl)
@[simp] theorem State.ctxOf_lvl (s : State) (op : Nat) (p : Packet) (c : Chip) : (s.ctxOf op p c).lvl = (c.issuer p.sess).2 := (rfl)
@[simp] theorem State.ctxOf_ver (s : State) (op : Nat) (p : Packet) (c : Chip) : (s.ctxOf op p c).ver = p.version.toNat := (rfl)
@[simp] theorem State.ctxOf_tag (s : State) (op : Nat) (p : Packet) (c : Chip) : (s.ctxOf op p c).tag = p.tag.toNat := (rfl)
@[simp] theorem State.ctxOf_evq (s : State) (op : Nat) (p : Packet) (c : Chip) : (s.ctxOf op p c).evq = p.evq.toNat := (rfl)
@[simp] theorem State.ctxOf_handle (s : State) (op : Nat) (p : Packet) (c : Chip) :
    (s.ctxOf op p c).handle = c.newHandle (c.issuer p.sess).1 := (rfl)
@[simp] theorem State.ctxOf_fuses (s : State) (op : Nat) (p : Packet) (c : Chip) : (s.ctxOf op p c).fuses = s.fuses := (rfl)
@[simp] theorem State.ctxOf_guard (s : State) (op : Nat) (p : Packet) (c : Chip) : (s.ctxOf op p c).guard = s.guard := (rfl)

/-- The rule sets, the fuses and the queue stay as they are in a command that changes neither. -/
theorem runCommand_next (op : Nat) (p : Packet) (s : State) (body : Ctx → Chip → Ans × Chip) :
    ∃ c, runCommand op p s body = .next { s with chip := c } := ⟨_, rfl⟩

/-- An executed command whose body answers `r` over `c'`. -/
theorem runCommandA_heard {α : Type} {op : Nat} {p : Packet} {s : State} {c : Chip} (h : s.heard op p c)
    (body : Ctx → Chip → α → Ans × Chip × α) (a : α) :
    runCommandA op p s.fuses s.guard body s.chip a =
      c.answer a (s.ctxOf op p c) (body (s.ctxOf op p c) c a).1 (body (s.ctxOf op p c) c a).2.1 (body (s.ctxOf op p c) c a).2.2 := by
  obtain ⟨ht, hr⟩ := h
  simp only [State.taken] at ht
  simp only [runCommandA]
  by_cases hw : s.waits op p = true
  · have hi : (s.chip.attend p.sess).cmd.inbox.contains (op, p) = true := hw
    simp only [hw, if_true] at ht hr
    split at ht
    · rename_i hf
      simp only [Option.some.injEq] at ht
      subst ht
      simp only [hi, hf, if_true, runTaken, hr]
      rfl
    · exact absurd ht (by simp)
  · have hi : ¬ (s.chip.attend p.sess).cmd.inbox.contains (op, p) = true := hw
    rw [if_neg hw] at ht hr
    rw [if_neg hi]
    split at ht
    · exact absurd ht (by simp)
    · rename_i ho
      simp only [Bool.or_eq_true, not_or] at ho
      have ho' : (List.find? (fun o => o.1 == op && o.2.1 == p) (s.chip.attend p.sess).usb.orphans) = none := by
        cases hf : List.find? (fun o => o.1 == op && o.2.1 == p) (s.chip.attend p.sess).usb.orphans with
        | none => rfl
        | some o => rw [hf] at ho; exact absurd rfl ho.1
      simp only [ho', if_neg ho.2]
      split at ht
      · rename_i hp
        simp only [Option.some.injEq] at ht
        subst ht
        simp only [hp, if_true, runTaken, hr]
        rfl
      · exact absurd ht (by simp)

/-- The answer of a body that succeeds with RESULT and data that fit (R33). -/
theorem Chip.answer_ok {α : Type} (c0 c : Chip) (a0 a : α) (op : Nat) (p : Packet) (f : Fuses) (g : Guard) (data : Bytes) (result : Nat)
    (h : c0.roomFor p data.length) :
    c0.answer a0 (c0.ctx op p f g) { data, result } c a = (c.replied p data result, a) := by
  unfold Chip.roomFor at h
  have h2 : ¬ data.length > c0.replyRoom p.sess := by omega
  simp [Chip.answer, stAccepted, Chip.ctx, h2, Chip.replied]

/-- The answer of a body that refuses (R33): the reply carries the status and the reason, and no effect stands but the body's own. -/
theorem Chip.answer_err {α : Type} (c0 c : Chip) (a0 a : α) (op : Nat) (p : Packet) (f : Fuses) (g : Guard) (st rs result : Nat)
    (h : st ≠ 1) :
    c0.answer a0 (c0.ctx op p f g) (err st rs result) c a = (c.refused p st rs result, a) := by
  simp [Chip.answer, stAccepted, Chip.ctx, err, h, Chip.refused]

/-- The answer of a body that accepts a long command, with a record free (R51, R54). -/
theorem Chip.answer_accepted {α : Type} (c0 c : Chip) (a0 a : α) (op : Nat) (p : Packet) (f : Fuses) (g : Guard)
    (h : c0.recordFree (c0.issuer p.sess).1 = true) :
    c0.answer a0 (c0.ctx op p f g) accepted c a = (c.accepts p (c0.ctx op p f g), a) := by
  simp [Chip.answer, stAccepted, accepted, h, Chip.accepts, Chip.ctx]

/-- The answer of a long command that finds all of its issuer's records open (R54). -/
theorem Chip.answer_noRecord {α : Type} (c0 c : Chip) (a0 a : α) (x : Ctx) (r : Ans) (hs : r.st = stAccepted)
    (h : c0.recordFree x.iss = false) :
    c0.answer a0 x r c a = (c0.postReply { sess := x.sess, status := stBusy, tag := x.tag }, a0) := by
  simp [Chip.answer, hs, h]

/-- A command whose body succeeds. -/
theorem runCommand_ok {op : Nat} {p : Packet} {s : State} {c c' : Chip} {data : Bytes} {result : Nat}
    {body : Ctx → Chip → Ans × Chip} (h : s.heard op p c) (hb : body (s.ctxOf op p c) c = ({ data, result }, c'))
    (hr : c.roomFor p data.length) : runCommand op p s body = .next { s with chip := c'.replied p data result } := by
  unfold runCommand
  simp only [runCommandA_heard h, hb]
  unfold State.ctxOf
  rw [Chip.answer_ok c c' () () op p s.fuses s.guard data result hr]

/-- A command whose body refuses. -/
theorem runCommand_err {op : Nat} {p : Packet} {s : State} {c c' : Chip} {st rs result : Nat}
    {body : Ctx → Chip → Ans × Chip} (h : s.heard op p c) (hb : body (s.ctxOf op p c) c = (err st rs result, c'))
    (hs : st ≠ 1) : runCommand op p s body = .next { s with chip := c'.refused p st rs result } := by
  unfold runCommand
  simp only [runCommandA_heard h, hb]
  unfold State.ctxOf
  rw [Chip.answer_err c c' () () op p s.fuses s.guard st rs result hs]

/-- A long command that is accepted. -/
theorem runCommand_accepted {op : Nat} {p : Packet} {s : State} {c c' : Chip}
    {body : Ctx → Chip → Ans × Chip} (h : s.heard op p c) (hb : body (s.ctxOf op p c) c = (accepted, c'))
    (hr : c.recordFree (c.issuer p.sess).1 = true) :
    runCommand op p s body = .next { s with chip := c'.accepts p (s.ctxOf op p c) } := by
  unfold runCommand
  simp only [runCommandA_heard h, hb]
  unfold State.ctxOf
  rw [Chip.answer_accepted c c' () () op p s.fuses s.guard hr]

/-- An executed command whose body answers a long command's acceptance, completed with its reply (R59). -/
theorem runCommand_done {op : Nat} {p : Packet} {s : State} {c c' : Chip} {st rs res : Nat}
    {body : Ctx → Chip → Ans × Chip} (h : s.heard op p c)
    (hb : body (s.ctxOf op p c) c = ({ accepted with done := some (st, rs, res) }, c'))
    (hr : c.recordFree (c.issuer p.sess).1 = true) :
    runCommand op p s body =
      .next { s with chip := (c'.accepts p (s.ctxOf op p c)).complete (s.ctxOf op p c).handle st rs res } := by
  unfold runCommand
  simp only [runCommandA_heard h, hb]
  simp [Chip.answer, stAccepted, accepted, hr, Chip.accepts, Chip.ctx, State.ctxOf]

/-- An executed command that is refused because every record of its issuer is open (R54). -/
theorem runCommand_noRecord {op : Nat} {p : Packet} {s : State} {c : Chip} {body : Ctx → Chip → Ans × Chip} (h : s.heard op p c)
    (hb : (body (s.ctxOf op p c) c).1.st = stAccepted) (hr : c.recordFree (c.issuer p.sess).1 = false) :
    runCommand op p s body = .next { s with chip := c.postReply { sess := p.sess, status := stBusy, tag := p.tag.toNat } } := by
  unfold runCommand
  simp only [runCommandA_heard h]
  rw [Chip.answer_noRecord c _ () () _ _ hb hr]
  rfl

end Sys2Proof.Machine
end

