-- ==== Sys2Proof/Laws/Table.lean ====
section
/-!
SUPPORT. The sparse tables and the byte memory: a read after a write, and the canonical forms that writes keep.
-/
namespace Sys2Proof

/-! ### Tables -/

@[simp] theorem Tab.get_nil {α : Type} (d : α) (k : Nat) : Tab.get d ([] : Tab α) k = d := rfl
@[simp] theorem Tab.find_nil {α : Type} (k : Nat) : Tab.find ([] : Tab α) k = none := rfl

@[simp] theorem Tab.get_set {α : Type} (d : α) (t : Tab α) (k : Nat) (v : α) : (t.set k v).get d k = v := by
  induction t with
  | nil => simp [Tab.set, Tab.get]
  | cons e r ih =>
    obtain ⟨k', v'⟩ := e
    simp only [Tab.set]
    split
    · simp [Tab.get]
    · split
      · simp [Tab.get]
      · rename_i h _; simp [Tab.get, h, ih]

theorem Tab.get_set_ne {α : Type} (d : α) (t : Tab α) {k j : Nat} (v : α) (h : j ≠ k) : (t.set k v).get d j = t.get d j := by
  induction t with
  | nil => simp [Tab.set, Tab.get, Ne.symm h]
  | cons e r ih =>
    obtain ⟨k', v'⟩ := e
    simp only [Tab.set]
    split
    · subst_vars; simp [Tab.get, Ne.symm h]
    · split
      · simp [Tab.get, Ne.symm h]
      · simp only [Tab.get]; split <;> simp_all

@[simp] theorem Tab.find_set {α : Type} (t : Tab α) (k : Nat) (v : α) : (t.set k v).find k = some v := by
  induction t with
  | nil => simp [Tab.set, Tab.find]
  | cons e r ih =>
    obtain ⟨k', v'⟩ := e
    simp only [Tab.set]
    split
    · simp [Tab.find]
    · split
      · simp [Tab.find]
      · rename_i h _; simp [Tab.find, h, ih]

theorem Tab.find_set_ne {α : Type} (t : Tab α) {k j : Nat} (v : α) (h : j ≠ k) : (t.set k v).find j = t.find j := by
  induction t with
  | nil => simp [Tab.set, Tab.find, Ne.symm h]
  | cons e r ih =>
    obtain ⟨k', v'⟩ := e
    simp only [Tab.set]
    split
    · subst_vars; simp [Tab.find, Ne.symm h]
    · split
      · simp [Tab.find, Ne.symm h]
      · simp only [Tab.find]; split <;> simp_all

theorem Tab.get_of_find {α : Type} (d : α) {t : Tab α} {k : Nat} {v : α} (h : t.find k = some v) : t.get d k = v := by
  induction t with
  | nil => simp at h
  | cons e r ih =>
    obtain ⟨k', v'⟩ := e
    simp only [Tab.find] at h
    simp only [Tab.get]
    split <;> simp_all

theorem Tab.get_of_find_none {α : Type} (d : α) {t : Tab α} {k : Nat} (h : t.find k = none) : t.get d k = d := by
  induction t with
  | nil => rfl
  | cons e r ih =>
    obtain ⟨k', v'⟩ := e
    simp only [Tab.find] at h
    simp only [Tab.get]
    split <;> simp_all

@[simp] theorem Tab.get_erase {α : Type} (d : α) (t : Tab α) (k : Nat) : (t.erase k).get d k = d := by
  induction t with
  | nil => rfl
  | cons e r ih =>
    obtain ⟨k', v'⟩ := e
    simp only [Tab.erase]
    split
    · exact ih
    · rename_i h; simp [Tab.get, h, ih]

theorem Tab.get_erase_ne {α : Type} (d : α) (t : Tab α) {k j : Nat} (h : j ≠ k) : (t.erase k).get d j = t.get d j := by
  induction t with
  | nil => rfl
  | cons e r ih =>
    obtain ⟨k', v'⟩ := e
    simp only [Tab.erase]
    split
    · subst_vars; simp [Tab.get, Ne.symm h, ih]
    · simp only [Tab.get]; split <;> simp_all

/-- An entry of a table after a write is the written one or was there. -/
theorem Tab.mem_set {α : Type} {t : Tab α} {k : Nat} {v : α} {e : Nat × α} (h : e ∈ t.set k v) : e = (k, v) ∨ e ∈ t := by
  induction t with
  | nil => simp [Tab.set] at h; exact Or.inl h
  | cons a r ih =>
    obtain ⟨k', v'⟩ := a
    simp only [Tab.set] at h
    split at h
    · rcases List.mem_cons.1 h with h | h
      · exact Or.inl h
      · exact Or.inr (List.mem_cons_of_mem _ h)
    · split at h
      · rcases List.mem_cons.1 h with h | h
        · exact Or.inl h
        · exact Or.inr h
      · rcases List.mem_cons.1 h with h | h
        · exact Or.inr (h ▸ List.mem_cons_self)
        · rcases ih h with h | h
          · exact Or.inl h
          · exact Or.inr (List.mem_cons_of_mem _ h)

/-- The entry that `get` finds is listed, or it is the default. -/
theorem Tab.get_mem {α : Type} (d : α) (t : Tab α) (k : Nat) : t.get d k = d ∨ (k, t.get d k) ∈ t := by
  induction t with
  | nil => exact Or.inl rfl
  | cons e r ih =>
    obtain ⟨k', v'⟩ := e
    simp only [Tab.get]
    split
    · subst_vars; exact Or.inr List.mem_cons_self
    · rcases ih with h | h
      · exact Or.inl h
      · exact Or.inr (List.mem_cons_of_mem _ h)

theorem Tab.rising_tail {α : Type} {a : Nat × α} {r : Tab α} (h : Tab.rising (a :: r) = true) : Tab.rising r = true := by
  cases r with
  | nil => rfl
  | cons b r => simp [Tab.rising] at h; exact h.2

/-- Below a rising table's first key nothing is listed. -/
theorem Tab.rising_lt {α : Type} {a : Nat × α} {r : Tab α} (h : Tab.rising (a :: r) = true) : ∀ e ∈ r, a.1 < e.1 := by
  induction r generalizing a with
  | nil => simp
  | cons b r ih =>
    simp [Tab.rising] at h
    intro e he
    rcases List.mem_cons.1 he with he | he
    · subst he; exact h.1
    · exact Nat.lt_trans h.1 (ih h.2 e he)

theorem Tab.rising_cons {α : Type} {a : Nat × α} {r : Tab α} (h : ∀ e ∈ r, a.1 < e.1) (hr : Tab.rising r = true) :
    Tab.rising (a :: r) = true := by
  cases r with
  | nil => rfl
  | cons b r => simp [Tab.rising, hr, h b List.mem_cons_self]

theorem Tab.rising_set {α : Type} {t : Tab α} (k : Nat) (v : α) (h : Tab.rising t = true) : Tab.rising (t.set k v) = true := by
  induction t with
  | nil => rfl
  | cons a r ih =>
    obtain ⟨k', v'⟩ := a
    have hl := Tab.rising_lt h
    simp only [Tab.set]
    split
    · subst_vars; exact Tab.rising_cons hl (Tab.rising_tail h)
    · split
      · rename_i h1 h2
        exact Tab.rising_cons (fun e he => by
          rcases List.mem_cons.1 he with he | he
          · subst he; exact h2
          · exact Nat.lt_trans h2 (hl e he)) h
      · rename_i h1 h2
        exact Tab.rising_cons (fun e he => by
          rcases Tab.mem_set he with he | he
          · subst he; simp only; omega
          · exact hl e he) (ih (Tab.rising_tail h))

/-! ### Byte memory -/

theorem memRead_write (d v : Byte) (m : List (Nat × Byte)) (a : Nat) (h : memWf d m = true) :
    memRead d (memWrite d m a v) a = v := by
  have hr : Tab.rising m = true := by simp [memWf] at h; exact h.1
  clear h
  induction m with
  | nil => simp only [memWrite]; split <;> simp_all [memRead]
  | cons e r ih =>
    obtain ⟨k, w⟩ := e
    have hl := Tab.rising_lt hr
    have miss : ∀ (r : List (Nat × Byte)), (∀ e ∈ r, a < e.1) → memRead d r a = d := by
      intro r hr
      induction r with
      | nil => rfl
      | cons x r ih =>
        have := hr x List.mem_cons_self
        simp only [memRead]
        split
        · omega
        · exact ih fun e he => hr e (List.mem_cons_of_mem _ he)
    simp only [memWrite]
    split
    · rename_i hk; subst hk
      split
      · rename_i hv; subst hv; exact miss r hl
      · simp [memRead]
    · split
      · split
        · rename_i hk hlt hv
          subst hv
          exact miss _ fun e he => by
            rcases List.mem_cons.1 he with he | he
            · subst he; exact hlt
            · exact Nat.lt_trans hlt (hl e he)
        · simp [memRead]
      · rename_i hk _
        simp [memRead, hk, ih (Tab.rising_tail hr)]

theorem memRead_write_ne (d v : Byte) (m : List (Nat × Byte)) {a b : Nat} (h : b ≠ a) :
    memRead d (memWrite d m a v) b = memRead d m b := by
  induction m with
  | nil => simp only [memWrite]; split <;> simp [memRead, Ne.symm h]
  | cons e r ih =>
    obtain ⟨k, w⟩ := e
    simp only [memWrite]
    split
    · rename_i hk; subst hk
      split <;> simp [memRead, Ne.symm h]
    · split
      · split <;> simp [memRead, Ne.symm h]
      · simp only [memRead]; split <;> simp_all

theorem memWrite_mem {d v : Byte} {m : List (Nat × Byte)} {a : Nat} {e : Nat × Byte} (h : e ∈ memWrite d m a v) :
    (e = (a, v) ∧ v ≠ d) ∨ e ∈ m := by
  induction m with
  | nil =>
    simp only [memWrite] at h
    split at h
    · simp at h
    · rename_i hv; simp at h; exact Or.inl ⟨h, hv⟩
  | cons x r ih =>
    obtain ⟨k, w⟩ := x
    simp only [memWrite] at h
    split at h
    · split at h
      · exact Or.inr (List.mem_cons_of_mem _ h)
      · rename_i hv
        rcases List.mem_cons.1 h with h | h
        · exact Or.inl ⟨h, hv⟩
        · exact Or.inr (List.mem_cons_of_mem _ h)
    · split at h
      · split at h
        · exact Or.inr h
        · rename_i hv
          rcases List.mem_cons.1 h with h | h
          · exact Or.inl ⟨h, hv⟩
          · exact Or.inr h
      · rcases List.mem_cons.1 h with h | h
        · exact Or.inr (h ▸ List.mem_cons_self)
        · rcases ih h with h | h
          · exact Or.inl h
          · exact Or.inr (List.mem_cons_of_mem _ h)

/-- Writing one byte keeps the canonical form. -/
theorem memWf_write (d v : Byte) (m : List (Nat × Byte)) (a : Nat) (h : memWf d m = true) : memWf d (memWrite d m a v) = true := by
  have hr : Tab.rising m = true := by simp [memWf] at h; exact h.1
  have hn : ∀ e ∈ m, e.2 ≠ d := by
    simp [memWf] at h; intro e he; exact h.2 e.1 e.2 he
  have hr' : Tab.rising (memWrite d m a v) = true := by
    clear hn h
    induction m with
    | nil => simp only [memWrite]; split <;> rfl
    | cons x r ih =>
      obtain ⟨k, w⟩ := x
      have hl := Tab.rising_lt hr
      simp only [memWrite]
      split
      · subst_vars
        split
        · exact Tab.rising_tail hr
        · exact Tab.rising_cons hl (Tab.rising_tail hr)
      · split
        · rename_i h1 h2
          split
          · exact hr
          · exact Tab.rising_cons (fun e he => by
              rcases List.mem_cons.1 he with he | he
              · subst he; exact h2
              · exact Nat.lt_trans h2 (hl e he)) hr
        · rename_i h1 h2
          exact Tab.rising_cons (fun e he => by
            rcases memWrite_mem he with he | he
            · obtain ⟨he, -⟩ := he; subst he; simp only; omega
            · exact hl e he) (ih (Tab.rising_tail hr))
  simp only [memWf, Bool.and_eq_true, List.all_eq_true, bne_iff_ne]
  refine ⟨hr', fun e he => ?_⟩
  rcases memWrite_mem he with ⟨he, hv⟩ | he
  · subst he; exact hv
  · exact hn e he

/-- Writing a byte string keeps the canonical form. -/
theorem memWf_writeBytes (d : Byte) (m : List (Nat × Byte)) (a : Nat) (b : Bytes) (h : memWf d m = true) :
    memWf d (memWriteBytes d m a b) = true := by
  induction b generalizing m a with
  | nil => exact h
  | cons x r ih => exact ih _ _ (memWf_write d x m a h)

theorem memRead_writeBytes_out (d : Byte) (m : List (Nat × Byte)) (a x : Nat) (b : Bytes) (h : x < a ∨ a + b.length ≤ x) :
    memRead d (memWriteBytes d m a b) x = memRead d m x := by
  induction b generalizing m a with
  | nil => rfl
  | cons y r ih =>
    simp only [memWriteBytes]
    simp only [List.length_cons] at h
    rw [ih _ _ (by omega), memRead_write_ne]
    omega

theorem memRead_writeBytes (d : Byte) (m : List (Nat × Byte)) (a : Nat) (b : Bytes) (h : memWf d m = true) (i : Nat) (hi : i < b.length) :
    memRead d (memWriteBytes d m a b) (a + i) = b[i] := by
  induction b generalizing m a i with
  | nil => simp at hi
  | cons y r ih =>
    simp only [memWriteBytes]
    cases i with
    | zero => rw [memRead_writeBytes_out _ _ _ _ _ (by omega)]; simpa using memRead_write d y m a h
    | succ i =>
      have := ih (memWrite d m a y) (a + 1) (memWf_write d y m a h) i (by simpa using hi)
      rw [show a + (i + 1) = a + 1 + i by omega, this]; simp

end Sys2Proof
end

