-- ==== Sys2Proof/Laws/Memory.lean ====
section
/-!
SUPPORT. The CTRL SRAM: it is in canonical form at reset, and the one operation that writes it keeps the form.
-/
namespace Sys2Proof.Machine

theorem Memory.wf_reset : Memory.wf State.reset.chip.sram = true := by decide

theorem Memory.wf_write (m : List (Nat × Byte)) (a : Nat) (v : Byte) (h : Memory.wf m = true) :
    Memory.wf (memWrite 0 m a v) = true := memWf_write 0 v m a h

theorem Memory.wf_writeBytes (m : List (Nat × Byte)) (a : Nat) (b : Bytes) (h : Memory.wf m = true) :
    Memory.wf (memWriteBytes 0 m a b) = true := memWf_writeBytes 0 m a b h

/-- A DBG access keeps the canonical form of the CTRL SRAM. -/
theorem Chip.debugPerform_wf (c : Chip) (addr : Nat) (d : DebugOp) (h : Memory.wf c.sram = true) :
    Memory.wf (c.debugPerform addr d).sram = true := by
  unfold Chip.debugPerform
  cases d <;> dsimp only <;> split <;>
    first
    | exact h
    | (split <;> first | exact h | exact memWf_writeBytes 0 _ addr _ h)

end Sys2Proof.Machine
end

