-- ==== Sys2Proof/WellFormed.lean ====
section
/-!
DEFINITION. When a command's operands are well formed.
-/
namespace Sys2Proof

/-- A packet's parameters are PLEN bytes, or none were stored because PLEN lies beyond the transport's buffer (R42) or they are read
by DMA later. -/
def Packet.wf (p : Packet) : Bool :=
  p.params.length == p.plen.toNat || (p.params.isEmpty && decide (p.plen.toNat > 4096))

/-- A cell's fields fit Table 05.2. -/
def Cell.wf (c : Cell) : Bool :=
  decide (c.tid < 1024) && decide (c.ctype < 16) && decide (c.seq < 65536) && decide (c.len < 64) && decide (c.aux < 256)
    && decide (c.xtag < 65536) && c.payload.length == 56

/-- An aperture access lies in the 32 KiB of the aperture and in one TLP. -/
def ApAccess.wf (a : ApAccess) : Bool := decide (1 ≤ a.len) && decide (a.len ≤ 4096) && decide (a.off + a.len ≤ 32768)

/-- A slave cycle moves 1 to 2,048 bytes. -/
def SlaveCycle.wf : SlaveCycle → Bool
  | .read n => decide (1 ≤ n) && decide (n ≤ 2048)
  | .write d => decide (1 ≤ d.length) && decide (d.length ≤ 2048)

/-- A command's operands are such as its transport, bus or pin can deliver. -/
def Instr.wf (i : Instr) : Bool :=
  match i with
  | .powerOnReset _ _ => true
  | .vddAonBrownout _ => true
  | .warmReset _ => true
  | .commandReset => true
  | .ccWatchdogExpiry _ => true
  | .kettleWatchdogExpiry _ => true
  | .islandStartStep _ _ => true
  | .islandSettleTimeout => true
  | .secSelftestDone _ => true
  | .modeTransitionDone => true
  | .firmwareRehash _ => true
  | .tamperAssert => true
  | .zeroizeLAssert => true
  | .zeroizeLRelease => true
  | .hello p => p.wf
  | .getIdentity p => p.wf
  | .echo p => p.wf
  | .queryHandle p => p.wf
  | .cancel p => p.wf
  | .readEventLog p => p.wf
  | .setRemotePolicy p => p.wf
  | .setManagerTransport p => p.wf
  | .getCmdCounters p => p.wf
  | .queueOverflow _ => true
  | .writeFrame _ => true
  | .readStatus _ => true
  | .readFrame _ => true
  | .readEvent => true
  | .getMode p => p.wf
  | .enterQuiet p => p.wf
  | .exitQuiet p => p.wf
  | .resetDevice p => p.wf
  | .enterRecovery p => p.wf
  | .imageWrite p => p.wf
  | .imageCommit p => p.wf
  | .imageCommitDone _ => true
  | .commitRollback p => p.wf
  | .commitRollbackDone _ => true
  | .getMeasurements p => p.wf
  | .extendM7 p => p.wf
  | .lockRole p => p.wf
  | .trainingAttemptStart _ => true
  | .trainRetryTimer _ => true
  | .trainStepRx _ _ _ _ _ _ => true
  | .trainStepRepeat _ => true
  | .trainStepLocalDone _ _ => true
  | .stepTimeout _ => true
  | .trainFailRx _ _ _ => true
  | .txeqReqRx _ _ _ _ => true
  | .txeqAckRx _ _ _ _ _ => true
  | .flightStampRx _ _ _ _ _ _ _ _ => true
  | .linkCapsRx _ _ => true
  | .linkCapsRepeat _ => true
  | .fomRefresh _ _ => true
  | .laneFomLow _ _ => true
  | .clockLaneLoss _ => true
  | .adaptLiveTimer _ _ _ _ => true
  | .loopReqRx _ _ _ => true
  | .loopAckRx _ _ _ => true
  | .loopAckTimeout _ => true
  | .loopReqRepeat _ => true
  | .loopExpiry _ => true
  | .trunkLaneCtrl p => p.wf
  | .getLaneStatus p => p.wf
  | .trunkRetrain p => p.wf
  | .trunkLoop p => p.wf
  | .eyeScan p => p.wf
  | .eyeScanDone _ _ => true
  | .getEye p => p.wf
  | .getLaneCounters p => p.wf
  | .codewordRx _ _ => true
  | .markerRx _ _ _ => true
  | .markerLockLost _ => true
  | .markerTx _ => true
  | .toothPick _ _ => true
  | .replayCopyExpiry _ _ _ => true
  | .replayWindowEnd _ => true
  | .holdTimeout _ => true
  | .mgmtResend _ => true
  | .degradeTrigger _ => true
  | .fastFomDone _ _ => true
  | .widthChangeTarget _ => true
  | .upgradePropose _ => true
  | .getFramingStatus p => p.wf
  | .getFramingCounters p => p.wf
  | .trunkWidth p => p.wf
  | .setFramingCtrl p => p.wf
  | .cellPresent _ _ => true
  | .backlogLink _ => true
  | .fabricSpokeStart => true
  | .endpointTake _ _ => true
  | .promiseRestore _ => true
  | .getPromise p => p.wf
  | .getChainringCounters p => p.wf
  | .gearStage p => p.wf
  | .gearVerify p => p.wf
  | .derailleurPassDone _ => true
  | .gearClear p => p.wf
  | .shift p => p.wf
  | .shiftDecide => true
  | .shiftApply => true
  | .getGearSlots p => p.wf
  | .gearRestore => true
  | .bootShiftIssue => true
  | .openCellRx _ cell => cell.wf
  | .openAckRx _ cell => cell.wf
  | .closeCellRx _ cell => cell.wf
  | .closeAckRx _ cell => cell.wf
  | .flowCellRx _ cell => cell.wf
  | .openTimeout _ => true
  | .openingTimeout _ => true
  | .drainTurnsExpiry _ => true
  | .closeTimeout _ => true
  | .quarantineEnd _ => true
  | .sfTimeout _ _ => true
  | .sieveAudit => true
  | .tunnelOpen p => p.wf
  | .tunnelClose p => p.wf
  | .getTunnel p => p.wf
  | .listTunnels p => p.wf
  | .setForwarding p => p.wf
  | .getStockpot p => p.wf
  | .sieveCtrl p => p.wf
  | .fwQueueSet p => p.wf
  | .fwPortSet p => p.wf
  | .policerSet p => p.wf
  | .fwQueueGet p => p.wf
  | .fwPortGet p => p.wf
  | .ladleFilterSet p => p.wf
  | .ladleRingSet p => p.wf
  | .ladleRead p => p.wf
  | .ladleConsume p => p.wf
  | .ladleRecordWrite => true
  | .timeGet p => p.wf
  | .timeSet p => p.wf
  | .timeConfig p => p.wf
  | .ptpPortSet p => p.wf
  | .ppsSet p => p.wf
  | .timeStepApply => true
  | .clockInfoTx _ => true
  | .clockInfoRx _ cell => cell.wf
  | .stepNoticeRx _ cell => cell.wf
  | .ptpMessageRx _ => true
  | .ptpIntervalTimer _ _ => true
  | .ptpAnnounceTimeout _ => true
  | .holdoverExpiry => true
  | .jumpConfirm => true
  | .jumpRefusedRepost => true
  | .ppsInEdge => true
  | .ppsOutEdge => true
  | .sqTailDoorbell _ _ _ => true
  | .cqHeadDoorbell _ _ _ => true
  | .evqHeadDoorbell _ _ _ => true
  | .ringProducerDoorbell _ _ _ => true
  | .qctl0Write _ _ => true
  | .irqCauseWrite _ => true
  | .turnLatchRead _ => true
  | .registerWrite _ _ _ => true
  | .heartbeatTick => true
  | .heartbeatStopped => true
  | .heldReplyWrite _ _ => true
  | .coalesceTimer _ => true
  | .msixVectorUnmask _ => true
  | .hostReadCompletion _ _ _ => true
  | .dmaCompletionTimeout _ => true
  | .tlpError _ => true
  | .hostLinkDown => true
  | .hostLinkUp _ _ => true
  | .pePerstAssert => true
  | .pePerstRelease => true
  | .instanceCreate p => p.wf
  | .instanceDestroy p => p.wf
  | .quiesceInstance p => p.wf
  | .quiesceDone _ => true
  | .quiesceTimeout _ => true
  | .resetInstance p => p.wf
  | .forceReset p => p.wf
  | .getInstance p => p.wf
  | .queueCreate p => p.wf
  | .queueDelete p => p.wf
  | .ringBind p => p.wf
  | .headModeSet p => p.wf
  | .layerSet p => p.wf
  | .layerFlip p => p.wf
  | .headCtrl p => p.wf
  | .selfRefresh p => p.wf
  | .dockOutputSet p => p.wf
  | .dpAux p _ => p.wf
  | .getHead p => p.wf
  | .hubLineStart _ => true
  | .vblankLatch _ => true
  | .rasterCellEmit _ => true
  | .reportRx _ => true
  | .dockLineRead _ => true
  | .dockFrameStart _ _ => true
  | .noRasterTimeout _ => true
  | .hpdRise _ _ _ _ _ => true
  | .hpdFall _ => true
  | .irqHpd _ _ _ => true
  | .ethPortSet p => p.wf
  | .ethClassWrite p => p.wf
  | .ethClassRead p => p.wf
  | .ethPortStatus p => p.wf
  | .ethCounters p => p.wf
  | .ethFrameRx _ _ _ _ _ => true
  | .ethLockChange _ _ _ _ => true
  | .ethAutoPolTimer _ => true
  | .ethFrameTx _ _ => true
  | .censusDone => true
  | .nandReadDone _ _ => true
  | .nandProgramDone _ _ => true
  | .nandEraseDone _ _ => true
  | .backgroundMaintenance => true
  | .retentionAgeExpiry _ => true
  | .crockGetInfo p => p.wf
  | .crockFormat p => p.wf
  | .crockFormatDone _ _ => true
  | .volumeCreate p => p.wf
  | .volumeDelete p => p.wf
  | .volumeSet p => p.wf
  | .volumeGet p => p.wf
  | .crockFlush p => p.wf
  | .censusGet p => p.wf
  | .crockCtrl p => p.wf
  | .vbusValid => true
  | .vbusLost => true
  | .ssTrainingFail _ => true
  | .usbBusReset _ _ _ => true
  | .usbSuspend => true
  | .usbResume _ => true
  | .usbRemoteWake _ => true
  | .usbSetAddress _ _ => true
  | .usbSetConfiguration _ _ => true
  | .usbSetInterface _ _ _ => true
  | .usbSetHalt _ _ => true
  | .usbClearHalt _ _ => true
  | .hubPortReset _ => true
  | .hubPortResetDone _ => true
  | .hubClearCConnection _ _ => true
  | .hubPortPower _ _ => true
  | .hubTtRequest => true
  | .usbCmdTransfer _ => true
  | .usbTunnelOut _ _ _ => true
  | .ncmNtbOut _ _ => true
  | .mscCbw _ _ _ => true
  | .mscReset _ => true
  | .mscResetTimeout _ => true
  | .usbOutDataPacket _ _ _ _ => true
  | .usbPing _ _ => true
  | .usbLgoU1u2 => true
  | .dockPortSet p => p.wf
  | .dockFnSet p => p.wf
  | .dockPortStatus p => p.wf
  | .apertureWrite a _ => a.wf
  | .apertureRead a => a.wf
  | .apertureAtomic a _ _ => a.wf
  | .legacyTagGranted => true
  | .busGrant _ => true
  | .busCycleDone _ _ => true
  | .busTimerExpiry => true
  | .readyTimeout => true
  | .inboundCycle _ _ x _ => x.wf
  | .inboundResponse => true
  | .inboundTimeout => true
  | .vmeSysreset _ => true
  | .vmeSysfailAcfail _ _ => true
  | .irqPoll _ _ _ => true
  | .prefetchExpiry _ => true
  | .trivetHoldExpiry _ => true
  | .trivetWaitTimeout => true
  | .legacyConfig p => p.wf
  | .windowSet p => p.wf
  | .inboundSet p => p.wf
  | .windowSlide p => p.wf
  | .clearWindowError p => p.wf
  | .legacyGrant p => p.wf
  | .irqRearm p => p.wf
  | .trivet p => p.wf
  | .legacyStatus p => p.wf
  | .inLimitChange _ _ => true
  | .faultTimerExpiry _ _ => true
  | .severeTrip _ => true
  | .vsnsPgReached _ => true
  | .powerGoodAssert _ => true
  | .vsnsSag _ => true
  | .gateRiseTimeout _ => true
  | .shortDetect _ => true
  | .retryTimer _ => true
  | .faultCountClear _ => true
  | .slotInsert _ => true
  | .slotRemove _ _ => true
  | .slotRemoveLong _ => true
  | .staggerTimer => true
  | .feedValidTimer _ => true
  | .feedInvalid _ => true
  | .feedDeadTimeEnd => true
  | .feedRestoreTimer _ => true
  | .pwrfailAssert => true
  | .pwrfailRelease => true
  | .adcFrame _ _ _ => true
  | .pwrChannelSet p => p.wf
  | .pwrChannelCtrl p => p.wf
  | .pwrFeedSet p => p.wf
  | .pwrStatus p => p.wf
  | .attachDetected _ => true
  | .sidebandDetach _ => true
  | .getCapsTimer _ => true
  | .capsTxTimer _ => true
  | .sbCapsRx _ _ => true
  | .sbGetCapsRx _ _ => true
  | .sbRequestRx _ _ _ => true
  | .sbAcceptRx _ _ => true
  | .sbRejectRx _ _ => true
  | .sbWaitRx _ _ => true
  | .sbReadyRx _ _ => true
  | .sbSwapRoleRx _ _ => true
  | .sbFastSwapArmRx _ _ _ => true
  | .sbFastSwapRx _ _ => true
  | .sbSoftResetRx _ _ => true
  | .sbHardResetRx _ => true
  | .sbCableQueryRx _ _ _ _ => true
  | .sbCableInfoRx _ _ => true
  | .sidebandFrameBad _ => true
  | .sidebandCollision _ => true
  | .sidebandRetryTimer _ _ => true
  | .cableQueryTimer _ => true
  | .voltageSettled _ => true
  | .transitionTimeout _ _ => true
  | .trunkTripConfirm _ => true
  | .hardResetRecovery _ => true
  | .requestWaitTimeout _ => true
  | .fastSwapDetect _ => true
  | .fastSwapTakeover _ _ => true
  | .trunkPowerSet p => p.wf
  | .trunkPowerOp p => p.wf
  | .trunkPowerStatus p => p.wf
  | .cableGet p => p.wf
  | .keyStatus p => p.wf
  | .keyGenerate p => p.wf
  | .keyDerive p => p.wf
  | .keyLoadClear p => p.wf
  | .keyImport p => p.wf
  | .keyExport p => p.wf
  | .keyZeroize p => p.wf
  | .keySetAttr p => p.wf
  | .keyChallenge p => p.wf
  | .keyLogin p => p.wf
  | .loginLockoutEnd _ => true
  | .keyLifecycle p => p.wf
  | .keyLifecycleDone => true
  | .idcertWrite p => p.wf
  | .anchorSet p => p.wf
  | .sealSet p => p.wf
  | .rekey p => p.wf
  | .keySelftest p => p.wf
  | .selftestDone _ => true
  | .selftestPeriodic => true
  | .cryptoOp p => p.wf
  | .cryptoOpDone => true
  | .cryptoResult p => p.wf
  | .keyRestore => true
  | .kxTimeout _ => true
  | .kxRetryTimer _ => true
  | .epochChange _ _ => true
  | .gkSet p => p.wf
  | .gkMode p => p.wf
  | .gkSync p => p.wf
  | .gkSyncDone _ => true
  | .gkGet p => p.wf
  | .gkClear p => p.wf
  | .debugAccess _ _ => true
  | .tapReset => true
  | .lifetimeTick _ => true
  | .lifetimePeriodicSave => true
  | .lifetimeSaveDone _ _ => true
  | .lifetimeCrockRestore => true
  | .lifetimeGet p => p.wf
  | .lifetimeExport p => p.wf
  | .lifetimeSave p => p.wf
  | .thermTrip => true
  | .refclkFail _ => true
  | .refclkRestore _ => true
  | .supplyExcursion _ => true
  | .pcieConfigWrite _ _ _ _ _ => true
  | .usbInToken _ _ => true
  | .deviceRemoteWakeup _ _ => true
  | .vmeArbitration _ _ _ => true
  | .inboundCycleEnd => true
  | .sourceSeen _ => true
  | .waitDelayExpiry _ => true
  | .lineDischarged _ => true
  | .volumeDeleteDone _ => true
  | .entropyHealthFail => true
  | .fwRunning => true

end Sys2Proof
end

