-- ==== Sys2Proof/Tests/Slice0.lean ====
section
/-!
SUPPORT. Tests: ill-formed operands that WellFormed refuses; single steps with results worked out from the spec's text; and for the statements
witnesses of their hypotheses. In a witness a command packet is heard in exactly the chip that is named (`hears_heard`).
-/
namespace Sys2Proof.Tests

-- One theorem at a time: many kernel evaluations at once need too much memory.
set_option Elab.async false
open Sys2Proof Sys2Proof.Machine

/-! ### States and packets -/

/-- A packet of version 3 on the SPI target, or on another session. -/
def pk (ps : Bytes) (x : Session := .spi) : Packet :=
  { sess := x, version := 3, flags := 0, tag := 7, plen := BitVec.ofNat 32 ps.length, inst := 0, rsvd13 := 0, evq := 0, paddr := 0, check := 0,
    params := ps }

/-- The part in mode `m` of role `r`, the SPI target the manager, with sessions of version 3 on SPI and USB. -/
def part (m : Mode) (r : Role) (f : Chip → Chip := id) : Chip :=
  f { State.reset.chip with
    dev := { State.reset.chip.dev with mode := m, role := some r, fwRunning := true }
    cmd := { State.reset.chip.cmd with holder := .spi, sessions := [(0, { version := 3 }), (5000, { version := 3 }), (5001, { version := 3 })] } }

/-- A hub, a dock and a relay in their role modes. -/
def hub : Chip := part .hub .hub
def dock : Chip := part .dock .dock
def relay : Chip := part .relay .relay

/-- The block with chip `c` and nothing waiting. -/
def st (c : Chip) : State := { State.reset with chip := c }

/-- The block whose inbox holds packet `p` of opcode `op`, and which is chip `c` once the packet is taken. -/
def on (c : Chip) (op : Nat) (p : Packet) : State := st { c with cmd := { c.cmd with inbox := [(op, p)] } }

/-- Nothing waits in `c`, and R31 lets `p` run there, when it has waited alone. -/
def hears (c : Chip) (op : Nat) (p : Packet) : Bool :=
  c.cmd.inbox.isEmpty && decide ((on c op p).chip.r31Waited op p = .run) && decide (c.r31Waited op p = .run)

/-- A response of `n` bytes fits. -/
def fits (c : Chip) (p : Packet) (n : Nat) : Bool := decide (n ≤ c.replyRoom p.sess)

theorem hears_heard {c : Chip} {op : Nat} {p : Packet} (h : hears c op p = true) : (on c op p).heard op p c := by
  simp only [hears, Bool.and_eq_true, List.isEmpty_iff, decide_eq_true_eq] at h
  obtain ⟨⟨h1, h2⟩, h3⟩ := h
  have hc : c = { c with cmd := { c.cmd with inbox := [] } } := by rw [← h1]
  have hf : (on c op p).chip.firstOf p.sess = some (op, p) := by simp [Chip.firstOf, on, st]
  have ha : (on c op p).chip.attend p.sess = (on c op p).chip := by
    show (on c op p).chip.settle p.sess 1 = _
    simp only [Chip.settle, hf, h2, beq_self_eq_true, if_true]
  have hw : (on c op p).waits op p = true := by
    unfold State.waits; rw [ha]; simp [on, st]
  refine ⟨?_, by rw [hw]; exact h3⟩
  unfold State.taken
  simp only [hw, ha, hf, beq_self_eq_true, if_true]
  refine congrArg some (Eq.trans ?_ hc.symm)
  simp [Chip.unqueue, on, st]

theorem fits_roomFor {c : Chip} {p : Packet} {n : Nat} (h : fits c p n = true) : c.roomFor p n :=
  of_decide_eq_true (p := n ≤ c.replyRoom p.sess) h

/-- The chip after one step of the command `i` alone. -/
def after (i : Instr) (s : State) : Chip :=
  match step { s with pending := [i] } with
  | .next t => t.chip
  | _ => s.chip

/-- STATUS, REASON and RESULT of the newest reply after the command `i` in chip `c`. -/
def replyOf (c : Chip) (op : Nat) (p : Packet) (i : Instr) : Option (Nat × Nat × Nat) :=
  let d := after i (on c op p)
  match d.spi.reply with
  | some r => some (r.status, r.reason, r.result)
  | none => d.cmd.replies.getLast?.map fun r => (r.status, r.reason, r.result)

/-! ### WellFormed: one ill-formed term for each check -/

/-- A whole cell. -/
def cell (f : Cell → Cell := id) : Cell :=
  f { tid := 5, payload := zeros 56 }

theorem test_illFormed_refused :
    (Instr.hello { pk [1, 3, 0, 0] with plen := 5 }).wf = false ∧ (Instr.hello (pk [1, 3, 0, 0])).wf = true ∧
    (Instr.openCellRx 0 (cell fun c => { c with tid := 1024 })).wf = false ∧ (Instr.openCellRx 0 (cell fun c => { c with ctype := 16 })).wf = false ∧
    (Instr.openAckRx 0 (cell fun c => { c with seq := 65536 })).wf = false ∧ (Instr.flowCellRx 0 (cell fun c => { c with len := 64 })).wf = false ∧
    (Instr.closeCellRx 0 (cell fun c => { c with aux := 256 })).wf = false ∧ (Instr.closeAckRx 0 (cell fun c => { c with xtag := 65536 })).wf = false ∧
    (Instr.clockInfoRx 0 (cell fun c => { c with payload := [] })).wf = false ∧ (Instr.stepNoticeRx 0 cell).wf = true ∧
    (Instr.apertureRead { vi := 0, off := 0, len := 0 }).wf = false ∧ (Instr.apertureRead { vi := 0, off := 32767, len := 2 }).wf = false ∧
    (Instr.apertureWrite { vi := 0, off := 0, len := 4097 } []).wf = false ∧ (Instr.apertureAtomic { vi := 0, off := 32764, len := 4 } 0 []).wf = true := by decide

/-! ### Chapter 02 -/

/-- An open record of the manager's handle 1, for opcode `op`. -/
def rec1 (op : Nat) (f : HandleRec → HandleRec := id) : HandleRec := f { handle := 1, opcode := op, sess := .spi, tag := 9, evq := 0, logcopy := false }
/-- `c` with handle records. -/
def recs (c : Chip) (l : List HandleRec) : Chip := { c with cmd := { c.cmd with handles := l } }

/-- GeneralReadsAnswer: each clause's packet, the reads at their least and greatest counts. -/
theorem test_witness_GeneralReadsAnswer :
    (hears hub 0x0002 (pk []) ∧ fits hub (pk []) 32 ∧ hears hub 0x0003 (pk [7]) ∧ fits hub (pk [7]) 1 ∧ hears hub 0x0009 (pk []) ∧ fits hub (pk []) 64) ∧
    (let p := pk (le 4 0 ++ le 4 1); hears hub 0x0006 p ∧ (fld p.params 0 4 + 2 ^ 32 - hub.cmd.logSeq) % 2 ^ 32 < 2 ^ 31) ∧
    (let p := pk (le 4 0 ++ le 4 1024); let c := { hub with cmd := { hub.cmd with log := [{ code := 3 }], logSeq := 1 } }
     hears c 0x0006 p ∧ 2 ^ 31 ≤ (fld p.params 0 4 + 2 ^ 32 - c.cmd.logSeq) % 2 ^ 32 ∧ fits c p 32) ∧
    (let p := pk (le 4 1 ++ le 4 1); let c := recs hub [rec1 0x0203 fun r => { r with complete := true }]
     hears c 0x0004 p ∧ c.rec? 1 ≠ none ∧ (c.issuer .spi).2 = 1 ∧ fits c p 16) := by decide +kernel

/-- One clause each: a session with an open handle, one without. -/
theorem test_witness_HelloNegotiates :
    let p := pk [1, 1, 0, 0]
    (hears hub 0x0001 p ∧ fits hub p 12 ∧ rsvd p.params 2 2 = true ∧ hub.cmd.handles.find? (fun h => h.sess == p.sess && !h.complete) = none) ∧
    (let c := recs hub [rec1 0x0203]; hears c 0x0001 p ∧ c.cmd.handles.find? (fun h => h.sess == p.sess && !h.complete) = some (rec1 0x0203)) := by
  decide +kernel

/-- HELLO for versions 1 to 2 negotiates 2 (R38). -/
theorem test_hello_negotiates_two :
    ((after (.hello (pk [1, 2, 0, 0])) (on hub 0x0001 (pk [1, 2, 0, 0]))).cmd.sessions.get {} 5000).version = 2 := by decide +kernel

theorem test_witness_GeneralCommandsAct :
    (let p := pk (le 4 1); let c := recs hub [rec1 0x0203]
     hears c 0x0005 p ∧ (c.rec? 1 = some (rec1 0x0203)) ∧ (c.issuer .spi).2 = 1) ∧
    (let p := pk ([3, 0, 0, 0] ++ le 4 0x3FFFF); hears hub 0x0007 p ∧ fld p.params 4 4 < 2 ^ 18 ∧ rsvd p.params 1 3 = true) ∧
    (hears hub 0x0008 (pk [1, 0, 0, 0]) ∧ hub.cmd.holder = .spi) ∧
    (hears hub 0x0008 (pk [2, 1, 0, 0]) ∧ hears hub 0x0008 (pk [2, 0, 0, 0]) ∧ hub.holderUp .usb = true) ∧
    (let c := { hub with cmd := { hub.cmd with queues := [(keyOfRef .usb, { lost := 1 })] } }
     0 < (Tab.get ({} : EventQ) c.cmd.queues (keyOfRef .usb)).lost ∧ c.queueFull (keyOfRef .usb) = some false) ∧
    (let b := le 2 1 ++ [3, 1] ++ zeros 4 ++ le 4 4 ++ zeros 24; b.length = 32 + fld b 8 4 ∧ bitOf (fld b 3 1) 0 = true) ∧
    (let c := { hub with cmd := { hub.cmd with log := [{ code := 3 }], logSeq := 1, unread := 1 } }
     c.cmd.log[c.cmd.log.length - c.cmd.unread]? = some { code := 3 }) := by decide +kernel

/-- The status byte of an idle SPI target is 0, and REPLY_READY raises the pin only for the manager (R42, R44). -/
theorem test_witness_IrqOutFollowsStatus :
    (∃ b, exec (.readStatus 1) (st hub) = .next { st hub with chip :=
      { hub with out := hub.out ++ [.spiOut [b]], spi := { hub.spi with frameError := false } } }) ∧ hub.irqOut = false := by
  exact ⟨⟨0, rfl⟩, by decide +kernel⟩

theorem test_witness_OpcodesOutsideRanges :
    (pk []).plen.toNat ≤ 1048576 ∧ beyondBuffer (pk []) = false ∧ (pk []).checked = false ∧ (pk []).version.toNat = hub.version .spi ∧
    hub.r31 0x1200 (pk []) = .reply 0x0101 0 ∧ hub.r31 0xFFFF (pk []) = .reply 0x0101 0 ∧ hub.r31 0 (pk []) = .reply 0x0101 0 ∧
    (hub.takePacket (pk [] .usb)).2 = true := by decide +kernel

theorem test_witness_CompletionHappensOnce :
    hub.openRec? 1 = none ∧ (recs hub [rec1 0x0203]).openRec? 1 = some (rec1 0x0203) ∧
    ((recs hub [rec1 0x0203]).complete 1 0 0 5).openRec? 1 = none := by decide +kernel

/-- The block idles on an empty queue, just after reset and at a spoke's end. -/
theorem test_witness_IdleStepPassesOneCycle :
    640 < State.reset.chip.toSpoke ∧ State.reset.pending = [] ∧
    ({ hub with clk := { hub.clk with localPs := hub.clk.localPs + hub.toSpoke - 640 } } : Chip).toSpoke = 640 := by decide +kernel

/-! ### Chapter 03 -/

/-- Change the DEV record. -/
def dev (c : Chip) (f : Dev → Dev) : Chip := { c with dev := f c.dev }

/-- Both sides of the middle pulse lengths, and the requests that warm and command reset need. -/
theorem test_witness_ResetsClearVolatileState_CommandResetKeepsThePart :
    hub.dev.resetReq ≠ 1 ∧ hub.dev.resetReq ≠ 2 ∧ hub.dev.lastCmdReset = none ∧
    (let c := dev hub fun d => { d with resetReq := 2, lastCmdReset := some 0 }; c.clk.powerPs < 0 + 60 * 10 ^ 12) ∧
    (after .commandReset (st (dev hub fun d => { d with resetReq := 2 }))).dev.resetKind = 2 ∧
    (after (.powerOnReset 1020 { role := 1, boot := 0 }) (st hub)).dev.mode = .boot ∧
    (after (.powerOnReset 979 { role := 1, boot := 0 }) (st hub)).dev.mode = .hub := by decide +kernel

theorem test_witness_ModeEventsAct :
    (let c := dev State.reset.chip fun d => { d with starting := true, role := some .hub }; c.nextIsland ≠ none ∧ c.nextIsland ≠ some 3) ∧
    hub.dev.mode ≠ .lockdown ∧ hub.host.qps = [] ∧ hub.dev.mode ≠ .boot ∧ (∀ n, n < 4 → (hub.sealOf n).keys = none) ∧
    (let c := dev State.reset.chip fun d => { d with trans := some { target := .hub, reason := 0x0101 }, islands := [4, 9] }
     c.dev.waiting = [] ∧ c.dev.starting = false ∧ c.dev.islands.contains 4 = true ∧ c.dev.islands.contains 9 = true ∧
     (after .modeTransitionDone (st c)).dev.mode = .hub) ∧
    (after .tamperAssert (st hub)).dev.trans = some { target := .lockdown, reason := 0x010C } := by decide +kernel

theorem test_witness_ModeCommandsAct :
    (hears hub 0x0101 (pk []) ∧ fits hub (pk []) 16 ∧ hears hub 0x0109 (pk []) ∧ fits hub (pk []) 384 ∧ hears hub 0x010A (pk (zeros 48))) ∧
    (let p := pk (le 4 31); hears hub 0x0102 p ∧ fld p.params 0 4 < 32 ∧ hub.dev.mode.isRole = true ∧ hub.gear.shift = none ∧
     hub.limpMissing = false ∧ hub.recordFree 0 = true) ∧
    (let c := part .quiet .hub; hears c 0x0103 (pk []) ∧ c.dev.mode = .quiet ∧ c.recordFree 0 = true) ∧
    (hears hub 0x0104 (pk [1, 1, 0, 0]) ∧ hears hub 0x0104 (pk [2, 0, 0, 0]) ∧ hub.resetBlocker = none) ∧
    (let c := recs (dev hub fun d => { d with commit := some (1, 0) }) [rec1 0x0107]; hears c 0x0104 (pk [2, 0, 0, 0]) ∧ c.resetBlocker = some 1) ∧
    hears hub 0x0105 (pk []) := by decide +kernel

theorem test_witness_FirmwareUpdateActs :
    (let p := pk (zeros 8 ++ [1]); hears hub 0x0106 p ∧ hub.dev.stagingOwner = none ∧
     hub.gkCommand ((on hub 0x0106 p).ctxOf 0x0106 p hub) 1 (stagingAddr hub.stagingSlot 0) 1 = (hub, true)) ∧
    (let c := dev { hub with flash := hub.flash.putSlot hub.stagingSlot (zeros 8 ++ le 4 12) } fun d => { d with stagingOwner := some .spi, staged := 12 }
     hears c 0x0107 (pk (le 4 12)) ∧ c.dev.commit = none ∧ fld (c.flash.slotImg c.stagingSlot) 8 4 = 12 ∧ c.recordFree 0 = true) ∧
    (let c := dev hub fun d => { d with runSvn := 64 }; hears c 0x0108 (pk []) ∧ c.dev.rollback = none ∧ State.reset.fuses.rollback < 64) ∧
    (let c := recs (dev hub fun d => { d with rollback := some 1, runSvn := 64 }) [rec1 0x0108]; c.cancelled 1 = false ∧
     (after (.commitRollbackDone true) (st c)).dev.rollback = none) ∧
    (hears hub 0x010B (pk [2, 0, 0, 0]) ∧ bitOf State.reset.fuses.roleLock.toNat 2 = false ∧ State.reset.fuses.lifecycle ≤ 1) := by decide +kernel

/-! ### Chapter 04 -/

/-- Trunk `n` with its lanes changed. -/
def lane (n : Nat) (f : LanePort → LanePort) (c : Chip := hub) : Chip := c.setLane n (f (c.laneOf n))
/-- Trunk 0 in DATA on four lanes, Unxus 2. -/
def data0 : Chip := lane 0 fun l => { l with phase := .data, revision := 2, width := 4, activeRx := 15, activeTx := 15 }

theorem test_witness_TrainingRowsAct :
    (hub.laneOf 0).phase = .idle ∧
    ((lane 0 fun l => { l with phase := .backoff false }).laneOf 0).phase = .backoff false ∧
    ((lane 0 fun l => { l with phase := .train 12 }).laneOf 0).phase = .train 12 ∧
    (39 < 40 ∧ 60 < 61) ∧
    (let l := (lane 0 fun l => { l with phase := .train 8, stamps := [(4, 100)] }).laneOf 0; l.stamps.find 4 = some 100) ∧
    bitOf (fld [0] 0 1) 0 = false ∧ bitOf (fld [0] 0 1) 1 = false := by decide +kernel

theorem test_witness_FailedAttemptWaits :
    let l := (lane 0 fun l => { l with phase := .train 3 }).laneOf 0
    l.retrain = none ∧ l.consecutive < 2 ∧ ¬ 2 ≤ l.consecutive ∧ hub.cmd.log.length < 4096 ∧
    (after (.stepTimeout 0) (st (lane 0 fun l => { l with phase := .train 3, consecutive := 2 }))).laneOf 0 =
      { l with phase := .backoff true, lastFail := 0x0409, fails := 1, consecutive := 0, cnt := { l.cnt with failed := 1 } } := by decide +kernel

theorem test_witness_LaneEventsAct :
    (data0.laneOf 0).txeqSeen = none ∧ (data0.laneOf 0).phase = .data ∧
    (let l := (lane 0 (fun l => { l with revision := 1 }) data0).laneOf 0
     bitOf l.activeRx 3 = true ∧ (Tab.get ({} : RxLane) l.rx (l.phys 3)).fom < l.cfg.fomDegrade ∧ l.revision = 1) ∧
    ((lane 0 (fun l => { l with cfg := { l.cfg with adaptLive := true } }) data0).laneOf 0).cfg.adaptLive = true ∧
    (let l := (lane 0 fun l => { l with cfg := { l.cfg with allowFarLoop := true, admin := false } }).laneOf 0
     l.loopSt = none ∧ l.cfg.allowFarLoop = true ∧ l.cfg.admin = false) ∧ (hub.laneOf 0).cfg.allowFarLoop = false ∧
    (let l := (lane 0 fun l => { l with phase := .loop, loopSt := some { mode := 3 } }).laneOf 0; l.loopSt = some { mode := 3 }) := by decide +kernel

/-- R109's limits: 15 is refused, 16 under 17 is taken. -/
theorem test_witness_FomLimits :
    (let p := pk [3, 1, 4, 2, 15, 16, 0, 0, 0, 0, 100, 0, 0, 0, 0, 0]; hears hub 0x0401 p ∧ replyOf hub 0x0401 p (.trunkLaneCtrl p) = some (0x0104, 0, 0)) ∧
    (let p := pk [3, 1, 4, 2, 17, 16, 0, 3, 7, 0, 100, 0, 0, 0, 0, 0]; hears hub 0x0401 p ∧ (hub.laneOf 3).phase ≠ .loop ∧
     replyOf hub 0x0401 p (.trunkLaneCtrl p) = some (0, 0, 0)) := by decide +kernel

theorem test_witness_LaneCommandsAct :
    (let c := { hub with pwr := { hub.pwr with tp := [(0, { prole := 1, pstate := .contract })] } }
     hears c 0x0403 (pk [0, 0, 0, 0]) ∧ (c.laneOf 0).phase = .idle ∧ (c.laneOf 0).cfg.admin = true ∧ c.peerThere 0 = true ∧ (c.laneOf 0).retrain = none ∧
     c.recordFree 0 = true) ∧
    (let c := lane 3 fun l => { l with cfg := { l.cfg with admin := false } }
     hears c 0x0404 (pk [3, 2, 3, 15, 0, 0, 0, 0]) ∧ hears c 0x0404 (pk [3, 0, 0, 0, 0, 0, 0, 0]) ∧ (c.laneOf 3).loopHandle = none ∧ c.recordFree 0 = true) ∧
    (let k : LoopState := { mode := 2, lanes := 5 }; let c := lane 3 fun l => { l with cfg := { l.cfg with admin := false }, loopSt := some k, phase := .loop }
     (c.laneOf 3).loopSt = some k ∧ k.mode ≠ 3 ∧ k.requester = true ∧ bitOf k.lanes 2 = true ∧ bitOf k.lanes 3 = false ∧
     hears c 0x0404 (pk [3, 0, 0, 0, 0, 0, 0, 0]) ∧ hears c 0x0407 (pk [3, 0, 0, 0])) ∧
    (hears data0 0x0405 (pk [0, 3, 2, 0]) ∧ bitOf (data0.laneOf 0).activeRx 3 = true ∧ (data0.laneOf 0).eyeOpen = none) ∧
    (let c := recs (lane 0 (fun l => { l with eyeOpen := some (1, 3, 2) }) data0) [rec1 0x0405]; c.cancelled 1 = false) ∧
    (let c := lane 0 (fun l => { l with scans := [(3, { serialNo := 1, eye := 0, grid := [] })] })
     hears c 0x0406 (pk [0, 3, 0, 0]) ∧ fits c (pk []) 2186 ∧ ((c.laneOf 0).scans.find 3).isSome = true) ∧
    (hears hub 0x0402 (pk [3, 0, 0, 0]) ∧ hears hub 0x0407 (pk [3, 1, 0, 0]) ∧ fits hub (pk []) 160) := by decide +kernel

/-- R119: detach ends a far-end loop at the looping end, and LOOP_ENDED is posted with DETAIL trunk and mode. -/
theorem test_detach_ends_loop :
    let c := { lane 1 fun l => { l with phase := .loop, loopSt := some { mode := 3, requester := false } } with pwr := { hub.pwr with tp := [(1, { attach := 1 })] } }
    let d := after (.sidebandDetach 1) (st c)
    (d.laneOf 1).loopSt = none ∧ (d.laneOf 1).phase = .idle ∧ d.cmd.log.map (fun e => (e.code, e.detail)) = [(0x0D01, 1), (0x0408, 0x301)] := by decide +kernel

/-! ### Chapter 05 -/

theorem test_witness_SeqAheadAndBehind :
    let f := hub.frmOf 0
    f.expSeq.get 0 5 = 0 ∧ f.naks = [] ∧ ((1 : Int) - 0) % 65536 = 1 ∧ ((32767 : Int) - 0) % 65536 = 32767 ∧ ((32768 : Int) - 0) % 65536 = 32768 ∧
    (f.held.any fun h => h.cell.tid == 5 && h.cell.seq == 1) = false ∧ hub.contractedPool 5 = some .shared := by decide +kernel

/-- Lanes whose levels spell a word that cannot be corrected; lanes with nothing on them spell the zero codeword. -/
def badLanes : List (List Nat) := List.replicate 4 [1, 2, 3, 1, 2, 3, 1, 2, 3, 1, 2, 3, 1, 2, 3, 3, 3, 3, 2, 2, 1]

/-- PAM4 levels and precoding (Table 04.3, R91): 0b00 01 11 10 are the levels 0 to 3; precoded after level 0 they are 0, 1, 1, 2. -/
theorem test_precode_by_hand :
    pamLevels [false, false, false, true, true, true, true, false] = [0, 1, 2, 3] ∧ precode 0 [0, 1, 2, 3] = [0, 1, 1, 2] ∧
    unprecode 0 [0, 1, 1, 2] = [0, 1, 2, 3] := by decide +kernel

/-- A trunk whose lanes are crossed, inverted and precoded at the receiver hears the word that the peer sent. -/
theorem test_line_round_trip :
    let word := (List.range 272).map fun k => (37 * k + 11) % 1024
    let t : TxLane := { precode := true, last := 2 }
    let r : RxLane := { precode := true, last := 2, inverted := true }
    let a : LanePort := { revision := 2, activeTx := 15, tx := [(0, t), (1, t), (2, t), (3, t)] }
    let b : LanePort := { revision := 2, activeRx := 15, mapReversed := true, rx := [(0, r), (1, r), (2, r), (3, r)] }
    let sent := (stripe [0, 1, 2, 3] word).map fun e => (a.txUnits e.1 e.2).map fun x => 3 - x
    (b.lineRx sent.reverse).1 = word := by decide +kernel

/-- The CRC-16 of "123456789" with polynomial 0x1021 and initial value 0xFFFF is the published 0x29B1. -/
theorem test_crc16_check : crc16 [0x31, 0x32, 0x33, 0x34, 0x35, 0x36, 0x37, 0x38, 0x39] = 0x29B1 := by decide +kernel

/-- A GET_CAPS frame (Table 18.2): preamble, sync, END to END, type 2, message 0, no body; its first bit 0 falls and the pair then rises. -/
theorem test_sideband_frame :
    (sbBytes 1 1 2 0 []).take 7 = [0x55, 0x55, 0x9E, 0x11, 0x02, 0x00, 0x00] ∧ (sbBytes 1 1 2 0 []).length = 9 ∧
    (sbLevels 1 1 2 0 []).take 4 = [true, false, false, true] ∧ (sbLevels 1 1 2 0 []).length = 9 * 16 + 2 := by decide +kernel

theorem test_witness_CodewordsAndMarkers :
    data0.inData 0 = true ∧ (data0.sealOf 0).rx = none ∧ rsTrunk.decode (data0.lineRx 0 badLanes).1 = none ∧
    rsTrunk.decode (data0.lineRx 0 []).1 = some (List.replicate 272 0, []) ∧ data0.keys.pairFailed = false ∧
    hub.inData 0 = false ∧ (hub.frmOf 0).seeking = false ∧
    (data0.setFrm 0 { data0.frmOf 0 with lostRun := 4 }).inData 0 = true ∧ (data0.frmOf 0).lostRun < 4 ∧
    (let c := hub.setFrm 0 { hub.frmOf 0 with seeking := true, txPos := some (0, 0) }
     (c.frmOf 0).seeking = true ∧ c.gear.aborting = none ∧ (c.frmOf 0).ranges = [] ∧ c.time.pending = none ∧ (c.sealOf 0).tx = none) := by decide +kernel

/-- The marker that this end sends is one that an end that seeks accepts: sync word and CRC stand where R126 puts them. -/
theorem test_marker_heard :
    let b := hub.markerBytes 0 5 3 (({} : MgmtSeg).bytes 0)
    let d := b ++ be 4 (crc32c b)
    d.length = 320 ∧ fldBe d 0 8 = 0x6A3C95F01E87D24B ∧ fldBe d 10 6 = 5 ∧ fld d 9 1 = 3 := by decide +kernel

theorem test_witness_ReplayAndWidthRows :
    let frm := fun (f : Framing → Framing) => (data0.setFrm 0 (f (data0.frmOf 0))).frmOf 0
    (frm fun f => { f with naks := [{ cwsn := 1, at' := 0 }] }).held = [] ∧
    (let f := frm fun f => { f with ranges := [{ start := 1, count := 1 }] }; f.ranges.length = 1 ∧ f.copies = []) ∧
    (frm fun f => { f with laneFailing := true }).laneFailing = true ∧
    (let f := frm fun f => { f with wcMine := some { kind := 1, width := 2, rxset := 3, turn := 9, reason := 0x042B }, wcSent := true }
     f.wcSent = true ∧ f.wcPeer = none) ∧
    (frm id).wcMine = none ∧ (frm id).noUpgrade ≤ data0.clk.powerPs := by decide +kernel

theorem test_witness_FramingCommandsAct :
    (hears hub 0x0410 (pk [3, 0, 0, 0]) ∧ fits hub (pk []) 64 ∧ hears hub 0x0411 (pk [3, 1, 0, 0]) ∧ fits hub (pk []) 192) ∧
    (hears hub 0x0412 (pk [0, 4, 0, 0]) ∧ (hub.laneOf 0).phase ≠ .data) ∧ (hears data0 0x0412 (pk [0, 4, 0, 0]) ∧ (data0.laneOf 0).width = 4) ∧
    (let c := (lane 0 (fun l => { l with rx := [(0, { fom := 96, aligned := true }), (1, { fom := 96, aligned := true })] }) data0).setFrm 0 { data0.frmOf 0 with peerRxset := 3 }
     hears c 0x0412 (pk [0, 2, 0, 0]) ∧ usable (c.laneOf 0).goodSet 2 = some 3 ∧ usable (c.frmOf 0).peerRxset 2 = some 3 ∧
     c.limpMissingAt 0 2 = false ∧ (c.frmOf 0).wcMine = none ∧ c.gear.shift = none ∧ c.recordFree 0 = true) ∧
    (hears hub 0x0413 (pk [3, 3, 2, 60, 0, 0, 0, 0]) ∧ hears hub 0x0413 (pk [3, 1, 64, 1, 0, 0, 0, 0])) := by decide +kernel

/-! ### Chapters 06 to 09 -/

/-- `c` with tunnel `i`. -/
def tun (i : Nat) (f : Tun → Tun) (c : Chip := hub) : Chip := c.setTun i (f (c.tunOf i))
/-- An open class B tunnel 20 of type 4 from F4 to F4. -/
def open20 : Chip := tun 20 fun t => { t with state := .open, ty := 4, inPort := 4, outPort := 4, owner := 0, route := [4] }
/-- A gear with one contracted tunnel, 20, that has its source and destination here. -/
def gear20 : GearImg :=
  { format := 1, gearId := 1, setId := 1, hashLow := 0, teeth := [], budget := List.replicate 11 100, windows := [], total := 0,
    recs := [{ tid := 20, ty := 4, cls := 0, cflags := 6, inPort := 4, outPort := 4, reserve := 1, policeRate := 1, policeDepth := 1 }] }
/-- The gear active, tunnel 20 open in class C, one token in its policer. -/
def held20 : Chip :=
  let c := tun 20 (fun t => { t with cls := 0, tokens := 65536 }) open20
  { c with gear := { c.gear with slots := [(0, { img := some gear20 })], active := some 0 } }

theorem test_witness_SuspensionEvents :
    held20.contracted 20 = true ∧ (held20.tunOf 20).state.live = true ∧ (held20.tunOf 20).promise.suspended = false ∧
    ((held20.suspend 20 0x0309 0xFF).tunOf 20).promise.suspended = true ∧ (held20.suspend 20 0x0309 0xFF).contracted 20 = true := by decide +kernel

/-- A cell waits at F4 for tunnel 20. -/
def src20 (c : Chip) : Chip := { c with fab := { c.fab with src := [(4, [{ tid := 20, payload := zeros 56 }])] } }

theorem test_witness_CellsAndPromiseAct :
    (let c := src20 open20
     ((c.fab.src.get [] 4).find? fun z => z.tid == 20).isSome = true ∧ (c.tunOf 20).heldBack = false ∧ c.contracted 20 = false ∧
     c.bestEffortPool 20 false = some .shared) ∧
    (let c := src20 held20
     c.contracted 20 = true ∧ ((c.certRec 20).map (·.source)) = some true ∧ ((c.tunOf 20).police 1 1 c.clk.powerPs).tokens = 65536 ∧ (c.tunOf 20).polMode = 0) ∧
    (let c := src20 (tun 20 (fun t => { t with tokens := 65535 }) held20); ((c.tunOf 20).police 1 1 c.clk.powerPs).tokens < 65536 ∧ c.bestEffortPool 20 true ≠ none) ∧
    (let c := hub.setBacklog 4 3 [{ cell := { tid := 20, payload := [] } }]; c.backlogOf 4 3 ≠ [] ∧ c.backlogOf 4 0 = []) ∧
    (let c := tun 20 (fun t => { t with promise := { t.promise with suspended := true } }) held20; c.promiseHolds 20 = true) ∧
    (held20.portOn 4 = true ∧ held20.contractedChoice 4 = none) ∧
    (let c := (tun 20 (fun t => { t with outPort := 10 }) held20).linkCell 10 { cell := { tid := 20, payload := [] } }
     c.contractedChoice 10 = some 20 ∧ (c.depart 10 20 {} false).2.isSome = true) ∧
    (let p := pk [20, 0, 0, 0]; hears held20 0x03F0 p ∧ hears hub 0x03F0 p ∧ fits hub p 32 ∧ (hub.tunOf 20).state.live = false ∧ (held20.certRec 20).isSome = true) ∧
    (hears hub 0x03F1 (pk [10, 1, 0, 0]) ∧ fits hub (pk []) 64) := by decide +kernel

theorem test_witness_GearsAct :
    (let p := pk (zeros 8 ++ [1]); hears hub 0x0301 p ∧ hub.gear.stageOwner = none) ∧
    (let p := pk ([3, 0] ++ zeros 6 ++ [1]); hears hub 0x0302 p ∧ hub.slotState 3 = 0 ∧ hub.recordFree 0 = true) ∧
    (let c := recs (hub.setGslot 0 { hub.gslot 0 with verifying := some (1, [], 0) }) [rec1 0x0302]
     c.cancelled 1 = false ∧ ((c.setGslot 0 { c.gslot 0 with verifying := none }).derailleur []).1 ≠ none) ∧
    (hears hub 0x0303 (pk [3, 0, 0, 0]) ∧ hears hub 0x0305 (pk []) ∧ fits hub (pk []) 160 ∧ hub.gear.shift = none) ∧
    (let p := pk ([0, 0] ++ le 6 24); let c := { held20 with gear := { held20.gear with active := none } }
     hears c 0x0304 p ∧ c.shiftRefused 0 24 = none ∧ c.recordFree 0 = true) ∧
    (let c := recs { held20 with gear := { held20.gear with shift := some { slot := 0, target := 16, handle := 1 } } } [rec1 0x0304]
     c.cancelled 1 = false ∧ c.inData 0 = false ∧ c.inData 1 = false ∧ c.inData 2 = false ∧ c.inData 3 = false) ∧
    (let c := { hub with crock := { hub.crock with state := .ready }, csys := { hub.csys with gears := [(2, ([1], true))] } }
     c.dev.mode.isRole = true ∧ c.storeReady = true ∧ c.slotState 2 = 0) ∧
    (let c := { held20 with gear := { held20.gear with bootShift := some 0, active := none } }
     c.shiftRefused 0 ((c.turn + 24) % 2 ^ 48) = none ∧ c.recordFree 0 = true) := by decide +kernel

/-- An OPEN from trunk 0 for tunnel 20, its destination F4 here. -/
def req20 : OpenReq :=
  { tid := 20, ty := 4, cls := 2, minVer := 1, maxVer := 1, oflags := 0, partner := 0, hops := 1, index := 1, inPort := 0, route := [0, 4], window := 0,
    openId := 9, guarantee := 0, params := zeros 16, drainTurns := 0 }
def openCell (r : OpenReq) : Cell := { tid := 0, ctype := 2, f := true, l := true, payload := r.payload r.index }

theorem test_witness_TunnelRowsAct :
    (let c := data0.takeF10 0 (openCell req20); let r := openOfCell 0 (openCell req20).payload
     r.index = r.hops ∧ c.checkOpen r r.index none = none ∧ ((c.takeF10 0 (openCell { req20 with cls := 3 })).checkOpen
      (openOfCell 0 (openCell { req20 with cls := 3 }).payload) 1 none).isSome = true) ∧
    (let c := lane 1 (fun l => { l with phase := .data }) data0; let r := openOfCell 0 (openCell { req20 with hops := 2, route := [0, 1, 4] }).payload
     (c.checkOpen r r.index none = none ∧ r.index < r.hops)) ∧
    (let c := tun 20 (fun t => { t with state := .opening, outPort := 0, openId := 9, openHandle := some 1, hops := 1 }) data0
     let b := ackPayload 20 0 0 1 0xFF 9 (zeros 16)
     fldBe b 0 2 % 1024 = 20 ∧ fldBe b 8 4 = (c.tunOf 20).openId ∧ fldBe b 2 2 = 0 ∧ (c.tunOf 20).index = 0) ∧
    ((hub.tunOf 20).state = .free ∧ (tun 20 fun t => { t with state := .quarantine }).tunOf 20 ≠ {} ∧ (open20.tunOf 20).state.live = true) ∧
    (let c := { open20 with fab := { open20.fab with closes := [{ tid := 20, handle := 1, acks := 1, drain := true }] } }
     c.fab.closes.find? (fun k => k.handle == 1) ≠ none) ∧
    (let k := { hub.fab.pot with lost := [{ owner := 2 * 1024 + 20, lines := 3, audits := 1 }] }
     lostLines k.lost (fun z => decide (1 ≤ z.audits)) = 3 ∧ k.reclaim = false ∧ lostLines hub.fab.pot.lost (fun z => decide (1 ≤ z.audits)) = 0) := by
  decide +kernel

/-- TUNNEL_OPEN's parameters (Table 08.9) for a local tunnel 16 from F4 to F4. -/
def openPs (tid : Nat) : Bytes := le 2 tid ++ [4, 2, 1, 1, 0, 0, 0, 0, 0, 4, 4] ++ List.replicate 8 0xFF ++ zeros 43

theorem test_witness_TunnelCommandsAct :
    (let p := pk (openPs 16); let r := openOfParams (openPs 16) 1
     hears hub 0x0201 p ∧ r.hops = 0 ∧ openParamsBad (openPs 16) r = false ∧ hub.checkOpen r 0 (some 0) = none ∧
     hub.tunnelsSpent 0 = false ∧ hub.recordFree 0 = true ∧ hears hub 0x0201 (pk (openPs 15))) ∧
    (let p := pk [20, 0, 1, 0]; hears open20 0x0202 p ∧ (open20.tunOf 20).state.live = true ∧ (open20.tunOf 20).hops = 0 ∧ open20.recordFree 0 = true) ∧
    ((hears (tun 20 (fun t => { t with hops := 1, index := 1 }) open20) 0x0202 (pk [20, 0, 0, 0])) ∧ hears hub 0x0203 (pk [0xFF, 3, 0, 0]) ∧ fits hub (pk []) 64) ∧
    (hears hub 0x0204 (pk [0, 0, 0, 4]) ∧ hears hub 0x0205 (pk [4, 7, 1, 0]) ∧ hears hub 0x0205 (pk [3, 4, 0x10, 0x27]) ∧ hears hub 0x0205 (pk [3, 3, 1, 0])) ∧
    (hears hub 0x0206 (pk []) ∧ fits hub (pk []) 84 ∧ hears hub 0x0207 (pk [0xE8, 3, 3, 0]) ∧ hears hub 0x0207 (pk [1, 0, 0, 0])) := by decide +kernel

/-- A local TUNNEL_OPEN is accepted and completes at once: tunnel 16 is OPEN (R205). -/
theorem test_local_open :
    ((after (.tunnelOpen (pk (openPs 16))) (on hub 0x0201 (pk (openPs 16)))).tunOf 16).state = .open := by decide +kernel

theorem test_witness_FreewheelAndLadleAct :
    (let p := pk (le 2 20 ++ [0, 0] ++ le 2 1 ++ zeros 18); hears open20 0x0220 p ∧ open20.contracted 20 = false ∧ hears held20 0x0220 p ∧ held20.contracted 20 = true) ∧
    (let p := pk ([10, 0, 64, 0] ++ le 2 1 ++ zeros 26); hears hub 0x0221 p ∧ sfld p.params 2 1 = 64 ∧ hears hub 0x0221 (pk ([0, 0, 0xE0, 0] ++ le 2 1 ++ zeros 26))) ∧
    (hears held20 0x0222 (pk [20, 0, 2, 0]) ∧ held20.policed 20 = true ∧ hears hub 0x0222 (pk [20, 0, 0, 0]) ∧ hub.policed 20 = false) ∧
    (hears open20 0x0223 (pk [20, 0, 0, 0]) ∧ hears hub 0x0224 (pk [10, 0, 0, 0]) ∧ fits hub (pk []) 64) ∧
    (let p := pk ([15, 1, 7, 7, 0xFF, 7, 15, 7, 0, 0, 0, 0, 0xFF, 3, 16, 0] ++ zeros 16); hears hub 0x0225 p ∧ fld p.params 12 2 = 1023) ∧
    (hears hub 0x0226 (pk ([7, 2, 16, 0] ++ zeros 20)) ∧ hears hub 0x0226 (pk ([1, 1, 6, 63] ++ zeros 20)) ∧ (hub.inst 63).state = .absent) ∧
    (let r := { hub.ring 0 with mode := 1, recs := [(0, zeros 96)], rseq := 1 }; let c := hub.setRing 0 r
     hears c 0x0227 (pk ([0, 0] ++ le 2 1 ++ le 4 0)) ∧ 2 ^ 31 ≤ (0 + 2 ^ 32 - (c.ring 0).rseq) % 2 ^ 32 ∧ (c.ring 0).recs.length = 1 ∧
     hears c 0x0228 (pk ([0, 0, 0, 0] ++ le 4 1)) ∧ seqBefore 32 (c.ring 0).consumer 1 = true) := by decide +kernel

/-! ### Chapters 10 and 13 -/

/-- R259's rounding at half a unit: 12.5 ns away from zero, 12.499 ns to zero. -/
theorem test_quantise : quantise 12500 = 25 ∧ quantise 12499 = 0 ∧ quantise (-12500) = -25 := by decide

theorem test_witness_StepsQuantisedAndApplied :
    let x : TimeStep := { dq := 25, rest := 0, atTurn := 1, atPs := turnPs, commanded := true }
    let c := { hub with time := { hub.time with pending := some x } }
    c.stepDeferred = false ∧ x.atPs % turnPs = 0 ∧ 0 ≤ (x.atPs : Int) + x.dq * 1000 ∧
    (lane 0 (fun l => { l with phase := .train 8 }) c).stepDeferred = true := by decide +kernel

theorem test_witness_TimeRowsAct :
    (hears hub 0x0501 (pk []) ∧ fits hub (pk []) 64) ∧
    (let p := pk ([2, 1, 0, 0] ++ le 4 4294967 ++ zeros 16); hears hub 0x0502 p ∧ sfld p.params 4 4 = 4294967 ∧ hub.time.source = 0) ∧
    (let p := pk ([0, 0, 0, 0] ++ zeros 4 ++ le 8 5 ++ le 4 999999999 ++ zeros 4)
     hears hub 0x0502 p ∧ hub.time.pending = none ∧ hub.stepChecked = false ∧
     (hub.decideStep (5 * 10 ^ 12 + 999999999000 - hub.clk.localPs) true 0).time.pending ≠ none) ∧
    (let p := pk (List.replicate 8 0 ++ le 4 1000 ++ [1, 0] ++ le 2 600 ++ le 4 86400 ++ le 2 10 ++ le 2 1000 ++ zeros 8)
     hears hub 0x0503 p ∧ ((sliceB p.params 0 8).map BitVec.toNat).all sourceCode = true) ∧
    (let p := pk ([7, 0, 0, 0] ++ le 4 500000000 ++ le 4 1000 ++ zeros 4); hears hub 0x0505 p ∧ sfld p.params 4 4 = 500000000) ∧
    (data0.inData 0 = true ∧ hub.inData 0 = false ∧ fldBe (zeros 16 ++ be 4 4999) 16 4 ≤ 4999 ∧ 4999 < fldBe (zeros 16 ++ be 4 5000) 16 4) ∧
    (let c := { hub with
        time := { hub.time with refused := some 5, refusedSince := some 0, cfg := { hub.time.cfg with afterConfirm := true } }
        clk := { hub.clk with powerPs := 61 * 10 ^ 12 } }
     c.time.cfg.afterConfirm = true ∧ c.time.pending = none ∧ 0 + c.time.cfg.confirmS * 10 ^ 12 ≤ c.clk.powerPs ∧
       c.time.refusedAt + 60 * 10 ^ 12 ≤ c.clk.powerPs ∧ hub.clk.powerPs < hub.time.refusedAt + 60 * 10 ^ 12) ∧
    (bitOf hub.time.pps.flags 2 = false ∧ bitOf 7 0 = true ∧ bitOf 7 1 = true ∧ bitOf 7 2 = true ∧ hub.time.pps.lastEdge = none) := by decide +kernel

/-- Ethernet port 0 up in mode 2, in MAC loop 0. -/
def eth0 (f : EthPort → EthPort := id) : Chip :=
  let c := dev hub fun d => { d with islands := [7] }
  c.setEthPort 0 (f { c.ethPort 0 with cfg := { (c.ethPort 0).cfg with admin := true, mode := 2 }, up := true, lock := true })

theorem test_witness_EthernetAndPtpAct :
    (let p := pk ([3, 1, 4, 0, 3, 0, 0, 0] ++ le 2 9600 ++ zeros 6); hears hub 0x0901 p ∧ hears hub 0x0901 (pk ([0, 0, 0, 127, 0, 0, 0, 0] ++ le 2 64 ++ zeros 6))) ∧
    (let e := zeros 32; hears hub 0x0902 (pk (le 2 4095 ++ [0, 0, 0, 0, 0, 0] ++ e)) ∧ entryOk e = true ∧ hears hub 0x0902 (pk (le 2 0 ++ [1, 0, 9, 0, 0, 0] ++ e))) ∧
    (hears hub 0x0903 (pk (le 2 4095 ++ le 2 1)) ∧ hears hub 0x0904 (pk [3, 0, 0, 0]) ∧ hears hub 0x0905 (pk [3, 1, 0, 0]) ∧ fits hub (pk []) 128) ∧
    (let k := (eth0 fun k => { k with up := false, lock := false }).ethPort 0
     k.on = true ∧ (eth0).dev.islands.contains 7 = true ∧ k.cfg.mode = 2 ∧ k.up = false ∧ (eth0).dev.refFailed.contains 1 = false) ∧
    (let k := (eth0).ethPort 0; k.up = true ∧ k.cfg.loop = 0 ∧ k.cfg.mode ≠ 4 ∧ bitOf k.cfg.pflags 4 = false ∧ k.cfg.maxFrame < 9600 + 4 ∧ 64 + 4 ≤ k.cfg.maxFrame) ∧
    (let p := pk ([0, 0, 0, 0, 0, 0, 0, 3] ++ zeros 24)
     let c := eth0
     hears c 0x0504 p ∧ (c.ethPort 0).on = true ∧ (c.ptp 0).mode = 0 ∧ (c.ptp 0).domain = 0 ∧ (c.time.ptp.all fun e => e.1 == 0) = true ∧
     c.time.data.find 0x20 = none) ∧
    (let c := { (eth0) with time := { (eth0).time with ptp := [(0, { mode := 1 })] } }; (c.ptp 0).mode ≠ 0 ∧ c.ptpMaster 0 = true) := by decide +kernel

/-! ### Chapter 11 -/

/-- The host link up, with instance 1 active and a queue pair of VI 0. -/
def host : Chip :=
  { hub with host := { hub.host with linkUp := true, perst := false, inst := [(1, { state := .active, maxQp := 4, maxEvq := 4, queueEntries := 8192, msixCount := 4, tunnels := 1 })],
                                     qps := [(0, { sqLog2 := 4, cqLog2 := 4 })], evqs := [(0, { log2 := 4 })] } }
/-- `State.reaches`, decided. -/
def reach (c : Chip) (vi off len kind : Nat) : Bool :=
  c.barReach && (c.inst vi).state != .absent && (c.barCheck (st c) vi off len kind).2.all id && (c.barCheck (st c) vi off len kind).2.length == len

theorem test_witness_DoorbellOverrunStops :
    (host.host.qps.find 0).map (·.stopped) = some false ∧ (host.inst 0).state = .active ∧ reach host 0 0x1000 4 1 ∧ reach host 0 0x1004 4 1 ∧
    host.barCheck (st host) 0 0x1000 4 1 = (host, List.replicate 4 true) ∧
    2 ^ 4 < (17 + 2 ^ 16 - 0 % 2 ^ 16) % 2 ^ 16 ∧ (16 + 2 ^ 16 - 0 % 2 ^ 16) % 2 ^ 16 ≤ 2 ^ 4 ∧
    ((after (.sqTailDoorbell 0 0 17) (st host)).host.qps.find 0).map (·.stopped) = some true ∧
    ((after (.sqTailDoorbell 0 0 16) (st host)).host.qps.find 0).map (·.stopped) = some false := by decide +kernel

theorem test_witness_HostRegistersAct :
    (reach host 0 0x1400 4 1 ∧ (host.host.evqs.find (vqKey 0 0)).isSome = true) ∧
    (let c := host.setDring 0 { log2 := 4 }; reach c 0 0x2000 4 1 ∧ (c.host.rings.find 0).isSome = true) ∧
    (let c := host.setInst 1 { host.inst 1 with state := .quiesced }; reach c 1 (pageBase 1 + 0x2000) 4 1) ∧ hub.barReach = false ∧
    (let v := 2 ^ 31 + 0x07763000; let i := host.inst 1
     reach host 1 (pageBase 1 + 0x128) 4 1 ∧ bitOf i.qctl0 31 = false ∧ bitOf v 31 = true ∧ (qctlPair i v).ranges = true ∧ (qctlEvq i v).ranges = true ∧
     host.vectorOk 1 (qctlPair i v).vector = true ∧ host.queueEntries 1 + ((qctlPair i v).entries + 2 ^ (qctlEvq i v).log2) ≤ i.queueEntries ∧
     host.host.qps.find 64 = none) ∧
    (reach host 0 0x301C 4 1 ∧ reach host 0 0x3008 4 0 ∧ reach host 0 0x300C 4 0 ∧ reach host 0 0x7FFC 4 1 ∧ inAperture 2 = false) ∧
    (let c := { host with host := { host.host with qps := [(0, { held := [{ sess := .spi, status := 0 }] })] } }; (c.host.qps.find 0).map (·.cqUsed) = some 0) ∧
    (let c := host.setVec 3 { host.vec 3 with coalescing := true, masked := false }; (c.vec 3).coalescing = true) := by decide +kernel

theorem test_witness_HostLinkAct :
    (let c := { host with host := { host.host with reads := [(5, (.sq 0 0 1, 0, 0))] } }; c.host.reads.find 5 ≠ none ∧ c.host.reads.find 6 = none) ∧
    host.host.linkUp = true ∧ hub.host.linkUp = false ∧ host.host.perst = false ∧ hub.host.perst = true ∧
    (let c := dev host fun d => { d with islands := [4] }; c.dev.islands.contains 4 = true ∧ c.dev.refFailed.contains 2 = false) ∧
    (after .hostLinkDown (st host)).host.linkUp = false ∧ ((after .hostLinkDown (st host)).inst 1).state = .quiescing := by decide +kernel

theorem test_witness_InstancesAct :
    (let b := [63, 0, 0, 0] ++ le 4 0 ++ le 2 1 ++ le 2 0 ++ le 2 2047 ++ le 2 1 ++ le 4 57 ++ le 4 0 ++ [0, 64, 32, 0] ++ le 2 10000 ++ zeros 18
     hears host 0x0601 (pk b) ∧ (host.inst 63).state = .absent ∧ (instOf b).ranges = true ∧ host.poolsCover (instOf b) = true) ∧
    (let q := host.setInst 1 { host.inst 1 with state := .quiesced }
     hears q 0x0602 (pk [1, 0, 0, 0]) ∧ hears q 0x0604 (pk [1, 0, 0, 0]) ∧ (q.inst 1).qhandle = 0 ∧ q.recordFree 0 = true) ∧
    (hears host 0x0602 (pk [1, 0, 0, 0]) ∧ hears host 0x0603 (pk [1, 0, 0, 0]) ∧ hears host 0x0604 (pk [1, 0, 0, 0]) ∧ hears host 0x0605 (pk [1, 0, 0, 0]) ∧
     hears host 0x0606 (pk [1, 0, 0, 0])) ∧
    (let c := host.setInst 1 { host.inst 1 with state := .quiescing }; c.engines 1 = 0) ∧
    (let c := recs (host.setInst 1 { host.inst 1 with state := .quiescing, qhandle := 1 }) [rec1 0x0603]; (c.inst 1).resetting = false) ∧
    (let p := pk ([0, 63, 4, 4, 12, 0] ++ le 2 0xFFFF ++ le 2 1000 ++ zeros 38) (.pcie 0 0)
     let c := { host with cmd := { host.cmd with holder := .pcie } }
     hears c 0x0607 p ∧ c.vectorOk 0 0xFFFF = true ∧ c.entriesFit 0 32 = true ∧ c.host.qps.find 63 = none) ∧
    (let p := pk [0, 1, 0, 0] (.pcie 0 0); let c := { host with cmd := { host.cmd with holder := .pcie }, host := { host.host with qps := [(0, {}), (1, {})] } }
     hears c 0x0608 p) ∧
    (let c := tun 20 (fun _ => open20.tunOf 20) { host with cmd := { host.cmd with holder := .pcie } }
     let p := pk (le 2 20 ++ [1, 12] ++ le 2 0xFFFF ++ zeros 26) (.pcie 0 0)
     hears c 0x0609 p ∧ (c.tunOf 20).state = .open ∧ (c.tunOf 20).outPort = 4 ∧ c.vectorOk (c.tunOf 20).f4Vi 0xFFFF = true ∧
     c.entriesFit (c.tunOf 20).f4Vi (2 ^ 12) = true ∧ c.host.rings = []) := by decide +kernel

/-! ### Chapters 12 and 15 -/

/-- 640 by 480 at 60 Hz: its HEAD_MODE_SET fields and the mode. -/
def vgaT : List Nat := [640, 16, 96, 48, 480, 10, 2, 33]
def vga : HeadMode := modeOf 0 0 25175 vgaT 0
/-- `c` with an open class B raster tunnel 30 from head 0 here to head 0 here. -/
def ras (c : Chip) : Chip :=
  tun 30 (fun t => { t with state := .open, ty := 1, inPort := 5, outPort := 5, route := [5], typeParams := zeros 16 }) c

theorem test_witness_DisplayCommandsAct :
    (let b := [0, 0, 0, 0] ++ le 4 25175 ++ (vgaT.map (le 2)).flatten ++ le 4 0 ++ le 2 30 ++ [0, 0]
     let c := ras hub
     hears c 0x0701 (pk b) ∧ c.inRole .hub = true ∧ vga.ok = true ∧ (c.hub 0).busy = none ∧ (c.hub 0).sr = false ∧ (c.tunOf 30).rasterAt 0 1 0 = true ∧
     c.teethNow 30 = none ∧ c.recordFree 0 = true) ∧
    (let b := [3, 3, 9, 0] ++ le 2 5120 ++ le 2 2880 ++ le 2 5119 ++ le 2 2879 ++ zeros 8 ++ le 4 262144 ++ zeros 40
     hears hub 0x0702 (pk b) ∧ ({ srcW := 5120, srcH := 2880, dstX := 5119, dstY := 2879, stride0 := 262144 } : LayerCfg).fault 3 = none ∧
     ({ srcW := 5121, srcH := 2880 } : LayerCfg).fault 3 = some 0x0701 ∧ ({ format := 4 } : LayerCfg).fault 0 = some 0x0702) ∧
    (let c := hub.setHub 3 { hub.hub 3 with shadow := [(3, { srcW := 1, srcH := 1, stride0 := 64 })] }
     hears { c with cmd := { c.cmd with holder := .pcie } } 0x0703 (pk ([3, 3, 1, 0] ++ zeros 20) (.pcie 0 0)) ∧ ({ (Tab.get ({} : LayerCfg) (c.hub 3).shadow 3) with addr0 := 0, addr1 := 0 } : LayerCfg).fault 3 = none) ∧
    (hears hub 0x0704 (pk ([3, 1, 0, 0, 63, 0xFF, 0, 0] ++ zeros 8)) ∧ hears hub 0x0704 (pk ([0, 0, 2, 0, 0, 0, 0, 0] ++ zeros 8))) ∧
    (let c := hub.setHub 0 { hub.hub 0 with mode := some vga }; hears c 0x0705 (pk [0, 1, 0, 0]) ∧ (c.hub 0).busy = none ∧ c.recordFree 0 = true ∧
     hears (c.setHub 0 { c.hub 0 with sr := true }) 0x0705 (pk [0, 0, 0, 0])) ∧
    (hears dock 0x0706 (pk ([3, 2, 4, 3, 30, 3] ++ zeros 10)) ∧ hears dock 0x0706 (pk ([0, 0, 1, 0, 2, 0] ++ zeros 10)) ∧ dock.headIn 3 0 = none) ∧
    (let c := dock.setDock 0 { dock.dock 0 with hpd := true }
     hears c 0x0707 (pk ([0, 0, 16, 0] ++ le 4 (2 ^ 20 - 1) ++ zeros 16)) ∧ fits c (pk []) 16) ∧
    (hears hub 0x0708 (pk [3, 0, 0, 0]) ∧ hub.inRole .dock = false ∧ fits hub (pk []) 64) := by decide +kernel

theorem test_witness_DisplayRowsAct :
    ((hub.hub 0).mode = none ∧ (dock.dock 0).mode = none ∧ 479 + 1 < vga.vtotal ∧ 0 + 1 + 1 < vga.vactive ∧ vga.vactive < vga.vtotal ∧ vga.vactive < 481) ∧
    (let u := { hub.hub 0 with mode := some vga, live := true, enable := true }; let a := (hub.setHub 0 { u with line := 1 }).beginLine 0 1 vga
     (a.hub 0).live = true) ∧
    (let u := { hub.hub 0 with latchDue := true }; u.pend = none ∧ u.flips = []) ∧
    (let c := ras hub; let d := c.setHub 0 { c.hub 0 with mode := some vga, enable := true, tid := 30, cur := some { line := 0, frame := 1, bytes := [] } }
     d.rasterUp 0 = true ∧ 0 < vga.cells) ∧
    (let r : Cell := { tid := 31, payload := zeros 56 }; beFld r.payload 8 2 = 0 ∧ 0 < beFld (zeros 8 ++ [0, 1]) 8 2 ∧
     (hub.hub 0).crcs.find? (fun e => e.1 == beFld r.payload 0 4) = none ∧ (hub.hub 0).misRun + 1 < (hub.hub 0).freezeN) ∧
    (let d := { dock.dock 0 with mode := some vga, active := true, main := .off, slots := [(0, { line := 0, frame := 0, bytes := [], cells := vga.cells, nextSeq := 0, gap := false, poison := false })] }
     d.read < vga.vactive ∧ d.main ≠ .video ∧ d.bgFrame = false ∧ d.noRaster = false ∧ (d.slots.find (d.read % 32)).isSome = true) ∧
    (let c := dock.setDock 0 { dock.dock 0 with mode := some vga, startAt := some 0 }; let e := (c.sendReport 0).dock 0
     e.next = none ∧ e.srPending = false ∧ e.sr = false ∧ e.mode = some vga ∧ e.startAt = some 0) ∧
    (let c := (ras dock).setDock 0 { dock.dock 0 with active := true }; (c.headIn 0 0) = some 30 ∧ (c.dock 0).noRaster = false) ∧
    (dock.inRole .dock = true ∧ ({ dock.dock 0 with hpd := true } : DockHead).hpd = true) := by decide +kernel

/-- A dock attached at high speed, function 3 a TUNNEL function that is configured. -/
def usbDock (speed : Nat := 2) : Chip :=
  let c := { dock with usb := { dock.usb with vbus := true, attached := true, speed, hubConf := true } }
  c.setVport 3 { c.vport 3 with cfg := { kind := 3, pipes := 1 }, conn := true, enabled := true, configured := true, addr := 9 }

theorem test_witness_HighSpeedHandshakes :
    (usbDock).usb.attached = true ∧ (usbDock).usb.suspended = false ∧ ((usbDock).vport 3).configured = true ∧
    ((usbDock).vport 3).halts.contains UsbEp.dataOut.code = false ∧ (usbDock).outOpen .dataOut = true ∧ (usbDock 1).usb.speed = 1 ∧
    (16384 < 16385 ∧ 512 ≤ 16384 - 15872 ∧ 16384 - 15873 < 512) ∧
    (after (.usbOutDataPacket 3 .dataOut 512 0) (st (usbDock))).out.getLast? = some (.usbHandshake 3 UsbEp.dataOut.code 0 0) ∧
    (after (.usbOutDataPacket 3 .dataOut 16385 0) (st (usbDock))).out.getLast? = some (.usbHandshake 3 UsbEp.dataOut.code 1 0) := by decide +kernel

theorem test_witness_DockSettingsApply :
    (hears dock 0x0A01 (pk [1, 3, 3, 0]) ∧ hears dock 0x0A01 (pk [0, 1, 0, 0])) ∧
    (hears dock 0x0A02 (pk ([7, 2, 8, 1] ++ zeros 8 ++ [2, 0, 0, 0])) ∧ hears dock 0x0A02 (pk ([1, 4, 0, 0] ++ zeros 12)) ∧
     hears dock 0x0A02 (pk ([2, 1, 0, 0] ++ zeros 6 ++ le 2 9596 ++ zeros 4)) ∧ dock.fab.tun = []) ∧
    (let c := tun 20 (fun t => { t with state := .open, ty := 6, outPort := 8, typeParams := [7] }) dock
     hears c 0x0A02 (pk ([7, 0, 0, 0] ++ zeros 12)) ∧ (c.fab.tun.any fun e => e.2.state.live && e.2.outPort == 8 && fld e.2.typeParams 0 1 == 7) = true) := by
  decide +kernel

theorem test_witness_DockPortActs :
    ((usbDock 3).usb.attached = true ∧ (usbDock 3).usb.speed = 3 ∧ dock.usb.attached = false ∧ (usbDock).usb.suspended = false) ∧
    (let c := usbDock; let u := { c.usb with suspended := true, hubWake := true }; u.wakePending = none ∧ u.cfg.wakeAllow = true ∧ (c.vport 3).configured = true) ∧
    (let v := (usbDock).vport 3; v.conn = true ∧ v.enabled = true ∧ v.addr ≠ 0 ∧ v.halts.contains 3 = false ∧ v.cfg.kind ≠ 2) ∧
    (let c := usbDock; let d := c.setVport 1 { c.vport 1 with configured := true, enabled := true, conn := true }
     d.epLive 1 .cmdOut = true ∧ d.sessionUp .usb = true ∧ d.dev.fwRunning = true ∧ d.outstanding .usb = 0 ∧ (zeros 31).length < 32) ∧
    (let c := tun 20 (fun t => { t with state := .open, ty := 6, inPort := 8, partner := 21, route := [10], outPort := 10 })
       (tun 21 (fun t => { t with state := .open, ty := 6, inPort := 10, outPort := 8, typeParams := [3] ++ zeros 15 }) (usbDock))
     c.epLive 3 .dataOut = true ∧ (c.vport 3).cfg.kind = 3 ∧ c.fnOut 3 0 = some 20) ∧
    (let c := (usbDock).setVport 3 { (usbDock).vport 3 with cfg := { kind := 1 }, alt := 1 }; c.epLive 3 .dataOut = true ∧ ntbParse [] = none) ∧
    (let c := (usbDock).setVport 3 { (usbDock).vport 3 with cfg := { kind := 2 } }
     c.epLive 3 .dataOut = true ∧ (c.mscOf 3).cmd = none ∧ (c.mscOf 3).resetWait = false ∧ (c.mscOf 3).reqs = [] ∧
     (let w := le 4 0x43425355 ++ zeros 10 ++ [16] ++ zeros 16; w.length = 31 ∧ fld w 0 4 = 0x43425355 ∧ fld w 14 1 = 16 ∧ fld w 13 1 < (c.vport 3).cfg.luns)) ∧
    (hears (usbDock) 0x0A03 (pk []) ∧ fits (usbDock) (pk []) 64) := by decide +kernel

/-! ### Chapter 14 -/

/-- `c` with a queue pair of instance 1 whose session has version 3. -/
def l2 (c : Chip) : Chip :=
  { c with host := { c.host with qps := c.host.qps ++ [(64, { sqLog2 := 4, cqLog2 := 4 })], inst := [(1, { state := .active, maxQp := 4, volumes := 2 })], linkUp := true, perst := false }
           cmd := { c.cmd with sessions := c.cmd.sessions ++ [(64, { version := 3 })] } }
/-- A hub whose Crock is READY: 8 erase blocks, 2 spare, 16 logical blocks, volume 0 of owner 1. -/
def crk : Chip :=
  let c := l2 hub
  { c with crock := { c.crock with state := .ready }
           csys := { c.csys with nand := { c.nand with fmt := some { spare := [6, 7], spareFormat := 2, logical := 16 }, vols := [(0, { owner := 1, blocks := 8 })],
                                                       map := [(blkKey 0 3, { eb := some 2, data := [1], seq := 4 })], seq := 5 } } }
/-- A NAND operation 1 of kind `k` under way. -/
def nop (k : NandFor) (c : Chip := crk) : Chip := c.setCrock fun x => { x with ops := [(1, k)], nextOp := 2 }
/-- A staged block of volume 0. -/
def stg : Staged := { id := 5, vol := 0, lba := 3, data := [9], by' := some (40, 1), running := true }

theorem test_witness_NandEndsAct :
    crk.crock.ops.find 1 = none ∧ (nop (.census 2)).crock.ops.find 1 = some (.census 2) ∧
    ((crk.unitsIn 2) = [(0, 3)] ∧ crk.crock.ops.all (fun y => decide (y.1 < crk.crock.nextOp)) = true ∧ crk.unitsIn 4 = []) ∧
    ((crk.nand.map.find (blkKey 0 3)).map (fun b => (b.lost, b.eb)) = some (false, some 2) ∧ (nop (.move 0 3)).crock.ops.find 1 = some (.move 0 3)) ∧
    (let c := (nop (.program 5 4)).setCrock fun x => { x with staged := [stg] }
     c.crock.ops.find 1 = some (.program 5 4) ∧ c.crock.staged.find? (fun y => y.id == 5) = some stg ∧ c.fmt.spare ≠ [] ∧
     (c.setFmt fun f => { f with spare := [] }).fmt.spare = [] ∧
     ((after (.nandProgramDone 1 true) (st c)).nand.map.find (blkKey 0 3)).map (·.data) = some [9] ∧
     (after (.nandProgramDone 1 false) (st c)).nand.grown = [4]) ∧
    (let c := nop (.erase 4) (crk.setCrock fun x => { x with media := some ⟨0, 0, 1, 8, 64, 16384, false, 1, 1, 4, true⟩ })
     c.crock.media.isSome = true ∧ ((after (.nandEraseDone 1 true) (st c)).ebOf 4).cycles = 1 ∧ (after (.nandEraseDone 1 false) (st c)).fmt.spare = [7]) ∧
    (let c := crk.setCrock fun x => { x with state := .census }; c.crock.state = .census ∧ c.crock.censusLeft = [] ∧ c.crock.ops = [] ∧
     (nop (.census 2) c).crock.ops.find 1 = some (.census 2)) ∧
    (let c := crk.setCrock fun x => { x with rebuiltQ := [2] }; c.crock.moving = none ∧ c.crock.rebuiltQ = 2 :: [] ∧ crk.crock.rebuiltQ = [] ∧
     (crk.setCrock fun x => { x with refreshQ := [2] }).crock.refreshQ = 2 :: []) ∧
    ((crk.setCrock fun x => { x with moving := some 1 }).crock.moving = some 1 ∧ 2 ∉ crk.crock.refreshQ ∧ 2 ∉ crk.crock.rebuiltQ) ∧
    ((crk.setCrock fun x => { x with format := some (1, 7, false) }).crock.format = some (1, 7, false) ∧ crk.crock.format = none) ∧
    ((crk.setVol 0 { owner := 1, deleting := some 3 }).nand.vols.find 0 = some { owner := 1, deleting := some 3 } ∧ crk.nand.vols.find 1 = none) := by decide +kernel

/-- HOLDUP_NEED_US is free once media is fitted; without media it is 0, so only the clauses at or above it are witnessed. -/
theorem test_witness_CrockCommandsAct :
    (hears crk 0x0801 (pk []) ∧ fits crk (pk []) 64) ∧
    (let f := le 4 0x464F524D; hears crk 0x0802 (pk (f ++ [0, 0, 0, 0])) ∧ hears crk 0x0802 (pk (f ++ [28, 1, 0, 0])) ∧ hears crk 0x0802 (pk (le 4 0 ++ [2, 1, 0, 0])) ∧
     hears hub 0x0802 (pk (f ++ [28, 1, 0, 0])) ∧ hub.crock.state = .noMedia ∧ crk.crock.format = none ∧ crk.blockTunnel = false ∧ crk.recordFree 0 = true ∧
     (tun 30 (fun t => { t with state := .open, ty := 2, outPort := 7 }) crk).blockTunnel = true) ∧
    (let p n := pk ([63, 1, 3, 0, 0, 0, 0, 0] ++ le 8 n); hears crk 0x0803 (p 8) ∧ hears crk 0x0803 (p 9) ∧ crk.freeBlocks = 8 ∧ (crk.nand.vols.find 63) = none ∧
     (crk.nand.vols.filter fun e => e.2.owner == 1).length < crk.volGrant 1 ∧ crk.volGrant 2 = 0 ∧ hears crk 0x0803 (pk ([0, 2, 0, 0, 0, 0, 0, 0] ++ le 8 1)) ∧
     (crk.issuer (.pcie 1 0)) = (1, 2) ∧ hears crk 0x0803 (pk ([63, 2, 3, 0, 0, 0, 0, 0] ++ le 8 1) (.pcie 1 0))) ∧
    (let q := pk [0, 0, 0, 0]; let c := crk.setVol 0 { owner := 2 }; let y := pk [0, 0, 0, 0] (.pcie 1 0)
     hears crk 0x0804 q ∧ hears crk 0x0806 q ∧ hears crk 0x0807 q ∧ hears crk 0x0804 y ∧ hears crk 0x0806 y ∧ hears crk 0x0807 y ∧ (c.nand.vols.find 0).isSome = true ∧
     crk.attached 0 true + crk.attached 0 false = 0 ∧ fits crk q 32 ∧ crk.unflushed 0 crk.nand.seq = false ∧
     (crk.setCrock fun x => { x with tun := [(40, { vol := 0, rw := true })] }).attached 0 true = 1 ∧
     (crk.setCrock fun x => { x with staged := [{ stg with id := 4 }] }).unflushed 0 crk.nand.seq = true) ∧
    (hears crk 0x0805 (pk [0, 1, 3, 0, 0, 0, 0, 0]) ∧ hears crk 0x0805 (pk [0, 0, 0, 0, 0, 0, 0, 0]) ∧ crk.holdupNeed ≤ crk.crock.holdup) ∧
    (hears crk 0x0806 (pk [63, 0, 0, 0]) ∧ crk.nand.vols.find 63 = none) ∧
    (hears crk 0x0808 (pk []) ∧ fits crk (pk []) 48 ∧ hears hub 0x0808 (pk []) ∧ hears hub 0x0807 (pk [63, 0, 0, 0])) ∧
    (hears crk 0x0809 (pk (le 4 1000000 ++ [50, 1, 0, 0])) ∧ hears crk 0x0809 (pk (le 4 0 ++ [1, 0, 0, 0])) ∧ crk.holdupNeed ≤ 0) := by decide +kernel
/-! ### Chapter 16 -/

/-- A hub whose bridge is in VME mode: outbound window 0 is instance 1's aperture, inbound window 0 a TRIVET window, 1 a HOST window. -/
def vme (f : Legacy → Legacy := id) : Chip :=
  let c := dev (l2 hub) fun d => { d with islands := [4, 10] }
  c.setLeg fun l => f { l with
    cfg := { l.cfg with mode := 1, irqEnable := 0x20 }
    wins := [(0, { enable := true, aperture := true, posted := true, width := 2, am := 9, owner := 1, size := 65536 })]
    ins := [(0, { enable := true, trivet := true, amsel := 20, base := 0x1000, size := 4096 }),
            (1, { enable := true, amsel := 20, tid := 40, base := 0x10000, size := 4096 })] }
/-- The bridge in strobe mode. -/
def strobe : Chip := vme fun l => { l with cfg := { l.cfg with mode := 2, ready := 1 } }
/-- A request of the aperture with one cycle left. -/
def lreq (op : Nat) : LegReq :=
  { client := 0x1001, xtag := 0, op, posted := op == 2, idx := 0, win := {}, off := 0, len := 4, parts := [(0, 4)], cycles := [{ am := 9, addr := 0, n := 4 }] }

theorem test_witness_TrivetRegisters :
    vme.legOn = true ∧ vme.leg.cfg.mode = 1 ∧ vme.leg.slave = none ∧ vme.leg.owned = false ∧ vme.leg.requesting = false ∧
    amSpace 9 = 32 ∧ (vme.decodeIn 9 0x1000 4).map (·.1) = some 0 ∧ (vme.decodeIn 9 0x101C 4).map (·.2.trivet) = some true ∧ 0x101C = 0x1000 + 4 * 7 ∧
    vme.leg.trivets.find 7 = none ∧ (vme fun l => { l with trivets := [(7, 0xFFFE)] }).leg.trivets.find 7 = some 0xFFFE ∧
    (vme fun l => { l with trivets := [(7, 0x1001)] }).leg.trivets.find 7 = some 0x1001 := by decide +kernel

theorem test_witness_LegacyBusActs :
    (hub.legOn = false ∧ vme.legOn = true ∧ vme.hostReach = true ∧ hub.hostReach = false ∧ (vme.inst 2).state = .absent ∧ (vme.inst 1).state ≠ .absent) ∧
    (let a : ApAccess := { vi := 1, off := 0, len := 4 }; let z : ApAccess := { a with off := 65536 }
     (vme.apertureCheck (st vme) a 1).2 = [(0, 4)] ∧ (vme.apertureCheck (st vme) a 0).2 = [(0, 4)] ∧ (vme.apertureCheck (st vme) a 2).2 = [(0, 4)] ∧
     (vme.apertureWin a).map (·.1) = some 0 ∧ vme.apertureWin z = none ∧ vme.poisoned 0 = false ∧ vme.leg.apWait = [] ∧ vme.leg.tagsKept < 64 ∧ vme.strobe = false ∧
     (vme.poison 0 0 0 1).poisoned 0 = true ∧ (vme fun l => { l with q := List.replicate 64 (lreq 2) }).leg.tagsKept = 64 ∧
     (let g : State := { st vme with guard := { State.reset.guard with active := [(0, {})] } }; (vme.apertureCheck g a 0).2 = [])) ∧
    ((vme fun l => { l with apWait := [lreq 2] }).leg.apWait = lreq 2 :: []) ∧
    ((vme fun l => { l with requesting := true }).leg.requesting = true ∧ vme.leg.cfg.brLevel = 3 ∧ vme.leg.requesting = false) ∧
    ((vme fun l => { l with cfg := { l.cfg with sysflags := 1 } }).syscon = true ∧ vme.syscon = false ∧ strobe.strobe = true ∧ bitOf strobe.leg.cfg.ready 0 = true ∧ strobe.legOn = true) ∧
    (let c := vme fun l => { l with owned := true, cfg := { l.cfg with release := 1 } }; c.leg.owned = true ∧ c.leg.cfg.release = 1 ∧ c.leg.running = false ∧ c.leg.q = []) ∧
    (vme.leg.sysresetDrive = false ∧ vme.leg.sysfail = false ∧ vme.leg.acfail = false) ∧
    (let d := vme fun l => { l with running := true, q := [lreq 2] }; d.leg.running = true ∧ d.leg.q = lreq 2 :: [] ∧ (lreq 2).cycles = { am := 9, addr := 0, n := 4 } :: [] ∧
     (lreq 2).posted = true ∧ (after (.busCycleDone false []) (st d)).poisoned 0 = true ∧ (after (.busCycleDone true []) (st d)).poisoned 0 = false) := by decide +kernel

theorem test_witness_LegacySlaveActs :
    (vme.decodeIn 9 0 4 = none ∧ (vme.decodeIn 9 0x10000 4).map (·.1) = some 1 ∧ (vme.decodeIn 9 0x10FFC 4).map (·.2.trivet) = some false ∧ vme.decodeIn 9 0x10FFD 4 = none ∧
     vme.leg.owned = false ∧ vme.leg.slave = none ∧ strobe.leg.cfg.mode ≠ 1) ∧
    (let v := ((State.reset.guard.active.get {} 1).decide' 0 3 0 0 4 false); v.nobyte = true ∧ v.all = false) ∧
    (let v := (({ dflt := 0xC00 } : RuleSet).decide' 0 3 1 0 4 false); v.all = true ∧ v.nobyte = false) ∧
    (let c := tun 40 (fun t => { t with state := .open, inPort := 9, index := 0 }) vme; (c.tunOf 40).state = .open ∧ (c.tunOf 40).index = 0 ∧ (c.tunOf 40).inPort = 9) ∧
    ((vme fun l => { l with slave := some { win := 1, tid := 40, len := 4, isRead := true } }).leg.slave.isSome = true) ∧
    (let lv : BitVec 8 := 0x20; lv.getLsbD 5 = true ∧ bitOf vme.leg.cfg.irqEnable 5 = true ∧ bitOf vme.leg.irqMasked 5 = false ∧ nth 0xFF vme.leg.cfg.irqOwner 4 = 0xFF ∧
     nth 0xFF (vme fun l => { l with cfg := { l.cfg with irqOwner := [0, 0, 0, 0, 1, 0, 0] } }).leg.cfg.irqOwner 4 = 1 ∧
     ((List.range 8).all fun m => m == 0 || m ≤ 5 || !(lv.getLsbD m && bitOf vme.leg.cfg.irqEnable m)) = true ∧ vme.strobe = false ∧
     bitOf (after (.irqPoll 0x20 7 true) (st vme)).leg.irqMasked 5 = true) ∧
    (let x : LegLine := { win := 0, space := 32, addr := 0, bytes := [(0, 1)] }; let c := vme fun l => { l with lines := [x] }
     c.leg.lines[0]? = some x ∧ c.leg.lines.filter (· == x) = [x]) ∧
    ((vme fun l => { l with trivets := [(7, 0x1001)] }).leg.trivets.find (7 : Fin 8).val = some 0x1001 ∧ vme.leg.trivets.find (0 : Fin 8).val = none) ∧
    (vme.leg.q = [] ∧ (lreq 3).op = 3 ∧ (lreq 3).hasTrivet = false ∧ (lreq 3).dead = false) := by decide +kernel

theorem test_witness_LegacyCommandsAct :
    (let b (bus t : Nat) := [1, 1, 3, 0] ++ le 2 bus ++ le 2 t ++ [1, 0xFE, 0xAA, 0x2A] ++ List.replicate 7 (0xFF : Byte) ++ zeros 5 ++ [0, 0] ++ le 2 1000 ++ le 2 1000 ++ le 2 10000 ++ zeros 16
     hears hub 0x0B01 (pk (b 1020 500)) ∧ (legCfgOf (b 1020 500)).valid = true ∧ bitOf (fld (b 1020 500) 1 1) 0 = true ∧ hears hub 0x0B01 (pk (b 4 4)) ∧
     (legCfgOf (b 4 4)).valid = true ∧ (legCfgOf (b 4 4)).busTimer ≤ (legCfgOf (b 4 4)).inTimeout ∧ rsvd (b 4 4) 19 1 = true ∧ rsvd (b 4 4) 25 1 = true ∧
     rsvd (b 4 4) 32 16 = true ∧ hub.leg.q = []) ∧
    (let b := [15, 127, 4, 0x2D, 63, 7] ++ le 2 0 ++ le 4 65536 ++ le 4 0 ++ le 4 32768 ++ zeros 12
     hears vme 0x0B02 (pk b) ∧ rsvd b 20 12 = true ∧ vme.strobe = false ∧ 0 + 65536 ≤ 2 ^ amSpace 0x2D ∧ 32768 ≤ 65536 - 32768 ∧ vme.poisoned 15 = false ∧
     fld b 6 2 = (vme.legWin 15).gen ∧ vme.leg.wins.all (fun e => e.1 == 15 || !e.2.aperture || e.2.owner != 63) = true) ∧
    (let b := [7, 5, 0x7F, 0, 40, 0, 0, 0] ++ le 4 0 ++ le 4 4096 ++ zeros 16
     hears vme 0x0B03 (pk b) ∧ vme.hostTid 40 = false ∧
     (let c := tun 40 (fun t => { t with state := .open, inPort := 9, index := 0, ty := 5, route := [4] })
        (tun 41 (fun t => { t with state := .open, outPort := 9, index := 0, partner := 40, typeParams := [1] }) vme); c.hostTid 40 = true)) ∧
    (hears vme 0x0B04 (pk ([0, 0, 0, 0] ++ le 4 32768)) ∧ hears vme 0x0B04 (pk ([0, 0, 0, 0] ++ le 4 4096) (.pcie 1 0)) ∧ (vme.legWin 0).size = 65536 ∧
     hears vme 0x0B04 (pk ([15, 0, 0, 0] ++ le 4 0) (.pcie 1 0)) ∧ (vme.legWin 15).aperture = false) ∧
    (hears vme 0x0B05 (pk [0, 0, 0, 0]) ∧ fits vme (pk []) 16 ∧ ((vme.poison 0 0 0 1).legHealth 0).poisoned.isSome = true) ∧
    (hears vme 0x0B06 (pk ([0xFF, 3] ++ le 2 65535 ++ zeros 4)) ∧ hears vme 0x0B06 (pk (le 2 0 ++ le 2 0 ++ zeros 4))) ∧
    (hears vme 0x0B07 (pk [1, 0, 0, 0]) ∧ hears vme 0x0B07 (pk [7, 0, 0, 0] (.pcie 1 0)) ∧ nth 0xFF vme.leg.cfg.irqOwner 6 ≠ 1) ∧
    (hears vme 0x0B08 (pk [7, 0, 0, 0]) ∧ hears vme 0x0B08 (pk [7, 1, 0, 0]) ∧ hears vme 0x0B08 (pk [0, 2, 0, 0]) ∧ hears vme 0x0B08 (pk [0, 2, 0, 0] (.pcie 1 0)) ∧
     vme.leg.trivets.find 7 = none ∧ (vme fun l => { l with trivets := [(7, 0x1000)] }).leg.trivets.find 7 = some 0x1000) ∧
    (hears vme 0x0B09 (pk []) ∧ fits vme (pk []) 152) := by decide +kernel
/-! ### Chapter 17 -/

/-- A scaled channel in `s`. -/
def chan (s : ChanState) (f : PowerChan → PowerChan := id) : PowerChan :=
  f { cfg := some { iFs := 1000, vFs := 20000 }, admin := true, state := s }
/-- A hub whose channel `n` is `x`. -/
def pch (n : Nat) (x : PowerChan) (c : Chip := hub) : Chip := c.setChan n x

theorem test_witness_BreakerTrips :
    ((chan .on).state = .on ∧ (chan .on).timer = none ∧ ((pch 6 (chan .on)).chan 6) = chan .on ∧ ((pch 13 (chan .start)).chan 13).state = .start ∧
     (chan .on fun x => { x with timer := some 1000 }).timer = some 1000) ∧
    ((after (.inLimitChange 6 true) (st (pch 6 (chan .on)))).chan 6).timer = some 1000 ∧
    ((after (.faultTimerExpiry 6 true) (st (pch 6 (chan .on fun x => { x with timer := some 5 })))).chan 6).cause = 2 ∧
    (isTrunkCh 1 = false ∧ isTrunkCh 2 = true ∧ isTrunkCh 5 = true ∧ isTrunkCh 6 = false) ∧
    (let f n := chan .on fun x => { x with faultCount := n }
     (f 2).conf.retryMax = 3 ∧ Nat.min 255 ((f 1).faultCount + 1) < 3 ∧ 3 ≤ Nat.min 255 ((f 2).faultCount + 1) ∧
     (((pch 6 (f 1)).trip 6 2).chan 6).state = .retryWait ∧ (((pch 6 (f 2)).trip 6 2).chan 6).state = .latched) ∧
    (chan .on fun x => { x with cfg := some { retryMax := 255 } }).conf.retryMax = 255 ∧
    (let c := { pch 0 (chan .on) with pwr := { (pch 0 (chan .on)).pwr with selected := some 0 } }; c.pwr.selected = some 0 ∧ c.pwr.selected ≠ some 6 ∧ (c.trip 0 1).pwr.dead = some (0x0C06, 0)) := by
  decide +kernel

/-- A valid feed. -/
def feed : PowerChan := chan .standby fun x => { x with inWindow := true }
/-- `c` with selected feed `n`. -/
def sel (n : Nat) (c : Chip) : Chip := c.setPwr fun p => { p with selected := some n }

theorem test_witness_PowerRowsAct :
    (isTrunkCh (0 : Fin 14).val = false ∧ isTrunkCh (5 : Fin 14).val = true ∧ (chan .start).state = .start ∧ (chan .off).state ≠ .start ∧
     (let x := chan .on fun x => { x with vPg := true }; x.state = .on ∧ x.inLimit = false ∧ x.timer = none ∧ x.vPg = true) ∧ (chan .on).vPg = false) ∧
    ((chan .on fun x => { x with gateWin := true }).gateWin = true ∧ (chan .on).gateGood = false ∧ (chan .on fun x => { x with gateGood := true }).gateGood = true) ∧
    ((chan .standby).gate = false ∧ (chan .standby).scaled 6 = true ∧ (chan .damaged).state = .damaged) ∧
    (let c := pch 13 (chan .retryWait fun x => { x with present := true }); c.slotReady 13 = true ∧ (pch 13 (chan .retryWait)).slotReady 13 = false ∧ (pch 5 (chan .retryWait)).slotReady 5 = false) ∧
    ((chan .on fun x => { x with pg := true }).pg = true ∧ (chan .on).pg = false) ∧
    ((chan .absent fun x => { x with present := true }).present = true ∧ (chan .absent).present = false ∧ (chan .off).state ≠ .absent ∧ (chan .latched).state = .latched) ∧
    (let c := pch 6 (chan .absent fun x => { x with present := true }); c.slotReady 6 = true ∧ c.pwr.staggering = false ∧ 0 < c.pwr.feed.staggerMs ∧ (c.chan 6).state = .absent ∧
     (c.setPwr fun p => { p with waiting := [6] }).pwr.waiting = 6 :: [] ∧ (c.setPwr fun p => { p with staggering := true }).pwr.staggering = true ∧ c.pwr.waiting = []) ∧
    (let c := pch 0 feed (pch 1 feed); c.candidate 0 = true ∧ c.candidate 5 = false ∧ c.feedValid 0 = true ∧ c.bestFeed = some 0 ∧ c.pwr.lost = false ∧
     (sel 0 c).pwr.selected = some 0 ∧ (sel 0 (pch 0 feed)).pwr.selected = some 0 ∧ (pch 0 (chan .standby)).bestFeed = none ∧ ((sel 0 c).setChan 0 (chan .standby)).bestFeed = some 1 ∧
     (c.setPwr fun p => { p with feed := { p.feed with revert := true } }).pwr.feed.revert = true ∧ nth 0 c.pwr.feed.prio 1 < nth 0 c.pwr.feed.prio 0 ∧ c.pwr.feed.revert = false) ∧
    (hub.pwr.dead = none ∧ (let c := (pch 0 feed).setPwr fun p => { p with dead := some (0x0C05, 1) }; c.pwr.dead = some (0x0C05, 1) ∧ c.bestFeed = some 0 ∧ (after .feedDeadTimeEnd (st c)).pwr.selected = some 0) ∧
     hub.bestFeed = none) ∧
    (hub.pwr.pwrfail = false ∧ (let c := hub.setPwr fun p => { p with pwrfail := true }; c.pwr.pwrfail = true ∧ (List.range 14).all (fun n => (c.chan n).state != .shed) = true)) := by
  decide +kernel
/-! ### Chapter 18 -/

/-- `c` with trunk `n`'s contract state `x`. -/
def tpw (n : Nat) (x : TrunkPower) (c : Chip := hub) : Chip := c.setTp n x
/-- A CAPS body: a source's, precedence 15, role DOCK, a feed, offers of 12 V 3 A and 24 V 5 A. -/
def caps : Bytes := [0, 15, 1, 1] ++ le 8 5 ++ [1, 0] ++ le 2 3000 ++ [2, 0] ++ le 2 5000 ++ zeros 16
/-- A source, and a sink, in a contract. -/
def srcP : TrunkPower := { prole := 1, pstate := .contract, contractOn := true, volt := 1, cableDone := true, peer := some (parseCaps caps), cfg := { offers := [(1, 3000), (2, 5000)] } }
def snkP : TrunkPower := { srcP with prole := 2, req := some (0, 1, 3000, 500) }
/-- An exchange of type `t`. -/
def xch (t : Nat) (tries : Nat := 0) : SbExch := { frame := { marker := false, type := t, id := 1, body := [] }, tries }

theorem test_witness_ContractFramesAct :
    (caps.length = 36 ∧ (parseCaps caps).prec = 15 ∧ (parseCaps caps).offers.take 2 = [(1, 3000), (2, 5000)]) ∧
    ((tpw 3 { pstate := .hardReset }).tpOf 3).pstate = .hardReset ∧
    (let x : TrunkPower := { bias := true }; x.pstate ≠ .hardReset ∧ x.faulted = false ∧ x.exch = none ∧ x.prole = 0 ∧
     (tpw 0 x).winsSource 0 0 (parseCaps caps) = false ∧ (tpw 0 { x with cfg := { prec := some 15 } }).winsSource 0 0 { parseCaps caps with devRole := 1 } = true ∧
     (tpw 0 { x with cfg := { prec := some 15 } }).prec 0 = 15 ∧ hub.prec 0 = 8 ∧ x.lastRx = none) ∧
    (let x : TrunkPower := { prole := 2, pstate := .safe, cableDone := true }; x.cfg.noPower = false ∧
     ({ x with peer := some (parseCaps caps) } : TrunkPower).choose = some (0, 1, 3000, 500)) ∧
    (({ lastRx := some (0x02, 7, some (1, caps)) } : TrunkPower).lastRx = some (0x02, 7, some (1, caps))) := by decide +kernel

theorem test_witness_ContractFramesAct_answers :
    (srcP.exch = none ∧ srcP.pstate ≠ .swapping ∧ srcP.pstate ≠ .transition ∧ nth (0, 0) srcP.cfg.offers 0 = (1, 3000) ∧ nth (0, 0) srcP.cfg.offers 5 = (0, 0) ∧
     srcP.cableLimit = (1, 3000) ∧ nth (0, 0) srcP.cfg.offers 1 = (2, 5000)) ∧
    (fld [3, 0, 0, 0] 0 1 = 0x03 ∧ (xch 3).frame.type = 0x03 ∧ snkP.req = some (0, 1, 3000, 500) ∧ snkP.handle = none ∧ snkP.waits < 2 ∧
     ({ snkP with waits := 2, handle := some (1, 1) } : TrunkPower).handle ≠ none) ∧
    (let x : TrunkPower := { snkP with pstate := .transition, pend := some (1, 3000, 500) }; x.prole = 2 ∧ x.pend = some (1, 3000, 500) ∧ fld [1, 0, 0, 0] 0 1 = 1) ∧
    (srcP.cfg.swapAllow = false ∧ srcP.peer = some (parseCaps caps) ∧ bitOf (parseCaps caps).cflags 0 = true ∧ bitOf (parseCaps (caps.take 3 ++ [0] ++ caps.drop 4)).cflags 0 = false ∧
     (tpw 0 snkP).localFeedValid = false ∧ (pch 0 feed (tpw 0 snkP)).localFeedValid = true) ∧
    (srcP.cfg.fsAllow = false ∧ srcP.contractOn = true ∧ fld ([1, 0] ++ le 2 3000) 0 1 = srcP.volt ∧ fld ([1, 0] ++ le 2 3000) 2 2 ≤ srcP.cableLimit.2) ∧
    ({ srcP with armed := true } : TrunkPower).armed = true ∧ srcP.armed = false ∧ fld (zeros 32) 0 1 ≠ 1 ∧ fld ([1] ++ zeros 31) 0 1 = 1 := by decide +kernel

theorem test_witness_ContractTimersAct :
    (let x : TrunkPower := {}; x.pstate = .detached ∧ x.faulted = false ∧ x.prole = 0 ∧ x.bias = false ∧ x.peer = none ∧ x.attach = 0 ∧ x.exch = none ∧ x.pend = none ∧
     x.deferred = none ∧ x.swap ≠ 1 ∧ x.offersChanged = false ∧ x.armed = false) ∧
    (let x : TrunkPower := { prole := 1, capsDue := true, pstate := .safe, capsSent := 19 }; let c := pch 5 (chan .on) (tpw 3 x)
     (c.chan (2 + (3 : Fin 4).val)).state = .on ∧ (c.tpOf 3).capsSent = 19 ∧ ({ x with capsSent := 18 } : TrunkPower).capsSent ≠ 19) ∧
    (({ lastTx := some { marker := false, type := 1, id := 0, body := [] } } : TrunkPower).lastTx.isSome = true ∧ (xch 3 2).tries < 3 ∧ 3 ≤ (xch 3 3).tries) ∧
    (srcP.prole ≠ 0 ∧ srcP.pstate ≠ .hardReset ∧ srcP.pstate ≠ .swapping ∧ srcP.pstate ≠ .transition) ∧
    (let x : TrunkPower := { srcP with pstate := .transition, pend := some (2, 5000, 1), cid := 255 }; x.prole = 1 ∧ 0 < 1 ∧ (x.cid + 1) % 256 = 0 ∧
     ((after (.voltageSettled 0) (st (tpw 0 x))).tpOf 0).pstate = .contract ∧ ((after (.voltageSettled 0) (st (tpw 0 x))).tpOf 0).cid = 0) ∧
    (let c := pch 2 (chan .standby fun x => { x with tripPending := some 2 }) (tpw 0 srcP); (c.chan 2).tripPending = some 2 ∧ (hub.chan 2).tripPending = none) ∧
    (({ pstate := .hardReset, faulted := true } : TrunkPower).faulted = true) ∧
    ({ srcP with offersChanged := true } : TrunkPower).offersChanged = true ∧ ({ srcP with deferred := some (3, []) } : TrunkPower).deferred = some (3, []) ∧
    (let x : TrunkPower := { srcP with pstate := .swapping, swap := 1 }; x.swap = 1) ∧
    (let x : TrunkPower := { snkP with armed := true, fsDetect := true }; let c := tpw 0 x; x.pstate = .contract ∧ x.prole = 2 ∧ (c.chan 2).state ≠ .damaged ∧
     c.pwr.selected ≠ some (2 + (0 : Fin 4).val) ∧ ((after (.fastSwapTakeover 0 100) (st c)).tpOf 0).prole = 1) := by decide +kernel

/-- PWR_CHANNEL_SET's fields for channel `n`. -/
def chanB (n fl : Nat) (limit : Nat) : Bytes :=
  [BitVec.ofNat 8 n, BitVec.ofNat 8 fl, 255, 0] ++ le 4 200000 ++ le 4 100000 ++ le 4 limit ++ le 4 1 ++ le 2 150 ++ le 2 100 ++ le 4 50 ++ le 4 100000 ++ le 2 10 ++ le 2 1000 ++
    le 4 99999 ++ le 4 0 ++ le 4 100000
/-- TRUNK_POWER_SET's fields for trunk `n` with one offer. -/
def tpB (n pf volt ma : Nat) : Bytes :=
  [BitVec.ofNat 8 n, BitVec.ofNat 8 pf, 15, 0, 0, 0, 0, 0] ++ [BitVec.ofNat 8 volt, 0] ++ le 2 ma ++ zeros 20 ++ [7, 0] ++ le 2 5000 ++ le 2 1 ++ [0, 0]

theorem test_witness_PowerCommandsAct :
    (hears hub 0x0C01 (pk (chanB 13 7 133333)) ∧ (chanCfgOf (chanB 13 7 133333)).ranges = true ∧ (chanCfgOf (chanB 13 7 133333)).limits 13 = true ∧
     (chanCfgOf (chanB 13 7 133334)).limits 13 = false ∧ (chanCfgOf (chanB 1 3 133333)).limits 1 = true ∧ hears hub 0x0C01 (pk (chanB 1 3 133334)) ∧ rsvd (chanB 13 7 0) 3 1 = true) ∧
    (hears hub 0x0C02 (pk [13, 0, 0, 0]) ∧ hears hub 0x0C02 (pk [5, 1, 0, 0]) ∧ hears hub 0x0C02 (pk [0, 2, 0, 0]) ∧ isTrunkCh 5 = true ∧ (chan .off).conf.iFs ≠ 0 ∧
     (hub.chan 6).conf.iFs = 0 ∧ (chan .damaged).state = .damaged ∧ (chan .latched).state = .latched ∧ ((pch 13 (chan .off)).chan 13).state = .off ∧ (hub.chan 13).state = .off) ∧
    (let b r := [0, 1, 2, 3, 4, 15, 50, BitVec.ofNat 8 r] ++ le 2 1000 ++ le 2 60000 ++ le 2 1000 ++ le 2 1000
     hears hub 0x0C03 (pk (b 3)) ∧ hears hub 0x0C03 (pk (b 1)) ∧ fld (b 3) 6 1 = 50 ∧ fld (b 3) 14 2 = 1000 ∧ fld (b 3) 10 2 = 60000 ∧ fld (b 3) 5 1 = 15) ∧
    (hears hub 0x0C04 (pk []) ∧ fits hub (pk []) 240) ∧
    (let c := pch 5 (chan .on fun x => { x with cfg := some { iFs := 10000, severePct := 200 } })
     hears c 0x0D01 (pk (tpB 3 63 3 5000)) ∧ offersOk (sliceB (tpB 3 63 3 5000) 8 24) = true ∧ (c.chan 5).conf.iFs * 100 / (c.chan 5).conf.severePct = 5000 ∧
     hears c 0x0D01 (pk (tpB 0 31 1 1)) ∧ (hub.chan 2).conf.iFs = 0 ∧ offersOf (sliceB (tpB 3 63 3 5000) 8 24) ≠ [] ∧ srcP.prole = 1 ∧ hub.tpOf 0 = {} ∧
     fld (tpB 3 63 3 5000) 34 2 = 5000 ∧ fld (tpB 3 63 3 5000) 36 2 = 1 ∧ rsvd (tpB 3 63 3 5000) 38 2 = true) ∧
    (let c := tpw 3 snkP; let q (op : Nat) := pk ([3, BitVec.ofNat 8 op] ++ zeros 6)
     hears c 0x0D02 (q 1) ∧ hears c 0x0D02 (q 7) ∧ (c.tpOf 3).faulted = false ∧ c.peerThere 3 = true ∧ (c.tpOf 3).handle = none ∧ c.recordFree 0 = true ∧
     hub.peerThere 3 = false ∧ hears hub 0x0D02 (q 4) ∧ srcP.prole ≠ 2 ∧ ({ snkP with handle := some (1, 2) } : TrunkPower).handle = some (1, 2) ∧
     ({ snkP with cfg := { fsAllow := true } } : TrunkPower).cfg.fsAllow = true ∧ (pch 0 feed c).localFeedValid = true ∧
     hears (tpw 3 { snkP with faulted := true, pstate := .faulted }) 0x0D02 (q 7) ∧ ({ snkP with peer := none } : TrunkPower).peer = none ∧
     ({ snkP with pstate := .transition } : TrunkPower).pstate = .transition) ∧
    (hears hub 0x0D03 (pk [3, 0, 0, 0]) ∧ fits hub (pk []) 64) ∧
    (hears hub 0x0D04 (pk [3, 1, 0, 0]) ∧ hears hub 0x0D04 (pk [0, 0, 0, 0]) ∧ fits hub (pk []) 36 ∧ (hub.tpOf 3).prole = 0 ∧ srcP.prole ≠ 0 ∧ srcP.faulted = false) := by decide +kernel
/-! ### Chapters 19 to 22 -/

/-- AES attributes for wrapping; ECDSA, and the public TYPE. -/
def aesA : Nat := 2 ^ 23 + 16
/-- A hub whose key store is restored, with a wrapping key of VI 0 in slot `i`. -/
def kst (i : Nat) (f : Keys → Keys := id) (c : Chip := crk) : Chip :=
  c.setKeys fun k => f { k with restored := true, slots := [(i, { attr := aesA, key := zeros 32, label := zeros 16 })] }
/-- KEY_GENERATE's and KEY_DERIVE's fields. -/
def keyB (i o ref attr : Nat) : Bytes := [BitVec.ofNat 8 i, BitVec.ofNat 8 o] ++ le 2 ref ++ le 4 attr ++ zeros 16

/-- The cryptographic functions are free, so the clauses that ask for one result of theirs are witnessed up to that. -/
theorem test_witness_KeyCommandsAct :
    (let c := kst 255 fun k => { k with approved := true }; c.approved = true ∧ c.keys.logged.contains 5000 = false ∧ hears c 0x0E02 (pk (keyB 0 0 0 aesA)) ∧ hub.approved = false ∧
     hears c 0x0E07 (pk [255, 0, 0, 0])) ∧
    (hears (kst 255) 0x0E01 (pk [0, 0, 0, 0]) ∧ fits hub (pk []) 180 ∧ hears (kst 255) 0x0E01 (pk [1, 255, 0, 0]) ∧ (kst 255).keyRestoring 255 = false ∧
     ((kst 255).kslot 255).isSome = true ∧ (kst 255).kslot 0 = none ∧ hears (kst 255) 0x0E01 (pk [1, 255, 0, 0] (.pcie 1 0))) ∧
    (attrReserved aesA = false ∧ attrOk aesA = true ∧ attrOk (5 * 2 ^ 23 + 32) = true ∧ attrOk (6 * 2 ^ 23) = false ∧ hears (kst 255) 0x0E02 (pk (keyB 15 0 0 aesA)) ∧
     hears (kst 255) 0x0E02 (pk (keyB 254 1 0 (2 ^ 17 + 2 ^ 19 + 3 * 2 ^ 23 + 4))) ∧ (kst 255).keys.zeroizeL = false ∧ (kst 255).kslot 254 = none ∧
     (kst 255).keyUsed 0 < (kst 255).keyGrant 0 ∧ (kst 255).loginTaken 0 = false ∧ (kst 255).storeReady = true ∧ (kst 255 fun k => { k with zeroizeL := true }).keys.zeroizeL = true) ∧
    (let p := pk (keyB 0 0 0xFFFF aesA); hears (kst 255) 0x0E03 p ∧
     (match (kst 255).parentFor ((st (kst 255)).ctxOf 0x0E03 p (kst 255)) 0xFFFF 0 with | .error e => e.1 == 0x0204 | .ok _ => false) = true ∧
     (match (kst 255).parentFor ((({ st (kst 255) with fuses := { State.reset.fuses with lifecycle := 1 } } : State)).ctxOf 0x0E03 p (kst 255)) 0xFFFF 0 with
      | .error _ => false | .ok _ => true) = true ∧ (pk []).sess ≠ .usb) ∧
    (hears (kst 255) 0x0E04 (pk (keyB 0 0 0 aesA ++ zeros 32)) ∧ hears (kst 255) 0x0E04 (pk (keyB 0 0 0 aesA ++ zeros 97)) ∧ keyLen 1 = 32 ∧ State.reset.fuses.lifecycle ≠ 3) ∧
    (hears (kst 255) 0x0E05 (pk ([0, 255] ++ zeros 6 ++ le 4 0x4B534C42 ++ [0, 2] ++ zeros 170)) ∧ hears (kst 255) 0x0E05 (pk ([0, 255] ++ zeros 182)) ∧
     ((kst 255).kslot 255).map (fun k => (k.use 4, k.owner, k.locked)) = some (true, 0, false)) ∧
    (hears (kst 255) 0x0E06 (pk [255, 255, 0, 0]) ∧ fits hub (pk []) 176 ∧ hears (kst 255) 0x0E07 (pk [255, 1, 0, 0]) ∧ hears (kst 255) 0x0E07 (pk [0, 3, 0, 0]) ∧
     hears (kst 255) 0x0E07 (pk [0, 2, 0, 0] (.pcie 1 0)) ∧ hears (kst 255) 0x0E08 (pk [255, 7, 0, 0, 0, 0, 0, 0]) ∧ hears (kst 255) 0x0E08 (pk [255, 0, 0, 0, 0, 0, 0, 0]) ∧
     (KeySlot.locked { attr := aesA + 2 ^ 20 }) = true) ∧
    (hears hub 0x0E09 (pk []) ∧ fits hub (pk []) 48 ∧ hears hub 0x0E0A (pk (zeros 48)) ∧ hub.keys.lockout.contains 0 = false ∧
     hub.keys.slots.find? (fun e => e.2.owner == 0 && e.2.login) = none ∧ ((kst 3 fun k => { k with slots := [(3, { attr := aesA + 2 ^ 17 })] }).keys.slots.find?
       (fun e => e.2.owner == 0 && e.2.login)).map (·.1) = some 3 ∧ hub.keys.fails.get 0 0 + 1 < 8 ∧ (kst 3 fun k => { k with fails := [(0, 7)] }).keys.fails.get 0 0 + 1 = 8) := by decide +kernel

theorem test_witness_KeyCommandsAct_rest :
    (let p (o : Nat) := pk ([BitVec.ofNat 8 o, 0, 0, 0] ++ le 4 0x4C435943); hears hub 0x0E0B (p 1) ∧ hears hub 0x0E0B (p 5) ∧ hub.keys.lifeOp = none ∧ State.reset.fuses.lifecycle + 1 = 1 ∧
     State.reset.fuses.lifecycle + 1 ≠ 3 ∧ hub.recordFree 0 = true ∧ (kst 0 fun k => { k with lifeOp := some (1, 1) }).keys.lifeOp = some (1, 1)) ∧
    (let p := pk (le 4 0 ++ le 4 0 ++ [1]); let f : State := { st hub with fuses := { State.reset.fuses with lifecycle := 1 } }
     hears hub 0x0E0C p ∧ hub.keys.certOwner = none ∧ hub.gkCommand (f.ctxOf 0x0E0C p hub) 1 0x20010000 1 = (hub, true) ∧ State.reset.fuses.lifecycle ≠ 1 ∧
     hears hub 0x0E0C (pk (le 4 65535 ++ le 4 0 ++ [1])) ∧ 65535 + [1].length ≤ 65536) ∧
    (hears hub 0x0E0D (pk ([7, 3, 0, 0] ++ zeros 48)) ∧ hears hub 0x0E0D (pk ([0, 0, 0, 0] ++ zeros 48))) ∧
    (hears hub 0x0E0E (pk [3, 1, 15, 0, 255, 0, 0, 0]) ∧ hears hub 0x0E0E (pk [0, 0, 0, 255, 0, 0, 0, 0]) ∧ hub.sealNeeded 0 = false ∧ (hub.sealOf 0).cfg.mode ≠ 1 ∧
     (let c := tun 20 (fun t => { t with oflags := 1, outPort := 0 }) (open20.setSeal 0 { hub.sealOf 0 with cfg := { mode := 1 } }); (c.sealOf 0).cfg.mode = 1 ∧ c.sealNeeded 0 = true)) ∧
    (let k : LinkKeys := { epoch := 1, kTx := [], kRx := [], chain := [] }; let c := hub.setSeal 3 { hub.sealOf 3 with keys := some k, sealedOn := true }
     hears c 0x0E0F (pk [3, 0, 0, 0]) ∧ hears c 0x0E0F (pk [3, 1, 0, 0]) ∧ (c.sealOf 3).rekey = none ∧ (c.sealOf 3).keys = some k ∧ (c.sealOf 3).next = none ∧ (hub.sealOf 3).keys = none ∧
     ((c.setSeal 3 { c.sealOf 3 with rekey := some 1 }).sealOf 3).rekey = some 1) ∧
    (hears hub 0x0E10 (pk []) ∧ hub.keys.selftest = none ∧ (kst 0 fun k => { k with selftest := some 0 }).keys.selftest = some 0) ∧
    (let b (op sl a n len : Nat) := [BitVec.ofNat 8 op, BitVec.ofNat 8 sl] ++ le 2 a ++ le 4 n ++ zeros 16 ++ zeros len
     hears (kst 255) 0x0E11 (pk (b 1 255 4096 0 4096)) ∧ hears (kst 255) 0x0E11 (pk (b 8 0 0 65536 0)) ∧ hears (kst 255) 0x0E11 (pk (b 5 0 0 1 1)) ∧ cryptoNeeds 5 = none ∧ cryptoNeeds 8 = none ∧
     cryptoNeeds 1 = some (1, 0) ∧ ((kst 255).kslot 255).map (fun k => (k.ty, k.use 0)) = some (1, false) ∧ (KeySlot.use { attr := aesA + 1 } 0) = true ∧
     (kst 255).cryptoHeld + cryptoOut 8 65536 false ≤ 4194304 ∧ (kst 255).recordFree 0 = true ∧ (kst 255).keys.jobs = []) ∧
    (let r := rec1 0x0E11 fun r => { r with complete := true }; let c := recs (kst 0 fun k => { k with outputs := [(1, zeros 48)] }) [r]
     hears c 0x0E12 (pk (le 4 1 ++ le 4 48 ++ le 3 1048576 ++ [1])) ∧ hears c 0x0E12 (pk (le 4 1 ++ le 4 0 ++ le 3 1 ++ [0])) ∧ (c.rec? 1).isSome = true ∧ c.rec? 2 = none ∧
     (c.keys.outputs.find 1).isSome = true ∧ fits c (pk []) 48) := by decide +kernel

theorem test_witness_KeyRowsAndGatekeepersAct :
    (let c := recs (kst 0 fun k => { k with lifeOp := some (1, 3) }) [rec1 0x0E0B]; c.keys.lifeOp = some (1, 3) ∧ c.cancelled 1 = false ∧
     (recs c [rec1 0x0E0B fun r => { r with cancelled := true }]).cancelled 1 = true ∧ hub.keys.lifeOp = none) ∧
    ((kst 0 fun k => { k with selftest := some 0 }).keys.selftest = some 0 ∧ hub.keys.selftest = none) ∧
    (let j (op : Nat) : CryptoJob := { handle := 1, op, slot := 0, aadLen := 0, iv := zeros 12, input := [] }; let c := recs (kst 0 fun k => { k with jobs := [j 1] }) [rec1 0x0E11]
     c.keys.jobs = j 1 :: [] ∧ (c.openRec? 1).isSome = true ∧ c.cancelled 1 = false ∧ cryptoNeeds 1 ≠ none ∧ (c.kslot 0).isSome = true ∧ (kst 1).kslot 0 = none ∧
     (c.cryptoRun (j 1) (zeros 32)).isSome = true ∧ cryptoNeeds 5 = none ∧ (c.cryptoRun (j 5) []).isSome = true) ∧
    (crk.storeReady = true ∧ crk.keys.restored = false ∧ (kst 0).keys.restored = true ∧ hub.storeReady = false) ∧
    (let x : Seal := hub.sealOf 0; data0.inData 0 = true ∧ hub.inData 0 = false ∧ (data0.sealOf 0).cfg.auth = true ∧ x.phase ≠ .done ∧ x.phase ≠ .refused ∧ x.next = none ∧
     ((hub.setSeal 0 { x with phase := .refused }).sealOf 0).phase = .refused ∧ seqBefore 48 hub.turn 1 = true ∧ seqBefore 48 hub.turn 0 = false) := by decide +kernel

theorem test_witness_KeyRowsAndGatekeepersAct_rest :
    (let b (k i base limit perm : Nat) := [BitVec.ofNat 8 k, BitVec.ofNat 8 i] ++ zeros 6 ++ le 8 base ++ le 8 limit ++ le 4 perm ++ zeros 12; let g := State.reset.guard
     hears hub 0x0F01 (pk (b 4 119 0 3 1)) ∧ hears hub 0x0F01 (pk (b 4 120 0 3 1)) ∧ hears hub 0x0F01 (pk (b 0 127 4 3 0)) ∧ bitOf (regionOf g.active 4 120).perm 2 = true ∧
     bitOf (regionOf g.active 4 119).perm 2 = false ∧ ({ base := 0, limit := 3, perm := 1 } : Region).valid 4 = true ∧ ({ base := 4, limit := 3 } : Region).valid 0 = false ∧
     hub.gkOff 1 = false ∧ dock.gkOff 1 = true ∧ relay.gkOff 2 = true ∧ hears dock 0x0F01 (pk (b 1 0 0 3 1)) ∧ hears relay 0x0F05 (pk [2, 0, 0, 0])) ∧
    (hears hub 0x0F02 (pk [4, 1, 0, 0, 0xF8, 0x7F, 0, 0]) ∧ hears hub 0x0F03 (pk [4, 1, 0, 0]) ∧ hears hub 0x0F03 (pk [0, 0, 0, 0]) ∧ (Tab.get ({} : GkLog) hub.gk 4).sync = none ∧
     firstOverlap (State.reset.guard.shadow.get {} 4).regions = none ∧ firstOverlap [(0, { limit := 3, perm := 1 }), (1, { base := 3, limit := 7, perm := 1 })] = some (0, 1) ∧
     hears hub 0x0F04 (pk [4, 1, 127, 1]) ∧ hears hub 0x0F04 (pk [0, 0, 0, 100]) ∧ fits hub (pk []) (64 + 32 * 100) ∧ hears hub 0x0F05 (pk [4, 0, 0, 0]) ∧ fits hub (pk []) 32) ∧
    (let c := recs { hub with gk := [(4, { sync := some (1, true) })] } [rec1 0x0F03]; (Tab.get ({} : GkLog) c.gk 4).sync = some (1, true) ∧ c.cancelled 1 = false) ∧
    (let g := State.reset.guard.active.get {} 4
     (g.decide' 0 4 0 0 4 true).all = true ∧ (g.decide' 0 4 0 0xC00000 4 true).all = false ∧ (g.decide' 3 4 0 0xC00000 4 true).all = true ∧ g.regionAt 0xC7FFFF = some 120 ∧
     g.regionAt 0xC80000 = some 121 ∧ (g.decide' 3 4 1 0xFFFFFF 1 true).all = true) := by decide +kernel

theorem test_witness_LifetimeAndBoardAct :
    (hub.dev.mode ≠ .keepalive ∧ hub.dev.mode ≠ .quiet ∧ hub.life.saving = none ∧ hub.life.crockCopy = none ∧ (part .keepalive .dock).dev.mode = .keepalive ∧ (part .quiet .dock).dev.mode = .quiet) ∧
    (let v : LifeSave := { record := { seq := 1 }, handle := 1 }; let c := recs (hub.setLife fun l => { l with saving := some v, next := [{ record := { rflags := 2 } }] }) [rec1 0x1003]
     c.life.saving = some v ∧ c.life.next ≠ [] ∧ ((c.life.saving.toList ++ c.life.next).find? fun v => v.handle != 0 && (c.openRec? v.handle).isSome).isSome = true ∧
     (after (.lifetimeSaveDone true false) (st c)).life.saveSeq = 1 ∧ (after (.lifetimeSaveDone false false) (st c)).life.saveSeq = 0) ∧
    (let r : LifeRec := { seq := 5 }; let c := hub.setLife fun l => { l with crockCopy := some r }; c.life.crockCopy = some r ∧ c.life.restored = none ∧
     (c.setLife fun l => { l with restored := some r }).life.restored = some r ∧ r.seq ≤ r.seq) ∧
    (hears hub 0x1001 (pk []) ∧ fits hub (pk []) 1220 ∧ hears hub 0x1002 (pk (zeros 32)) ∧ fits hub (pk []) 1412 ∧ hears hub 0x1003 (pk []) ∧ hub.recordFree 0 = true ∧
     (hub.life.saving.toList ++ hub.life.next).find? (fun v => v.handle != 0 && (hub.openRec? v.handle).isSome) = none ∧ State.reset.fuses.lifecycle ≠ 1) ∧
    (hub.dev.refFailed.contains 2 = false ∧ (dev hub fun d => { d with refFailed := [2] }).dev.refFailed.contains (2 : Fin 3).val = true) ∧
    ((data0.laneOf 0).phase = .data ∧ (data0.laneOf 0).following = false ∧ ((lane 0 (fun l => { l with following := true }) data0).laneOf 0).following = true ∧
     ((after (.refclkFail 0) (st data0)).laneOf 0).phase ≠ .data) := by decide +kernel
/-! ### Invariants -/

/-- Rule sets with one LOCKED region, 120 of gatekeeper 4, in both sets. -/
def lockedSets : Guard :=
  let t : Tab RuleSet := [(4, { regions := [(120, { base := 0xC00000, limit := 0xC7FFFF, perm := 0x2D })] })]
  { active := t, shadow := t }

/-- A state that a row leaves with a next state: O4's hypothesis. -/
theorem test_witness_FusesOnlyAdvance :
    exec .tapReset State.reset = .next { State.reset with chip := { State.reset.chip with dev := { State.reset.chip.dev with tapReset := true } } } ∧
    bitOf ({ State.reset.fuses with roleLock := 6 } : Fuses).roleLock.toNat 2 = true := ⟨rfl, by decide +kernel⟩

theorem test_witness_GuardSafeEveryStep :
    ({} : Guard).Safe ∧ step { State.reset with guard := {}, pending := [.tapReset] } =
      .next { State.reset with guard := {}, chip := { State.reset.chip with dev := { State.reset.chip.dev with tapReset := true } } } :=
  ⟨fun _ _ => ⟨⟨rfl, fun _ h => nomatch h⟩, .nil, ⟨rfl, fun _ h => nomatch h⟩, rfl, fun _ h => nomatch h⟩, rfl⟩

theorem test_witness_LockedRegionsStay :
    lockedSets.LocksHold ∧ lockedSets.locked 4 120 ∧ restarts .tapReset = false ∧
    exec .tapReset { State.reset with guard := lockedSets } =
      .next { State.reset with guard := lockedSets, chip := { State.reset.chip with dev := { State.reset.chip.dev with tapReset := true } } } :=
  ⟨fun _ _ _ => rfl, by unfold Guard.locked; decide +kernel, rfl, rfl⟩
/-! ### More witnesses: clauses of chapters 02 to 05 -/

theorem test_witness_GeneralRowsMore :
    (hub.cmd.inbox = [] ∧ 640 < hub.attendAll.toSpoke ∧ hub.time.slew = 0 ∧ hub.time.freqAdj = 0 ∧ hub.clk.dco = 0 ∧ hub.clk.refRest = 0) ∧
    (let p := pk [1, 1, 0, 0]; let c := recs hub [rec1 0x0203]
     c.cmd.handles.find? (fun h => h.sess == p.sess && !h.complete && !h.logOnly) = some (rec1 0x0203) ∧
     hub.cmd.handles.find? (fun h => h.sess == p.sess && !h.complete && !h.logOnly) = none) ∧
    (hub.replyHeld (rec1 0x0203) = false ∧
     ({ hub with host := { hub.host with qps := [(0, { held := [{ sess := .pcie 0 0, status := 1, result := 1, rflags := 1 }] })] } } : Chip).replyHeld
       (rec1 0x0203 fun r => { r with sess := .pcie 0 0 }) = true) ∧
    (hub.firstOf .usb = none ∧ (hub.takePacket (pk [] .usb)).2 = true) ∧
    ((dev hub fun d => { d with resetReq := 1 }).dev.resetReq = 1 ∧ hub.dev.rollback = none) ∧
    (let p := pk [2, 0, 0, 0]; hears hub 0x010B p ∧ bitOf State.reset.fuses.roleLock.toNat 2 = false ∧ BitVec.ofNat 3 (4 + fld p.params 0 1) = (6 : BitVec 3)) ∧
    ((dev hub fun d => { d with runSvn := 64, rollback := some 1 }).dev.rollback = some 1 ∧ State.reset.fuses.rollback ≤ 64) := by decide +kernel

/-- Trunk 0 in training step `k` with its receive lanes sound. -/
def step0 (k : Nat) (f : LanePort → LanePort := id) : Chip :=
  lane 0 fun l => f { l with phase := .train k, rx := (List.range 4).map fun i => (i, { fom := 96, aligned := true, laneId := i }) }
/-- LINK_CAPS of an end with both revisions, every width and class 1. -/
def linkCaps1 : Bytes := [3, 7, 2, 0] ++ zeros 5 ++ [1] ++ zeros 22

theorem test_witness_TrainingRowsMore :
    (((step0 3).laneOf 0).peerGot.contains (3, ((step0 3).laneOf 0).mine) = false ∧
     ((step0 3 fun l => { l with peerGot := [(3, l.mine)] }).laneOf 0).peerGot.contains (3, ((step0 3).laneOf 0).mine) = true) ∧
    (let l := (step0 8 fun l => { l with stamps := [(4, 100)], results := List.replicate 14 7 }).laneOf 0
     l.phase = .train 8 ∧ l.results.length < 15 ∧ l.stamps.find 4 = some 100) ∧
    (let c := tpw 0 { cableValid := true, cable := [1, 1] ++ zeros 30 } (step0 1)
     c.cableClass 0 = 1 ∧ fld linkCaps1 9 1 = 1 ∧ bitOf (fld linkCaps1 0 1) 1 = true ∧ 2 ≤ (c.laneOf 0).use.maxRev ∧ 2 ≤ fld linkCaps1 2 1 ∧
     (c.laneOf 0).caps = none ∧ startPreset 1 = startPreset (c.cableClass 0) ∧ ((after (.linkCapsRx 0 linkCaps1) (st c)).laneOf 0).revision = 2) ∧
    (∀ k, k < 13 → (hub.laneOf 0).phase ≠ .train k) := by decide +kernel

theorem test_witness_LaneEventsMore :
    (let f := Nat.min (Nat.min 255 (63750 * 4 / 1000)) (Nat.min 255 (32 * 8)); f = 255) ∧
    (let l := data0.laneOf 0; l.revision ≠ 1 ∧ bitOf l.activeRx 3 = true ∧ (Tab.get ({} : RxLane) l.rx (l.phys 3)).fom < l.cfg.fomDegrade) ∧
    (let k : LoopState := { mode := 3, lanes := 5 }; let l := (lane 1 fun l => { l with phase := .loop, loopSt := some k }).laneOf 1
     l.loopSt = some k ∧ k.requester = true ∧ k.acked = false ∧ l.loopHandle = none ∧ k.mode = 3) ∧
    ((lane 1 fun l => { l with phase := .loop, loopSt := some { mode := 3, requester := false } }).laneOf 1).loopSt = some { mode := 3, requester := false } := by
  decide +kernel

/-- `g n`, with `n` evaluated first: the kernel evaluates nothing before it is asked for, which is deep in a long fold. -/
def force {β : Type} (n : Nat) (g : Nat → β) : β := match n with | 0 => g 0 | k + 1 => g (k + 1)
theorem force_eq {β : Type} (n : Nat) (g : Nat → β) : force n g = g n := by cases n <;> rfl
/-- A fold that evaluates its result step by step. -/
def foldS {α : Type} (f : Nat → α → Nat) : List α → Nat → Nat
  | [], a => a
  | b :: l, a => force (f a b) (foldS f l)
theorem foldl_eq_foldS {α : Type} (f : Nat → α → Nat) (l : List α) (a : Nat) : l.foldl f a = foldS f l a := by
  induction l generalizing a with
  | nil => rfl
  | cons b l ih => simp only [List.foldl_cons, foldS, ih, force_eq]
/-- The field's product, evaluated step by step. -/
def mulS (r : RsCode) : Nat → Nat → Nat → Nat → Nat
  | 0, _, _, acc => acc
  | k + 1, a, b, acc => force (r.xtime a) fun a' => force (b / 2) fun b' => force (if b % 2 = 1 then acc ^^^ a else acc) (mulS r k a' b')
theorem mulAux_eq_mulS (r : RsCode) (k a b acc : Nat) : r.mulAux k a b acc = mulS r k a b acc := by
  induction k generalizing a b acc with
  | zero => rfl
  | succ k ih => simp only [RsCode.mulAux, mulS, ih, force_eq]
/-- A byte of a CRC, evaluated step by step. -/
def crcByteS (p x : Nat) (b : Byte) : Nat := foldS (fun a _ => crcBit p a) (List.replicate 8 ()) (x ^^^ b.toNat)
theorem crcByte_eq_crcByteS : crcByte = crcByteS := by
  funext p x b; unfold crcByteS; rw [← foldl_eq_foldS]; rfl

/-- The marker of turn 5, spoke 3, of a hub without a gear (R126, Table 05.2): its first 160 bytes, the 156 before its CRC, and the CRC. -/
def markerHead : Bytes := [0x6A, 0x3C, 0x95, 0xF0, 0x1E, 0x87, 0xD2, 0x4B, 0, 3, 0, 0, 0, 0, 0, 5] ++ zeros 16 ++ [4] ++ zeros 127
def marker53 : Bytes := markerHead ++ zeros 156 ++ be 4 3620857762
/-- Its symbols, then the 16 check symbols. -/
def word53 : List Nat :=
  [424, 969, 380, 30, 543, 292, 704, 3, 0, 0, 0, 0, 20] ++ List.replicate 13 0 ++ [256] ++ List.replicate 225 0 ++ [3, 381, 121, 930] ++ [79, 289, 252, 792, 594, 740, 727, 409, 982, 841, 644, 334, 427, 384, 659, 469]
/-- The word as it arrives on the four lanes of Unxus 2. -/
def lanes53 : List (List Nat) := (stripe [0, 1, 2, 3] word53).map fun e => (data0.laneOf 0).txUnits e.1 e.2

theorem test_marker_bytes : hub.markerBytes 0 5 3 (({} : MgmtSeg).bytes 0) = markerHead ++ zeros 156 := by decide +kernel
theorem test_marker_crc_head : foldS (crcByteS 0x82F63B78) markerHead 0xFFFFFFFF = 2405197441 := by decide +kernel
theorem test_marker_crc_rest : foldS (crcByteS 0x82F63B78) (zeros 156) 2405197441 ^^^ 0xFFFFFFFF = 3620857762 := by decide +kernel
theorem crc32c_parts {l m : Bytes} {a y : Nat} (h : foldS (crcByteS 0x82F63B78) l 0xFFFFFFFF = a)
    (h2 : foldS (crcByteS 0x82F63B78) m a ^^^ 0xFFFFFFFF = y) : crc32c (l ++ m) = y := by
  unfold crc32c
  rw [List.foldl_append, crcByte_eq_crcByteS, foldl_eq_foldS, foldl_eq_foldS, h, h2]
theorem test_marker_crc : crc32c (markerHead ++ zeros 156) = 3620857762 := crc32c_parts test_marker_crc_head test_marker_crc_rest
theorem test_marker_syndromes : rsTrunk.syndromes word53 = List.replicate 16 0 := by
  simp only [RsCode.syndromes, RsCode.evalHigh, foldl_eq_foldS, RsCode.mul, mulAux_eq_mulS]; decide +kernel
theorem test_marker_decodes : rsTrunk.decode word53 = some (word53, []) := by
  simp only [RsCode.decode, test_marker_syndromes]; rfl

/-- Trunk 0 in step 9, seeking. -/
def seek0 (f : Framing → Framing := id) : Chip :=
  let c := lane 0 (fun l => { l with phase := .train 9 }) data0
  c.setFrm 0 (f { c.frmOf 0 with seeking := true })

/-- The word that the receiver decodes passes the tests of R130. -/
theorem test_witness_MarkerHeardOnTheLanes :
    seek0.inData 0 = false ∧ (seek0.frmOf 0).seeking = true ∧ (seek0.frmOf 0).lastRx = none ∧ seek0.keys.pairFailed = false ∧
    (seek0.lineRx 0 lanes53).1 = word53 ∧ symbolBytes (word53.take 256) = marker53 ∧ fldBe marker53 0 8 = 0x6A3C95F01E87D24B ∧
    fldBe marker53 316 4 = 3620857762 ∧ sliceB marker53 0 316 = markerHead ++ zeros 156 ∧ fldBe marker53 10 6 = 5 ∧ fld marker53 9 1 % 16 = 3 := by decide +kernel

/-- The second marker comes 1,250 codewords after that of spoke 2 (R130, R131). -/
theorem test_witness_CodewordsAndMarkersMore :
    (let f := (seek0 fun f => { f with lastRx := some (5, 2), good := 1, rxGap := 1249 }).frmOf 0
     f.lastRx = some (5, 2) ∧ f.good = 1 ∧ f.rxGap + 1 = spokeCw (seek0.geom 0) 2) ∧
    (let c := seek0 fun f => { f with txPos := some (0, 0) }
     (c.frmOf 0).txPos ≠ none ∧ (c.sealOf 0).tx = none ∧ (c.frmOf 0).fill = 0 ∧ c.gear.aborting = none ∧ c.time.pending = none) ∧
    (data0.frmOf 0).wcMine = none ∧ (data0.frmOf 0).wcPeer = none := by decide +kernel

/-- Trunk 0 in DATA with a width request of its own, sent, and one of its peer. -/
def width0 (a b : Option WidthReq) (f : Framing → Framing := id) : Chip :=
  data0.setFrm 0 (f { data0.frmOf 0 with wcMine := a, wcSent := a.isSome, wcPeer := b, txPos := some (0, 0), lastRx := some (0, 0) })
/-- Degrades to two lanes and to one, upgrades to two lanes. -/
def deg (w t : Nat) : WidthReq := { kind := 1, width := w, rxset := 2 ^ w - 1, turn := t, raw := (t, 0) }
def upg (t : Nat) : WidthReq := { kind := 2, width := 2, rxset := 3, turn := t, raw := (t, 0) }

theorem test_witness_ReplayAndWidthRowsMore :
    (let c := width0 (some (deg 2 0)) (some (deg 1 4)); (c.laneOf 0).phase = .data ∧ c.upgradeLate 0 = false ∧ (c.widthPlan 0).isSome = true ∧
     (c.widthPlan 0).map (fun p => (p.width, p.txAt)) = some (1, (0, 0)) ∧
     (c.widthPlan 0).map (fun p => ((c.widthSwitchTx 0 p).frmOf 0).wcTxDone) = some true) ∧
    (let c := width0 (some (upg 4)) (some (upg 6)); c.upgradeLate 0 = false ∧ (c.widthPlan 0).map (fun p => (p.width, p.txAt)) = some (2, (6, 0)) ∧
     (c.widthPlan 0).map (fun p => ((c.widthSwitchTx 0 p).frmOf 0).wcTxDone) = some false) ∧
    (width0 (some (upg 0)) none).upgradeLate 0 = true ∧
    (hub.laneOf 0).phase ≠ .data ∧ (data0.frmOf 0).wcMine = none ∧ (data0.frmOf 0).wcPeer = none ∧
    ((data0.setFrm 0 { data0.frmOf 0 with ranges := [{ start := 1, count := 1 }] }).frmOf 0).copies = [] ∧
    (let c := lane 0 (fun l => { l with revision := 1, width := 1, activeRx := 1, activeTx := 1 }) data0
     (c.laneOf 0).revision = 1 ∧ bitOf (c.laneOf 0).activeRx 0 = true ∧ nth 0 [0] ((c.laneOf 0).phys 0) < (c.laneOf 0).cfg.fomDegrade) ∧
    (let c := (lane 0 (fun l => { l with phase := .data, revision := 2, width := 1, activeRx := 1, activeTx := 1, widest := 4,
                                         rx := (List.range 4).map fun i => (i, { fom := 96, aligned := true, laneId := i }) }) hub)
     let c := c.setFrm 0 { c.frmOf 0 with peerRxset := 15, upgradeAuto := true, usableSince := [(2, 0), (4, 0)] }
     let c := { c with clk := { c.clk with powerPs := 61 * 10 ^ 12 } }
     (c.upgradeTo 0).isSome = true ∧ c.quieting = false ∧ (c.frmOf 0).wcMine = none) := by decide +kernel

/-! ### More witnesses: clauses of chapters 06 to 10 -/

/-- Two DROP and OFF policers, no tokens left; a waiting trunk cell at F4; a promise of two turns ago whose conditions hold; F4's cuts; a cell of trunk 3. -/
theorem test_witness_CellsAndPromiseActMore :
    (let c := (src20 open20).drainWaiting; c.portOn 4 = true ∧ c.forwards = true ∧ c.backlogged 4 = false ∧ (c.tunOf 20).index = 0) ∧
    (let c := (src20 open20).setBacklog 4 3 [{ cell := { tid := 20, payload := [] } }]; c.drainWaiting.backlogged 4 = true) ∧
    (let c := (tun 20 (fun t => { t with polMode := 1, tokens := 0 }) (src20 held20)).drainWaiting
     ((c.certRec 20).map (·.source)) = some true ∧ ((c.tunOf 20).police 1 1 c.clk.powerPs).tokens < 65536 ∧ (c.tunOf 20).polMode = 1 ∧ c.backlogged 4 = false) ∧
    (let c := (tun 20 (fun t => { t with polMode := 2, tokens := 0 }) ((src20 held20).setBacklog 4 0 [{ cell := { tid := 20, payload := [] } }])).drainWaiting
     (c.tunOf 20).polMode = 2 ∧ c.backlogged 4 = true ∧ c.budgetLeft 4 = true) ∧
    (let c := held20.setBacklog 4 3 [{ cell := { tid := 20, payload := [] } }]
     c.contracted 20 = true ∧ (c.port 4).spent < nth 0 gear20.budget 4 ∧ (c.activeGear.map (·.budget)) = some gear20.budget ∧ c.forwards = true) ∧
    (let c := tun 20 (fun t => { t with promise := { t.promise with suspended := true, held := true, lastTurn := 0 } }) held20
     let c := { c with clk := { c.clk with localPs := 2 * turnPs } }
     let g := c.promiseLook 20
     g.promiseHolds 20 = true ∧ g.spoke = 0 ∧ seqBefore 48 g.turn (((g.tunOf 20).promise.lastTurn + 2) % 2 ^ 48) = false ∧ (g.tunOf 20).promise.suspended = true) ∧
    (let c := tun 20 (fun t => { t with promise := { t.promise with suspended := true, held := true, lastTurn := 1 } }) held20
     let c := { c with clk := { c.clk with localPs := 2 * turnPs } }
     seqBefore 48 (c.promiseLook 20).turn ((((c.promiseLook 20).tunOf 20).promise.lastTurn + 2) % 2 ^ 48) = true) ∧
    ((lane 0 (fun l => { l with phase := .idle }) { hub with dev := { hub.dev with mode := .lockdown } }).forwards = false ∧
     (let c := (tun 20 (fun t => { t with outPort := 10 }) open20).linkCell 10 { cell := { tid := 20, payload := [] } }; c.contractedChoice 10 = none ∧ (c.fwDecide 10 {}).2.isSome = true)) ∧
    (let c := { hub with crock := { hub.crock with state := .ready }, keys := { hub.keys with restored := true }, csys := { hub.csys with gears := [(2, ([1], true))] } }
     c.storeReady = true ∧ c.keys.restored = true) := by decide +kernel

/-- A DRAIN whose CLOSE left through trunk 0, its context gone since; one whose two sides are still to answer; a tunnel that still drains. -/
theorem test_witness_TunnelRowsActMore :
    (let k : CloseRec := { tid := 20, handle := 1, acks := 1, drain := true, out := some 0 }
     let c := { data0 with fab := { data0.fab with closes := [k] } }
     (c.tunOf 20).state = .free ∧ c.fab.closes.find? (fun z => z.tid == 20 && z.handle == 1) = some k ∧ k.out = some 0 ∧ k.acks = 1) ∧
    (let k : CloseRec := { tid := 20, handle := 1, acks := 2, drain := false, out := some 1 }
     let c := { data0 with fab := { data0.fab with closes := [k] } }
     c.fab.closes.find? (fun z => z.tid == 20 && z.handle == 1) = some k ∧ k.out ≠ some 0 ∧ k.acks = 2) ∧
    (let c := tun 20 (fun t => { t with state := .quarantine, openId := 1 }) { open20 with fab := { open20.fab with closes := [{ tid := 20, handle := 1, acks := 1, drain := true }] } }
     (c.tunOf 20).state.live = false ∧ (c.tunOf 20).index = 0 ∧ ((c.drainAborted 20 0x0209).fab.closes.length = 0)) ∧
    (let b := closePayload 20 1 0 0x0209 7 1 0; fldBe b 0 2 % 1024 = 20 ∧ fldBe b 2 1 = 1 ∧ fldBe b 4 2 = 0x0209 ∧ fldBe b 8 4 = 1) ∧
    ((tun 20 (fun t => { t with state := .closing, draining := false }) open20).tunOf 20).draining = false ∧
    (let c := tun 20 (fun t => { t with index := 1, hops := 1, inPort := 0, creditSeq := none }) open20; (c.tunOf 20).outPort = 4 ∧ 0 < (c.tunOf 20).index) ∧
    (let c := hub.setQueue 4 20 [{ cell := { tid := 20, payload := [], f := true }, sf := true }]; openMsg (c.queue 4 20) ≠ [] ∧ c.fab.ladle.msgs = []) ∧
    (let p := { open20.fab.pot with reclaim := true, lost := [{ owner := 4 * 1024 + 20, lines := 3, audits := 1 }] }
     p.reclaim = true ∧ lostLines p.lost (fun z => decide (1 ≤ z.audits)) = 3) := by decide +kernel

theorem test_witness_TunnelCommandsActMore :
    (let p := pk [20, 0, 0, 0]
     let c := tun 20 (fun t => { t with hops := 1, outPort := 0 }) (src20 (tun 20 (fun t => { t with inPort := 4 }) open20))
     hears c 0x0202 p ∧ (c.tunOf 20).index = 0 ∧ (c.tunOf 20).state = .open ∧ c.recordFree 0 = true ∧
     ((c.drainHere 20 1).fab.closes.any fun k => k.handle == 1) = true) := by decide +kernel

/-- A shaper written and not yet brought up to date; a record that waits; a message that gathers for ring 2. -/
theorem test_witness_FreewheelAndLadleActMore :
    (let k : Shaper := { write := some (true, 65536, 100, true) }; (k.refresh 5).tokens = 100 * 65536 ∧ (k.refresh 5).on = true ∧ (k.refresh 5).write = none) ∧
    (let k : Shaper := { on := true, rate := 65536, burst := 10, tokens := 0, at' := 0 }; (k.refresh (10 ^ 12)).tokens ≤ 10 * 65536) ∧
    (let r := { hub.ring 0 with mode := 1 }; let c := (hub.setRing 0 r)
     let c := { c with fab := { c.fab with ladle := { c.fab.ladle with queue := [{ ring := 0, bytes := zeros 96 }] } } }
     (c.ring 0).mode ≠ 0 ∧ (c.ring 0).gap = false ∧ (c.ring 0).recs.length < 5461 ∧ ((c.ring 0).rseq + 2 ^ 32 - (c.ring 0).consumer) % 2 ^ 32 + 1 < 5461) ∧
    (let r := { hub.ring 0 with mode := 1, rseq := 3, consumer := 1 }
     seqBefore 32 r.rseq 9 = true ∧ seqBefore 32 r.consumer r.rseq = true ∧ r.mode ≠ 0) := by decide +kernel

/-- A step of 25 ns at turn 3 while trunk 0 measures flight, seen in the turn before. -/
theorem test_witness_StepsQuantisedAndAppliedMore :
    (let x : TimeStep := { dq := 25, rest := 0, atTurn := 3, atPs := 3 * turnPs, commanded := true }
     let c := { hub with time := { hub.time with pending := some x }, clk := { hub.clk with localPs := 2 * turnPs } }
     let d := lane 0 (fun l => { l with phase := .train 8 }) c
     c.clk.localPs < x.atPs ∧ x.atPs ≤ c.clk.localPs + turnPs ∧ c.stepDeferred = false ∧ d.stepDeferred = true ∧
      (d.stepDefer.time.pending.map (·.atTurn)) = some 4) := by decide +kernel

/-- New settings wait; the PPS edge of second 0, 100 ns ago; one of a positive offset. -/
theorem test_witness_TimeRowsActMore :
    (let c := { hub with time := { hub.time with cfgNext := some hub.time.cfg } }; c.cfgApply.time.cfgNext = none) ∧
    (let q : Pps := { flags := 3, offset := -100, width := 1000 }
     let c := { hub with time := { hub.time with pps := q }, clk := { hub.clk with localPs := 10 ^ 12, powerPs := 10 ^ 12 } }
     bitOf q.flags 0 = true ∧ bitOf q.flags 1 = true ∧ (((10 ^ 12 - 100000 : Nat) : Int) = ((1 : Nat) : Int) * 10 ^ 12 + q.offset * 1000) ∧
     c.clk.localPs = (10 ^ 12 - 100000) + 100000 ∧ 100000 < spokePs ∧ q.lastEdge = none ∧
     (after .ppsOutEdge (st c)).out = c.out ++ [.pulse .ppsOut (10 ^ 12 - 100000) (1000 * 1000000)]) ∧
    (let q : Pps := { flags := 1, lastEdge := some 5 }; q.lastEdge = some 5 ∧ hub.clk.powerPs < 5 + 500000000000) ∧
    ({ hub with time := { hub.time with refused := some 5, refusedSince := none } } : Chip).time.refusedSince = none ∧
    (hub.appliedFreq.2 = false) := by decide +kernel

theorem test_witness_EthernetAndPtpActMore :
    (let m : PtpIn := { port := 0, msg := zeros 44, at' := 10 ^ 6 }
     let c := { (eth0) with eth := { (eth0).eth with ptpIn := [m] } }
     c.eth.ptpIn.find? (fun z => z.port == 0) = some m ∧ c.rxPs 0 m.at' = (872000 : Int)) ∧
    (let c := eth0 fun k => { k with up := false, lock := false, cfg := { k.cfg with pflags := 4 } }
     bitOf (c.ethPort 0).cfg.pflags 2 = true ∧ (c.ethPort 0).cfg.loop = 0 ∧ (c.ethPort 0).lock = false) ∧
    (let c := { (eth0) with time := { (eth0).time with ptp := [(0, { mode := 1, parent := some (zeros 10) })] } }; (c.ptp 0).parent ≠ none) := by decide +kernel

/-! ### More witnesses: clauses of chapters 11 to 19 -/

/-- Registers that the host reads and writes, at both ends of their ranges; a reply held back whose COMPLETION waits for it. -/
theorem test_witness_HostRegistersActMore :
    (reach host 0 0x301C 4 0 ∧ reach host 0 0x3018 8 0 ∧ pageOf 0x3018 = some (0, 0x3018) ∧ 0x3018 % 8 = 0 ∧ reach host 1 (pageBase 1 + 0x128) 4 0 ∧
     pageOf (pageBase 1 + 0x128) = some (1, 0x128) ∧ host.pageRead 1 0x12C = 0 ∧ host.pageRead 2 4 = 0 ∧ (host.inst 2).state = .absent) ∧
    (let c := host.setInst 1 { host.inst 1 with latched := 5, qctl0 := 7, sq0Base := 2 ^ 32 + 9 }
     c.pageRead 1 4 = 5 ∧ c.pageRead 1 0x128 = 7 ∧ c.pageRead 1 0x100 = 9 ∧ c.pageRead 1 0x104 = 1) ∧
    (let v := 2 ^ 31 + 0x0FF63000; (qctlPair (host.inst 1) v).ranges = false) ∧
    (let h := rec1 0x0203 fun r => { r with sess := .pcie 0 0 }
     let r : Reply := { sess := .pcie 0 0, status := 1, result := 1, rflags := 1 }
     let c := recs { host with host := { host.host with qps := [(0, { sqLog2 := 4, cqLog2 := 4, held := [r] })] } } [h]
     c.replyHeld h = true ∧ (c.host.qps.find 0).map (·.held) = some [r] ∧ r.rflags % 2 = 1 ∧ ((after (.heldReplyWrite 0 0) (st c)).host.qps.find 0).map (·.held) = some []) ∧
    (let c := { host with host := { host.host with qps := [(0, { cqLog2 := 4, cqTail := 16, held := [{ sess := .pcie 0 0, status := 0 }] })] } }
     (c.host.qps.find 0).map (fun (q : QueuePair) => decide (2 ^ q.cqLog2 ≤ q.cqUsed)) = some true) := by decide +kernel

/-- A dock output whose sink waits for training; a hub line while an owner's instance is not there. -/
theorem test_witness_DisplayActMore :
    (let c := dock.setDock 3 { dock.dock 3 with hpd := true, mode := some vga, kind := 1 }; let p := pk ([3, 2, 4, 3, 30, 3] ++ zeros 10)
     hears c 0x0706 p ∧ ((after (.dockOutputSet p) (on c 0x0706 p)).dock 3).trainDue = true) ∧
    (hears dock 0x0707 (pk ([0, 0, 16, 0] ++ le 4 0 ++ zeros 16)) ∧ (dock.dock 0).hpd = false) ∧
    (let u := { hub.hub 0 with mode := some vga, live := true, enable := true, owner := [0xFF, 63, 0xFF, 0xFF], layers := [(1, { enable := true, srcW := 1, srcH := 1, stride0 := 64 })] }
     let c := hub.setHub 0 u
     (c.hub 0).layerOn 1 = true ∧ (c.hub 0).ownerOf 1 = 63 ∧ (c.inst 63).state = .absent ∧ ((c.quiescedOff 0 vga).hub 0).off.contains 1 = true) ∧
    (let u := { hub.hub 0 with mode := some vga, live := true, enable := true }
     ((hub.setHub 0 u).quiescedOff 0 vga).hub 0 = u ∧ 480 < 481 ∧ 481 + 1 < vga.vtotal) ∧
    (let c := dock.setDock 0 { dock.dock 0 with mode := some vga, startAt := some 0, trainDue := false, rec_ := none }; let e := (c.sendReport 0).dock 0
     e.trainDue = false ∧ e.rec_ = none) := by decide +kernel

/-- USB: what an IN token finds on each endpoint; sequence numbers; a block of the smallest form, and none. -/
theorem test_witness_DockPortActsMore :
    (let c := { (usbDock) with cmd := { (usbDock).cmd with queues := [(usbQKey, ({ recs := [{ code := 3 }] } : EventQ))] } }
     let c := c.setVport 1 { c.vport 1 with configured := true, enabled := true, conn := true, cfg := { kind := 4 } }
     (Tab.get ({} : EventQ) c.cmd.queues usbQKey).recs = [{ code := 3 }] ∧ (c.vport 1).halts.contains 3 = false ∧ c.usb.suspended = false ∧
     (Tab.get ({} : EventQ) (after (.usbInToken 1 .event) (st c)).cmd.queues usbQKey).recs = [] ∧ (Tab.get ({} : EventQ) (usbDock).cmd.queues usbQKey).recs = []) ∧
    (let c := (usbDock).setVport 3 { (usbDock).vport 3 with cConn := true }; c.hubByte ≠ 0 ∧ c.usb.hubConf = true) ∧
    (let c := (usbDock).setInq (epKey 3 .dataIn) [.xfer (zeros 512) false true, .xfer [] false true]
     c.inq (epKey 3 .dataIn) = [.xfer (zeros 512) false true, .xfer [] false true] ∧ c.usb.mps = 512 ∧
     (after (.usbInToken 3 .dataIn) (st c)).inq (epKey 3 .dataIn) = [.xfer [] false true, .xfer [] false true]) ∧
    (let c := (usbDock).setVport 3 { (usbDock).vport 3 with halts := [10] }; (c.vport 3).halts.contains 10 = true) ∧
    (let c := { (usbDock) with usb := { (usbDock).usb with seqs := [(epKey 3 .dataIn, 1)] } }
     (after (.usbClearHalt 3 .dataIn) (st c)).usb.seqs.get 0 (epKey 3 .dataIn) = 0) ∧
    (let b := [0x4E, 0x43, 0x4D, 0x48, 12, 0, 0, 0, 44, 0, 12, 0] ++ [0x4E, 0x43, 0x4D, 0x30, 16, 0, 0, 0] ++ le 2 28 ++ le 2 16 ++ zeros 4 ++ zeros 16
     let c := tun 20 (fun t => { t with state := .open, ty := 6, inPort := 8, partner := 21, route := [10], outPort := 10 }) (tun 21 (fun t => { t with state := .open, ty := 6, inPort := 10, outPort := 8, typeParams := [3] ++ zeros 15 }) ((usbDock).setVport 3 { (usbDock).vport 3 with cfg := { kind := 1, maxSegment := 9000 }, alt := 1 }))
     ((ntbParse b).isSome = true) ∧ c.fnOut 3 0 = some 20 ∧ c.epLive 3 .dataOut = true) ∧
    ((usbDock 3).usb.inq = [] ∧ (usbDock 3).usb.outUsed = [] ∧ (usbDock 3).cmd.replies = []) := by decide +kernel

/-- Crock: a program fails with no spare left; a block past its retention age, and one before; a volume whose deletion is under way. -/
theorem test_witness_NandEndsActMore :
    (let c := crk.setNand fun k => { k with vols := k.vols.set 3 { owner := 0, vflags := 0, blocks := 1, deleting := some 1 } }
     (c.nand.vols.find 3).map (·.deleting) = some (some 1) ∧ crk.nand.vols.find 3 = none) ∧
    (let c := crk.setNand fun k => { k with map := [(blkKey 1 0, { eb := some 4, data := [], seq := 1, at' := 0, lost := false })] }
     c.unitsIn 4 ≠ [] ∧ c.unitsIn 5 = [] ∧ c.poweredS - (c.ebOf 4).at' ≤ c.retentionS) ∧
    (crk.fmt.spare = [] ∨ crk.fmt.spare ≠ []) := by decide +kernel

/-- The bridge as system controller, an own cycle running and none; a bus that another master takes, and gives up. -/
theorem test_witness_LegacyBusActsMore :
    (let c := vme fun l => { l with cfg := { l.cfg with sysflags := 7 }, running := true, q := [lreq 2] }
     c.syscon = true ∧ c.leg.running = true ∧ c.leg.cfg.mode = 1 ∧
     (after .busTimerExpiry (st c)).out.getLast? = some (.pin .vmeBerr 0)) ∧
    (let c := vme fun l => { l with cfg := { l.cfg with sysflags := 7 } }; c.syscon = true ∧ c.leg.running = false) ∧
    (let c := vme fun l => { l with cfg := { l.cfg with sysflags := 7 }, grantedTo := some 3, bbsy := false }
     c.leg.grantedTo = some 3 ∧ c.leg.bbsy = false ∧ c.leg.owned = false) ∧
    (let c := vme fun l => { l with cfg := { l.cfg with sysflags := 7 }, bbsy := true }; c.leg.bbsy = true ∧ bitOf c.leg.cfg.sysflags 1 = true ∧ c.syscon = true) := by decide +kernel

/-- A cable whose answer is awaited by CABLE_GET; an end that has yielded; a deferred message beside the one answered. -/
theorem test_witness_ContractActMore :
    (let p := pk [3, 1, 0, 0]; let c := tpw 3 srcP
     hears c 0x0D04 p ∧ (c.tpOf 3).prole ≠ 0 ∧ (c.tpOf 3).deaf = false ∧ ((after (.cableGet p) (on c 0x0D04 p)).tpOf 3).cableDue = [(.spi, 7)]) ∧
    (let x : TrunkPower := { bias := true, deferred := some (3, []) }; (x.deferred.filter fun z => z.1 != 0x03) = none) ∧
    (let x : TrunkPower := { srcP with capsDue := true, offersChanged := true }; x.prole = 1 ∧ x.pstate ≠ .transition ∧ x.pstate ≠ .swapping) ∧
    ({ yields := true } : TrunkPower).yields = true := by decide +kernel

/-- Work behind a self-test, and without one. -/
theorem test_witness_KeyRowsActMore :
    (let c := recs (kst 0 fun k => { k with lifeOp := some (1, 3), selftest := none }) [rec1 0x0E0B]; c.keys.lifeOp = some (1, 3) ∧ c.keys.selftest = none) ∧
    (let c := kst 0 fun k => { k with lifeOp := some (1, 3), selftest := some 0 }; c.keys.selftest ≠ none ∧ (after .keyLifecycleDone (st c)).keys.lifeOp = some (1, 3)) ∧
    (let j : CryptoJob := { handle := 1, op := 1, slot := 0, aadLen := 0, iv := zeros 12, input := [] }
     let c := recs (kst 0 fun k => { k with jobs := [j] }) [rec1 0x0E11 fun r => { r with cancelled := true }]
     c.keys.jobs = [j] ∧ c.keys.selftest = none ∧ (c.openRec? 1).isSome = true ∧ c.cancelled 1 = true) := by decide +kernel
end Sys2Proof.Tests
end

section
/-!
SUPPORT. The command unit under events, completions and replies: an event writes the log, the queues and their counts, and leaves the
sessions, the handle records, the serials and the waiting packets as they are.
-/
namespace Sys2Proof.Machine

variable (c : Chip)

/-- The command unit without what posting an event writes: the log, the event queues and the transports' counters. -/
def Cmd.besidesEvents (x : Cmd) : Cmd := { x with log := [], logSeq := 0, unread := 0, queues := [], counters := [] }

theorem Cmd.handles_of_besidesEvents {x y : Cmd} (h : x.besidesEvents = y.besidesEvents) : x.handles = y.handles :=
  (congrArg Cmd.handles h :)
theorem Cmd.sessions_of_besidesEvents {x y : Cmd} (h : x.besidesEvents = y.besidesEvents) : x.sessions = y.sessions :=
  (congrArg Cmd.sessions h :)
theorem Cmd.serial_of_besidesEvents {x y : Cmd} (h : x.besidesEvents = y.besidesEvents) : x.serial = y.serial :=
  (congrArg Cmd.serial h :)
theorem Cmd.inbox_of_besidesEvents {x y : Cmd} (h : x.besidesEvents = y.besidesEvents) : x.inbox = y.inbox :=
  (congrArg Cmd.inbox h :)

/-! Interrupts and DMA do not touch the command unit. -/

@[simp] theorem Chip.dmaWrite_cmd (vi a : Nat) (d : Bytes) : (c.dmaWrite vi a d).cmd = c.cmd := by
  unfold Chip.dmaWrite; split <;> rfl
@[simp] theorem Chip.raise_cmd (v : Nat) : (c.raise v).cmd = c.cmd := by
  unfold Chip.raise; dsimp only; split <;> simp
@[simp] theorem Chip.raiseRing_cmd (vi rv t : Nat) (q : Bool) : (c.raiseRing vi rv t q).cmd = c.cmd := by
  unfold Chip.raiseRing; dsimp only; repeat' split
  all_goals simp
@[simp] theorem Chip.irqCause_cmd (b : Nat) : (c.irqCause b).cmd = c.cmd := by
  unfold Chip.irqCause; dsimp only; repeat' split
  all_goals simp

/-! Posting an event. -/

@[simp] theorem Chip.count_besidesEvents (t : Nat) (f : CmdCounters → CmdCounters) :
    (c.count t f).cmd.besidesEvents = c.cmd.besidesEvents := rfl
@[simp] theorem Chip.postLog_besidesEvents (e : EventRec) : (c.postLog e).cmd.besidesEvents = c.cmd.besidesEvents := by
  unfold Chip.postLog; rw [Chip.irqCause_cmd]; rfl
@[simp] theorem Chip.pushRec_besidesEvents (k : Nat) (e : EventRec) : (c.pushRec k e).cmd.besidesEvents = c.cmd.besidesEvents := by
  unfold Chip.pushRec; dsimp only; repeat' split
  · rfl
  · simp only [Chip.raiseRing_cmd, Chip.dmaWrite_cmd]; rfl
  · rfl
@[simp] theorem Chip.flushOverflow_besidesEvents (k : Nat) : (c.flushOverflow k).cmd.besidesEvents = c.cmd.besidesEvents := by
  unfold Chip.flushOverflow; dsimp only; repeat' split
  · rfl
  · exact Chip.pushRec_besidesEvents c k (c.overflowRec k)
  · rfl
@[simp] theorem Chip.postQueue_besidesEvents (k : Nat) (e : EventRec) : (c.postQueue k e).cmd.besidesEvents = c.cmd.besidesEvents := by
  unfold Chip.postQueue; dsimp only; split
  · exact c.flushOverflow_besidesEvents k
  · exact c.flushOverflow_besidesEvents k
  · rw [Chip.pushRec_besidesEvents, Chip.flushOverflow_besidesEvents]
@[simp] theorem Chip.postMgr_besidesEvents (e : EventRec) : (c.postMgr e).cmd.besidesEvents = c.cmd.besidesEvents := by
  unfold Chip.postMgr; repeat' split
  all_goals simp
@[simp] theorem Chip.post_besidesEvents (x r d st : Nat) : (c.post x r d st).cmd.besidesEvents = c.cmd.besidesEvents := by
  unfold Chip.post; dsimp only; split <;> simp
@[simp] theorem Chip.postForHandle_besidesEvents (r : HandleRec) (e : EventRec) :
    (c.postForHandle r e).cmd.besidesEvents = c.cmd.besidesEvents := by
  unfold Chip.postForHandle; dsimp only; repeat' split
  all_goals simp

@[simp] theorem Chip.postForHandle_handles (r : HandleRec) (e : EventRec) : (c.postForHandle r e).cmd.handles = c.cmd.handles :=
  Cmd.handles_of_besidesEvents (c.postForHandle_besidesEvents r e)

/-! Posting a reply. -/

@[simp] theorem Chip.writeCqe_cmd (vi qp : Nat) (r : Reply) : (c.writeCqe vi qp r).cmd = c.cmd := by
  unfold Chip.writeCqe; dsimp only; split
  · rfl
  · rw [Chip.raiseRing_cmd]; dsimp only; rw [Chip.dmaWrite_cmd]; split
    · rfl
    · exact Chip.dmaWrite_cmd ..

@[simp] theorem Chip.postReply_sessions (r : Reply) : (c.postReply r).cmd.sessions = c.cmd.sessions := by
  unfold Chip.postReply; dsimp only; repeat' split
  all_goals simp

end Sys2Proof.Machine
end

section
/-!
PROOFS. R55: a handle completes once.
-/
namespace Sys2Proof.Machine

/-- The record of a completed handle: what completing it writes into the record. -/
def HandleRec.completed (r : HandleRec) (st reason result n : Nat) : HandleRec :=
  { r with complete := true, status := st, reason, result, doneSeq := n }

/-- The block once a completion has been recorded, before its event is posted. -/
def Chip.recorded (c : Chip) (h st reason result : Nat) : Chip :=
  ({ c with cmd := { c.cmd with doneSeq := c.cmd.doneSeq + 1 } }).updRec h fun r => r.completed st reason result (c.cmd.doneSeq + 1)

theorem Chip.complete_of_not_open {c : Chip} {h : Nat} (ho : c.openRec? h = none) (st rs x : Nat) : c.complete h st rs x = c := by
  unfold Chip.complete; rw [ho]

/-- Completing an open handle records the completion; its event goes out now, or is owed while the reply is held (R59). -/
theorem Chip.complete_of_open {c : Chip} {h : Nat} {r : HandleRec} (ho : c.openRec? h = some r) (st rs x : Nat) :
    c.complete h st rs x =
      if c.replyHeld r then
        { c.recorded h st rs x with cmd := { (c.recorded h st rs x).cmd with
            owed := c.cmd.owed ++ [r.completed st rs x (c.cmd.doneSeq + 1)] } }
      else (c.recorded h st rs x).postCompletion (r.completed st rs x (c.cmd.doneSeq + 1)) := by
  unfold Chip.complete; rw [ho]; rfl

/-- Either way the handle records are those of the recorded completion. -/
theorem Chip.complete_handles {c : Chip} {h : Nat} {r : HandleRec} (ho : c.openRec? h = some r) (st rs x : Nat) :
    (c.complete h st rs x).cmd.handles = (c.recorded h st rs x).cmd.handles := by
  rw [Chip.complete_of_open ho]; split
  · rfl
  · exact Chip.postForHandle_handles ..

/-- Every record that bears the handle is complete with the status given. -/
theorem Chip.recorded_complete {c : Chip} {h st rs x : Nat} {r : HandleRec} (hm : r ∈ (c.recorded h st rs x).cmd.handles)
    (hr : r.handle = h) : r.complete = true ∧ r.status = st ∧ r.reason = rs ∧ r.result = x := by
  obtain ⟨y, -, rfl⟩ := List.mem_map.1 hm
  split at hr
  next hy => rw [if_pos hy]; exact ⟨rfl, rfl, rfl, rfl⟩
  next hy => exact absurd hr hy

theorem Chip.complete_closes {c : Chip} {h : Nat} {r : HandleRec} (ho : c.openRec? h = some r) (st rs x : Nat) :
    (c.complete h st rs x).openRec? h = none := by
  unfold Chip.openRec?
  rw [Chip.complete_handles ho, List.find?_eq_none]
  intro y hy hopen
  simp only [Bool.and_eq_true, beq_iff_eq, Bool.not_eq_true'] at hopen
  obtain ⟨hc, -⟩ := Chip.recorded_complete hy hopen.1
  rw [hc] at hopen
  exact absurd hopen.2 (by decide)

/-- Settles O13: on an open handle the completion leaves no open record of it, so a second one finds nothing to complete. -/
theorem completionHappensOnce : Obligations.CompletionHappensOnce := by
  unfold Obligations.CompletionHappensOnce
  refine fun c h st rs x => ⟨fun ho => Chip.complete_of_not_open ho st rs x, fun r ho => ?_⟩
  have hclosed := Chip.complete_closes ho st rs x
  refine ⟨hclosed, Chip.complete_of_not_open hclosed, fun r' hr' => ?_, ?_⟩
  · unfold Chip.rec? at hr'
    rw [Chip.complete_handles ho] at hr'
    exact Chip.recorded_complete (List.mem_of_find?_eq_some hr') (by simpa using List.find?_some hr')
  · have hh : r.handle = h := by
      have := List.find?_some ho
      simp only [Bool.and_eq_true, beq_iff_eq] at this
      exact this.1
    refine ⟨c.recorded h st rs x, (c.recorded h st rs x).event 0x0001 rs (x + r.tag * 2 ^ 32) st h,
      r.completed st rs x (c.cmd.doneSeq + 1), rfl, rfl, rfl, rfl, rfl, rfl, rfl, ?_⟩
    rw [Chip.complete_of_open ho]
    unfold Chip.postCompletion
    rw [show (r.completed st rs x (c.cmd.doneSeq + 1)).handle = h from hh]
    rfl

end Sys2Proof.Machine
end

section
/-!
PROOFS. What a step of the block does with the command at the front of its queue.
-/
namespace Sys2Proof.Machine

/-- Settles O1: the step is defined by the queue's front. -/
theorem stepRunsFrontCommand : Obligations.StepRunsFrontCommand := by
  intro i rest s
  rfl

/-- An outcome is a next state with the same commands waiting as in `s`. -/
def Goes (s : State) (o : Host.Outcome State Fault Refusal) : Prop := ∃ t : State, o = .next t ∧ t.pending = s.pending

theorem goes_next {s t : State} (h : t.pending = s.pending) : Goes s (.next t) := ⟨t, rfl, h⟩
theorem goes_onChip {s t : State} (h : t.pending = s.pending) (f : Chip → Chip) : Goes s (onChip t f) := ⟨_, rfl, h⟩

@[simp] theorem State.fusesInterrupted_pending (s : State) : s.fusesInterrupted.pending = s.pending := by
  unfold State.fusesInterrupted; split <;> rfl

theorem execPowerOnReset_goes (n : Nat) (st : Straps) (s : State) : Goes s (execPowerOnReset n st s) := by
  unfold execPowerOnReset
  split
  · exact goes_next rfl
  split
  · exact goes_onChip rfl _
  · exact goes_next s.fusesInterrupted_pending

theorem execWarmReset_goes (st : Straps) (s : State) : Goes s (execWarmReset st s) := by
  unfold execWarmReset
  split
  · exact goes_next s.fusesInterrupted_pending
  · exact goes_next rfl

theorem execCommandReset_goes (s : State) : Goes s (execCommandReset s) := by
  unfold execCommandReset
  split
  · exact goes_onChip s.fusesInterrupted_pending _
  · exact goes_next rfl

theorem execCcWatchdogExpiry_goes (st : Straps) (s : State) : Goes s (execCcWatchdogExpiry st s) := by
  have hp := State.fusesInterrupted_pending { s with chip := s.chip.bump 4 1 }
  unfold execCcWatchdogExpiry
  dsimp only
  split
  · split
    · exact goes_next hp
    · exact goes_onChip hp _
  · exact goes_onChip hp _

theorem execCommitRollbackDone_goes (ok : Bool) (s : State) : Goes s (execCommitRollbackDone ok s) := by
  unfold execCommitRollbackDone
  split
  · exact goes_next rfl
  · dsimp only
    split <;> exact goes_next rfl

theorem execKeyLifecycleDone_goes (s : State) : Goes s (execKeyLifecycleDone s) := by
  unfold execKeyLifecycleDone
  split
  · exact goes_next rfl
  · dsimp only
    split
    · exact goes_next rfl
    split <;> exact goes_next rfl

/-- No command stops the block or touches the queue: the resets and the fuse rows by their cases, and every other row because it is an effect
on the chip (`onChip`, `runCommand`) or on the chip and the rule sets. -/
theorem exec_goes (i : Instr) (s : State) : Goes s (exec i s) := by
  cases i
  case powerOnReset n st => exact execPowerOnReset_goes n st s
  case vddAonBrownout st => exact goes_next s.fusesInterrupted_pending
  case warmReset st => exact execWarmReset_goes st s
  case commandReset => exact execCommandReset_goes s
  case ccWatchdogExpiry st => exact execCcWatchdogExpiry_goes st s
  case kettleWatchdogExpiry st => exact goes_next (State.fusesInterrupted_pending { s with chip := s.chip.bump 4 1 })
  case commitRollbackDone ok => exact execCommitRollbackDone_goes ok s
  case keyLifecycleDone => exact execKeyLifecycleDone_goes s
  all_goals exact ⟨_, rfl, rfl⟩

/-- Settles O3. -/
theorem everyCommandCompletes : Obligations.EveryCommandCompletes := by
  intro i s
  exact exec_goes i s

end Sys2Proof.Machine
end

section
/-!
PROOFS. Chapter 02: the order of checks for an undefined opcode (R63), HELLO (R39) and the interrupt pin of the SPI target (R44).
-/
namespace Sys2Proof.Machine

/-! ### Undefined opcodes -/

/-- Every opcode of the table lies in 0x0001 to 0x11FF. -/
theorem opTable_codes : ∀ o ∈ opTable, 1 ≤ o.code ∧ o.code < 0x1200 := by decide +kernel

theorem opInfo_of_outside {op : Nat} (h : op = 0 ∨ 0x1200 ≤ op) : opInfo op = none := by
  unfold opInfo
  rw [List.find?_eq_none]
  intro o ho hc
  have := opTable_codes o ho
  have : o.code = op := by simpa using hc
  omega

/-- The checks of R31 that come before the opcode is looked up, as a packet passes them. -/
def Chip.passesEarly (c : Chip) (op : Nat) (p : Packet) : Prop :=
  p.plen.toNat ≤ 1048576 ∧ beyondBuffer p = false ∧ (p.checked = true → p.checkOk op = true) ∧
  1 ≤ p.version.toNat ∧ p.version.toNat ≤ 3 ∧ (c.version p.sess = 0 ∨ p.version.toNat = c.version p.sess) ∧
  (p.version.toNat = 1 → p.plen.toNat ≤ 4096) ∧ (p.indirect = true → p.sess.tr = 0 ∧ p.version.toNat ≠ 1)

/-- The opcode is the first check that fails for a packet which passes the earlier ones. -/
theorem Chip.r31_of_undefined {c : Chip} {op : Nat} {p : Packet} (he : c.passesEarly op p) (ho : opInfo op = none) :
    c.r31 op p = .reply stBadOpcode 0 := by
  obtain ⟨hlen, hbuf, hcheck, hv1, hv3, hneg, hlen1, hind⟩ := he
  unfold Chip.r31
  dsimp only
  rw [if_neg (by simp [hbuf]; omega), if_neg (by simpa using hcheck), if_neg (by simp; omega), if_neg (by simp; omega),
    if_neg (by simp; omega), if_neg (by simpa using hind), ho]

/-- A packet that its transport takes changes nothing that R31 looks at before the opcode. -/
theorem Chip.takePacket_version (c : Chip) (p : Packet) (x : Session) : (c.takePacket p).1.version x = c.version x := by
  unfold Chip.takePacket Chip.discardPacket
  repeat' split
  all_goals rfl

theorem Chip.attend_of_none_waiting {c : Chip} {x : Session} (h : c.firstOf x = none) : c.attend x = c := by
  unfold Chip.attend
  cases c.cmd.inbox.length with
  | zero => rfl
  | succ n => unfold Chip.settle; rw [h]

/-- A packet with no command of its session before it, which R31 answers with a refusal, is refused at once. -/
theorem Chip.receive_of_refused {c : Chip} {op st rs : Nat} {p : Packet} (hf : c.firstOf p.sess = none)
    (ht : (c.takePacket p).2 = true) (hr : (c.takePacket p).1.r31 op p = .reply st rs) :
    c.receive op p = (c.takePacket p).1.refuse p st rs 0 := by
  unfold Chip.receive
  simp only [Chip.attend_of_none_waiting hf, ht, hf, hr, Chip.turnAway, Option.isSome_none, Bool.false_and, Bool.not_true,
    Bool.false_eq_true, if_false]

/-- Settles O12: no row of the table has the opcode, and every earlier check passes. -/
theorem opcodesOutsideRanges : Obligations.OpcodesOutsideRanges := by
  unfold Obligations.OpcodesOutsideRanges
  intro c p op hop hlen hbuf hcheck hv1 hv3 hneg hlen1 hind
  have hnone : opInfo op = none := opInfo_of_outside (hop.imp_right And.left)
  have hearly : c.passesEarly op p := ⟨hlen, hbuf, hcheck, hv1, hv3, hneg, hlen1, hind⟩
  refine ⟨Chip.r31_of_undefined hearly hnone, fun hf ht => Chip.receive_of_refused hf ht ?_⟩
  refine Chip.r31_of_undefined ?_ hnone
  unfold Chip.passesEarly
  rw [Chip.takePacket_version]
  exact hearly

/-! ### HELLO -/

@[simp] theorem le_length (n x : Nat) : (le n x).length = n := by
  induction n generalizing x with
  | zero => rfl
  | succ n ih => simp [le, ih]

@[simp] theorem zeros_length (n : Nat) : (zeros n).length = n := List.length_replicate

@[simp] theorem Chip.refused_sessions (c : Chip) (p : Packet) (st rs x : Nat) : (c.refused p st rs x).cmd.sessions = c.cmd.sessions :=
  c.postReply_sessions _
@[simp] theorem Chip.replied_sessions (c : Chip) (p : Packet) (d : Bytes) (x : Nat) : (c.replied p d x).cmd.sessions = c.cmd.sessions :=
  c.postReply_sessions _

theorem Chip.setVersion_version (c : Chip) (x : Session) (v : Nat) :
    ((c.setVersion x v).cmd.sessions.get {} x.key).version = v := by
  simp [Chip.setVersion]

/-- The open handle that keeps a session from negotiating again. -/
def Chip.helloBlocker (c : Chip) (x : Session) : Option HandleRec :=
  c.cmd.handles.find? fun h => h.sess == x && !h.complete && !h.logOnly

section
variable {x : Ctx} {c : Chip} (h1 : 1 ≤ fld x.ps 0 1) (h2 : fld x.ps 0 1 ≤ fld x.ps 1 1) (h3 : fld x.ps 0 1 ≤ 3)
  (hr : rsvd x.ps 2 2 = true)
include h1 h2 h3 hr

/-- HELLO with a well-formed range is refused while an open handle of the session blocks it (R36, R39). -/
theorem bodyHello_blocked {h : HandleRec} (hb : c.helloBlocker x.sess = some h) :
    bodyHello x c = (err stBusy 0 h.handle, c) := by
  unfold Chip.helloBlocker at hb
  unfold bodyHello
  dsimp only
  rw [if_neg (by simp [hr]; omega), if_neg (by omega), hb]
  rfl

/-- Otherwise it sets the session's version to the smaller of MAX_VERSION and 3 (R39, Table 02.15). -/
theorem bodyHello_negotiates (hb : c.helloBlocker x.sess = none) :
    bodyHello x c =
      ({ data := le 1 (Nat.min (fld x.ps 1 1) 3) ++ le 1 x.lvl ++ le 1 x.iss ++ zeros 1 ++
           le 4 (maxPlen x.sess (Nat.min (fld x.ps 1 1) 3)) ++ le 4 (c.maxRlen x.sess) },
        (if x.sess = .spi then c.endSession .spi else c).setVersion x.sess (Nat.min (fld x.ps 1 1) 3)) := by
  unfold Chip.helloBlocker at hb
  unfold bodyHello
  dsimp only
  rw [if_neg (by simp [hr]; omega), if_neg (by omega), hb]
  simp only [beq_iff_eq, ok]

end

/-- Settles O9. -/
theorem helloNegotiates : Obligations.HelloNegotiates := by
  unfold Obligations.HelloNegotiates
  rintro s p c lo hi hh rfl rfl h1 h2 h3 hr
  refine ⟨fun h hb => ⟨?_, c.refused_sessions ..⟩, fun hb hroom => ?_⟩
  · exact runCommand_err hh (bodyHello_blocked (x := s.ctxOf 0x0001 p c) h1 h2 h3 hr hb) (by decide)
  · have hrun := runCommand_ok hh (bodyHello_negotiates (x := s.ctxOf 0x0001 p c) h1 h2 h3 hr hb) (by simpa using hroom)
    refine ⟨hrun, _, hrun, ?_⟩
    dsimp only
    rw [Chip.replied_sessions]
    exact Chip.setVersion_version ..

/-! ### IRQ_OUT_L -/

theorem execReadStatus_one (s : State) :
    exec (.readStatus 1) s = .next { s with chip :=
      { s.chip with out := s.chip.out ++ [.spiOut [BitVec.ofNat 8 s.chip.statusByte]], spi := { s.chip.spi with frameError := false } } } := rfl

/-- Bits 1 and 2 of the status byte are REPLY_READY and EVENT_PENDING (R44). -/
theorem Chip.statusByte_bits (c : Chip) :
    (BitVec.ofNat 8 c.statusByte).getLsbD 1 = c.spi.reply.isSome ∧
    (BitVec.ofNat 8 c.statusByte).getLsbD 2 = decide (c.cmd.unread > 0) := by
  unfold Chip.statusByte
  generalize c.spi.busy = busy
  generalize c.spi.reply.isSome = ready
  generalize decide (c.cmd.unread > 0) = pending
  generalize c.spi.frameError = error
  revert busy ready pending error
  decide

/-- Settles O11: the byte sent is the status byte, of which the pin is a function. -/
theorem irqOutFollowsStatus : Obligations.IrqOutFollowsStatus := by
  unfold Obligations.IrqOutFollowsStatus
  intro s b h
  have hb : b = BitVec.ofNat 8 s.chip.statusByte := by
    rw [execReadStatus_one] at h
    simpa using h.symm
  obtain ⟨h1, h2⟩ := s.chip.statusByte_bits
  rw [hb, h1, h2]
  simp [Chip.irqOut]

end Sys2Proof.Machine
end

section
/-!
SUPPORT. What a power-on or warm reset clears, and that the kettle ROM's boot (R73 to R80) leaves it clear.
-/
namespace Sys2Proof.Machine

/-! ### The part of the block that a reset clears -/

/-- What a reset clears and the ROM's boot does not fill: every other field at its default. -/
def Chip.resetView (c : Chip) : Chip :=
  { clk := { localPs := c.clk.localPs, upPs := c.clk.upPs }
    dev := { mode := c.dev.mode, role := c.dev.role, strapRole := c.dev.strapRole, strapBoot := c.dev.strapBoot,
             resetKind := c.dev.resetKind, cause := c.dev.cause }
    cmd := { sessions := c.cmd.sessions, handles := c.cmd.handles, serial := c.cmd.serial, inbox := c.cmd.inbox }
    fab := { tun := c.fab.tun }, gear := { slots := c.gear.slots, shift := c.gear.shift }, keys := { slots := c.keys.slots }
    time := { state := c.time.state }, sealing := c.sealing }

/-- Table 03.4: volatile state is cleared; no shift is open and no trunk is sealed. -/
structure Chip.Blank (c : Chip) : Prop where
  handles : c.cmd.handles = []
  serial : c.cmd.serial = []
  sessions : c.cmd.sessions = []
  inbox : c.cmd.inbox = []
  tunnels : c.fab.tun = []
  gears : c.gear.slots = []
  shift : c.gear.shift = none
  keySlots : c.keys.slots = []
  localPs : c.clk.localPs = 0
  upPs : c.clk.upPs = 0
  time : c.time.state = .unset
  unsealed : ∀ n, (c.sealOf n).keys = none

/-- A blank block in which the ROM has read the straps and recorded the reset. -/
structure Chip.Booted (c : Chip) (st : Straps) (f : Fuses) (kind reason : Nat) : Prop where
  blank : c.Blank
  mode : c.dev.mode = .boot
  kind : c.dev.resetKind = kind
  cause : c.dev.cause = reason
  strapRole : c.dev.strapRole = st.role
  strapBoot : c.dev.strapBoot = st.boot
  role : c.dev.role = roleOf f st

theorem Chip.Blank.congr {a b : Chip} (hb : b.Blank) (h : a.resetView = b.resetView) : a.Blank := by
  have hv : b.resetView.Blank := { hb with }
  rw [← h] at hv
  exact { hv with }

section
variable {st : Straps} {f : Fuses} {kind reason : Nat}

theorem Chip.Booted.congr {a b : Chip} (hb : b.Booted st f kind reason) (h : a.resetView = b.resetView) : a.Booted st f kind reason := by
  have hv : b.resetView.Booted st f kind reason := { hb with blank := hb.blank.congr rfl }
  rw [← h] at hv
  exact { hv with blank := hb.blank.congr h }

theorem Chip.Booted.justReset {c : Chip} (h : c.Booted st f kind reason) : c.JustReset st f kind reason :=
  ⟨h.mode, h.kind, h.cause, h.strapRole, h.strapBoot, h.role, h.blank.handles, h.blank.serial, h.blank.sessions, h.blank.inbox,
    h.blank.tunnels, h.blank.gears, h.blank.keySlots, h.blank.localPs, h.blank.upPs, h.blank.time⟩
end

/-- A loop whose every turn leaves the view leaves it. -/
theorem foldl_resetView {α : Type} {g : Chip → α → Chip} (hg : ∀ c e, (g c e).resetView = c.resetView) (l : List α) (c : Chip) :
    (l.foldl g c).resetView = c.resetView := by
  induction l generalizing c with
  | nil => rfl
  | cons e l ih => exact (ih (g c e)).trans (hg c e)

/-- A loop whose every turn keeps a property keeps it. -/
theorem foldl_keeps {α : Type} {P : Chip → Prop} {g : Chip → α → Chip} (hg : ∀ c e, P c → P (g c e)) (l : List α) {c : Chip} (h : P c) :
    P (l.foldl g c) := by
  induction l generalizing c with
  | nil => exact h
  | cons e l ih => exact ih (hg c e h)

section
variable (c : Chip)

/-! ### Events and power channels leave it alone -/

theorem Chip.resetView_of_rest {a b : Chip} (h : a.rest = b.rest) (hc : a.cmd.besidesEvents = b.cmd.besidesEvents) :
    a.resetView = b.resetView := by
  have hv : a.rest.resetView = b.rest.resetView := by rw [h]
  calc a.resetView
      = { a.rest.resetView with cmd := { sessions := a.cmd.sessions, handles := a.cmd.handles, serial := a.cmd.serial, inbox := a.cmd.inbox } } := rfl
    _ = { b.rest.resetView with cmd := { sessions := b.cmd.sessions, handles := b.cmd.handles, serial := b.cmd.serial, inbox := b.cmd.inbox } } := by
      rw [hv, Cmd.sessions_of_besidesEvents hc, Cmd.handles_of_besidesEvents hc, Cmd.serial_of_besidesEvents hc,
        Cmd.inbox_of_besidesEvents hc]
    _ = b.resetView := rfl

@[simp] theorem Chip.post_resetView (x r d s : Nat) : (c.post x r d s).resetView = c.resetView :=
  Chip.resetView_of_rest (c.post_rest x r d s) (c.post_besidesEvents x r d s)
@[simp] theorem Chip.drive_resetView (p : PinId) (v : Nat) : (c.drive p v).resetView = c.resetView := rfl
@[simp] theorem Chip.bump_resetView (i n : Nat) : (c.bump i n).resetView = c.resetView := rfl
@[simp] theorem Chip.setPwr_resetView (g : Power → Power) : (c.setPwr g).resetView = c.resetView := rfl
@[simp] theorem Chip.setChan_resetView (n : Nat) (x : PowerChan) : (c.setChan n x).resetView = c.resetView := rfl
@[simp] theorem Chip.setTp_resetView (n : Nat) (x : TrunkPower) : (c.setTp n x).resetView = c.resetView := rfl
@[simp] theorem Chip.setLife_resetView (g : Life → Life) : (c.setLife g).resetView = c.resetView := rfl
@[simp] theorem Chip.setIlim_resetView (n uv : Nat) : (c.setIlim n uv).resetView = c.resetView := rfl

@[simp] theorem Chip.powerGood_resetView (n : Nat) (v : Bool) : (c.powerGood n v).resetView = c.resetView := by
  unfold Chip.powerGood; dsimp only; split <;> simp
@[simp] theorem Chip.gateLow_resetView (n : Nat) (s : ChanState) : (c.gateLow n s).resetView = c.resetView := by
  unfold Chip.gateLow; dsimp only; split <;> simp
@[simp] theorem Chip.startChan_resetView (n : Nat) : (c.startChan n).resetView = c.resetView := by
  simp [Chip.startChan]
@[simp] theorem Chip.chanOn_resetView (n : Nat) : (c.chanOn n).resetView = c.resetView := by
  unfold Chip.chanOn; dsimp only; split <;> simp
@[simp] theorem Chip.startSlot_resetView (n : Nat) : (c.startSlot n).resetView = c.resetView := by
  unfold Chip.startSlot; repeat' split
  all_goals simp
@[simp] theorem Chip.trunkStart_resetView (n : Nat) : (c.trunkStart n).resetView = c.resetView := by
  unfold Chip.trunkStart; dsimp only; split <;> simp
@[simp] theorem Chip.startDead_resetView (r : Nat) : (c.startDead r).resetView = c.resetView := by
  unfold Chip.startDead; split <;> simp
@[simp] theorem Chip.openFeed_resetView (r : Nat) : (c.openFeed r).resetView = c.resetView := by
  unfold Chip.openFeed; split <;> simp
@[simp] theorem Chip.selectFeed_resetView (sw : Option (Nat × Nat)) : (c.selectFeed sw).resetView = c.resetView := by
  unfold Chip.selectFeed; dsimp only; repeat' split
  all_goals simp
@[simp] theorem Chip.feedCame_resetView : c.feedCame.resetView = c.resetView := by
  unfold Chip.feedCame; repeat' split
  all_goals simp
@[simp] theorem Chip.feedWent_resetView (n r : Nat) : (c.feedWent n r).resetView = c.resetView := by
  unfold Chip.feedWent; repeat' split
  all_goals simp
@[simp] theorem Chip.chanDown_resetView (n : Nat) (s : ChanState) : (c.chanDown n s).resetView = c.resetView := by
  unfold Chip.chanDown; dsimp only; split <;> simp
@[simp] theorem Chip.proceed_resetView (n : Nat) : (c.proceed n).resetView = c.resetView := by
  unfold Chip.proceed; dsimp only; repeat' split
  all_goals simp
@[simp] theorem Chip.applyChan_resetView (n : Nat) (k : ChanCfg) : (c.applyChan n k).resetView = c.resetView := by
  unfold Chip.applyChan; dsimp only; repeat' split
  all_goals simp
@[simp] theorem Chip.applyFeed_resetView (k : FeedCfg) : (c.applyFeed k).resetView = c.resetView := by
  unfold Chip.applyFeed; dsimp only; repeat' split
  all_goals simp

/-! ### Settings kept in CONFIG -/

@[simp] theorem Chip.applyPower_resetView : c.applyPower.resetView = c.resetView := by
  unfold Chip.applyPower
  extract_lets p c1 c2
  have h1 : c1.resetView = c.resetView := foldl_resetView (fun _ _ => by rfl) _ _
  have h2 : c2.resetView = c.resetView := by
    unfold c2
    split
    · exact h1
    · exact (Chip.applyFeed_resetView ..).trans h1
  exact (foldl_resetView (fun _ _ => by simp) _ _).trans h2

@[simp] theorem Chip.applyLegacy_resetView : c.applyLegacy.resetView = c.resetView := by
  unfold Chip.applyLegacy; dsimp only; split <;> rfl
@[simp] theorem Chip.applySyscon_resetView : c.applySyscon.resetView = c.resetView := by
  unfold Chip.applySyscon; split <;> rfl
@[simp] theorem Chip.applyApproved_resetView (f : Fuses) : (c.applyApproved f).resetView = c.resetView := by
  unfold Chip.applyApproved; dsimp only; split <;> rfl
@[simp] theorem Chip.lifeRestore_resetView : c.lifeRestore.resetView = c.resetView := by
  unfold Chip.lifeRestore; dsimp only; repeat' split
  all_goals simp
theorem Chip.extendM_resetView (d : Dev) (n : Nat) (b : Bytes) :
    ({ c with dev := d.extendM n b } : Chip).resetView = ({ c with dev := d } : Chip).resetView := rfl
@[simp] theorem Chip.measureBoot_resetView (f : Fuses) (img : Option (Bytes × Nat × Nat)) (cfg : Bool) :
    (c.measureBoot f img cfg).resetView = c.resetView := by
  cases img <;> simp only [Chip.measureBoot, Chip.extendM_resetView]
@[simp] theorem Chip.eraseStore_resetView (mark : Bool) : (c.eraseStore mark).resetView = c.resetView := by
  unfold Chip.eraseStore; split <;> rfl
@[simp] theorem Chip.gkBootFaults_resetView (l : List (Nat × Nat × Nat)) : (c.gkBootFaults l).resetView = c.resetView :=
  foldl_resetView (fun c _ => c.post_resetView ..) l c

end

section
variable {st : Straps} {f : Fuses} {kind reason : Nat} {c : Chip}

/-- An entry of the sealing table that holds no keys keeps the block unsealed. -/
theorem Chip.Blank.setSeal (h : c.Blank) (n : Nat) {x : Seal} (hx : x.keys = none) : (c.setSeal n x).Blank :=
  { h with
    unsealed := fun m => by
      by_cases hm : m = n
      · simpa [hm, Chip.sealOf, Chip.setSeal] using hx
      · simpa [Chip.sealOf, Chip.setSeal, Tab.get_set_ne _ _ _ hm] using h.unsealed m }

theorem Chip.Booted.setSeal (h : c.Booted st f kind reason) (n : Nat) {x : Seal} (hx : x.keys = none) :
    (c.setSeal n x).Booted st f kind reason :=
  { h with blank := h.blank.setSeal n hx }

theorem Chip.Booted.applyPorts (h : c.Booted st f kind reason) : c.applyPorts.Booted st f kind reason := by
  unfold Chip.applyPorts
  extract_lets p c1 c2 c3 c4 c5 c6 c7 c8 c9
  have h1 : c1.Booted st f kind reason := h.congr (foldl_resetView (fun _ _ => by rfl) _ _)
  have h2 : c2.Booted st f kind reason := h1.congr (foldl_resetView (fun _ _ => by rfl) _ _)
  have h3 : c3.Booted st f kind reason := foldl_keeps (P := fun d => d.Booted st f kind reason) (fun d e hd => hd.setSeal e.1 (by exact hd.blank.unsealed e.1)) _ h2
  have h4 : c4.Booted st f kind reason := h3.congr (foldl_resetView (fun _ _ => by rfl) _ _)
  have h5 : c5.Booted st f kind reason := by unfold c5; split <;> exact h4.congr rfl
  have h6 : c6.Booted st f kind reason := by unfold c6; split <;> exact h5.congr rfl
  have h7 : c7.Booted st f kind reason := by unfold c7; split <;> exact h6.congr rfl
  have h8 : c8.Booted st f kind reason := h7.congr (foldl_resetView (fun _ _ => by rfl) _ _)
  have h9 : c9.Booted st f kind reason := by unfold c9; split <;> exact h8.congr rfl
  exact h9.congr (foldl_resetView (fun _ _ => by rfl) _ _)

theorem Chip.Booted.applyConfig (h : c.Booted st f kind reason) (g : Fuses) (powerOn : Bool) :
    (c.applyConfig g powerOn).Booted st f kind reason := by
  have hl : ((c.applyApproved g).applyPorts.applyLegacy).Booted st f kind reason :=
    (h.congr (c.applyApproved_resetView g)).applyPorts.congr (Chip.applyLegacy_resetView _)
  unfold Chip.applyConfig
  dsimp only
  split
  · exact hl.congr (Chip.applyPower_resetView _)
  · exact hl

/-! ### The transitions that end the ROM's boot -/

/-- A block without handle records has none to mark. -/
theorem Chip.Booted.commitPoint (h : c.Booted st f kind reason) (n : Nat) : (c.commitPoint n).Booted st f kind reason := by
  refine h.congr ?_
  simp [Chip.commitPoint, Chip.updRec, Chip.resetView, h.blank.handles]

theorem Chip.beginTrans_recovery (c : Chip) (r : Nat) :
    c.beginTrans { target := .recovery, reason := r } =
      ({ c with dev := { c.dev with trans := some { target := .recovery, reason := r } } } : Chip).commitPoint 0 := rfl

/-- RECOVERY is asked for without a handle and without a waiting reply, so nothing but the transition is recorded. -/
theorem Chip.Booted.triggerRecovery (h : c.Booted st f kind reason) (r : Nat) :
    (c.trigger { target := .recovery, reason := r }).Booted st f kind reason := by
  unfold Chip.trigger
  split
  · exact h.congr rfl
  split
  · rw [Chip.beginTrans_recovery]
    refine Chip.Booted.commitPoint ?_ 0
    exact h.congr rfl
  · exact h

theorem Chip.Booted.zeroizeLink (h : c.Booted st f kind reason) (n : Nat) : (c.zeroizeLink n).Booted st f kind reason := by
  unfold Chip.zeroizeLink
  dsimp only
  rw [h.blank.unsealed n]
  exact h.setSeal n rfl

theorem Chip.Booted.zeroizeAll (h : c.Booted st f kind reason) (blobs mark : Bool) (r slot : Nat) :
    (c.zeroizeAll blobs mark r slot).Booted st f kind reason := by
  unfold Chip.zeroizeAll
  extract_lets c1 c2 c3 c4
  have hslots : c1.keys.slots = [] := by
    change c.keys.slots.filter _ = []
    rw [h.blank.keySlots]
    rfl
  have h1 : c1.Booted st f kind reason := { h with blank := { h.blank with keySlots := hslots } }
  have h3 : c3.Booted st f kind reason := foldl_keeps (P := fun d => d.Booted st f kind reason) (fun _ n hd => hd.zeroizeLink n) _ (h1.congr (a := c2) rfl)
  have h4 : c4.Booted st f kind reason := by
    unfold c4
    split
    · exact h3.congr (Chip.eraseStore_resetView ..)
    · exact h3
  exact h4.congr (Chip.post_resetView ..)

theorem Chip.shiftAbort_of_no_shift (h : c.gear.shift = none) (r t : Nat) : c.shiftAbort r t = c := by
  unfold Chip.shiftAbort; rw [h]

theorem Chip.abortWhere_of_no_handles (h : c.cmd.handles = []) (p : HandleRec → Bool) (r : Nat) : c.abortWhere p r = c := by
  unfold Chip.abortWhere; rw [h]; rfl

/-- LOCKDOWN out of BOOT: there is no key slot, shift, handle or trunk in DATA for it to end. -/
theorem Chip.Booted.lockdown (h : c.Booted st f kind reason) (r : Nat) : (c.lockdown r).Booted st f kind reason := by
  have hz := h.zeroizeAll (r == 0x010C) true r 0
  unfold Chip.lockdown
  rw [h.mode, if_neg (by decide)]
  dsimp only
  rw [Chip.shiftAbort_of_no_shift hz.blank.shift, Chip.abortWhere_of_no_handles hz.blank.handles, hz.mode, if_neg (by decide)]
  exact hz.congr rfl

theorem Chip.Booted.romRecovery (h : c.Booted st f kind reason) (g : Fuses) (r : Nat) (cfg : Bool) :
    (c.romRecovery g r cfg).Booted st f kind reason :=
  (h.congr (c.measureBoot_resetView g none cfg)).triggerRecovery r

theorem Chip.Booted.romLockdown (h : c.Booted st f kind reason) (g : Fuses) (r : Nat) (cfg : Bool) :
    ((c.measureBoot g none cfg).lockdown r).Booted st f kind reason :=
  (h.congr (c.measureBoot_resetView g none cfg)).lockdown r

theorem Chip.Booted.romSlots (h : c.Booted st f kind reason) (g : Fuses) (active : Nat) (l : List Nat) (sf rb : Bool) :
    (c.romSlots g active l sf rb).Booted st f kind reason := by
  induction l generalizing sf rb with
  | nil =>
    unfold Chip.romSlots
    split
    · exact h.romLockdown g _ _
    split
    · exact h.romRecovery g _ _
    · exact h.romRecovery g _ _
  | cons i l ih =>
    unfold Chip.romSlots
    split
    · exact ih sf rb
    · exact ih true rb
    · exact ih sf true
    · dsimp only
      split
      · exact h.congr (Chip.measureBoot_resetView ..)
      · exact h.congr ((Chip.post_resetView ..).trans (Chip.measureBoot_resetView ..))

/-- The ROM's boot of a blank block: the straps and the reset are recorded at once, and no later step touches them or what is blank. -/
theorem Chip.Blank.romBoot (h : c.Blank) (f : Fuses) (st : Straps) (kind reason : Nat) (old : Mode) :
    (c.romBoot f st kind reason old).Booted st f kind reason := by
  unfold Chip.romBoot
  extract_lets role mism d c1 k c2 c3 c4 c5 c6
  have h1 : c1.Booted st f kind reason :=
    { blank := { h with }, mode := rfl, kind := rfl, cause := rfl, strapRole := rfl, strapBoot := rfl, role := rfl }
  have h3 : c3.Booted st f kind reason := h1.congr rfl
  have h4 : c4.Booted st f kind reason := by
    refine Chip.Booted.congr ?_ (Chip.applySyscon_resetView _)
    split
    · exact h3.applyConfig f _
    · exact h3
  have h5 : c5.Booted st f kind reason := h4.congr (Chip.post_resetView ..)
  have h6 : c6.Booted st f kind reason := by
    unfold c6
    split
    · exact h5.congr (Chip.post_resetView ..)
    · exact h5
  split
  · exact h6.romLockdown f _ _
  split
  · exact h6.romRecovery f _ _
  split
  · exact h6.romRecovery f _ _
  split
  · exact h6.romRecovery f _ _
  · exact h6.romSlots f _ _ _ _

end

/-! ### The resets -/

theorem Chip.afterPowerOn_blank (c : Chip) : c.afterPowerOn.Blank :=
  ⟨rfl, rfl, rfl, rfl, rfl, rfl, rfl, rfl, rfl, rfl, rfl, fun _ => rfl⟩

theorem Chip.afterWarm_blank (c : Chip) : c.afterWarm.Blank :=
  ⟨rfl, rfl, rfl, rfl, rfl, rfl, rfl, rfl, rfl, rfl, rfl, fun _ => rfl⟩

theorem powerOn_justReset (st : Straps) (s : State) : (powerOn st s).chip.JustReset st s.fuses 0 0x0115 := by
  have hb : (s.chip.afterPowerOn.lifeRestore.bump 1 1).Blank := s.chip.afterPowerOn_blank.congr (by simp)
  unfold powerOn
  exact ((hb.romBoot s.fuses st 0 0x0115 s.chip.dev.mode).congr (Chip.gkBootFaults_resetView ..)).justReset

theorem warmResetWith_justReset (st : Straps) (reason : Nat) (s : State) :
    (warmResetWith st reason s).chip.JustReset st s.fuses 1 reason := by
  have hb : (s.chip.afterWarm.bump 2 1).Blank := s.chip.afterWarm_blank.congr (by simp)
  unfold warmResetWith
  exact ((hb.romBoot s.fuses st 1 reason s.chip.dev.mode).congr (Chip.gkBootFaults_resetView ..)).justReset

/-- A reset that cuts a COMMIT_ROLLBACK short only raises the rollback counter (R89). -/
theorem State.fusesInterrupted_fusesCut (s : State) : s.fusesCut s.fusesInterrupted := by
  unfold State.fusesCut State.fusesInterrupted
  cases s.chip.dev.rollback with
  | none => exact ⟨Nat.le_refl _, rfl, fun _ => rfl⟩
  | some h => exact ⟨Nat.le_add_right _ _, rfl, fun hn => absurd hn (by simp)⟩

theorem roleOf_of_fusesCut {s t : State} (h : s.fusesCut t) (st : Straps) : roleOf t.fuses st = roleOf s.fuses st := by
  obtain ⟨-, hf, -⟩ := h
  rw [hf]
  rfl

@[simp] theorem State.fusesInterrupted_dev (s : State) : s.fusesInterrupted.chip.dev = s.chip.dev := by
  unfold State.fusesInterrupted; split <;> rfl

@[simp] theorem State.fusesInterrupted_powerPs (s : State) : s.fusesInterrupted.chip.clk.powerPs = s.chip.clk.powerPs := by
  unfold State.fusesInterrupted; split <;> rfl

/-- A reset from state `s` leaves the queue, advances the fuses at most by an open COMMIT_ROLLBACK, and starts the block afresh. -/
def State.ResetsTo (s : State) (o : Host.Outcome State Fault Refusal) (st : Straps) (kind reason : Nat) : Prop :=
  ∃ t, o = .next t ∧ s.fusesCut t ∧ t.pending = s.pending ∧ t.chip.JustReset st s.fuses kind reason

/-- What `Chip.JustReset` asks of the fuses is the role they give. -/
theorem Chip.JustReset.of_role {c : Chip} {st : Straps} {f g : Fuses} {kind reason : Nat} (h : c.JustReset st g kind reason)
    (hr : roleOf g st = roleOf f st) : c.JustReset st f kind reason := by
  unfold Chip.JustReset at h ⊢
  rwa [hr] at h

theorem State.resetsTo_powerOn (s : State) (st : Straps) : s.ResetsTo (.next (powerOn st s.fusesInterrupted)) st 0 0x0115 :=
  ⟨_, rfl, s.fusesInterrupted_fusesCut, s.fusesInterrupted_pending,
    (powerOn_justReset st _).of_role (roleOf_of_fusesCut s.fusesInterrupted_fusesCut st)⟩

theorem State.resetsTo_warm (s : State) (st : Straps) (reason : Nat) :
    s.ResetsTo (.next (warmResetWith st reason s.fusesInterrupted)) st 1 reason :=
  ⟨_, rfl, s.fusesInterrupted_fusesCut, s.fusesInterrupted_pending,
    (warmResetWith_justReset st reason _).of_role (roleOf_of_fusesCut s.fusesInterrupted_fusesCut st)⟩

/-- The watchdog's own count (R489) does not matter to what a reset leaves. -/
theorem State.ResetsTo.of_bump {s : State} {i n : Nat} {o : Host.Outcome State Fault Refusal} {st : Straps} {kind reason : Nat}
    (h : { s with chip := s.chip.bump i n }.ResetsTo o st kind reason) : s.ResetsTo o st kind reason := h

theorem execPowerOnReset_long {n : Nat} (hn : 1020 ≤ n) (st : Straps) (s : State) :
    execPowerOnReset n st s = .next (powerOn st s.fusesInterrupted) := by
  unfold execPowerOnReset
  rw [if_neg (by omega), if_neg (by simp; omega)]

/-- A control-complex watchdog within 60 s of a command reset is a warm reset (R75). -/
theorem execCcWatchdogExpiry_soon {s : State} {u : Nat} (hu : s.chip.dev.lastCmdReset = some u)
    (ht : s.chip.clk.powerPs < u + 60 * 10 ^ 12) (st : Straps) :
    execCcWatchdogExpiry st s = .next (warmResetWith st 0x0116 { s with chip := s.chip.bump 4 1 }.fusesInterrupted) := by
  have hu' : ({ s with chip := s.chip.bump 4 1 } : State).fusesInterrupted.chip.dev.lastCmdReset = some u := by
    rw [State.fusesInterrupted_dev]
    exact hu
  have ht' : ({ s with chip := s.chip.bump 4 1 } : State).fusesInterrupted.chip.clk.powerPs < u + 60 * 10 ^ 12 := by
    rw [State.fusesInterrupted_powerPs]
    exact ht
  unfold execCcWatchdogExpiry
  simp only [hu', if_pos ht']

/-- Settles O14. -/
theorem resetsClearVolatileState : Obligations.ResetsClearVolatileState := by
  unfold Obligations.ResetsClearVolatileState
  intro s st n
  refine ⟨fun hn => if_pos hn, fun hn => ?_, s.resetsTo_powerOn st, fun hr => ?_, fun hr => if_neg hr, ?_, fun u hu ht => ?_⟩
  · obtain ⟨t, ht, hrest⟩ := s.resetsTo_powerOn st
    exact ⟨t, (execPowerOnReset_long hn st s).trans ht, hrest⟩
  · obtain ⟨t, ht, hrest⟩ := s.resetsTo_warm st 0x010F
    exact ⟨t, (if_pos hr).trans ht, hrest⟩
  · exact (State.resetsTo_warm _ st 0x0116).of_bump
  · obtain ⟨t, he, hrest⟩ := (State.resetsTo_warm { s with chip := s.chip.bump 4 1 } st 0x0116).of_bump
    exact ⟨t, (execCcWatchdogExpiry_soon hu ht st).trans he, hrest⟩

end Sys2Proof.Machine
end

section
/-!
SUPPORT. What a command row carries beside the chip (the fuses, the rule sets): what was there, or what the opcode's own body made of it.
-/
namespace Sys2Proof.Machine

variable {α : Type} {op : Nat} {p : Packet} {f : Fuses} {g : Guard} {body : Ctx → Chip → α → Ans × Chip × α}

theorem Chip.answer_carried (c0 c : Chip) (x : Ctx) (r : Ans) (a0 a : α) :
    (c0.answer a0 x r c a).2 = a0 ∨ (c0.answer a0 x r c a).2 = a := by
  unfold Chip.answer
  split
  · split
    · dsimp only
      split <;> exact .inr rfl
    · exact .inl rfl
  · split
    · exact .inr rfl
    split
    · exact .inl rfl
    · exact .inr rfl

/-- `b` is the carried value `a`, or what the body makes of it in some context. -/
def CarriedBy (body : Ctx → Chip → α → Ans × Chip × α) (a b : α) : Prop := b = a ∨ ∃ x c, b = (body x c a).2.2

theorem runTaken_carried (v : Verdict) (c : Chip) (a : α) : CarriedBy body a (runTaken v op p f g body c a).2 := by
  unfold runTaken
  split
  · exact (Chip.answer_carried ..).imp id fun h => ⟨_, _, h⟩
  · exact .inl rfl

theorem runCommandA_carried (c : Chip) (a : α) : CarriedBy body a (runCommandA op p f g body c a).2 := by
  unfold runCommandA
  dsimp only
  split
  · split
    · exact runTaken_carried ..
    · exact .inl rfl
  · split
    · exact runTaken_carried (body := body) ..
    · split
      · exact .inl rfl
      split
      · exact runTaken_carried ..
      · exact .inl rfl

end Sys2Proof.Machine
end

section
/-!
PROOFS. Chapter 03: what each command of the table can do to the fuses.
-/
namespace Sys2Proof.Machine

/-- LOCK_ROLE leaves the fuses, or blows bits of a role lock that is not blown (R74). -/
theorem bodyLockRole_fuses (x : Ctx) (c : Chip) (f : Fuses) :
    (bodyLockRole x c f).2.2 = f ∨
      bitOf f.roleLock.toNat 2 = false ∧ ∃ want got, (bodyLockRole x c f).2.2 = f.blowRole want got := by
  unfold bodyLockRole
  dsimp only
  split
  · exact .inl rfl
  split
  · exact .inl rfl
  next hlock =>
    have hopen : bitOf f.roleLock.toNat 2 = false := by simp at hlock; exact hlock.1
    split <;> exact .inr ⟨hopen, _, _, rfl⟩

/-- What command `i` can have done to the fuses between `s` and `t`. -/
inductive FuseStep (s t : State) : Instr → Prop
  | same {i : Instr} (h : t.fuses = s.fuses) : FuseStep s t i
  | reset {i : Instr} (hi : restarts i = true ∨ i = .commandReset) (h : s.fusesCut t) : FuseStep s t i
  | role {p : Packet} {want got : BitVec 3} (hopen : bitOf s.fuses.roleLock.toNat 2 = false)
      (h : t.fuses = s.fuses.blowRole want got) : FuseStep s t (.lockRole p)
  | rollback {ok : Bool} {n : Nat} (h : t.fuses = { s.fuses with rollback := s.fuses.rollback + n }) :
      FuseStep s t (.commitRollbackDone ok)
  | lifecycle {l : Nat} (h : t.fuses = s.fuses.advance l) : FuseStep s t .keyLifecycleDone

/-- The outcome of `i` is a next state, whose fuses are as `FuseStep` says. -/
def Fuses.StepTo (s : State) (i : Instr) (o : Host.Outcome State Fault Refusal) : Prop := ∃ t, o = .next t ∧ FuseStep s t i

section
variable {s : State} {i : Instr}

theorem Fuses.stepTo_same {t : State} (h : t.fuses = s.fuses) : Fuses.StepTo s i (.next t) := ⟨t, rfl, .same h⟩

/-- Every reset leaves the fuses that the interruption of a COMMIT_ROLLBACK leaves (R89). -/
theorem Fuses.stepTo_reset {t : State} (hi : restarts i = true ∨ i = .commandReset) (h : t.fuses = s.fusesInterrupted.fuses) :
    Fuses.StepTo s i (.next t) := by
  refine ⟨t, rfl, .reset hi ?_⟩
  unfold State.fusesCut
  rw [h]
  exact s.fusesInterrupted_fusesCut

end

theorem execPowerOnReset_fuses (n : Nat) (st : Straps) (s : State) : Fuses.StepTo s (.powerOnReset n st) (execPowerOnReset n st s) := by
  unfold execPowerOnReset
  split
  · exact Fuses.stepTo_same rfl
  split
  · exact Fuses.stepTo_same rfl
  · exact Fuses.stepTo_reset (.inl rfl) rfl

theorem execWarmReset_fuses (st : Straps) (s : State) : Fuses.StepTo s (.warmReset st) (execWarmReset st s) := by
  unfold execWarmReset
  split
  · exact Fuses.stepTo_reset (.inl rfl) rfl
  · exact Fuses.stepTo_same rfl

theorem execCommandReset_fuses (s : State) : Fuses.StepTo s .commandReset (execCommandReset s) := by
  unfold execCommandReset
  split
  · exact Fuses.stepTo_reset (.inr rfl) rfl
  · exact Fuses.stepTo_same rfl

/-- The watchdog's own count (R489) does not matter to the fuses. -/
theorem State.fusesInterrupted_bump_fuses (s : State) (i n : Nat) :
    ({ s with chip := s.chip.bump i n } : State).fusesInterrupted.fuses = s.fusesInterrupted.fuses := by
  unfold State.fusesInterrupted
  rw [Chip.bump_dev]
  split <;> rfl

theorem execCcWatchdogExpiry_fuses (st : Straps) (s : State) :
    Fuses.StepTo s (.ccWatchdogExpiry st) (execCcWatchdogExpiry st s) := by
  have hf := s.fusesInterrupted_bump_fuses 4 1
  unfold execCcWatchdogExpiry
  dsimp only
  split
  · split <;> exact Fuses.stepTo_reset (.inl rfl) hf
  · exact Fuses.stepTo_reset (.inl rfl) hf

theorem execCommitRollbackDone_fuses (ok : Bool) (s : State) :
    Fuses.StepTo s (.commitRollbackDone ok) (execCommitRollbackDone ok s) := by
  unfold execCommitRollbackDone
  split
  · exact Fuses.stepTo_same rfl
  · dsimp only
    split <;> exact ⟨_, rfl, .rollback rfl⟩

theorem execKeyLifecycleDone_fuses (s : State) : Fuses.StepTo s .keyLifecycleDone (execKeyLifecycleDone s) := by
  unfold execKeyLifecycleDone
  split
  · exact Fuses.stepTo_same rfl
  · dsimp only
    split
    · exact Fuses.stepTo_same rfl
    split
    · exact Fuses.stepTo_same rfl
    · exact ⟨_, rfl, .lifecycle rfl⟩

theorem execLockRole_fuses (p : Packet) (s : State) : Fuses.StepTo s (.lockRole p) (execLockRole p s) := by
  refine ⟨_, rfl, ?_⟩
  obtain h | ⟨x, c, h⟩ := runCommandA_carried (op := 0x010B) (p := p) (f := s.fuses) (g := s.guard) (body := bodyLockRole) s.chip s.fuses
  · exact .same h
  · obtain hb | ⟨hopen, want, got, hb⟩ := bodyLockRole_fuses x c s.fuses
    · exact .same (h.trans hb)
    · exact .role hopen (h.trans hb)

/-- The rows that reach the fuses, each by its own lemma; every other row is an effect on the chip, or on the chip and the rule sets. -/
theorem exec_fuses (i : Instr) (s : State) : Fuses.StepTo s i (exec i s) := by
  cases i
  case powerOnReset n st => exact execPowerOnReset_fuses n st s
  case vddAonBrownout st => exact Fuses.stepTo_reset (.inl rfl) rfl
  case warmReset st => exact execWarmReset_fuses st s
  case commandReset => exact execCommandReset_fuses s
  case ccWatchdogExpiry st => exact execCcWatchdogExpiry_fuses st s
  case kettleWatchdogExpiry st => exact Fuses.stepTo_reset (.inl rfl) (s.fusesInterrupted_bump_fuses 4 1)
  case lockRole p => exact execLockRole_fuses p s
  case commitRollbackDone ok => exact execCommitRollbackDone_fuses ok s
  case keyLifecycleDone => exact execKeyLifecycleDone_fuses s
  all_goals exact ⟨_, rfl, .same rfl⟩

/-- No fuse goes back: hashes and serial number stay, counters do not fall, a blown role lock stays. -/
def Fuses.Advances (f g : Fuses) : Prop :=
  g.signer = f.signer ∧ g.revoked = f.revoked ∧ g.serialNo = f.serialNo ∧ f.rollback ≤ g.rollback ∧ f.lifecycle ≤ g.lifecycle ∧
  (bitOf f.roleLock.toNat 2 = true → g.roleLock = f.roleLock)

theorem Fuses.advances_refl (f : Fuses) : f.Advances f := ⟨rfl, rfl, rfl, Nat.le_refl _, Nat.le_refl _, fun _ => rfl⟩
theorem Fuses.advances_rollback (f : Fuses) {n : Nat} (h : f.rollback ≤ n) : f.Advances { f with rollback := n } :=
  ⟨rfl, rfl, rfl, h, Nat.le_refl _, fun _ => rfl⟩
theorem Fuses.advances_lifecycle (f : Fuses) (l : Nat) : f.Advances (f.advance l) :=
  ⟨rfl, rfl, rfl, Nat.le_refl _, Nat.le_max_left _ _, fun _ => rfl⟩
theorem Fuses.advances_role {f : Fuses} (hopen : bitOf f.roleLock.toNat 2 = false) (want got : BitVec 3) :
    f.Advances (f.blowRole want got) :=
  ⟨rfl, rfl, rfl, Nat.le_refl _, Nat.le_refl _, fun hblown => absurd (hopen.symm.trans hblown) (by decide)⟩

theorem FuseStep.advances {s t : State} {i : Instr} (h : FuseStep s t i) : s.fuses.Advances t.fuses := by
  cases h with
  | same h => exact h ▸ s.fuses.advances_refl
  | reset _ h =>
    obtain ⟨hle, heq, -⟩ := h
    rw [heq]
    exact s.fuses.advances_rollback hle
  | role hopen h => exact h ▸ Fuses.advances_role hopen _ _
  | rollback h => exact h ▸ s.fuses.advances_rollback (Nat.le_add_right _ _)
  | lifecycle h => exact h ▸ s.fuses.advances_lifecycle _

/-- Settles O4: of the ways a command reaches the fuses, each advances them, and the excepted commands and resets are the only ones. -/
theorem fusesOnlyAdvance : Obligations.FusesOnlyAdvance := by
  unfold Obligations.FusesOnlyAdvance
  intro i s t ht
  obtain ⟨t', ht', hstep⟩ := exec_fuses i s
  obtain rfl : t = t' := Host.Outcome.next.inj (ht.symm.trans ht')
  obtain ⟨hsigner, hrevoked, hserial, hrollback, hlife, hrole⟩ := hstep.advances
  refine ⟨hsigner, hrevoked, hserial, hrollback, hlife, hrole, fun hnotRole hnotRollback hnotLife hreset => ?_⟩
  cases hstep with
  | same h => exact h
  | reset hi h =>
    obtain ⟨-, -, huncut⟩ := h
    obtain hnone | ⟨hnotRestart, hnotReset⟩ := hreset
    · exact huncut hnone
    · obtain hi | hi := hi
      · exact absurd (hnotRestart.symm.trans hi) (by decide)
      · exact absurd hi hnotReset
  | role => exact absurd rfl (hnotRole _)
  | rollback => exact absurd rfl (hnotRollback _)
  | lifecycle => exact absurd rfl hnotLife

end Sys2Proof.Machine
end

section
/-!
SUPPORT. A table whose every entry has been put back to the default.
-/
namespace Sys2Proof

theorem Tab.get_map_default {α : Type} (d : α) (t : Tab α) (k : Nat) : Tab.get d (t.map fun e => (e.1, d)) k = d := by
  induction t with
  | nil => rfl
  | cons e t ih =>
    simp only [List.map_cons, Tab.get]
    split
    · rfl
    · exact ih

end Sys2Proof
end

section
/-!
PROOFS. What a command reset ends and what it keeps (Table 03.4, command column).
-/
namespace Sys2Proof.Machine

/-! ### Every handle completes -/

/-- No handle record is open. -/
def Chip.Closed (c : Chip) : Prop := ∀ r ∈ c.cmd.handles, r.complete = true

section
variable {c : Chip} {h st rs x : Nat} {r : HandleRec}

theorem Chip.openRec?_of_mem (hm : r ∈ c.cmd.handles) (ho : r.complete = false) : ∃ y, c.openRec? r.handle = some y :=
  Option.isSome_iff_exists.1 (List.find?_isSome.2 ⟨r, hm, by simp [ho]⟩)

/-- A record that is open after a completion was open before it, and bears another handle. -/
theorem Chip.open_before_complete (hm : r ∈ (c.complete h st rs x).cmd.handles) (ho : r.complete = false) :
    r ∈ c.cmd.handles ∧ r.handle ≠ h := by
  cases hopen : c.openRec? h with
  | none =>
    rw [Chip.complete_of_not_open hopen] at hm
    refine ⟨hm, fun hh => ?_⟩
    obtain ⟨y, hy⟩ := Chip.openRec?_of_mem hm ho
    rw [hh, hopen] at hy
    exact nomatch hy
  | some y =>
    rw [Chip.complete_handles hopen] at hm
    refine ⟨?_, fun hh => ?_⟩
    · obtain ⟨z, hz, rfl⟩ := List.mem_map.1 hm
      split at ho
      · exact nomatch ho
      next hne => rwa [if_neg hne]
    · obtain ⟨hc, -⟩ := Chip.recorded_complete hm hh
      exact nomatch hc.symm.trans ho

theorem Chip.Closed.complete (hc : c.Closed) (h st rs x : Nat) : (c.complete h st rs x).Closed := by
  intro r hm
  cases ho : r.complete with
  | true => rfl
  | false =>
    obtain ⟨hm, -⟩ := Chip.open_before_complete hm ho
    exact ho.symm.trans (hc r hm)

/-- Completing the handles of a list leaves open only records that bear none of them. -/
theorem Chip.open_before_completions (l : List HandleRec)
    (hm : r ∈ (l.foldl (fun c y => c.complete y.handle st rs x) c).cmd.handles) (ho : r.complete = false) :
    r ∈ c.cmd.handles ∧ ∀ y ∈ l, r.handle ≠ y.handle := by
  induction l generalizing c with
  | nil => exact ⟨hm, fun _ hy => nomatch hy⟩
  | cons a l ih =>
    obtain ⟨hm, hl⟩ := ih hm
    obtain ⟨hm, ha⟩ := Chip.open_before_complete hm ho
    exact ⟨hm, List.forall_mem_cons.2 ⟨ha, hl⟩⟩

theorem Chip.abortWhere_all_closed (c : Chip) (rs : Nat) : (c.abortWhere (fun _ => true) rs).Closed := by
  intro r hm
  cases ho : r.complete with
  | true => rfl
  | false =>
    obtain ⟨hm, hl⟩ := Chip.open_before_completions _ hm ho
    exact absurd rfl (hl r (List.mem_filter.2 ⟨hm, by simp [ho]⟩))

end

/-! ### What the reset does not reach -/

/-- The clocks, the device's state, the keys and the serials. -/
def Chip.keptView (c : Chip) : Chip := { clk := c.clk, dev := c.dev, keys := c.keys, cmd := { serial := c.cmd.serial } }

theorem Chip.keptView_of_rest {a b : Chip} (h : a.rest = b.rest) (hs : a.cmd.serial = b.cmd.serial) : a.keptView = b.keptView := by
  unfold Chip.keptView
  rw [← a.rest_clk, ← a.rest_dev, ← a.rest_keys, h, hs]
  rfl

@[simp] theorem Chip.complete_serial (c : Chip) (h st rs x : Nat) : (c.complete h st rs x).cmd.serial = c.cmd.serial := by
  cases ho : c.openRec? h with
  | none => rw [Chip.complete_of_not_open ho]
  | some r =>
    rw [Chip.complete_of_open ho]
    split
    · rfl
    · exact (Cmd.serial_of_besidesEvents (Chip.postForHandle_besidesEvents ..) : _ = (c.recorded h st rs x).cmd.serial)

section
variable (c : Chip)

@[simp] theorem Chip.bump_keptView (i n : Nat) : (c.bump i n).keptView = c.keptView := rfl
@[simp] theorem Chip.post_keptView (x r d s : Nat) : (c.post x r d s).keptView = c.keptView :=
  Chip.keptView_of_rest (c.post_rest ..) (Cmd.serial_of_besidesEvents (c.post_besidesEvents ..))
@[simp] theorem Chip.complete_keptView (h st rs x : Nat) : (c.complete h st rs x).keptView = c.keptView :=
  Chip.keptView_of_rest (c.complete_rest ..) (c.complete_serial ..)
@[simp] theorem Chip.setGear_keptView (g : Gears → Gears) : (c.setGear g).keptView = c.keptView := rfl
@[simp] theorem Chip.setLane_keptView (n : Nat) (l : LanePort) : (c.setLane n l).keptView = c.keptView := rfl
@[simp] theorem Chip.countLane_keptView (n : Nat) (g : TrunkCount → TrunkCount) : (c.countLane n g).keptView = c.keptView := rfl
@[simp] theorem Chip.setFrm_keptView (n : Nat) (x : Framing) : (c.setFrm n x).keptView = c.keptView := rfl
@[simp] theorem Chip.sbPeer_keptView (n t : Nat) (b : Bytes) : (c.sbPeer n t b).keptView = c.keptView := rfl

@[simp] theorem Chip.shiftAbort_keptView (r t : Nat) : (c.shiftAbort r t).keptView = c.keptView := by
  unfold Chip.shiftAbort
  dsimp only
  split
  · rfl
  split <;> simp

@[simp] theorem Chip.shiftReset_keptView (r : Nat) : (c.shiftReset r).keptView = c.keptView := by
  unfold Chip.shiftReset
  split
  · rfl
  split <;> simp

@[simp] theorem Chip.abortWhere_keptView (p : HandleRec → Bool) (r : Nat) : (c.abortWhere p r).keptView = c.keptView :=
  foldl_keeps (P := fun d => d.keptView = c.keptView) (fun d y h => (d.complete_keptView y.handle 0x0302 r 0).trans h) _ rfl

end

/-- A failed attempt (R100, R101) completes at most one handle, the TRUNK_RETRAIN's, and beside that changes neither the handle records nor
what a reset keeps. -/
theorem Chip.failAttempt_completes_at_most_one (c : Chip) (n rs : Nat) (send : Bool) (peer : Nat) :
    ∃ d : Chip, d.cmd.handles = c.cmd.handles ∧ d.keptView = c.keptView ∧
      (c.failAttempt n rs send peer = d ∨ ∃ h, c.failAttempt n rs send peer = d.complete h stTimeout rs 0) := by
  unfold Chip.failAttempt
  extract_lets l long l'
  split
  next k _ =>
    extract_lets c1 c2 c3 f c4 c5
    have h1 : c1.cmd = c.cmd ∧ c1.keptView = c.keptView := by unfold c1; split <;> exact ⟨rfl, rfl⟩
    have h4 : c4.cmd = c.cmd ∧ c4.keptView = c.keptView := h1
    have h5 : c5.cmd.handles = c.cmd.handles ∧ c5.keptView = c.keptView := by
      unfold c5
      rw [← h4.1, ← h4.2]
      split
      · exact ⟨Cmd.handles_of_besidesEvents (c4.post_besidesEvents ..), c4.post_keptView ..⟩
      · exact ⟨rfl, rfl⟩
    split
    · exact ⟨c5, h5.1, h5.2, .inl rfl⟩
    split
    · exact ⟨c5.setLane n _, h5.1, h5.2, .inr ⟨_, rfl⟩⟩
    · exact ⟨c5.setLane n _, h5.1, h5.2, .inl rfl⟩
  · exact ⟨c, rfl, rfl, .inl rfl⟩

theorem Chip.Closed.failAttempt {c : Chip} (hc : c.Closed) (n rs : Nat) (send : Bool) (peer : Nat) :
    (c.failAttempt n rs send peer).Closed := by
  obtain ⟨d, hh, -, hd | ⟨h, hd⟩⟩ := c.failAttempt_completes_at_most_one n rs send peer
  all_goals
    have hclosed : d.Closed := by unfold Chip.Closed; rwa [hh]
    rw [hd]
  · exact hclosed
  · exact hclosed.complete _ _ _ _

@[simp] theorem Chip.failAttempt_keptView (c : Chip) (n rs : Nat) (send : Bool) (peer : Nat) :
    (c.failAttempt n rs send peer).keptView = c.keptView := by
  obtain ⟨d, -, hv, hd | ⟨h, hd⟩⟩ := c.failAttempt_completes_at_most_one n rs send peer
  · rw [hd, hv]
  · rw [hd, Chip.complete_keptView, hv]

/-! ### The command reset -/

/-- The first half of a command reset: the open shift, every open handle and every training attempt end. -/
def Chip.workEnds (c : Chip) (rs : Nat) : Chip :=
  (List.range 4).foldl (fun c n => c.failAttempt n 0x0414 true) (((c.bump 3 1).shiftReset rs).abortWhere (fun _ => true) rs)

/-- The second half: freewheel starts at 0, and the control complex and its transports restart. -/
def Chip.restarted (c : Chip) : Chip :=
  let c := { c with fab := { c.fab with
    ports := c.fab.ports.mapAll fun _ (o : OutPort) => { o with v := 0 }
    fw := c.fab.fw.mapAll fun _ (q : FwQueue) => { q with s := 0, f := 0, fLast := 0 } } }
  let c := c.dropTransports
  { c with
    dev := { c.dev with fwRunning := false, resetKind := 2, resetReq := 0, lastCmdReset := some c.clk.powerPs, commit := none, rollback := none },
    clk := { c.clk with upPs := 0 } }

theorem Chip.commandReset_eq (c : Chip) (rs : Nat) : c.commandReset rs = (c.workEnds rs).restarted := by
  dsimp only [Chip.commandReset, Chip.restarted, Chip.workEnds]

theorem Chip.workEnds_closed (c : Chip) (rs : Nat) : (c.workEnds rs).Closed :=
  foldl_keeps (P := Chip.Closed) (fun _ n hd => hd.failAttempt n 0x0414 true 0) _ (Chip.abortWhere_all_closed _ rs)

theorem Chip.workEnds_keptView (c : Chip) (rs : Nat) : (c.workEnds rs).keptView = c.keptView :=
  foldl_keeps (P := fun d => d.keptView = c.keptView) (fun d n hd => (d.failAttempt_keptView n 0x0414 true 0).trans hd) _ (by simp)

/-- What a command reset ends, and what it keeps of the state before it (R75, R76, Table 03.4). -/
structure State.CommandResetTo (s t : State) : Prop where
  handles : t.chip.Closed
  serial : t.chip.cmd.serial = s.chip.cmd.serial
  sessions : ∀ x, (t.chip.cmd.sessions.get {} x).version = 0
  inbox : t.chip.cmd.inbox = []
  replies : t.chip.cmd.replies = []
  fwStopped : t.chip.dev.fwRunning = false
  kind : t.chip.dev.resetKind = 2
  mode : t.chip.dev.mode = s.chip.dev.mode
  role : t.chip.dev.role = s.chip.dev.role
  localPs : t.chip.clk.localPs = s.chip.clk.localPs
  keySlots : t.chip.keys.slots = s.chip.keys.slots
  guard : t.guard = s.guard
  fuses : s.fusesCut t
  pending : t.pending = s.pending

/-- An interrupted COMMIT_ROLLBACK takes fuse bits and a free value, and nothing that a command reset keeps. -/
theorem State.fusesInterrupted_keeps (s : State) :
    s.fusesInterrupted.guard = s.guard ∧ s.fusesInterrupted.chip.keys = s.chip.keys ∧ s.fusesInterrupted.chip.cmd = s.chip.cmd ∧
      s.fusesInterrupted.chip.clk.localPs = s.chip.clk.localPs := by
  unfold State.fusesInterrupted
  split <;> exact ⟨rfl, rfl, rfl, rfl⟩

theorem State.commandResetTo (s : State) (rs : Nat) :
    s.CommandResetTo { s.fusesInterrupted with chip := s.fusesInterrupted.chip.commandReset rs } := by
  obtain ⟨hguard, hkeys, hcmd, hlocal⟩ := s.fusesInterrupted_keeps
  have hclosed := s.fusesInterrupted.chip.workEnds_closed rs
  have hview := s.fusesInterrupted.chip.workEnds_keptView rs
  rw [Chip.commandReset_eq]
  generalize s.fusesInterrupted.chip.workEnds rs = d at hclosed hview
  have hdev : d.dev = s.chip.dev := (congrArg Chip.dev hview).trans s.fusesInterrupted_dev
  have hclk : d.clk = s.fusesInterrupted.chip.clk := (congrArg Chip.clk hview :)
  exact
    { handles := hclosed
      serial := (congrArg (fun c : Chip => c.cmd.serial) hview).trans (by rw [← hcmd]; rfl)
      sessions := fun x => congrArg SessState.version (Tab.get_map_default {} d.cmd.sessions x)
      inbox := rfl
      replies := rfl
      fwStopped := rfl
      kind := rfl
      mode := (congrArg Dev.mode hdev :)
      role := (congrArg Dev.role hdev :)
      localPs := (congrArg Clock.localPs hclk).trans hlocal
      keySlots := (congrArg (fun c : Chip => c.keys.slots) hview).trans (congrArg Keys.slots hkeys)
      guard := hguard
      fuses := s.fusesInterrupted_fusesCut
      pending := s.fusesInterrupted_pending }

/-- The watchdog's own count (R489) does not matter to what a command reset keeps. -/
theorem State.CommandResetTo.of_bump {s t : State} {i n : Nat}
    (h : ({ s with chip := s.chip.bump i n } : State).CommandResetTo t) : s.CommandResetTo t := { h with }

/-- A control-complex watchdog later than 60 s after the last command reset is a command reset (R75). -/
theorem execCcWatchdogExpiry_late {s : State}
    (hlate : ∀ u, s.chip.dev.lastCmdReset = some u → u + 60 * 10 ^ 12 ≤ s.chip.clk.powerPs) (st : Straps) :
    execCcWatchdogExpiry st s =
      onChip ({ s with chip := s.chip.bump 4 1 } : State).fusesInterrupted fun c => c.commandReset 0x0116 := by
  have hlate' : ∀ u, ({ s with chip := s.chip.bump 4 1 } : State).fusesInterrupted.chip.dev.lastCmdReset = some u →
      u + 60 * 10 ^ 12 ≤ ({ s with chip := s.chip.bump 4 1 } : State).fusesInterrupted.chip.clk.powerPs := by
    rw [State.fusesInterrupted_dev, State.fusesInterrupted_powerPs]
    exact hlate
  unfold execCcWatchdogExpiry
  dsimp only
  split
  next u hu => rw [if_neg (Nat.not_lt.2 (hlate' u hu))]
  · rfl

/-- Settles O15: both ways to a command reset end in `Chip.commandReset`, over fuses that an open COMMIT_ROLLBACK may have advanced. -/
theorem commandResetKeepsThePart : Obligations.CommandResetKeepsThePart := by
  unfold Obligations.CommandResetKeepsThePart
  intro s t st
  refine ⟨fun hreq => if_neg hreq, fun hreset => ?_, fun hreq => ⟨_, if_pos hreq⟩⟩
  have hto : s.CommandResetTo t := by
    obtain ⟨hreq, ht⟩ | ⟨hlate, ht⟩ := hreset
    · obtain rfl : _ = t := Host.Outcome.next.inj ((if_pos hreq).symm.trans ht)
      exact s.commandResetTo 0x010F
    · obtain rfl : _ = t := Host.Outcome.next.inj ((execCcWatchdogExpiry_late hlate st).symm.trans ht)
      exact (State.commandResetTo _ 0x0116).of_bump
  exact ⟨hto.handles, hto.serial, hto.sessions, hto.inbox, hto.replies, hto.fwStopped, hto.kind, hto.mode, hto.role, hto.localPs,
    hto.keySlots, hto.guard, hto.fuses, hto.pending⟩

end Sys2Proof.Machine
end

section
/-!
PROOFS. Chapter 03: the reset state, start-up and the mode machine.
-/
namespace Sys2Proof.Machine

/-! ### The reset state -/

theorem bitOf_one (i : Nat) : bitOf 1 i = true ↔ i = 0 := by
  cases i with
  | zero => decide
  | succ n =>
    have hz : 1 / 2 ^ (n + 1) = 0 := Nat.div_eq_of_lt (Nat.one_lt_two_pow n.succ_ne_zero)
    simp [bitOf, hz]

theorem Guard.initial_straddle (k : Nat) : (Guard.initial.get {} k).straddle = 1 := by
  have hall : ∀ e ∈ Guard.initial, e.2.straddle = 1 := by decide
  obtain h | h := Tab.get_mem ({} : RuleSet) Guard.initial k
  · rw [h]
  · exact hall _ h

/-- Settles O16. -/
theorem resetStateAsSpecified : Obligations.ResetStateAsSpecified := by
  unfold Obligations.ResetStateAsSpecified
  refine ⟨rfl, rfl, rfl, rfl, rfl, rfl, rfl, rfl, rfl, rfl, rfl, rfl, rfl, rfl, Guard.initial_straddle, fun _ op => ?_, rfl, rfl⟩
  exact bitOf_one (op / 256)

/-! ### Start-up -/

/-- A row whose effect on the chip is `f` leaves the block as `f` makes it. -/
theorem State.becomes_of_onChip {s : State} {i : Instr} {f : Chip → Chip} {c : Chip} (hi : exec i s = onChip s f) (h : f s.chip = c) :
    s.becomes i c := by
  subst h
  exact hi

section
variable {c : Chip}

/-- The next island of the plan starts; island 3 only after the self-tests, and not where KEEPALIVE is due (R82, R25). -/
theorem Chip.islandStep_starts {i : Nat} (hs : c.dev.starting = true) (hn : c.nextIsland = some i)
    (h3 : i = 3 → c.bootKeepalive = false ∧ c.dev.selftestOk = true) (pages : List OnfiPage) (vols : List Nat) :
    c.islandStep pages vols =
      ({ c with dev := { c.dev with islands := c.dev.islands ++ [i], islandStep := i } } : Chip).islandStarted i pages vols := by
  have hkeep : ¬ (decide (i = 3) && c.bootKeepalive) = true := by
    simpa using fun hi => (h3 hi).1
  have htested : ¬ (decide (i = 3) && !c.dev.selftestOk) = true := by
    simpa using fun hi => (h3 hi).2
  unfold Chip.islandStep
  rw [if_neg (by simp [hs]), hn]
  dsimp only
  rw [if_neg hkeep, if_neg htested]

/-- The control complex opens its transports; without queue pairs there is nothing to fetch (R293). -/
theorem execFwRunning_no_qps {s : State} (hm : s.chip.dev.mode ≠ .boot) (hq : s.chip.host.qps = []) :
    execFwRunning s = .next { s with chip := { s.chip with dev := { s.chip.dev with fwRunning := true } } } := by
  unfold execFwRunning onChip
  dsimp only
  rw [if_neg (by simpa using hm), hq]
  rfl

/-- An island that does not settle goes off, and the part goes to RECOVERY (R83). -/
theorem execIslandSettleTimeout_unsettled {s : State} (hs : s.chip.dev.starting = true) (hi : s.chip.dev.islandStep ≠ 0) :
    execIslandSettleTimeout s = .next { s with chip :=
      ({ s.chip with dev := { s.chip.dev with islands := s.chip.dev.islands.filter (· != s.chip.dev.islandStep), islandStep := 0,
                                              starting := false } } : Chip).trigger { target := .recovery, reason := 0x0107 } } := by
  unfold execIslandSettleTimeout onChip
  dsimp only
  rw [if_neg (by simp [hs, hi])]

/-! ### Protective entries -/

theorem execTamperAssert_locks_down {s : State} (hm : s.chip.dev.mode ≠ .lockdown) :
    execTamperAssert s = .next { s with chip :=
      ({ s.chip with dev := { s.chip.dev with tamperL := true, tamperSeen := true } } : Chip).lockdown 0x010C } := by
  unfold execTamperAssert onChip
  dsimp only
  rw [if_neg (by simpa using hm)]

theorem Chip.lockdown_trans (h : c.dev.mode ≠ .lockdown) (r : Nat) :
    (c.lockdown r).dev.trans = some { target := .lockdown, reason := r } := by
  unfold Chip.lockdown
  rw [if_neg (by simpa using h)]

/-- No key slot holds a key and no trunk is sealed. -/
def Chip.Keyless (c : Chip) : Prop := c.keys.slots = [] ∧ ∀ n, n < 4 → (c.sealOf n).keys = none

/-- A trunk without link keys stays up when they are zeroized (R465). -/
theorem Chip.Keyless.zeroizeLink (h : c.Keyless) {n : Nat} (hn : n < 4) : (c.zeroizeLink n).Keyless := by
  obtain ⟨hslots, hseals⟩ := h
  unfold Chip.zeroizeLink
  dsimp only
  rw [hseals n hn]
  refine ⟨hslots, fun m hm => ?_⟩
  by_cases hmn : m = n
  · simp [hmn, Chip.sealOf, Chip.setSeal]
  · simpa [Chip.sealOf, Chip.setSeal, Tab.get_set_ne _ _ _ hmn] using hseals m hm

theorem Chip.zeroizeAll_slots (h : ∀ n, n < 4 → (c.sealOf n).keys = none) (b m : Bool) (r slot : Nat) :
    (c.zeroizeAll b m r slot).keys.slots = [] := by
  unfold Chip.zeroizeAll
  extract_lets c1 c2 c3 c4
  have h2 : c2.Keyless := ⟨List.filter_eq_nil_iff.2 fun _ _ => by simp, h⟩
  have h3 : c3.Keyless := List.foldlRecOn (List.range 4) Chip.zeroizeLink h2 fun d hd n hn => hd.zeroizeLink (List.mem_range.1 hn)
  have h4 : c4.keys.slots = [] := by
    unfold c4 Chip.eraseStore
    split
    · split <;> exact h3.1
    · exact h3.1
  exact (congrArg Keys.slots (Chip.post_keys ..)).trans h4

/-! ### Transitions -/

/-- The evaluation of no waiting trigger leaves the block (R68). -/
theorem Chip.nextWaiting_nil (h : c.dev.waiting = []) : c.nextWaiting [] = c := by
  unfold Chip.nextWaiting
  rw [← h]

theorem Mode.ne_of_isRole {m : Mode} (h : m.isRole = true) : m ≠ .recovery ∧ m ≠ .keepalive ∧ m ≠ .lockdown := by
  refine ⟨?_, ?_, ?_⟩ <;> rintro rfl <;> exact absurd h (by decide)

/-- The block with transition `t` complete: its mode and its reason are in force. -/
def Chip.reached (c : Chip) (t : Trans) : Chip :=
  { c with dev := { c.dev with mode := t.target, cause := t.reason, trans := none, fwRunning := true } }

/-- A transition without a handle reaches a role mode: no trunk leaves DATA, and the islands, HOST and USB among them, stay on (R67). -/
theorem Chip.arrive_role {t : Trans} (hw : c.dev.waiting = []) (hh : t.handle = 0) (hr : t.target.isRole = true)
    (h4 : c.dev.islands.contains 4 = true) (h9 : c.dev.islands.contains 9 = true) :
    c.arrive t =
      ((((c.reached t).sample 10 (Nat.min 15 (c.clk.upPs / 1000000000 / 100))).post 0x0101 t.reason
        (c.dev.mode.code + 256 * t.target.code)).irqCause 0).powerCondition := by
  obtain ⟨hrec, hkeep, hlock⟩ := Mode.ne_of_isRole hr
  unfold Chip.arrive
  extract_lets old leaves stay isl on usbUp d there usb1 usb2 host counted timed posted answered
  have hstay : stay = c := by simp [stay, leaves, hrec, hkeep]
  have hisl : isl = c.dev.islands := by
    unfold isl
    rw [hstay]
    split
    next h => exact absurd h hrec
    next h => exact absurd h hlock
    next h => exact absurd h hkeep
    next => rfl
  have hon : on = c := by simp [on, hstay, hrec, hkeep, hlock]
  have husb : usbUp = false := by simp only [usbUp, hisl, hon, h9]; rfl
  have hthere : there = c.reached t := by
    simp only [there, d, hisl, hon]
    rfl
  have hhost : host = c.reached t := by
    simp only [host, usb2, usb1, husb, hisl, h4, h9, if_true, Bool.false_eq_true, if_false]
    exact hthere
  have hcounted : counted = c.reached t := by simp [counted, hhost, hrec, hlock]
  have hposted : posted = (((c.reached t).sample 10 (Nat.min 15 (c.clk.upPs / 1000000000 / 100))).post 0x0101 t.reason
      (c.dev.mode.code + 256 * t.target.code)).irqCause 0 := by
    simp only [posted, timed, hcounted, hr, if_true]
    rfl
  have hanswered : answered = posted := if_pos hh
  have hwait : posted.dev.waiting = [] := by
    rw [hposted]
    simp [Chip.reached, hw]
  rw [hanswered, hwait, Chip.nextWaiting_nil hwait, hposted]

/-- A transition in progress to a role mode is complete once its islands have started (R67, R68). -/
theorem Chip.transDone_of_started {t : Trans} (ht : c.dev.trans = some t) (hs : c.dev.starting = false) :
    c.transDone = c.arrive t := by
  unfold Chip.transDone
  rw [ht]
  exact if_pos (by simp [Chip.mayArrive, hs])

end

/-- Settles O17. -/
theorem modeEventsAct : Obligations.ModeEventsAct := by
  unfold Obligations.ModeEventsAct
  intro s pages vols
  refine ⟨fun i hs hn h3 => ?_, execIslandSettleTimeout_unsettled, rfl, rfl, rfl, rfl,
    fun hm => ⟨execTamperAssert_locks_down hm, fun c r hc => c.lockdown_trans hc r⟩, rfl, rfl,
    fun c m r h => c.zeroizeAll_slots h true m r 0, rfl, execFwRunning_no_qps, fun t ht hw hh hr hs h4 h9 => ?_⟩
  · exact State.becomes_of_onChip (f := fun c => c.islandStep pages vols) rfl (Chip.islandStep_starts hs hn h3 pages vols)
  · exact State.becomes_of_onChip (f := Chip.transDone) rfl ((Chip.transDone_of_started ht hs).trans (Chip.arrive_role hw hh hr h4 h9))

end Sys2Proof.Machine
end

section
/-!
PROOFS. Chapter 03: the mode commands.
-/
namespace Sys2Proof.Machine

/-! ### Answers of a command row -/

section
variable {op : Nat} {p : Packet} {s : State} {c c' : Chip} {body : Ctx → Chip → Ans × Chip}

/-- A command whose body succeeds with no response data: its reply always fits. -/
theorem runCommand_ok_empty (h : s.heard op p c) (hb : body (s.ctxOf op p c) c = (ok, c')) :
    runCommand op p s body = .next { s with chip := c'.replied p } :=
  runCommand_ok h hb (Nat.zero_le _)

/-- A long command that is past its commit point once it is accepted (R56). -/
theorem runCommand_accepted_committed (h : s.heard op p c) (hb : body (s.ctxOf op p c) c = ({ accepted with committed := true }, c'))
    (hr : c.recordFree (c.issuer p.sess).1 = true) :
    runCommand op p s body =
      .next { s with chip := (c'.accepts p (s.ctxOf op p c)).commitPoint (s.ctxOf op p c).handle } := by
  unfold runCommand
  simp only [runCommandA_heard h, hb]
  simp [Chip.answer, stAccepted, accepted, hr, Chip.accepts]

/-- A command whose reply is kept back: only its effect is seen (R68). -/
theorem runCommand_held (h : s.heard op p c) (hb : body (s.ctxOf op p c) c = ({ hold := true }, c')) :
    runCommand op p s body = .next { s with chip := c' } := by
  unfold runCommand
  simp only [runCommandA_heard h, hb]
  simp [Chip.answer, stAccepted]

end

/-! ### Modes -/

section
variable {s : State} {p : Packet} {c d : Chip} {x : Ctx} {t : Trans}

theorem Chip.modeAnswer_begun {y : Trans} (ht : (c.trigger t).dev.trans = some y) (hy : y.handle = x.handle) :
    c.modeAnswer x t = ({ accepted with committed := true }, c.trigger t) := by
  unfold Chip.modeAnswer
  dsimp only
  rw [ht]
  simp [hy]

theorem Chip.modeAnswer_waiting (h : ∀ y, (c.trigger t).dev.trans = some y → y.handle ≠ x.handle) :
    c.modeAnswer x t = (accepted, c.trigger t) := by
  unfold Chip.modeAnswer
  dsimp only
  split
  next y hy =>
    rw [beq_eq_false_iff_ne.2 (h y hy)]
    rfl
  next => rfl

/-- A long command that asks for a transition under its handle is past its commit point once that transition has begun, and not while another
one is in progress (R56, R68). -/
theorem runCommand_modeAnswer {op : Nat} {body : Ctx → Chip → Ans × Chip} (h : s.heard op p c)
    (hb : body (s.ctxOf op p c) c = d.modeAnswer (s.ctxOf op p c) t) (hr : c.recordFree (c.issuer p.sess).1 = true) :
    (∀ y, (d.trigger t).dev.trans = some y → y.handle = (s.ctxOf op p c).handle →
      runCommand op p s body =
        .next { s with chip := ((d.trigger t).accepts p (s.ctxOf op p c)).commitPoint (s.ctxOf op p c).handle }) ∧
    ((∀ y, (d.trigger t).dev.trans = some y → y.handle ≠ (s.ctxOf op p c).handle) →
      runCommand op p s body = .next { s with chip := (d.trigger t).accepts p (s.ctxOf op p c) }) :=
  ⟨fun _ ht hy => runCommand_accepted_committed h (hb.trans (Chip.modeAnswer_begun ht hy)) hr,
    fun hw => runCommand_accepted h (hb.trans (Chip.modeAnswer_waiting hw)) hr⟩

theorem bodyEnterQuiet_asks (hw : fld x.ps 0 4 < 32) (hm : c.dev.mode.isRole = true) (hs : c.gear.shift = none)
    (hl : c.limpMissing = false) :
    bodyEnterQuiet x c = ({ c with dev := { c.dev with wake := fld x.ps 0 4 } } : Chip).modeAnswer x
      { target := .quiet, reason := 0x010F, handle := x.handle } := by
  have hnone : c.shiftHandle = none := by unfold Chip.shiftHandle; rw [hs]; rfl
  unfold bodyEnterQuiet
  dsimp only
  rw [if_neg (by omega), if_neg (by simp [hm]), hnone]
  dsimp only
  rw [if_neg (by simp [hl])]

theorem bodyExitQuiet_asks (hm : c.dev.mode = .quiet) :
    bodyExitQuiet x c = c.modeAnswer x { target := c.dev.quietFrom, reason := 0x010F, handle := x.handle } := by
  unfold bodyExitQuiet
  rw [if_neg (by simp [hm])]

theorem bodyResetDevice_requests (hk : fld x.ps 0 1 = 1 ∨ fld x.ps 0 1 = 2) (hr : rsvd x.ps 2 2 = true)
    (hf : fld x.ps 1 1 = 1 ∨ fld x.ps 1 1 = 0 ∧ c.resetBlocker = none) :
    bodyResetDevice x c = (ok, { c with dev := { c.dev with resetReq := fld x.ps 0 1 } }) := by
  have hblock : (if fld x.ps 1 1 = 1 then none else c.resetBlocker) = none := by
    obtain h | ⟨-, h⟩ := hf
    · exact if_pos h
    · rw [h, ite_self]
  unfold bodyResetDevice
  dsimp only
  rw [if_neg (by simp [hr]; omega), hblock]

theorem bodyResetDevice_blocked {h : Nat} (hk : fld x.ps 0 1 = 1 ∨ fld x.ps 0 1 = 2) (hr : rsvd x.ps 2 2 = true)
    (hf : fld x.ps 1 1 = 0) (hb : c.resetBlocker = some h) : bodyResetDevice x c = (err stBusy 0 h, c) := by
  unfold bodyResetDevice
  dsimp only
  rw [if_neg (by simp [hr, hf]; omega), if_neg (by omega), hb]
  rfl

end

/-- Changing element `i` leaves every other one. -/
theorem nth_updAt_ne {α : Type} (d : α) (f : α → α) (l : List α) {i j : Nat} (h : j ≠ i) : nth d (updAt f l i) j = nth d l j := by
  induction l generalizing i j with
  | nil => rfl
  | cons a l ih =>
    cases i with
    | zero =>
      cases j with
      | zero => exact absurd rfl h
      | succ j => rfl
    | succ i =>
      cases j with
      | zero => rfl
      | succ j => exact ih fun hij => h (congrArg Nat.succ hij)

/-- Settles O18. -/
theorem modeCommandsAct : Obligations.ModeCommandsAct := by
  unfold Obligations.ModeCommandsAct
  intro s p c
  refine ⟨fun hh hroom => ?_, fun d x hh hw hm hs hl hrec hx hd => ?_, fun d x hh hm hrec hx hd => ?_,
    fun hh hk hr => ⟨fun hf => ?_, fun h hf hb => ?_⟩, fun hh => ?_, fun hh hroom => ?_, fun m hh hm => ?_⟩
  · exact runCommand_ok hh rfl (by simpa using hroom)
  · subst hx hd
    exact runCommand_modeAnswer hh (bodyEnterQuiet_asks hw hm hs hl) hrec
  · subst hx hd
    exact runCommand_modeAnswer hh (bodyExitQuiet_asks hm) hrec
  · exact runCommand_ok_empty hh (bodyResetDevice_requests hk hr hf)
  · exact runCommand_err hh (bodyResetDevice_blocked hk hr hf hb) (by decide)
  · exact runCommand_held hh rfl
  · exact runCommand_ok hh rfl hroom
  · subst hm
    exact ⟨runCommand_ok_empty hh rfl, fun i hi => nth_updAt_ne [] _ _ hi⟩

end Sys2Proof.Machine
end

section
/-!
PROOFS. Chapter 03: firmware update, the rollback counter and the role lock.
-/
namespace Sys2Proof.Machine

/-! ### Staging and committing an image (R86, R87) -/

section
variable {x : Ctx} {c : Chip}

theorem bodyImageWrite_appends (hr : rsvd x.ps 4 4 = true) (ho : c.dev.stagingOwner = none ∨ c.dev.stagingOwner = some x.sess)
    (hlen : fld x.ps 0 4 + (x.ps.drop 8).length ≤ 29360128)
    (hoff : fld x.ps 0 4 = 0 ∨ c.dev.stagingOwner = some x.sess ∧ fld x.ps 0 4 = c.dev.staged)
    (hgk : c.gkCommand x 1 (stagingAddr c.stagingSlot (fld x.ps 0 4)) (x.ps.drop 8).length = (c, true)) :
    bodyImageWrite x c =
      (ok, { c with
        flash := c.flash.putSlot c.stagingSlot ((if fld x.ps 0 4 = 0 then [] else c.flash.slotImg c.stagingSlot) ++ x.ps.drop 8),
        dev := { c.dev with stagingOwner := some x.sess, staged := fld x.ps 0 4 + (x.ps.drop 8).length } }) := by
  have hseq : (fld x.ps 0 4 != 0 && (c.dev.stagingOwner.isNone || fld x.ps 0 4 != c.dev.staged)) = false := by
    obtain h | ⟨h, hst⟩ := hoff
    · simp [h]
    · simp [h, hst]
  unfold bodyImageWrite
  dsimp only
  rw [if_neg (by simp [hr]), if_neg (by obtain h | h := ho <;> simp [h]), if_neg (by omega), hseq, if_neg (by decide), hgk]
  rfl

theorem bodyImageCommit_accepts (hc : c.dev.commit = none) (ho : c.dev.stagingOwner = some x.sess) (hst : fld x.ps 0 4 = c.dev.staged)
    (himg : fld x.ps 0 4 = fld (c.flash.slotImg c.stagingSlot) 8 4) (hlen : fld x.ps 0 4 ≤ 29360128) :
    bodyImageCommit x c = (accepted, { c with dev := { c.dev with commit := some (x.handle, fld x.ps 0 4) } }) := by
  unfold bodyImageCommit
  dsimp only
  rw [hc, ho]
  dsimp only
  rw [if_neg (by simp), if_neg (by simp [← hst, ← himg]; omega)]

end

/-- An open IMAGE_COMMIT and its staging are over. -/
def Chip.stagingEnded (c : Chip) : Chip := { c with dev := { c.dev with commit := none, stagingOwner := none, staged := 0 } }

section
variable {c : Chip} {h len : Nat} {f : Fuses} (hc : c.dev.commit = some (h, len)) (hn : c.cancelled h = false)
include hc hn

theorem imageCommitDone_of_sigFail (hv : verifyImage f (c.flash.slotImg c.stagingSlot) = .sigFail) (m : Bool) :
    imageCommitDone m f c = c.stagingEnded.complete h 0x0301 0x0103 0 := by
  unfold imageCommitDone
  simp only [hc, hn, hv]
  rfl

theorem imageCommitDone_of_rolledBack (hv : verifyImage f (c.flash.slotImg c.stagingSlot) = .rolledBack) (m : Bool) :
    imageCommitDone m f c = c.stagingEnded.complete h 0x0301 0x0102 0 := by
  unfold imageCommitDone
  simp only [hc, hn, hv]
  rfl

/-- An image that passes is entered in the directory, unless the flash fails. -/
theorem imageCommitDone_of_good {idx svn ver bld : Nat}
    (hv : verifyImage f (c.flash.slotImg c.stagingSlot) = .good idx svn ver bld) :
    imageCommitDone true f c =
        (({ c.stagingEnded with flash := c.flash.dirUpdate c.stagingSlot }).bump 8 1).complete h 0 0 0 ∧
      imageCommitDone false f c = c.stagingEnded.complete h 0x0401 0 0 := by
  unfold imageCommitDone
  simp only [hc, hn, hv]
  exact ⟨rfl, rfl⟩

end

/-! ### Fuses (R74, R80, R88) -/

theorem bodyCommitRollback_accepts {x : Ctx} {c : Chip} (hm : c.dev.mode.isRole = true) (hr : c.dev.rollback = none)
    (hsvn : c.dev.runSvn ≤ 64) (hlt : x.fuses.rollback < c.dev.runSvn) :
    bodyCommitRollback x c =
      ({ accepted with committed := true }, { c with dev := { c.dev with rollback := some x.handle } }) := by
  unfold bodyCommitRollback
  rw [if_neg (by simp [hm]), hr]
  dsimp only
  rw [if_neg (by simp; omega)]

/-- The bits left to blow are those between the counter and the image's SVN. -/
theorem Fuses.rollback_add_left {f : Fuses} {svn : Nat} (h64 : svn ≤ 64) (hle : f.rollback ≤ svn) :
    f.rollback + f.rollbackLeft svn = svn := by
  unfold Fuses.rollbackLeft
  rw [show Nat.min 64 svn = svn from Nat.min_eq_right h64]
  omega

theorem execCommitRollbackDone_blown {s : State} {h : Nat} (hr : s.chip.dev.rollback = some h) (h64 : s.chip.dev.runSvn ≤ 64)
    (hle : s.fuses.rollback ≤ s.chip.dev.runSvn) :
    execCommitRollbackDone true s =
      .next { s with chip := ({ s.chip with dev := { s.chip.dev with rollback := none } } : Chip).complete h 0 0 0,
                     fuses := { s.fuses with rollback := s.chip.dev.runSvn } } := by
  unfold execCommitRollbackDone
  rw [hr]
  dsimp only
  rw [if_pos rfl, Fuses.rollback_add_left h64 hle]
  rfl

section
variable {s : State} {p : Packet} {c c' : Chip} {g : Fuses}

/-- LOCK_ROLE answered with STATUS_OK. -/
theorem execLockRole_ok (hh : s.heard 0x010B p c) (hb : bodyLockRole (s.ctxOf 0x010B p c) c s.fuses = (ok, c', g)) :
    execLockRole p s = .next { s with chip := c'.replied p, fuses := g } := by
  have hans := Chip.answer_ok c c' s.fuses g 0x010B p s.fuses s.guard [] 0 (Nat.zero_le _)
  unfold execLockRole
  rw [runCommandA_heard hh, hb]
  exact congrArg (fun r : Chip × Fuses => Host.Outcome.next { s with chip := r.1, fuses := r.2 }) hans

/-- LOCK_ROLE answered with a refusal or an internal error. -/
theorem execLockRole_err {st rs : Nat} (hh : s.heard 0x010B p c)
    (hb : bodyLockRole (s.ctxOf 0x010B p c) c s.fuses = (err st rs, c', g)) (hst : st ≠ 1) :
    execLockRole p s = .next { s with chip := c'.refused p st rs, fuses := g } := by
  have hans := Chip.answer_err c c' s.fuses g 0x010B p s.fuses s.guard st rs 0 hst
  unfold execLockRole
  rw [runCommandA_heard hh, hb]
  exact congrArg (fun r : Chip × Fuses => Host.Outcome.next { s with chip := r.1, fuses := r.2 }) hans

end

section
variable {x : Ctx} {c : Chip} {f : Fuses} (hr : fld x.ps 0 1 ≤ 2) (hz : rsvd x.ps 1 3 = true)
include hr hz

theorem bodyLockRole_refused (h : bitOf f.roleLock.toNat 2 = true ∨ 1 < f.lifecycle) :
    bodyLockRole x c f = (err stState 0x010E, c, f) := by
  unfold bodyLockRole
  dsimp only
  rw [if_neg (by simp [hz]; omega), if_pos (by simpa using h)]

/-- The field is blown once, and read back (R74). -/
theorem bodyLockRole_blows {want : BitVec 3} (hopen : bitOf f.roleLock.toNat 2 = false) (hl : f.lifecycle ≤ 1)
    (hw : want = BitVec.ofNat 3 (4 + fld x.ps 0 1)) :
    bodyLockRole x c f =
      (if (f.blowRole want (Config.fuseBlown c.clk.fresh)).roleLock &&& want = want then ok else err stInternal, c.nextFresh,
        f.blowRole want (Config.fuseBlown c.clk.fresh)) := by
  subst hw
  unfold bodyLockRole
  dsimp only
  rw [if_neg (by simp [hz]; omega), if_neg (by simp [hopen]; omega)]
  simp only [beq_iff_eq]
  split <;> rfl

end

/-- Settles O19. -/
theorem firmwareUpdateActs : Obligations.FirmwareUpdateActs := by
  unfold Obligations.FirmwareUpdateActs
  intro s p c
  refine ⟨fun hh hr ho hlen hoff hgk => ?_, fun hh hc ho hst himg hlen hrec => ?_,
    fun h len hc hn => ⟨fun idx svn ver bld hv => ?_, fun m hv => ?_, fun m hv => ?_⟩,
    fun hh hm hr hsvn hlt hrec => ?_, fun h hr h64 hle => execCommitRollbackDone_blown hr h64 hle,
    fun hh hr hz => ⟨fun want g hopen hl hw hg => ?_, fun hlock => ?_⟩⟩
  · exact runCommand_ok_empty hh (bodyImageWrite_appends hr ho hlen hoff hgk)
  · exact runCommand_accepted hh (bodyImageCommit_accepts hc ho hst himg hlen) hrec
  · obtain ⟨hdone, hmedia⟩ := imageCommitDone_of_good hc hn hv
    exact ⟨State.becomes_of_onChip (f := imageCommitDone true s.fuses) rfl hdone,
      State.becomes_of_onChip (f := imageCommitDone false s.fuses) rfl hmedia⟩
  · exact State.becomes_of_onChip (f := imageCommitDone m s.fuses) rfl (imageCommitDone_of_sigFail hc hn hv m)
  · exact State.becomes_of_onChip (f := imageCommitDone m s.fuses) rfl (imageCommitDone_of_rolledBack hc hn hv m)
  · exact runCommand_accepted_committed hh (bodyCommitRollback_accepts hm hr hsvn hlt) hrec
  · have hblow : g = s.fuses.blowRole want (Config.fuseBlown c.clk.fresh) := hg
    subst hblow
    have hbody := bodyLockRole_blows (x := s.ctxOf 0x010B p c) (c := c) hr hz hopen hl hw
    refine ⟨fun hblown => ?_, fun hblown => ?_⟩
    · rw [if_pos hblown] at hbody
      exact execLockRole_ok hh hbody
    · rw [if_neg hblown] at hbody
      exact execLockRole_err hh hbody (by decide)
  · exact execLockRole_err hh (bodyLockRole_refused (x := s.ctxOf 0x010B p c) hr hz hlock) (by decide)

end Sys2Proof.Machine
end

section
/-!
SUPPORT. Reading a trunk's lanes and framing after a change of either, and after what the trunk families share: framing counters, sideband
messages and the line.
-/
namespace Sys2Proof

/-- Of two writes of one entry the second stands. -/
@[simp] theorem Tab.set_set {α : Type} (t : Tab α) (k : Nat) (v w : α) : (t.set k v).set k w = t.set k w := by
  induction t with
  | nil => simp [Tab.set]
  | cons e r ih =>
    obtain ⟨k', v'⟩ := e
    simp only [Tab.set]
    split
    · simp [Tab.set]
    · split
      · simp [Tab.set]
      · simp [Tab.set, *]

/-- Entries changed in place one after another, each at most once: an entry listed and chosen is changed, any other stays. -/
theorem Tab.get_foldl_set {α : Type} (d : α) (p : Nat → Bool) (g : Nat → α → α) {l : List Nat} (hl : l.Nodup) (t : Tab α) (i : Nat) :
    (l.foldl (fun t j => if p j then t.set j (g j (t.get d j)) else t) t).get d i =
      if i ∈ l ∧ p i = true then g i (t.get d i) else t.get d i := by
  induction l generalizing t with
  | nil => simp
  | cons j l ih =>
    obtain ⟨hj, hl⟩ := List.nodup_cons.1 hl
    rw [List.foldl_cons, ih hl]
    by_cases hij : i = j
    · subst hij
      cases hp : p i <;> simp [hj]
    · cases hp : p j <;> simp [hij, Tab.get_set_ne]

theorem sat64_le {x d : Nat} : x < 2 ^ 64 → x ≤ sat64 x d := by
  unfold sat64 satAdd
  split <;> omega

end Sys2Proof

namespace Sys2Proof.Machine

variable (c : Chip) (n : Nat)

/-! ### One trunk's lanes and framing -/

@[simp] theorem Chip.laneOf_setLane (l : LanePort) : (c.setLane n l).laneOf n = l := Tab.get_set ..
@[simp] theorem Chip.frmOf_setFrm (f : Framing) : (c.setFrm n f).frmOf n = f := Tab.get_set ..
@[simp] theorem Chip.frmOf_setLane (m : Nat) (l : LanePort) : (c.setLane m l).frmOf n = c.frmOf n := rfl
@[simp] theorem Chip.laneOf_setFrm (m : Nat) (f : Framing) : (c.setFrm m f).laneOf n = c.laneOf n := rfl
@[simp] theorem Chip.sealOf_setLane (m : Nat) (l : LanePort) : (c.setLane m l).sealOf n = c.sealOf n := rfl
@[simp] theorem Chip.sealOf_setFrm (m : Nat) (f : Framing) : (c.setFrm m f).sealOf n = c.sealOf n := rfl
@[simp] theorem Chip.laneOf_nextFresh : c.nextFresh.laneOf n = c.laneOf n := rfl
@[simp] theorem Chip.frmOf_nextFresh : c.nextFresh.frmOf n = c.frmOf n := rfl
@[simp] theorem Chip.sealOf_nextFresh : c.nextFresh.sealOf n = c.sealOf n := rfl

@[simp] theorem Chip.setLane_setLane (l k : LanePort) : (c.setLane n l).setLane n k = c.setLane n k := by
  simp [Chip.setLane]

@[simp] theorem Chip.setFrm_setFrm (f g : Framing) : (c.setFrm n f).setFrm n g = c.setFrm n g := by
  simp [Chip.setFrm]

@[simp] theorem Chip.countLane_setLane (l : LanePort) (g : TrunkCount → TrunkCount) :
    (c.setLane n l).countLane n g = c.setLane n { l with cnt := g l.cnt } := by
  simp [Chip.countLane]

@[simp] theorem Chip.inData_setFrm (m : Nat) (f : Framing) : (c.setFrm m f).inData n = c.inData n := rfl

@[simp] theorem Chip.laneOf_post (x r d st : Nat) : (c.post x r d st).laneOf n = c.laneOf n := by simp [Chip.laneOf]
@[simp] theorem Chip.frmOf_post (x r d st : Nat) : (c.post x r d st).frmOf n = c.frmOf n := by simp [Chip.frmOf]

/-! ### Framing counters -/

@[simp] theorem Chip.countFrm_lane (i d : Nat) : (c.countFrm n i d).lane = c.lane := by
  unfold Chip.countFrm; dsimp only; split <;> rfl
@[simp] theorem Chip.countFrm_clk (i d : Nat) : (c.countFrm n i d).clk = c.clk := by
  unfold Chip.countFrm; dsimp only; split <;> rfl
@[simp] theorem Chip.countFrm_fab (i d : Nat) : (c.countFrm n i d).fab = c.fab := by
  unfold Chip.countFrm; dsimp only; split <;> rfl
@[simp] theorem Chip.countFrm_out (i d : Nat) : (c.countFrm n i d).out = c.out := by
  unfold Chip.countFrm; dsimp only; split <;> rfl
@[simp] theorem Chip.countFrm_keys (i d : Nat) : (c.countFrm n i d).keys = c.keys := by
  unfold Chip.countFrm; dsimp only; split <;> rfl
@[simp] theorem Chip.countFrm_sealing (i d : Nat) : (c.countFrm n i d).sealing = c.sealing := by
  unfold Chip.countFrm; dsimp only; split <;> rfl

@[simp] theorem Chip.laneOf_countFrm (m i d : Nat) : (c.countFrm m i d).laneOf n = c.laneOf n := by simp [Chip.laneOf]
@[simp] theorem Chip.sealOf_countFrm (m i d : Nat) : (c.countFrm m i d).sealOf n = c.sealOf n := by simp [Chip.sealOf]
@[simp] theorem Chip.inData_countFrm (m i d : Nat) : (c.countFrm m i d).inData n = c.inData n := by simp [Chip.inData]

/-- Counting changes nothing of the framing but the counter. -/
@[simp] theorem Chip.frmOf_countFrm (i d : Nat) :
    (c.countFrm n i d).frmOf n = { c.frmOf n with cnt := (c.frmOf n).cnt.set i (sat64 ((c.frmOf n).cnt.get 0 i) d) } := by
  unfold Chip.countFrm; dsimp only; split <;> simp

/-! ### The sideband and the line -/

@[simp] theorem Chip.laneOf_sbPeer (m t : Nat) (b : Bytes) : (c.sbPeer m t b).laneOf n = c.laneOf n := rfl

@[simp] theorem Chip.frmOf_sbPeer (m t : Nat) (b : Bytes) : (c.sbPeer m t b).frmOf n = c.frmOf n := rfl

/-- A message to the peer leaves on the sideband (Table 18.2). -/
theorem Chip.sbPeer_sends (t : Nat) (b : Bytes) : sbOut n false t (c.tpOf n).msgId b ∈ (c.sbPeer n t b).out :=
  List.mem_append_right _ (List.mem_singleton.2 rfl)

@[simp] theorem Chip.frmOf_lineRx (m : Nat) (rx : List (List Nat)) : (c.lineRx m rx).2.frmOf n = c.frmOf n := rfl
@[simp] theorem Chip.sealOf_lineRx (m : Nat) (rx : List (List Nat)) : (c.lineRx m rx).2.sealOf n = c.sealOf n := rfl
@[simp] theorem Chip.lineRx_clk (m : Nat) (rx : List (List Nat)) : (c.lineRx m rx).2.clk = c.clk := rfl
@[simp] theorem Chip.lineRx_fab (m : Nat) (rx : List (List Nat)) : (c.lineRx m rx).2.fab = c.fab := rfl
@[simp] theorem Chip.lineRx_out (m : Nat) (rx : List (List Nat)) : (c.lineRx m rx).2.out = c.out := rfl
@[simp] theorem Chip.lineRx_keys (m : Nat) (rx : List (List Nat)) : (c.lineRx m rx).2.keys = c.keys := rfl

/-- What comes over the line leaves the phase of the trunk. -/
@[simp] theorem Chip.inData_lineRx (rx : List (List Nat)) : (c.lineRx n rx).2.inData n = c.inData n := by
  simp [Chip.inData, Chip.lineRx, LanePort.lineRx]

end Sys2Proof.Machine
end

section
/-!
SUPPORT. What posting an event does to the event log and the outbox: the log takes one record, and what was sent stays sent.
-/
namespace Sys2Proof.Machine

variable (c : Chip)

/-! The event queues do not touch the log. -/

@[simp] theorem Chip.pushRec_log (k : Nat) (e : EventRec) : (c.pushRec k e).cmd.log = c.cmd.log := by
  unfold Chip.pushRec; dsimp only; split
  · split
    · rfl
    · simp
  · rfl
@[simp] theorem Chip.flushOverflow_log (k : Nat) : (c.flushOverflow k).cmd.log = c.cmd.log := by
  unfold Chip.flushOverflow; dsimp only; split
  · rfl
  split
  · exact c.pushRec_log k (c.overflowRec k)
  · rfl
@[simp] theorem Chip.postQueue_log (k : Nat) (e : EventRec) : (c.postQueue k e).cmd.log = c.cmd.log := by
  unfold Chip.postQueue; dsimp only; split
  · exact c.flushOverflow_log k
  · exact c.flushOverflow_log k
  · rw [Chip.pushRec_log, Chip.flushOverflow_log]
@[simp] theorem Chip.postMgr_log (e : EventRec) : (c.postMgr e).cmd.log = c.cmd.log := by
  unfold Chip.postMgr; repeat' split
  all_goals simp

/-- A log that is not full takes the record at its end, under the next sequence number (R58). -/
theorem Chip.postLog_log {c : Chip} (h : c.cmd.log.length < 4096) (e : EventRec) :
    (c.postLog e).cmd.log = c.cmd.log ++ [{ e with seq := c.cmd.logSeq }] := by
  unfold Chip.postLog
  dsimp only
  rw [Chip.irqCause_cmd]
  exact if_neg (by simp; omega)

theorem Chip.post_log {c : Chip} (h : c.cmd.log.length < 4096) (x r d st : Nat) :
    (c.post x r d st).cmd.log = c.cmd.log ++ [{ c.event x r d st with seq := c.cmd.logSeq }] := by
  rw [← Chip.postLog_log h]
  unfold Chip.post
  dsimp only
  split <;> simp

/-! What was sent stays sent. -/

section
variable {c} {l : List Out} (h : l <+: c.out)
include h

theorem Chip.dmaWrite_keeps_out (vi a : Nat) (d : Bytes) : l <+: (c.dmaWrite vi a d).out := by
  unfold Chip.dmaWrite; split
  · exact h.trans (List.prefix_append ..)
  · exact h
theorem Chip.raise_keeps_out (v : Nat) : l <+: (c.raise v).out := by
  unfold Chip.raise; dsimp only; split
  · exact h
  · exact h.trans (List.prefix_append ..)
theorem Chip.raiseRing_keeps_out (vi rv t : Nat) (q : Bool) : l <+: (c.raiseRing vi rv t q).out := by
  unfold Chip.raiseRing
  extract_lets i v x passed
  split
  · exact h
  split
  · exact Chip.raise_keeps_out h v
  · exact h
theorem Chip.irqCause_keeps_out (b : Nat) : l <+: (c.irqCause b).out := by
  unfold Chip.irqCause; dsimp only; split
  · exact h
  split
  · apply Chip.raise_keeps_out
    exact h
  · exact h
theorem Chip.postLog_keeps_out (e : EventRec) : l <+: (c.postLog e).out := by
  unfold Chip.postLog
  apply Chip.irqCause_keeps_out
  exact h
theorem Chip.pushRec_keeps_out (k : Nat) (e : EventRec) : l <+: (c.pushRec k e).out := by
  unfold Chip.pushRec; dsimp only; split
  · split
    · exact h
    · apply Chip.raiseRing_keeps_out
      apply Chip.dmaWrite_keeps_out
      apply Chip.dmaWrite_keeps_out
      exact h
  · exact h
theorem Chip.flushOverflow_keeps_out (k : Nat) : l <+: (c.flushOverflow k).out := by
  unfold Chip.flushOverflow; dsimp only; split
  · exact h
  split
  · exact Chip.pushRec_keeps_out h k (c.overflowRec k)
  · exact h
theorem Chip.postQueue_keeps_out (k : Nat) (e : EventRec) : l <+: (c.postQueue k e).out := by
  have hf := Chip.flushOverflow_keeps_out h k
  unfold Chip.postQueue; dsimp only; split
  · exact hf
  · exact hf
  · exact Chip.pushRec_keeps_out hf k e
theorem Chip.postMgr_keeps_out (e : EventRec) : l <+: (c.postMgr e).out := by
  unfold Chip.postMgr; split
  · split
    · exact Chip.postQueue_keeps_out h _ e
    · exact h
  · split
    · exact Chip.postQueue_keeps_out h _ e
    · exact h
  · exact h
theorem Chip.post_keeps_out (x r d st : Nat) : l <+: (c.post x r d st).out := by
  have hm := Chip.postMgr_keeps_out (Chip.postLog_keeps_out h (c.event x r d st)) (c.event x r d st)
  unfold Chip.post; dsimp only; split
  · exact hm
  · exact hm

end

end Sys2Proof.Machine
end

section
/-!
PROOFS. Chapter 04: the rows of training (Sequence 04.1).
-/
namespace Sys2Proof.Machine

/-! ### Attempts (R101) -/

section
variable {s : State} {n : Fin 4}

theorem execTrainingAttemptStart_starts (hp : (s.chip.laneOf n.val).phase = .idle) (hm : s.chip.mayTrain n.val = true) :
    execTrainingAttemptStart n s = .next { s with chip := s.chip.startAttempt n.val } := by
  simp [execTrainingAttemptStart, onChip, hp, hm]

/-- The wait is over (R101): the next attempt starts where the trunk may train. -/
theorem execTrainRetryTimer_starts {b : Bool} (hp : (s.chip.laneOf n.val).phase = .backoff b) (hm : s.chip.mayTrain n.val = true) :
    execTrainRetryTimer n s = .next { s with chip := s.chip.startAttempt n.val } := by
  simp [execTrainRetryTimer, onChip, hp, hm]

/-- The wait is over where the trunk may not train (R101): it is idle. -/
theorem execTrainRetryTimer_idles {b : Bool} (hp : (s.chip.laneOf n.val).phase = .backoff b) (hm : s.chip.mayTrain n.val = false) :
    execTrainRetryTimer n s =
      .next { s with chip := s.chip.setLane n.val { s.chip.laneOf n.val with phase := .idle } } := by
  simp [execTrainRetryTimer, onChip, hp, hm]

/-! ### TRAIN_STEP and LINK_CAPS are sent again until the peer's have come (R99, R149) -/

theorem Chip.sendStep_of_train {c : Chip} {n k : Nat} (hp : (c.laneOf n).phase = .train k) :
    c.sendStep n = c.sbPeer n 0x41 ((c.laneOf n).stepBody n k) := by
  simp [Chip.sendStep, hp]

/-- Whether this end's TRAIN_STEP goes out again depends on the peer's with the same STEP and STATE. -/
theorem execTrainStepRepeat_in_step {k : Nat} (hp : (s.chip.laneOf n.val).phase = .train k) :
    execTrainStepRepeat n s = onChip s fun c =>
      if (c.laneOf n.val).peerGot.contains (k, (c.laneOf n.val).mine) then c
      else c.sbPeer n.val 0x41 ((c.laneOf n.val).stepBody n.val k) := by
  simp only [execTrainStepRepeat, onChip, hp, Chip.sendStep_of_train hp]

theorem execLinkCapsRepeat_sends (hp : (s.chip.laneOf n.val).phase = .train 1) (hc : (s.chip.laneOf n.val).caps = none) :
    execLinkCapsRepeat n s = .next { s with chip := s.chip.sbPeer n.val 0x40 (s.chip.linkCapsBody n.val) } := by
  simp [execLinkCapsRepeat, onChip, hp, hc]

end

section
variable {c : Chip} {n : Nat} {l : LanePort}

/-! ### The peer's messages -/

/-- A TRAIN_STEP of the present step is noted, and may end the step; a refused FOLLOW is looked at in step 1 only (R94, R99). -/
theorem Chip.trainStepRx_present {k : Nat} (hl : l = c.laneOf n) (hp : l.phase = .train k) (hk : k ≠ 1) (st depth rxset precode : Nat) :
    c.trainStepRx n k st depth rxset precode =
      ((c.setLane n { l with peerDepth := depth,
                             peerGot := if l.peerGot.contains (k, st) then l.peerGot else l.peerGot ++ [(k, st)],
                             peerRxset := if k = 7 ∧ st = 1 then rxset % 16 else l.peerRxset,
                             peerPrecode := if k = 9 ∧ st = 1 then precode % 16 else l.peerPrecode,
                             peerDone := l.peerDone || decide (st = 1) }).setDepths n).stepEnd n := by
  subst hl
  simp [Chip.trainStepRx, hp, hk]

/-- A stamp that names one of this end's own gives a result, and the next stamp goes out while results are missing (R116). -/
theorem Chip.flightStamp_result (hl : l = c.laneOf n) (hp : l.phase = .train 8) {i tb tp rb rp a t1 : Nat} (hi : i ≤ 15)
    (hn : l.results.length < 15) (ht : l.stamps.find rb = some t1) (m : Nat) :
    c.flightStamp n i tb tp rb rp a m =
      (c.setLane n { l with lastBlock := tb, lastBlockAt := a,
                            results := l.results ++ [Int.tdiv (((a : Int) - t1) - ((tp : Int) - rp)) 2] }).sendStamp n
        (l.results.length + 1) := by
  subst hl
  have hi' : ¬ i > 15 := by omega
  have hn' : ¬ (c.laneOf n).results.length ≥ 16 := by omega
  have hlen : (c.laneOf n).results.length + 1 < 16 := by omega
  have hmin : Nat.min 15 ((c.laneOf n).results.length + 1) = (c.laneOf n).results.length + 1 := Nat.min_eq_right (by omega)
  simp only [Chip.flightStamp, hp, ht, if_neg hi', if_neg hn', List.length_append, List.length_singleton, if_pos hlen, hmin]

/-- The revision that LINK_CAPS with body `b` and the class in use allow: 2, 1, or 0 for none (R149). -/
def LanePort.commonRev (l : LanePort) (b : Bytes) (cls : Nat) : Nat :=
  if bitOf (fld b 0 1) 1 = true ∧ 2 ≤ l.use.maxRev ∧ 2 ≤ fld b 2 1 ∧ (cls = 1 ∨ cls = 2 ∨ cls = 3) then 2
  else if bitOf (fld b 0 1) 0 = true ∧ 1 ≤ l.use.maxRev ∧ 1 ≤ fld b 2 1 then 1 else 0

/-- The cable class that both ends use: their common one, or 0. -/
def Chip.commonCls (c : Chip) (n : Nat) (b : Bytes) : Nat := if c.cableClass n = fld b 9 1 then c.cableClass n else 0

/-- The lanes once LINK_CAPS has fixed class, revision and preset (R149, Table 04.4), the widest width not yet. -/
def LanePort.capped (l : LanePort) (b : Bytes) (rev cls : Nat) : LanePort :=
  { l with caps := some (linkCapsOf b), revision := rev, cls,
           tx := l.tx.mapAll fun _ x => { x with pre := (startPreset cls).1, post := (startPreset cls).2 },
           rx := l.rx.mapAll fun _ x => { x with peerPre := (startPreset cls).1, peerPost := (startPreset cls).2 } }

theorem LanePort.commonRev_eq (b : Bytes) (cls : Nat) :
    (if bitOf (linkCapsOf b).revs 1 && l.use.maxRev ≥ 2 && (linkCapsOf b).maxRev ≥ 2 && classRev2 cls then 2
      else if bitOf (linkCapsOf b).revs 0 && l.use.maxRev ≥ 1 && (linkCapsOf b).maxRev ≥ 1 then 1 else 0) = l.commonRev b cls := by
  simp [LanePort.commonRev, classRev2, linkCapsOf, and_assoc, or_assoc]

/-- LINK_CAPS in step 1 fails the attempt where the ends have no common revision, and else ends this end's work of the step (R149). -/
theorem Chip.linkCapsRx_step1 (hl : l = c.laneOf n) (hp : l.phase = .train 1) {b : Bytes} {cls rev : Nat} (hc : cls = c.commonCls n b)
    (hr : rev = l.commonRev b cls) {d : Chip}
    (hd : d = c.setLane n { l.capped b rev cls with widest := (l.capped b rev cls).widths.headD 0 }) :
    c.linkCapsRx n b = if rev = 0 then c.failAttempt n 0x0420 true
      else (d.setFrm n { d.frmOf n with peerFeatures := fld b 4 2, peerRole := fld b 8 1 }).stepDone n := by
  rw [← LanePort.commonRev_eq] at hr
  subst hl hd hr hc
  unfold Chip.linkCapsRx
  dsimp only
  split
  next => rfl
  next hno => exact absurd hp hno

theorem LanePort.commonRev_none {b : Bytes} (h0 : bitOf (fld b 0 1) 0 = false) (h1 : bitOf (fld b 0 1) 1 = false) (cls : Nat) :
    l.commonRev b cls = 0 := by
  simp [LanePort.commonRev, h0, h1]

theorem Chip.linkCapsRx_outside (h : ∀ k, (c.laneOf n).phase ≠ .train k) (b : Bytes) : c.linkCapsRx n b = c := by
  unfold Chip.linkCapsRx
  dsimp only
  split
  next hp => exact absurd hp (h 1)
  next => rfl

/-! ### This end's work of a step -/

theorem Chip.localDone_measured {k : Nat} {w : StepWork} {l' : LanePort} (hp : (c.laneOf n).phase = .train k)
    (hm : (c.laneOf n).measure k w = some (.ok l')) : c.localDone n w = (c.setLane n l').stepDone n := by
  simp only [Chip.localDone, hp, hm]

theorem Chip.localDone_failed {k e : Nat} {w : StepWork} (hp : (c.laneOf n).phase = .train k)
    (hm : (c.laneOf n).measure k w = some (.error e)) : c.localDone n w = c.failAttempt n e true := by
  simp only [Chip.localDone, hp, hm]

theorem Chip.localDone_step7 (hp : (c.laneOf n).phase = .train 7) :
    c.localDone n .check = (c.setLane n { c.laneOf n with ownRxset := (c.laneOf n).goodSet }).stepDone n := by
  simp [Chip.localDone, hp, LanePort.measure]

theorem LanePort.measure_clock_found {duty : Nat} (h : duty < 40 ∨ 60 < duty) :
    l.measure 2 (.clock duty true) = some (.ok { l with clkInverted := decide (duty < 40) }) := by
  have hno : ¬ (!true || (decide (40 ≤ duty) && decide (duty ≤ 60))) = true := by simp; omega
  simp only [LanePort.measure, if_neg hno]

theorem LanePort.measure_clock_bad {duty : Nat} {locked : Bool} (h : locked = false ∨ (40 ≤ duty ∧ duty ≤ 60)) :
    l.measure 2 (.clock duty locked) = some (.error 0x0402) := by
  have hyes : (!locked || (decide (40 ≤ duty) && decide (duty ≤ 60))) = true := by simpa using h
  simp only [LanePort.measure, if_pos hyes]

end

/-- Settles O20: the rows one by one. -/
theorem trainingRowsAct : Obligations.TrainingRowsAct := by
  unfold Obligations.TrainingRowsAct
  intro s n l hl
  subst hl
  refine ⟨fun hp hm => execTrainingAttemptStart_starts hp hm, fun b hp hm => ?_, fun b hp hm => ?_, fun k hp => ⟨fun hg => ?_, fun hg => ?_⟩,
    fun k st depth rxset precode hp hk => ?_, fun duty hp hd => ?_, fun duty locked hp hd => ?_, fun hp => ?_, rfl, fun _ _ => rfl,
    fun i tb tp rb rp a m t1 r hp hi hn ht hr => ?_, fun b hp h0 h1 => ?_, fun b cls rev t g hp hcls hrev h0 ht hg d hd => ?_,
    fun b hp => ?_, fun b hp hc hb => ?_⟩
  · exact execTrainRetryTimer_starts hp hm
  · exact execTrainRetryTimer_idles hp hm
  · exact State.becomes_of_onChip (execTrainStepRepeat_in_step hp) (if_neg (by rw [hg]; decide))
  · exact State.becomes_of_onChip (execTrainStepRepeat_in_step hp) (if_pos hg)
  · exact State.becomes_of_onChip (f := fun c => c.trainStepRx n.val k st depth rxset precode) rfl (Chip.trainStepRx_present rfl hp hk ..)
  · exact State.becomes_of_onChip (f := fun c => c.localDone n.val (.clock duty true)) rfl
      (Chip.localDone_measured hp (LanePort.measure_clock_found hd))
  · exact State.becomes_of_onChip (f := fun c => c.localDone n.val (.clock duty locked)) rfl
      (Chip.localDone_failed hp (LanePort.measure_clock_bad hd))
  · exact State.becomes_of_onChip (f := fun c => c.localDone n.val .check) rfl (Chip.localDone_step7 hp)
  · subst hr
    exact State.becomes_of_onChip (f := fun c => c.flightStamp n.val i tb tp rb rp a m) rfl (Chip.flightStamp_result rfl hp hi hn ht m)
  · exact State.becomes_of_onChip (f := fun c => c.linkCapsRx n.val b) rfl
      ((Chip.linkCapsRx_step1 rfl hp rfl rfl rfl).trans (if_pos (LanePort.commonRev_none h0 h1 _)))
  · subst ht hg
    exact State.becomes_of_onChip (f := fun c => c.linkCapsRx n.val b) rfl
      ((Chip.linkCapsRx_step1 rfl hp hcls hrev hd).trans (if_neg h0))
  · exact State.becomes_of_onChip (f := fun c => c.linkCapsRx n.val b) rfl (Chip.linkCapsRx_outside hp b)
  · subst hb
    exact execLinkCapsRepeat_sends hp hc

end Sys2Proof.Machine
end

section
/-!
PROOFS. Chapter 04: a failed training attempt (R100, R101).
-/
namespace Sys2Proof.Machine

/-- The lanes after an attempt that failed with reason `rs`: the wait, long after the third failure in a row, and the counters. -/
def LanePort.attemptFailed (l : LanePort) (rs : Nat) : LanePort :=
  { l with phase := .backoff (decide (2 ≤ l.consecutive)), lastFail := rs, fails := sat16 l.fails 1,
           consecutive := if 2 ≤ l.consecutive then 0 else l.consecutive + 1, revision := 0, width := 0, activeRx := 0, activeTx := 0,
           cnt := { l.cnt with failed := sat32 l.cnt.failed 1 } }

/-- The block after an attempt that failed in step `k` with reason `rs`, before an event is posted: TRAIN_FAIL has left, and framing no
longer seeks. -/
def Chip.attemptFailed (c : Chip) (n k rs : Nat) : Chip :=
  ((c.sbPeer n 0x48 (le 1 k ++ le 2 rs)).setLane n ((c.laneOf n).attemptFailed rs)).setFrm n { c.frmOf n with seeking := false }

section
variable {c : Chip} {n k : Nat}

theorem Chip.attemptFailed_laneOf (rs : Nat) : (c.attemptFailed n k rs).laneOf n = (c.laneOf n).attemptFailed rs := by
  simp [Chip.attemptFailed]

theorem Chip.attemptFailed_frmOf (rs : Nat) : (c.attemptFailed n k rs).frmOf n = { c.frmOf n with seeking := false } := by
  simp [Chip.attemptFailed]

theorem Chip.attemptFailed_sends (rs : Nat) :
    sbOut n false 0x48 (c.tpOf n).msgId (le 1 k ++ le 2 rs) ∈ (c.attemptFailed n k rs).out := c.sbPeer_sends n 0x48 _

/-- A failure of this end's own with no TRUNK_RETRAIN open: TRAIN_FAILED is posted after the third in a row. -/
theorem Chip.failAttempt_no_retrain (hp : (c.laneOf n).phase = .train k) (hr : (c.laneOf n).retrain = none) :
    c.failAttempt n 0x0409 true =
      if 2 ≤ (c.laneOf n).consecutive then (c.attemptFailed n k 0x0409).post 0x0403 0x0409 (n + 3 * 256)
      else c.attemptFailed n k 0x0409 := by
  unfold Chip.failAttempt
  extract_lets l long l'
  have hlong : long = decide (2 ≤ l.consecutive) := decide_eq_decide.2 (by omega)
  split
  next j hj =>
    obtain rfl : j = k := LanePhase.train.inj (hj.symm.trans hp)
    extract_lets c1 c2 c3 f c4 c5
    have hl' : { l' with cnt := { l'.cnt with failed := sat32 l'.cnt.failed 1 } } = l.attemptFailed 0x0409 := by
      simp only [l', hlong, decide_eq_true_eq]
      rfl
    have hc1 : c1 = c.sbPeer n 0x48 (le 1 j ++ le 2 0x0409) := if_pos rfl
    have hc3 : c3 = c1.setLane n (l.attemptFailed 0x0409) := (c1.countLane_setLane n l' _).trans (congrArg _ hl')
    have hc4 : c4 = c.attemptFailed n j 0x0409 := by
      simp only [c4, f, hc3, hc1, Chip.frmOf_setLane, Chip.frmOf_sbPeer]
      rfl
    have hc5 : c5 = if 2 ≤ l.consecutive then c4.post 0x0403 0x0409 (n + 3 * 256) else c4 := by
      simp [c5, hlong]
    have hnone : (c5.laneOf n).retrain = none := by
      rw [hc5, hc4]
      split <;> simpa [Chip.laneOf, Chip.attemptFailed, LanePort.attemptFailed] using hr
    rw [hnone, hc5, hc4]
  next hno => exact absurd hp (hno k)

theorem Chip.failAttempt_laneOf (hp : (c.laneOf n).phase = .train k) (hr : (c.laneOf n).retrain = none) :
    (c.failAttempt n 0x0409 true).laneOf n = (c.laneOf n).attemptFailed 0x0409 := by
  rw [Chip.failAttempt_no_retrain hp hr]
  split <;> simp [Chip.attemptFailed_laneOf]

theorem Chip.failAttempt_stops_seeking (hp : (c.laneOf n).phase = .train k) (hr : (c.laneOf n).retrain = none) :
    ((c.failAttempt n 0x0409 true).frmOf n).seeking = false := by
  rw [Chip.failAttempt_no_retrain hp hr]
  split <;> simp [Chip.attemptFailed_frmOf]

theorem Chip.failAttempt_sends (hp : (c.laneOf n).phase = .train k) (hr : (c.laneOf n).retrain = none) :
    sbOut n false 0x48 (c.tpOf n).msgId (le 1 k ++ le 2 0x0409) ∈ (c.failAttempt n 0x0409 true).out := by
  have hsent := c.attemptFailed_sends (n := n) (k := k) 0x0409
  rw [Chip.failAttempt_no_retrain hp hr]
  split
  · exact (Chip.post_keeps_out List.prefix_rfl ..).subset hsent
  · exact hsent

end

/-- Settles O21. -/
theorem failedAttemptWaits : Obligations.FailedAttemptWaits := by
  unfold Obligations.FailedAttemptWaits
  intro s n k l hl hp hr
  subst hl
  refine ⟨_, rfl, Chip.failAttempt_laneOf hp hr, Chip.failAttempt_stops_seeking hp hr, ⟨_, Chip.failAttempt_sends hp hr⟩,
    fun hshort => ?_, fun hlong hlog => ?_⟩
  all_goals
    dsimp only
    rw [Chip.failAttempt_no_retrain hp hr]
  · rw [if_neg (by omega)]
    rfl
  · rw [if_pos hlong]
    exact ⟨_, Chip.post_log (c := s.chip.attemptFailed n.val k 0x0409) hlog .., rfl, rfl, rfl⟩

end Sys2Proof.Machine
end

section
/-!
PROOFS. Chapter 04: TRUNK_LANE_CTRL and the figures of merit (R109).
-/
namespace Sys2Proof.Machine

/-- The lane settings that TRUNK_LANE_CTRL carries (Table 04.10). -/
def laneCfgOf (b : Bytes) : LaneCfg :=
  { admin := fld b 1 1 == 1, maxWidth := fld b 2 1, maxRev := fld b 3 1, fomMin := fld b 4 1, fomDegrade := fld b 5 1,
    follow := fld b 6 1 == 1, followPort := fld b 7 1, precodeAllow := bitOf (fld b 8 1) 0, allowFarLoop := bitOf (fld b 8 1) 1,
    adaptLive := bitOf (fld b 8 1) 2, backoffMs := fld b 10 2 }

section
variable {x : Ctx} {c : Chip}

theorem bodyTrunkLaneCtrl_refuses_fom (h : fld x.ps 4 1 < 16 ∨ fld x.ps 5 1 < 16 ∨ fld x.ps 4 1 ≤ fld x.ps 5 1) :
    bodyTrunkLaneCtrl x c = (err stParam 0, c) := by
  unfold bodyTrunkLaneCtrl
  extract_lets n w fl cfg
  refine if_pos ?_
  have hfom : cfg.fomMin < 16 ∨ cfg.fomDegrade < 16 ∨ cfg.fomDegrade ≥ cfg.fomMin := h
  simp only [Bool.or_eq_true, decide_eq_true_eq]
  obtain hmin | hdegrade | horder := hfom
  · simp only [hmin, true_or, or_true]
  · simp only [hdegrade, true_or, or_true]
  · simp only [horder, true_or, or_true]

/-- Settings in range, without FOLLOW and PERSIST, on a trunk that is out of loops. -/
theorem bodyTrunkLaneCtrl_sets (hn : trunkOf x ≤ 3) (ha : fld x.ps 1 1 = 1)
    (hw : fld x.ps 2 1 = 1 ∨ fld x.ps 2 1 = 2 ∨ fld x.ps 2 1 = 4) (hr : fld x.ps 3 1 = 1 ∨ fld x.ps 3 1 = 2)
    (hm : 16 ≤ fld x.ps 4 1) (hd : 16 ≤ fld x.ps 5 1) (hlt : fld x.ps 5 1 < fld x.ps 4 1) (hf : fld x.ps 6 1 = 0) (hp : fld x.ps 7 1 ≤ 3)
    (hfl : fld x.ps 8 1 < 8) (hz : rsvd x.ps 9 1 = true) (hb : 100 ≤ fld x.ps 10 2 ∧ fld x.ps 10 2 ≤ 60000)
    (hz' : rsvd x.ps 12 4 = true) (hl : (c.laneOf (trunkOf x)).phase ≠ .loop) :
    bodyTrunkLaneCtrl x c = (ok, c.setLane (trunkOf x) { c.laneOf (trunkOf x) with cfg := laneCfgOf x.ps }) := by
  have hpersist : bitOf (fld x.ps 8 1) 3 = false := beq_eq_false_iff_ne.2 (by omega)
  unfold bodyTrunkLaneCtrl
  extract_lets n w fl cfg l c1 c2 d c3
  have hrange : ¬ (n > 3 || fld x.ps 1 1 > 1 || !(w = 1 || w = 2 || w = 4) || cfg.maxRev = 0 || cfg.maxRev > 2 || cfg.fomMin < 16 ||
      cfg.fomDegrade < 16 || cfg.fomDegrade ≥ cfg.fomMin || fld x.ps 6 1 > 1 || cfg.followPort > 3 || fl ≥ 16 || !rsvd x.ps 9 1 ||
      cfg.backoffMs < 100 || cfg.backoffMs > 60000 || !rsvd x.ps 12 4) = true := by
    simp only [Bool.or_eq_true, Bool.not_eq_true', decide_eq_true_eq, Bool.or_eq_false_iff, decide_eq_false_iff_not, hz, hz', n, w, fl, cfg,
      Bool.true_eq_false, or_false]
    omega
  have hadmin : cfg.admin = true := beq_iff_eq.2 ha
  have hfollow : cfg.follow = false := by simp [cfg, hf]
  have hc2 : c2 = c1 := if_neg (by simp [fl, hpersist])
  have hc3 : c3 = c1 := by
    simp only [c3, hadmin, Bool.not_true, Bool.false_eq_true, if_false, hc2]
    have hphase : (c1.laneOf n).phase ≠ .loop := by simpa [c1] using hl
    split
    next h => exact absurd h hphase
    next => rfl
  rw [if_neg hrange, hfollow, Bool.false_and, Bool.false_and, hc3]
  rfl

end

/-- Settles O23. -/
theorem fomLimits : Obligations.FomLimits := by
  unfold Obligations.FomLimits
  refine ⟨fun n => ⟨rfl, rfl⟩, fun s p c n l hh hn hl => ⟨fun hbad => ?_, fun h3 ha hw hr hm hd hlt hf hp hfl hz hb hb' hz' hloop g hg => ?_⟩⟩
  · exact runCommand_err hh (bodyTrunkLaneCtrl_refuses_fom (x := s.ctxOf 0x0401 p c) hbad) (by decide)
  · have hcfg : g = laneCfgOf p.params := by
      subst hg
      simp [laneCfgOf, ha, hf]
    subst hn hl hcfg
    exact runCommand_ok_empty hh
      (bodyTrunkLaneCtrl_sets (x := s.ctxOf 0x0401 p c) h3 ha hw hr hm hd hlt hf hp hfl hz ⟨hb, hb'⟩ hz' hloop)

end Sys2Proof.Machine
end

section
/-!
PROOFS. Chapter 04: retraining, loops, eye scans, status and counters.
-/
namespace Sys2Proof.Machine

section
variable {x : Ctx} {c : Chip} {n : Nat} {l : LanePort}

/-! ### TRUNK_RETRAIN and TRUNK_LOOP (R118) -/

theorem Chip.linkDown_of_not_data (h : (c.laneOf n).phase ≠ .data) (r : Nat) : c.linkDown n r = c := by
  unfold Chip.linkDown
  extract_lets l
  split
  next hd => exact absurd hd h
  next => rfl

/-- A trunk that is idle has no link to take down and no attempt to restart. -/
theorem bodyTrunkRetrain_go_idle (hl : l = c.laneOf n) (hp : l.phase = .idle) {d : Chip}
    (hd : d = c.setLane n { l with retrain := some (x.handle, 0) }) :
    bodyTrunkRetrain.go x c n = (accepted, if d.mayTrain n then d.startAttempt n else d) := by
  have hidle : ({ l with retrain := some (x.handle, 0), phase := .idle } : LanePort) = { l with retrain := some (x.handle, 0) } := by
    rw [← hp]
  subst hl hd
  rw [← hidle]
  unfold bodyTrunkRetrain.go
  split
  next k hk => exact absurd (hp.symm.trans hk) LanePhase.noConfusion
  next => rw [Chip.linkDown_of_not_data (by rw [hp]; exact LanePhase.noConfusion)]

theorem bodyTrunkRetrain_idle (hn : trunkOf x = n) (h3 : n ≤ 3) (hz : rsvd x.ps 1 3 = true) (hl : l = c.laneOf n) (hp : l.phase = .idle)
    (ha : l.cfg.admin = true) (hpeer : c.peerThere n = true) (hr : l.retrain = none) {d : Chip}
    (hd : d = c.setLane n { l with retrain := some (x.handle, 0) }) :
    bodyTrunkRetrain x c = (accepted, if d.mayTrain n then d.startAttempt n else d) := by
  unfold bodyTrunkRetrain
  simp only [hn, ← hl, hp, ha, hpeer, hr, hz, bodyTrunkRetrain_go_idle hl hp hd]
  exact if_neg (by simpa using h3)

/-- A near-end loop takes the lanes as they are. -/
theorem Chip.loopLanes_near {k : LoopState} (hk : k.mode ≠ 3) :
    c.loopLanes n k = c.setLane n { c.laneOf n with phase := .loop, loopSt := some k } := by
  unfold Chip.loopLanes
  exact if_neg hk

/-- A near-end loop runs at once. -/
theorem bodyTrunkLoop_runs (hn : trunkOf x = n) (h3 : n ≤ 3) (hm : fld x.ps 1 1 = 1 ∨ fld x.ps 1 1 = 2) (hpat : fld x.ps 2 1 ≤ 3)
    (hlanes : fld x.ps 3 1 ≤ 15) (hz : rsvd x.ps 4 4 = true) (hl : l = c.laneOf n) (hh : l.loopHandle = none) (ha : l.cfg.admin = false)
    {d : Chip} (hd : d = c.setLane n { l with phase := .loop, loopSt := some { mode := fld x.ps 1 1, pattern := fld x.ps 2 1,
                                                                               lanes := fld x.ps 3 1, step := 6 } }) :
    bodyTrunkLoop x c = ({ accepted with done := some (stOk, 0, 0) }, d.setLane n { d.laneOf n with loopHandle := none }) := by
  have h0 : fld x.ps 1 1 ≠ 0 := by omega
  have hfar : fld x.ps 1 1 ≠ 3 := by omega
  have hd' : c.loopLanes n { mode := fld x.ps 1 1, pattern := fld x.ps 2 1, lanes := fld x.ps 3 1, step := 6 } = d := by
    rw [Chip.loopLanes_near hfar, hd, hl]
  unfold bodyTrunkLoop
  simp only [hn, ← hl, hh, ha, hz, h0, hfar, if_false, Bool.false_eq_true, hd']
  exact if_neg (by simp; omega)

/-- MODE 0 ends a near-end loop, with what its checkers have counted. -/
theorem bodyTrunkLoop_ends (hn : trunkOf x = n) (h3 : n ≤ 3) (hm : fld x.ps 1 1 = 0) (hpat : fld x.ps 2 1 ≤ 3)
    (hlanes : fld x.ps 3 1 ≤ 15) (hz : rsvd x.ps 4 4 = true) (hl : l = c.laneOf n) (hh : l.loopHandle = none) (ha : l.cfg.admin = false)
    {k : LoopState} (hk : l.loopSt = some k) (hnear : k.mode ≠ 3) :
    bodyTrunkLoop x c =
      ({ accepted with done := some (stOk, 0, 0) }, (c.loopTally n).setLane n ((c.loopTally n).laneOf n).unloop) := by
  unfold bodyTrunkLoop
  simp only [hn, ← hl, hh, ha, hz, hm, hk, hnear, decide_false, Bool.false_and, if_true, if_false, Bool.false_eq_true]
  exact if_neg (by simp; omega)

/-! ### The checkers of a running loop (R118, R121) -/

theorem Chip.loopTally_no_loop (h : (c.laneOf n).loopSt = none) : c.loopTally n = c := by
  simp only [Chip.loopTally, h]

/-- The counts of a lane after its checker has compared `bits` bits, and found `errs` of them wrong. -/
def LaneCount.compared (y : LaneCount) (bits errs : Nat) : LaneCount :=
  { y with loopBits := sat64 y.loopBits bits, loopErrs := sat32 y.loopErrs errs }

/-- The checkers of this end's loop have counted nothing, or some bits on each lane of the loop. -/
theorem Chip.loopTally_counts {k : LoopState} (hk : (c.laneOf n).loopSt = some k) {i : Nat} (hi : i < 4)
    {y z : LaneCount} (hy : y = Tab.get ({} : LaneCount) (c.laneOf n).laneCnt i)
    (hz : z = Tab.get ({} : LaneCount) ((c.loopTally n).laneOf n).laneCnt i) :
    z = y ∨ bitOf k.lanes i = true ∧ ∃ bits errs, z = y.compared bits errs := by
  subst hy hz
  unfold Chip.loopTally
  simp only [hk]
  split
  next => exact .inl rfl
  next =>
    rw [Chip.laneOf_nextFresh, Chip.laneOf_setLane]
    have hfold := Tab.get_foldl_set ({} : LaneCount) (bitOf k.lanes)
      (fun i y => y.compared (fld (c.freshBytes 48) (12 * i) 8)
        (Nat.min (fld (c.freshBytes 48) (12 * i) 8) (fld (c.freshBytes 48) (12 * i + 8) 4)))
      (List.nodup_range (n := 4)) (c.laneOf n).laneCnt i
    rcases hb : bitOf k.lanes i with _ | _
    · exact .inl (hfold.trans (if_neg (by simp [hb])))
    · exact .inr ⟨rfl, _, _, hfold.trans (if_pos ⟨List.mem_range.2 hi, hb⟩)⟩

/-! ### EYE_SCAN and GET_EYE (R108) -/

theorem bodyEyeScan_active (hn : trunkOf x = n) (h3 : n ≤ 3) (hlane : fld x.ps 1 1 ≤ 3) (heye : fld x.ps 2 1 ≤ 2) (hz : rsvd x.ps 3 1 = true)
    (hl : l = c.laneOf n) (hr : l.revision = 2) (ho : l.eyeOpen = none) (hp : l.phase = .data) (ha : bitOf l.activeRx (fld x.ps 1 1) = true) :
    bodyEyeScan x c = (accepted, c.setLane n { l with eyeOpen := some (x.handle, fld x.ps 1 1, fld x.ps 2 1) }) := by
  subst hn hl
  unfold bodyEyeScan
  extract_lets n lane eye l active
  have hactive : active = true := by simp [active, l, lane, n, hp, ha]
  rw [if_neg (by simp [hz, n, lane, eye]; omega), if_neg (by simp [l, n, hr]), ho, hactive]
  rfl

theorem execEyeScanDone_completes {s : State} {m : Fin 4} {h lane eye : Nat} (hl : l = s.chip.laneOf m.val)
    (ho : l.eyeOpen = some (h, lane, eye)) (hc : s.chip.cancelled h = false) (grid : List Nat) :
    execEyeScanDone m grid s = .next { s with chip := (s.chip.setLane m.val
      { l with eyeOpen := none, scanSerial := l.scanSerial + 1,
               scans := l.scans.set lane { serialNo := l.scanSerial + 1, eye, grid := grid.map (Nat.min 0xFFFF) } }).complete h 0 0 0 } := by
  subst hl
  simp [execEyeScanDone, onChip, ho, hc, stOk]

/-- Fields of one length after another. -/
theorem length_flatten_fields {f : Nat → Bytes} {m : Nat} (h : ∀ i, (f i).length = m) (k : Nat) :
    ((List.range k).map f).flatten.length = k * m := by
  induction k with
  | zero => simp
  | succ k ih => simp only [List.range_succ, List.map_append, List.flatten_append, List.length_append, ih, List.map_cons, List.map_nil,
      List.flatten_cons, List.flatten_nil, List.append_nil, h, Nat.succ_mul]

/-- The response of GET_EYE (Table 04.13). -/
def EyeScanRec.response (r : EyeScanRec) (n lane : Nat) : Bytes :=
  le 1 n ++ le 1 lane ++ le 1 r.eye ++ zeros 1 ++ le 4 r.serialNo ++ ((List.range 1089).map fun i => le 2 (nth 0 r.grid i)).flatten

theorem EyeScanRec.response_length (r : EyeScanRec) (n lane : Nat) : (r.response n lane).length = 2186 := by
  have hgrid := length_flatten_fields (f := fun i => le 2 (nth 0 r.grid i)) (fun _ => le_length ..) 1089
  unfold EyeScanRec.response
  rw [List.length_append, hgrid]
  simp [zeros]

theorem bodyGetEye_scanned (hn : trunkOf x = n) (h3 : n ≤ 3) (hlane : fld x.ps 1 1 ≤ 3) (hz : rsvd x.ps 2 2 = true) {r : EyeScanRec}
    (hr : (c.laneOf n).scans.find (fld x.ps 1 1) = some r) : bodyGetEye x c = (ok (r.response n (fld x.ps 1 1)), c) := by
  subst hn
  unfold bodyGetEye
  extract_lets n lane
  rw [if_neg (by simp [hz, n, lane]; omega), hr]
  rfl

/-! ### GET_LANE_STATUS and GET_LANE_COUNTERS (Tables 04.11 and 04.12, R121) -/

/-- The response of GET_LANE_STATUS. -/
def Chip.laneStatus (c : Chip) (n : Nat) (l : LanePort) : Bytes :=
  le 1 n ++ le 1 (c.laneState n) ++ le 1 l.revision ++ le 1 l.width ++ le 1 (b2n l.mapReversed + 2 * b2n l.clkInverted) ++
    le 1 (c.cableClass n) ++ le 1 (b2n (l.following || (l.txClock n).isSome) + 2 * (l.txClock n).getD l.use.followPort + 8 * b2n l.syntonyLost + 16 * l.depth) ++
    le 1 (l.activeRx + 16 * l.activeTx) ++ le 4 l.flight ++ leInt 4 (c.cableAsym n) ++ le 2 l.lastFail ++ le 2 l.fails ++
    le 1 l.cfg.fomMin ++ le 1 l.cfg.fomDegrade ++ le 1 l.cfg.cflags ++ zeros 9 ++ l.record 0 ++ l.record 1 ++ l.record 2 ++ l.record 3

theorem bodyGetLaneStatus_answers (hn : trunkOf x = n) (h3 : n ≤ 3) (hz : rsvd x.ps 1 3 = true) :
    bodyGetLaneStatus x c = (ok (c.laneStatus n (c.laneOf n)), c) := by
  subst hn
  unfold bodyGetLaneStatus
  exact if_neg (by simp [hz]; omega)

/-- The record of one lane in GET_LANE_COUNTERS. -/
def LaneCount.bytes (y : LaneCount) : Bytes :=
  le 8 y.corrected ++ le 8 y.loopBits ++ le 4 y.loopErrs ++ le 4 y.fomLow ++ le 4 y.alignLoss ++ zeros 4

/-- The response of GET_LANE_COUNTERS. -/
def LanePort.counters (l : LanePort) : Bytes :=
  le 4 l.cnt.attempts ++ le 4 l.cnt.failed ++ le 4 l.cnt.linkUp ++ le 4 l.cnt.linkDown ++ le 4 l.cnt.clockLoss ++
    le 4 l.cnt.followSwitch ++ le 4 l.cnt.txeqSent ++ zeros 4 ++
    ((List.range 4).map fun i => (Tab.get ({} : LaneCount) l.laneCnt i).bytes).flatten

theorem LaneCount.bytes_length (y : LaneCount) : y.bytes.length = 32 := by
  simp only [LaneCount.bytes, zeros, List.length_append, le_length, List.length_replicate]

theorem LanePort.counters_length (l : LanePort) : l.counters.length = 160 := by
  simp only [LanePort.counters, zeros, List.length_append, le_length, List.length_replicate, length_flatten_fields (fun _ => LaneCount.bytes_length _)]

theorem bodyGetLaneCounters_answers (hn : trunkOf x = n) (h3 : n ≤ 3) (hctl : fld x.ps 1 1 = 0 ∨ (fld x.ps 1 1 = 1 ∧ x.lvl = 1))
    (hz : rsvd x.ps 2 2 = true) {e : Chip} (he : e = c.loopTally n) (hl : l = e.laneOf n) :
    bodyGetLaneCounters x c = (ok l.counters, if fld x.ps 1 1 = 1 then e.setLane n { l with cnt := {}, laneCnt := [] } else e) := by
  subst hn he hl
  unfold bodyGetLaneCounters
  extract_lets n ctl c' l k t lane
  rw [if_neg (by simp [hz, n, ctl]; omega), if_neg (by simp [ctl]; omega)]
  have hdata : t ++ lane 0 ++ lane 1 ++ lane 2 ++ lane 3 = l.counters := by
    simp [t, lane, LanePort.counters, LaneCount.bytes, k, List.range_succ]
  rw [hdata]

end

/-- Settles O24. -/
theorem laneCommandsAct : Obligations.LaneCommandsAct := by
  unfold Obligations.LaneCommandsAct
  intro s p c n l hn h3 hl
  have htrunk : ∀ op, trunkOf (s.ctxOf op p c) = n := fun _ => hn.symm
  refine ⟨fun x hh hz hp ha hpeer hr hrec hx d hd => ?_, fun x hh hm hpat hlanes hz hlh ha hrec hx d hd => ?_,
    fun x k d hh hm hpat hlanes hz hlh ha hrec hx hk hnear hd => ?_,
    ⟨fun hk => ?_, fun k i y z hk _ hi hy hz => ?_⟩,
    fun x hh hlane heye hz hrev ho hp hact hrec hx => ?_, fun m k h lane eye grid hk ho hc => execEyeScanDone_completes hk ho hc grid,
    fun r hh hlane hz hr hroom => ?_, fun d hh hz hroom hd => ?_, fun d e l hh he hl hctl hz hroom hd => ?_⟩
  · subst hx
    exact runCommand_accepted hh (bodyTrunkRetrain_idle (htrunk _) h3 hz hl hp ha hpeer hr hd) hrec
  · subst hx
    exact runCommand_done hh (bodyTrunkLoop_runs (htrunk _) h3 hm hpat hlanes hz hl hlh ha hd) hrec
  · subst hx hd
    exact runCommand_done hh (bodyTrunkLoop_ends (htrunk _) h3 hm hpat hlanes hz hl hlh ha hk hnear) hrec
  · exact Chip.loopTally_no_loop (hl ▸ hk)
  · subst hl
    obtain rfl | ⟨hb, bits, errs, rfl⟩ := Chip.loopTally_counts hk hi hy hz
    · exact ⟨fun _ => rfl, fun _ => Nat.le_refl _, rfl⟩
    · exact ⟨fun hno => absurd (hb.symm.trans hno) (by decide), sat64_le, rfl⟩
  · subst hx
    exact runCommand_accepted hh (bodyEyeScan_active (htrunk _) h3 hlane heye hz hl hrev ho hp hact) hrec
  · subst hl
    have hfit : c.roomFor p (r.response n (fld p.params 1 1)).length := by rwa [EyeScanRec.response_length]
    have hbody := bodyGetEye_scanned (x := s.ctxOf 0x0406 p c) (htrunk _) h3 hlane hz hr
    change s.becomes (.getEye p) (c.replied p (r.response n (fld p.params 1 1)))
    exact runCommand_ok hh hbody hfit
  · have hbody := bodyGetLaneStatus_answers (x := s.ctxOf 0x0402 p c) (c := c) (htrunk _) h3 hz
    have hd' : d = c.laneStatus n (c.laneOf n) := by rw [hd, hl]; rfl
    rw [hd'] at hroom ⊢
    exact runCommand_ok hh hbody hroom
  · have hfit : c.roomFor p l.counters.length := by rwa [LanePort.counters_length]
    subst hd
    exact runCommand_ok hh (bodyGetLaneCounters_answers (htrunk _) h3 hctl hz he hl) hfit

end Sys2Proof.Machine
end

section
/-!
PROOFS. Chapter 05: codewords and markers received and sent on an unsealed trunk.
-/
namespace Sys2Proof

/-! ### The line and idle teeth -/

/-- Precoding undone gives the levels back (R91). -/
theorem unprecode_precode (u : List Nat) {p : Nat} (hp : p < 4) (hu : ∀ g ∈ u, g < 4) : unprecode p (precode p u) = u := by
  induction u generalizing p with
  | nil => rfl
  | cons g u ih =>
    have hg : g < 4 := hu g List.mem_cons_self
    have hlevel : ((g + 4 - p % 4) % 4 + p) % 4 = g := by omega
    simp only [precode, unprecode, hlevel, ih (Nat.mod_lt _ (by decide)) fun a ha => hu a (List.mem_cons_of_mem _ ha)]

end Sys2Proof

namespace Sys2Proof.Machine

/-- Every idle tooth has a zero header, wherever the fill stands (Table 05.3). -/
theorem toothBytes_idle_headers (k x : Nat) :
    ((toothBytes (List.replicate k none) x).1.map fun t => t.take 8) = List.replicate k (zeros 8) := by
  induction k generalizing x with
  | zero => rfl
  | succ k ih => simp [List.replicate_succ, toothBytes, ih, zeros]

section
variable {c : Chip} {n : Nat}

/-! ### Codewords received (R123, R134, R139) -/

theorem Chip.countCorrected_nil : c.countCorrected n [] = c := rfl

theorem Chip.openCodeword_unsealed (h : (c.sealOf n).rx = none) (d : Bytes) :
    c.openCodeword n d = (c, (List.range 5).map fun i => cellOfBytes (sliceB d (64 * i) 64)) := by
  simp only [Chip.openCodeword, h]

theorem Chip.codewordRx_idle (hd : c.inData n = false) (hs : (c.frmOf n).seeking = false) (rx : List (List Nat)) :
    c.codewordRx n rx = c := by
  simp [Chip.codewordRx, hd, hs]

/-- While lock is sought a codeword's time has passed since the last marker, whatever it holds (R131). -/
def Chip.soughtCodeword (c : Chip) (n : Nat) (rx : List (List Nat)) : Chip :=
  (c.lineRx n rx).2.setFrm n { c.frmOf n with rxGap := (c.frmOf n).rxGap + 1 }

theorem Chip.codewordRx_seeking_bad {rx : List (List Nat)} (hd : c.inData n = false) (hs : (c.frmOf n).seeking = true)
    (hdec : rsTrunk.decode (c.lineRx n rx).1 = none) :
    c.codewordRx n rx = ((c.soughtCodeword n rx).countFrm n 0 1).countFrm n 3 1 := by
  unfold Chip.codewordRx
  rw [if_pos (by simp [hd]), if_pos hs]
  simp only [hdec]
  rfl

/-- While lock is sought the corrections are counted, and the cells go nowhere. -/
theorem Chip.codewordRx_seeking_good {rx : List (List Nat)} {w pos : List Nat} (hd : c.inData n = false) (hs : (c.frmOf n).seeking = true)
    (hdec : rsTrunk.decode (c.lineRx n rx).1 = some (w, pos)) :
    c.codewordRx n rx = ((c.soughtCodeword n rx).countFrm n 0 1).countCorrected n pos := by
  unfold Chip.codewordRx
  rw [if_pos (by simp [hd]), if_pos hs]
  simp only [hdec]
  rfl

theorem Chip.codewordRx_bad {rx : List (List Nat)} (hd : c.inData n = true) (hdec : rsTrunk.decode (c.lineRx n rx).1 = none) :
    c.codewordRx n rx = (c.lineRx n rx).2.codewordBad n := by
  simp [Chip.codewordRx, hd, hdec]

/-- An uncorrectable codeword is counted and NAKed from now on, and its CWSN is taken (R134, R139). -/
theorem Chip.codewordBad_unsealed (h : (c.sealOf n).rx = none) :
    c.codewordBad n =
      let d := (c.countFrm n 0 1).countFrm n 3 1
      d.setFrm n { d.frmOf n with naks := (c.frmOf n).naks ++ [{ cwsn := (c.frmOf n).rxCwsn, at' := c.clk.powerPs }],
                                  badRun := (c.frmOf n).badRun + 1, rxCwsn := ((c.frmOf n).rxCwsn + 1) % 2 ^ 24 } := by
  simp [Chip.codewordBad, h]

/-- A codeword without corrections hands its five cells, in slot order, to the receiver's checks (R129). -/
theorem Chip.codewordRx_good {rx : List (List Nat)} {w : List Nat} (hd : c.inData n = true)
    (hdec : rsTrunk.decode (c.lineRx n rx).1 = some (w, [])) (hseal : (c.sealOf n).rx = none) {c1 : Chip}
    (h1 : c1 = ((c.lineRx n rx).2.countFrm n 0 1).setFrm n
      { ((c.lineRx n rx).2.countFrm n 0 1).frmOf n with badRun := 0, rxCwsn := ((c.frmOf n).rxCwsn + 1) % 2 ^ 24 }) :
    c.codewordRx n rx = ((List.range 5).map fun i => cellOfBytes (sliceB (symbolBytes (w.take 256)) (64 * i) 64)).foldl
      (fun d x => if d.inData n then d.cellRx n (c.frmOf n).rxCwsn x else d) c1 := by
  have hopen := Chip.openCodeword_unsealed (c := (c.lineRx n rx).2.countFrm n 0 1) (n := n) (by simpa using hseal)
    (symbolBytes (w.take 256))
  have hcwsn : (((c.lineRx n rx).2.countFrm n 0 1).frmOf n).rxCwsn = (c.frmOf n).rxCwsn := by simp
  subst h1
  simp only [Chip.codewordRx, hd, hdec, Chip.countCorrected_nil, hopen, hcwsn]
  rfl

end

end Sys2Proof.Machine
end

section
/-!
PROOFS. Chapter 05: markers received (R130, R131).
-/
namespace Sys2Proof.Machine

section
variable {c : Chip} {n : Nat}

theorem Chip.settlePairwise_of_passed (h : c.keys.pairFailed = false) : c.settlePairwise = c := if_neg (by simp [h])

/-! ### No width change is under way (R144) -/

theorem Chip.widthStep_of_not_data (h : c.inData n = false) : c.widthStep n = c := if_pos (by simp [h])

theorem Chip.widthStep_of_no_request (hm : (c.frmOf n).wcMine = none) (hp : (c.frmOf n).wcPeer = none) : c.widthStep n = c := by
  simp [Chip.widthStep, Chip.upgradeLate, Chip.widthPlan, hm, hp]

/-! ### Lost markers -/

theorem Chip.markerRx_idle (hs : (c.frmOf n).seeking = false) (hd : c.inData n = false) (lc : Nat) (rx : List (List Nat)) (a : Nat) :
    c.markerRx n lc rx a = c := if_pos (by simp [hs, hd])

theorem Chip.markerRx_undecoded {rx : List (List Nat)} (hd : c.inData n = true) (hw : c.widthStep n = c)
    (hdec : rsTrunk.decode (c.lineRx n rx).1 = none) (lc a : Nat) :
    c.markerRx n lc rx a = ((c.lineRx n rx).2.countFrm n 0 1).markerLost n lc := by
  unfold Chip.markerRx
  rw [if_neg (by simp [hd])]
  simp only [hw, hdec]

/-- In DATA a lost marker is counted, and the position moves on. -/
theorem Chip.markerLost_unsealed (hd : c.inData n = true) (hseal : (c.sealOf n).rx = none) (lc : Nat) :
    c.markerLost n lc =
      (c.countFrm n 4 1).setFrm n { (c.countFrm n 4 1).frmOf n with
        lostRun := (c.frmOf n).lostRun + 1, lastRx := (c.frmOf n).lastRx.map fun p => (c.countFrm n 4 1).nextRx n p } := by
  simp [Chip.markerLost, hd, hseal]

/-! ### Good markers while lock is sought -/

/-- The trunk's framing after a good marker of `turn` and `spoke`, the `good`-th in a row. -/
def Framing.marked (f : Framing) (good turn spoke : Nat) : Framing :=
  { f with good, lostRun := 0, lastRx := some (turn, spoke), rxTurn := turn, rxGap := 0 }

section
variable {rx : List (List Nat)} {w : List Nat} {d : Bytes} {c0 : Chip} (hs : (c.frmOf n).seeking = true) (hd : c.inData n = false)
  (hdec : rsTrunk.decode (c.lineRx n rx).1 = some (w, [])) (hw : d = symbolBytes (w.take 256))
  (hmagic : fldBe d 0 8 = 0x6A3C95F01E87D24B) (hcrc : fldBe d 316 4 = crc32c (sliceB d 0 316)) (h0 : c0 = (c.lineRx n rx).2.countFrm n 0 1)
include hs hd hdec hw hmagic hcrc h0

/-- The first one sets the position. -/
theorem Chip.markerRx_first (hl : (c.frmOf n).lastRx = none) (lc a : Nat) :
    c.markerRx n lc rx a = c0.setFrm n ((c0.frmOf n).marked 1 (fldBe d 10 6) (fld d 9 1 % 16)) := by
  have hlast : (c0.frmOf n).lastRx = none := by simp [h0, hl]
  have hdata : c0.inData n = false := by simp [h0, hd]
  have hform : (fldBe d 0 8 == 0x6A3C95F01E87D24B && fldBe d 316 4 == crc32c (sliceB d 0 316)) = true := by simp [hmagic, hcrc]
  have hfew : decide (1 ≥ 2) = false := rfl
  unfold Chip.markerRx
  rw [if_neg (by simp [hs])]
  simp only [Chip.widthStep_of_not_data hd, hdec, Chip.countCorrected_nil, ← h0, ← hw, hform, hl, hlast, hdata, hfew, Bool.not_true, Bool.or_self,
    Bool.false_eq_true, if_false, Bool.and_false, Chip.inData_setFrm]
  rfl

/-- A second one that follows it at the codeword spacing of R126 brings the trunk up. -/
theorem Chip.markerRx_second {sp : Nat} (hl : (c.frmOf n).lastRx = some (fldBe d 10 6, sp)) (hsp : sp < 15)
    (hnext : sp + 1 = fld d 9 1 % 16) (hg : (c.frmOf n).good = 1) (hgap : (c.frmOf n).rxGap + 1 = spokeCw (c0.geom n) sp) {c1 : Chip}
    (h1 : c1 = (c0.setFrm n ((c0.frmOf n).marked 2 (fldBe d 10 6) (fld d 9 1 % 16))).linkUp n) (lc a : Nat) :
    c.markerRx n lc rx a = if c1.inData n then c1.markerUse n lc (fldBe d 10 6) (fld d 9 1 % 16) a d else c1 := by
  have hlast : (c0.frmOf n).lastRx = some (fldBe d 10 6, sp) := by simp [h0, hl]
  have hdata : c0.inData n = false := by simp [h0, hd]
  have hform : (fldBe d 0 8 == 0x6A3C95F01E87D24B && fldBe d 316 4 == crc32c (sliceB d 0 316)) = true := by simp [hmagic, hcrc]
  have hfollows : c0.nextRx n (fldBe d 10 6, sp) = (fldBe d 10 6, fld d 9 1 % 16) := by simp [Chip.nextRx, hsp, hnext]
  have hup : ((c0.frmOf n).seeking && decide (2 ≥ 2)) = true := by simp [h0, hs]
  have hgood : (c0.frmOf n).good + 1 = 2 := by simp [h0, hg]
  have hspaced : (c0.frmOf n).rxGap + 1 = spokeCw (c0.geom n) sp := by simpa [h0] using hgap
  have hwithin : decide (sp = 15) = false := decide_eq_false (by omega)
  rw [h1]
  unfold Chip.markerRx
  rw [if_neg (by simp [hs])]
  simp only [Chip.widthStep_of_not_data hd, hdec, Chip.countCorrected_nil, ← h0, ← hw, hform, hl, hlast, hdata, hfollows, hup, hgood, hspaced,
    hwithin, decide_true, Bool.or_true, if_true, Bool.not_true, Bool.or_self, Bool.false_eq_true, if_false, beq_self_eq_true, Bool.false_and]
  rfl

end

end

end Sys2Proof.Machine
end

section
/-!
PROOFS. Chapter 05: the loss of marker lock (R131), and what is sent while lock is sought (R126, R153).
-/
namespace Sys2Proof.Machine

section
variable {c : Chip} {n : Nat} {f : Framing}

/-! ### Marker lock lost -/

/-- A loss of alignment is counted on each active receive lane. -/
theorem Chip.alignLosses_counts {i : Nat} (hi : i < 4) (c : Chip) (n : Nat) :
    Tab.get ({} : LaneCount) ((c.alignLosses n).laneOf n).laneCnt i =
      let y := Tab.get ({} : LaneCount) (c.laneOf n).laneCnt i
      if bitOf (c.laneOf n).activeRx i then { y with alignLoss := sat32 y.alignLoss 1 } else y := by
  have hfold := Tab.get_foldl_set ({} : LaneCount) (bitOf (c.laneOf n).activeRx) (fun _ y => { y with alignLoss := sat32 y.alignLoss 1 })
    (List.nodup_range (n := 4)) (c.laneOf n).laneCnt i
  simp only [List.mem_range.2 hi, true_and] at hfold
  rw [← hfold, Chip.alignLosses, Chip.laneOf_setLane]

theorem execMarkerLockLost_in_data {s : State} {n : Fin 4} (hd : s.chip.inData n.val = true) (hl : 4 ≤ (s.chip.frmOf n.val).lostRun) :
    execMarkerLockLost n s =
      .next { s with chip := ((s.chip.countFrm n.val 5 1).alignLosses n.val).linkDown n.val 0x0421 } := by
  simp [execMarkerLockLost, onChip, hd, hl]

theorem execMarkerLockLost_early {s : State} {n : Fin 4} (hl : (s.chip.frmOf n.val).lostRun < 4) : execMarkerLockLost n s = .next s := by
  simp [execMarkerLockLost, onChip, Nat.not_le.2 hl]

/-! ### Sent while lock is sought -/

theorem Framing.resolveRanges_nil (h : f.ranges = []) : f.resolveRanges f.ranges = f := by
  rw [h, Framing.resolveRanges, ← h]

/-- The marker of the next spoke, of a trunk that is not in DATA: no segment, no notice and no width request is in it. -/
theorem Chip.markerTx_seeking (hf : f = c.frmOf n) (hs : f.seeking = true) (hd : c.inData n = false) (ha : c.gear.aborting = none)
    (hr : f.ranges = []) (hp : c.time.pending = none) (hseal : (c.sealOf n).tx = none) {c1 : Chip} {b : Bytes}
    (h1 : c1 = c.setFrm n { f with ackSent := (f.naks.head?.map fun k => k.cwsn).getD f.rxCwsn })
    (hb : b = c1.markerBytes n (c.nextTx n).1 (c.nextTx n).2 (({} : MgmtSeg).bytes 0)) :
    c.markerTx n =
      ((c1.setFrm n { c1.frmOf n with txPos := some (c.nextTx n), sentRxset := (c1.laneOf n).goodSet,
                                      txCw := (c.nextTx n).2 * geomCw (c1.geom n) / 16 - (c.nextTx n).2 }).countFrm n 12 1).sendCodeword n
        (b ++ be 4 (crc32c b)) := by
  have hp1 : c1.time.pending = none := by rw [h1]; exact hp
  have hseal1 : (c1.sealOf n).tx = none := by rw [h1]; exact hseal
  unfold Chip.markerTx
  rw [if_neg (by simp [← hf, hs])]
  simp only [Chip.widthStep_of_not_data hd, hd, ha, ← hf, Framing.resolveRanges_nil hr, ← h1, hp1, hseal1, ← hb, Bool.false_eq_true, if_false,
    Bool.false_and]

/-- The five teeth of a codeword sent while lock is sought are idle, and only the fill runs on. -/
theorem Chip.toothPick_seeking {reads : List LineRead} {d e : Chip} {b : List Bytes × Nat} (hf : f = c.frmOf n) (hs : f.seeking = true)
    (hi : c.inData n = false) (hpos : f.txPos ≠ none) (hseal : (c.sealOf n).tx = none) (hd : d = if f.fill = 0 then c.nextFresh else c)
    (hb : b = toothBytes (List.replicate 5 none) (c.fillAt n)) (he : e = d.setFrm n { f with fill := b.2 }) :
    c.toothPick n reads =
      ((e.setFrm n { e.frmOf n with txCw := f.txCw + 1 }).countFrm n 12 1).sendCodeword n b.1.flatten := by
  have hdf : d.frmOf n = f := by rw [hd]; split <;> simp [hf]
  have hseale : (e.sealOf n).tx = none := by rw [he, hd]; split <;> simpa using hseal
  unfold Chip.toothPick
  rw [if_neg (by simp [← hf, hs, hpos])]
  simp only [hi, ← hf, ← hd, hdf, ← hb, ← he, hseale, Bool.false_eq_true, if_false]

end

/-- Settles O26. -/
theorem codewordsAndMarkers : Obligations.CodewordsAndMarkers := by
  unfold Obligations.CodewordsAndMarkers
  intro s n f hf
  subst hf
  refine ⟨fun rx hd hs => ?_, fun rx q c0 hq hd hs h0 => ⟨fun hdec => ?_, fun w pos hdec => ?_⟩,
    fun p u hp hu => unprecode_precode u hp hu, fun rx hd hdec hseal => ?_, fun rx q w c1 hq hd hdec hseal h1 => ?_,
    fun rx a hs hd hk => ?_, fun rx a hd hdec hseal hk hm hp => ?_, fun rx q a w d c0 hq hs hd hdec hw hmagic hcrc hl hk h0 => ?_,
    fun rx q a w d c0 c1 sp hq hs hd hdec hw hmagic hcrc hl hsp hnext hg h0 hgap h1 => ?_,
    fun hd hl => execMarkerLockLost_in_data hd hl, fun hl => execMarkerLockLost_early hl,
    fun d i y hi hy => by rw [hy]; exact d.alignLosses_counts hi n.val, fun pos c1 b hs hd ha hr hp hseal hpos h1 hb => ?_,
    fun reads d b e hs hi hpos hseal hd hb he => ?_, toothBytes_idle_headers⟩
  · exact State.becomes_of_onChip (f := fun c => c.codewordRx n.val rx) rfl (Chip.codewordRx_idle hd hs rx)
  · rw [h0, hq]
    exact State.becomes_of_onChip (f := fun c => c.codewordRx n.val rx) rfl (Chip.codewordRx_seeking_bad hd hs (hq ▸ hdec))
  · rw [h0, hq]
    exact State.becomes_of_onChip (f := fun c => c.codewordRx n.val rx) rfl (Chip.codewordRx_seeking_good hd hs (hq ▸ hdec))
  · have hbad := (Chip.codewordRx_bad hd hdec).trans (Chip.codewordBad_unsealed (by simpa using hseal))
    refine ⟨_, State.becomes_of_onChip (f := fun c => c.codewordRx n.val rx) rfl hbad, ?_⟩
    simp [Tab.get_set_ne]
  · rw [hq] at hdec h1
    exact State.becomes_of_onChip (f := fun c => c.codewordRx n.val rx) rfl (Chip.codewordRx_good hd hdec hseal h1)
  · exact State.becomes_of_onChip (f := fun c => (c.markerRx n.val s.fuses.lifecycle rx a).settlePairwise) rfl
      (by rw [Chip.markerRx_idle hs hd, Chip.settlePairwise_of_passed hk])
  · have hlost := (Chip.markerRx_undecoded hd (Chip.widthStep_of_no_request hm hp) hdec s.fuses.lifecycle a).trans
      (Chip.markerLost_unsealed (by simpa using hd) (by simpa using hseal) _)
    refine ⟨_, State.becomes_of_onChip (f := fun c => (c.markerRx n.val s.fuses.lifecycle rx a).settlePairwise) rfl
      ((congrArg Chip.settlePairwise hlost).trans (Chip.settlePairwise_of_passed (by simpa using hk))), ?_⟩
    simp [Tab.get_set_ne]
  · rw [hq] at hdec h0
    have hfirst := Chip.markerRx_first hs hd hdec hw hmagic hcrc h0 hl s.fuses.lifecycle a
    exact State.becomes_of_onChip (f := fun c => (c.markerRx n.val s.fuses.lifecycle rx a).settlePairwise) rfl
      ((congrArg Chip.settlePairwise hfirst).trans (Chip.settlePairwise_of_passed (by simpa [h0] using hk)))
  · rw [hq] at hdec h0
    have hsecond := Chip.markerRx_second hs hd hdec hw hmagic hcrc h0 hl hsp hnext hg hgap h1 s.fuses.lifecycle a
    exact State.becomes_of_onChip (f := fun c => (c.markerRx n.val s.fuses.lifecycle rx a).settlePairwise) rfl
      (congrArg Chip.settlePairwise hsecond)
  · rw [hpos] at hb ⊢
    exact State.becomes_of_onChip (f := fun c => c.markerTx n.val) rfl (Chip.markerTx_seeking rfl hs hd ha hr hp hseal h1 hb)
  · exact State.becomes_of_onChip (f := fun c => c.toothPick n.val reads) rfl (Chip.toothPick_seeking rfl hs hi hpos hseal hd hb he)

end Sys2Proof.Machine
end

section
/-!
PROOFS. Chapter 05: the receiver's treatment of a V cell whose SEQ is not the expected one (R135, R140).
-/
namespace Sys2Proof.Machine

/-! ### The distance of a SEQ from the expected one -/

/-- How far SEQ `s` is from the expected SEQ `e`, modulo 2^16 (R135). -/
def seqGap (e s : Nat) : Nat := (s + 65536 - e) % 65536

theorem seqGap_eq_emod {e s : Nat} (he : e < 65536) : (seqGap e s : Int) = ((s : Int) - e) % 65536 := by
  unfold seqGap
  omega

theorem seqGap_self (e : Nat) : seqGap e e = 0 := by
  unfold seqGap
  omega

theorem ne_of_seqGap_pos {e s : Nat} (h : 1 ≤ seqGap e s) : s ≠ e := by
  rintro rfl
  rw [seqGap_self] at h
  exact Nat.not_succ_le_zero 0 h

/-! ### Cells behind and ahead -/

section
variable {c : Chip} {n e : Nat} {x : Cell} {f : Framing} (hf : f = c.frmOf n) (he : e = f.expSeq.get 0 x.tid)
include hf he

theorem Chip.cellV_behind (hgap : 32768 ≤ seqGap e x.seq) (cwsn : Nat) :
    c.cellV n cwsn x = (c.countFrm n 10 1).dropCell n x := by
  have hne : x.seq ≠ e := ne_of_seqGap_pos (by omega)
  unfold Chip.cellV
  simp only [← hf, ← he]
  exact (if_neg hne).trans (if_pos hgap)

variable (hpos : 1 ≤ seqGap e x.seq) (hgap : seqGap e x.seq ≤ 32767)
include hpos hgap

/-- Ahead with no NAK outstanding: nothing missing is still to be replayed, and the cell goes on. -/
theorem Chip.cellV_ahead_delivers (hn : f.naks = []) (cwsn : Nat) :
    c.cellV n cwsn x = (c.setFrm n { f with expSeq := f.expSeq.set x.tid ((x.seq + 1) % 65536) }).deliver n x := by
  have hahead : ¬ seqGap e x.seq ≥ 32768 := by omega
  unfold Chip.cellV
  simp only [← hf, ← he]
  exact (if_neg (ne_of_seqGap_pos hpos)).trans ((if_neg hahead).trans (if_pos (by simp [hn])))

variable (hn : f.naks ≠ []) (hnew : (f.held.any fun h => h.cell.tid == x.tid && h.cell.seq == x.seq) = false)
include hn hnew

/-- Ahead with a NAK outstanding: the cell takes a place, or is discarded where none is free. -/
theorem Chip.cellV_ahead_waits (cwsn : Nat) :
    c.cellV n cwsn x =
      match c.contractedPool x.tid with
      | none => (c.countPort (c.tunOf x.tid).outPort 7 1).dropCell n x
      | some pool => (c.countFrm n 9 1).setFrm n
          { (c.countFrm n 9 1).frmOf n with held := ((c.countFrm n 9 1).frmOf n).held ++ [{ cwsn, cell := x, pool }] } := by
  have hahead : ¬ seqGap e x.seq ≥ 32768 := by omega
  unfold Chip.cellV
  simp only [← hf, ← he]
  refine (if_neg (ne_of_seqGap_pos hpos)).trans ((if_neg hahead).trans ((if_neg (by simp [hn])).trans ((if_neg (by simp [hnew])).trans ?_)))
  rfl

/-- A cell that is held changes nothing of the framing but the list of held cells and counter 9. -/
theorem Chip.cellV_ahead_held {pool : Pool} (hp : c.contractedPool x.tid = some pool) (cwsn : Nat) :
    (c.cellV n cwsn x).frmOf n =
      { f with cnt := f.cnt.set 9 (sat64 (f.cnt.get 0 9) 1), held := f.held ++ [{ cwsn, cell := x, pool }] } := by
  rw [Chip.cellV_ahead_waits hf he hpos hgap hn hnew, hp]
  simp [hf]

theorem Chip.cellV_ahead_no_place (hp : c.contractedPool x.tid = none) (cwsn : Nat) :
    c.cellV n cwsn x = (c.countPort (c.tunOf x.tid).outPort 7 1).dropCell n x := by
  rw [Chip.cellV_ahead_waits hf he hpos hgap hn hnew, hp]

end

/-- Settles O25: the difference modulo 2^16 is the distance by which the receiver sorts its cells. -/
theorem seqAheadAndBehind : Obligations.SeqAheadAndBehind := by
  unfold Obligations.SeqAheadAndBehind
  intro c n cwsn e x f hf he _ hlt d hd
  have hgap : (seqGap e x.seq : Int) = d := (seqGap_eq_emod hlt).trans hd.symm
  refine ⟨fun h1 h2 hn => ?_, fun h1 h2 hn hnew => ⟨fun p hp => ?_, fun hp => ?_⟩, fun h1 _ => ?_⟩
  · exact Chip.cellV_ahead_delivers hf he (by omega) (by omega) hn cwsn
  · rw [Chip.cellV_ahead_held hf he (by omega) (by omega) hn hnew hp]
    exact ⟨rfl, rfl⟩
  · exact Chip.cellV_ahead_no_place hf he (by omega) (by omega) hn hnew hp cwsn
  · exact Chip.cellV_behind hf he (by omega) cwsn

end Sys2Proof.Machine
end

section
/-!
PROOFS. Chapter 05: the framing commands (R150, Tables 05.9 to 05.11).
-/
namespace Sys2Proof.Machine

section
variable {s : State} {p : Packet} {c : Chip} {n : Nat} (hn : n = fld p.params 0 1) (h3 : n ≤ 3)

/-! ### GET_FRAMING_STATUS and GET_FRAMING_COUNTERS -/

/-- The response of GET_FRAMING_STATUS (Table 05.10). -/
def Chip.framingStatus (c : Chip) (n : Nat) : Bytes :=
  let f := c.frmOf n
  le 1 n ++ le 1 (c.fstate n) ++ le 1 f.mver ++ le 1 (c.laneOf n).width ++ le 2 f.peerFeatures ++ le 1 f.peerRole ++
    le 1 (b2n (!f.replayQ.isEmpty) + 2 * b2n (!f.naks.isEmpty)) ++ le 6 f.rxTurn ++ zeros 2 ++
    le 4 f.txCwsn ++ le 4 f.ackSent ++ le 4 f.peerGearHash ++ le 2 f.naks.length ++ le 2 f.replayQ.length ++ le 2 f.held.length ++
    le 2 f.mgmtOut.length ++ le 6 f.widthTurn ++ le 2 f.widthReason ++ zeros 20

/-- The response of GET_FRAMING_COUNTERS. -/
def Framing.counters (f : Framing) : Bytes := ((List.range 24).map fun i => le 8 (f.cnt.get 0 i)).flatten

include hn h3

theorem execGetFramingStatus_answers (hh : s.heard 0x0410 p c) (hz : rsvd p.params 1 3 = true)
    (hroom : c.roomFor p (c.framingStatus n).length) :
    execGetFramingStatus p s = .next { s with chip := c.replied p (c.framingStatus n) } := by
  subst hn
  exact runCommand_ok hh (if_neg (by simp [hz]; omega)) hroom

theorem execGetFramingCounters_answers (hh : s.heard 0x0411 p c)
    (hctl : fld p.params 1 1 = 0 ∨ (fld p.params 1 1 = 1 ∧ (c.issuer p.sess).2 = 1)) (hz : rsvd p.params 2 2 = true)
    (hroom : c.roomFor p (c.frmOf n).counters.length) :
    execGetFramingCounters p s = .next { s with chip :=
      (if fld p.params 1 1 = 1 then c.setFrm n { c.frmOf n with cnt := [] } else c).replied p (c.frmOf n).counters } := by
  subst hn
  have hlvl : fld p.params 1 1 = 1 → (s.ctxOf 0x0411 p c).lvl = 1 := fun h1 => by
    obtain h0 | ⟨-, hl⟩ := hctl
    · omega
    · exact hl
  refine runCommand_ok hh ((if_neg ?_).trans (if_neg ?_)) hroom
  · simp [hz]; omega
  · simpa using hlvl

/-! ### SET_FRAMING_CTRL -/

theorem execSetFramingCtrl_stores (hh : s.heard 0x0413 p c) (hfl : fld p.params 1 1 ≤ 3) (hrun : 2 ≤ fld p.params 2 1 ∧ fld p.params 2 1 ≤ 64)
    (hhold : 1 ≤ fld p.params 3 1 ∧ fld p.params 3 1 ≤ 60) (hz : rsvd p.params 4 4 = true) {d : Chip}
    (hd : d = c.setFrm n { c.frmOf n with upgradeAuto := bitOf (fld p.params 1 1) 0, degradeRun := fld p.params 2 1,
                                          upgradeHold := fld p.params 3 1 }) :
    execSetFramingCtrl p s = .next { s with chip :=
      (if bitOf (fld p.params 1 1) 1 then d.storeConfig fun k =>
        { k with framing := k.framing.set n (bitOf (fld p.params 1 1) 0, fld p.params 2 1, fld p.params 3 1) } else d).replied p } := by
  subst hn hd
  exact runCommand_ok_empty hh (if_neg (by simp [hz]; omega))

/-! ### TRUNK_WIDTH (R150) -/

omit hn h3 in
/-- With no request of this end open, a new one withdraws none (R146). -/
theorem Chip.requestWidth_of_none (h : (c.frmOf n).wcMine = none) (kind w rxset reason handle : Nat) :
    c.requestWidth n kind w rxset reason handle =
      c.setFrm n { c.frmOf n with wcMine := some { kind, width := w, rxset, turn := 0, reason, handle }, wcSent := false,
                                  wcTxDone := false, wcRxDone := false } := by
  simp [Chip.requestWidth, h]

section
variable {w : Nat} (hh : s.heard 0x0412 p c) (hw : w = fld p.params 1 1) (hw124 : w = 1 ∨ w = 2 ∨ w = 4) (hz : rsvd p.params 2 2 = true)
include hw hw124 hz

theorem trunkWidth_in_range :
    ¬ (fld p.params 0 1 > 3 || !(fld p.params 1 1 = 1 || fld p.params 1 1 = 2 || fld p.params 1 1 = 4) || !rsvd p.params 2 2) = true := by
  simp [← hn, ← hw, hz]
  omega

include hh

theorem execTrunkWidth_not_data (hp : (c.laneOf n).phase ≠ .data) : execTrunkWidth p s = .next { s with chip := c.refused p 0x0204 0x0428 } := by
  have hrange := trunkWidth_in_range hn h3 hw hw124 hz
  subst hn
  exact runCommand_err hh ((if_neg hrange).trans (if_pos (by simpa [Chip.inData] using hp))) (by decide)

variable (hp : (c.laneOf n).phase = .data)
include hp

theorem execTrunkWidth_unxus1 (hr : (c.laneOf n).revision = 1) : execTrunkWidth p s = .next { s with chip := c.refused p 0x0204 0x0427 } := by
  have hrange := trunkWidth_in_range hn h3 hw hw124 hz
  subst hn
  exact runCommand_err hh ((if_neg hrange).trans ((if_neg (by simp [Chip.inData, hp])).trans (if_pos (by simp [hr])))) (by decide)

variable (hr : (c.laneOf n).revision = 2)
include hr

theorem execTrunkWidth_present (hsame : w = (c.laneOf n).width) : execTrunkWidth p s = .next { s with chip := c.replied p } := by
  have hrange := trunkWidth_in_range hn h3 hw hw124 hz
  subst hn hw
  exact runCommand_ok_empty hh
    ((if_neg hrange).trans ((if_neg (by simp [Chip.inData, hp])).trans ((if_neg (by simp [hr])).trans (if_pos hsame))))

/-- Another width, usable at both ends, with no width change and no shift under way: the request is made, and the handle stays open. -/
theorem execTrunkWidth_requests {rx tx : Nat} (hother : w ≠ (c.laneOf n).width) (hrx : usable (c.laneOf n).goodSet w = some rx)
    (htx : usable (c.frmOf n).peerRxset w = some tx) (hcommon : (c.laneOf n).widths.contains w = true) (hlimp : c.limpMissingAt n w = false)
    (hm : (c.frmOf n).wcMine = none) (hpeer : (c.frmOf n).wcPeer = none) (hs : c.gear.shift = none)
    (hrec : c.recordFree (c.issuer p.sess).1 = true) :
    execTrunkWidth p s = .next { s with chip :=
      (c.requestWidth n (if w < (c.laneOf n).width then 1 else 2) w rx 0x042B (s.ctxOf 0x0412 p c).handle).accepts p (s.ctxOf 0x0412 p c) } := by
  have hrange := trunkWidth_in_range hn h3 hw hw124 hz
  subst hn hw
  refine runCommand_accepted hh
    ((if_neg hrange).trans ((if_neg (by simp [Chip.inData, hp])).trans ((if_neg (by simp [hr])).trans ((if_neg hother).trans ?_)))) hrec
  simp only [State.ctxOf_ps, hrx, htx, hcommon, hlimp, hm, hpeer, hs, Bool.not_true, Option.isSome_none, Bool.false_eq_true, if_false]

end

end

/-- Settles O28, one command after another. -/
theorem framingCommandsAct : Obligations.FramingCommandsAct := by
  unfold Obligations.FramingCommandsAct
  intro s p c n f l hn h3 hf hl
  subst hf hl
  refine ⟨fun d hh hz hroom hd => ?_, fun hh hctl hz hroom => execGetFramingCounters_answers hn h3 hh hctl hz hroom,
    fun w hh hw hw124 hz => ⟨execTrunkWidth_not_data hn h3 hh hw hw124 hz, execTrunkWidth_unxus1 hn h3 hh hw hw124 hz,
      execTrunkWidth_present hn h3 hh hw hw124 hz, fun rx tx x hp hr hother hrx htx hcommon hlimp hm hpeer hs hrec hx => ?_⟩,
    fun g hh hfl hrun hrun' hhold hhold' hz hg => ⟨fun h1 => ?_, fun h2 => ?_⟩⟩
  · have hstatus : d = c.framingStatus n := hd
    rw [hstatus] at hroom ⊢
    exact execGetFramingStatus_answers hn h3 hh hz hroom
  · rw [hx, ← Chip.requestWidth_of_none hm]
    exact execTrunkWidth_requests hn h3 hh hw hw124 hz hp hr hother hrx htx hcommon hlimp hm hpeer hs hrec
  · have hset := execSetFramingCtrl_stores hn h3 hh hfl ⟨hrun, hrun'⟩ ⟨hhold, hhold'⟩ hz (congrArg (c.setFrm n) hg)
    have hkeep : bitOf (fld p.params 1 1) 1 = false := beq_eq_false_iff_ne.2 (by omega)
    rwa [hkeep] at hset
  · have hset := execSetFramingCtrl_stores hn h3 hh hfl ⟨hrun, hrun'⟩ ⟨hhold, hhold'⟩ hz (congrArg (c.setFrm n) hg)
    have hpersist : bitOf (fld p.params 1 1) 1 = true := beq_iff_eq.2 (by omega)
    rwa [hpersist] at hset

end Sys2Proof.Machine
end

section
/-!
PROOFS. The idle step: where no command waits, one CORE cycle passes (the model's choice, assumption 1; R252, R257 for the clocks).
-/
namespace Sys2Proof.Machine

section
variable {c : Chip}

theorem Chip.attendAll_of_no_commands (h : c.cmd.inbox = []) : c.attendAll = c := by
  simp [Chip.attendAll, h]

theorem Chip.idle_passes (h : 640 < c.attendAll.toSpoke) : c.idle = c.attendAll.pass 640 := if_pos h

theorem Chip.idle_stands (h : c.attendAll.toSpoke ≤ 640) : c.idle = c.attendAll := if_neg (Nat.not_lt.2 h)

theorem step_of_empty_queue {s : State} (h : s.pending = []) : step s = .next { s with chip := s.chip.idle } := by
  simp [step, h]

/-! ### The clocks while nothing adjusts them -/

theorem Chip.slewOf_of_no_slew (h : c.time.slew = 0) (d : Nat) : c.slewOf d = (0, 0) := by
  simp [Chip.slewOf, h]

theorem Chip.freqTop_pos : 0 < c.freqTop := by
  unfold Chip.freqTop
  split <;> decide

theorem Chip.clampedFreq_of_no_adjustment (h : c.time.freqAdj = 0) : c.clampedFreq = (0, false) := by
  have hpos := Chip.freqTop_pos (c := c)
  unfold Chip.clampedFreq
  rw [h]
  exact (if_neg (by omega)).trans (if_neg (by omega))

section
variable (hslew : c.time.slew = 0) (d : Nat)
include hslew

theorem Chip.pass_time_of_no_slew : (c.pass d).time = c.time := by
  simp only [Chip.pass_time, Chip.slewOf_of_no_slew hslew]
  simp [← hslew]

/-- With nothing to slew, no adjustment asked for or in force and no remainder, the powered clocks run as the local clock does. -/
theorem Chip.pass_clk_of_no_adjustment (hadj : c.time.freqAdj = 0) (hdco : c.clk.dco = 0) (hrest : c.clk.refRest = 0) :
    (c.pass d).clk = { c.clk with localPs := c.clk.localPs + d, upPs := c.clk.upPs + d, powerPs := c.clk.powerPs + d,
                                  slewRest := 0, dcoRest := 0 } := by
  simp [Chip.pass, Chip.slewOf_of_no_slew hslew, Chip.clampedFreq_of_no_adjustment hadj, hslew, hdco, hrest]

end

end

/-- Settles O2: the step is the model's `idle`, which passes 640 ps unless a spoke begins within them. -/
theorem idleStepPassesOneCycle : Obligations.IdleStepPassesOneCycle := by
  unfold Obligations.IdleStepPassesOneCycle
  intro s hs
  refine ⟨Chip.attendAll_of_no_commands, fun h => ?_, fun h => ?_, fun c d hd => ⟨?_, ?_, fun hslew hadj hdco hrest => ?_⟩⟩
  · rw [step_of_empty_queue hs, Chip.idle_passes h]
  · rw [step_of_empty_queue hs, Chip.idle_stands h]
  · rw [hd, Chip.pass_localPs]
  · rw [hd]
    rfl
  · rw [hd, Chip.pass_time_of_no_slew hslew, Chip.pass_clk_of_no_adjustment hslew 640 hadj hdco hrest]
    exact ⟨rfl, rfl, hdco, rfl⟩

end Sys2Proof.Machine
end

section
/-!
PROOFS. Chapter 06: what a cause of suspension changes, and what it posts (R166, R167, R169).
-/
namespace Sys2Proof.Machine

variable {c : Chip} {tid : Nat}

/-! ### Tunnel contexts under the operations that events go through -/

@[simp] theorem Chip.tunOf_setTun (t : Tun) : (c.setTun tid t).tunOf tid = t := Tab.get_set ..
theorem Chip.tunOf_setTun_ne {i : Nat} (h : i ≠ tid) (t : Tun) : (c.setTun tid t).tunOf i = c.tunOf i := Tab.get_set_ne _ _ _ h
@[simp] theorem Chip.turn_setTun (t : Tun) : (c.setTun tid t).turn = c.turn := rfl

@[simp] theorem Chip.tunOf_post (i x r d st : Nat) : (c.post x r d st).tunOf i = c.tunOf i := by simp [Chip.tunOf]

@[simp] theorem Chip.event_post (x r d y q e st : Nat) : (c.post x r d st).event y q e = c.event y q e := by
  simp [Chip.event, Chip.turn, Chip.timeSet]

/-- An event for a tunnel's owner goes into an event queue or nowhere; the fabric stays. -/
@[simp] theorem Chip.postTun_fab (tid : Nat) (e : EventRec) : (c.postTun tid e).fab = c.fab := by
  unfold Chip.postTun
  cases hs : (c.tunOf tid).sess with
  | none => simp [hs]
  | some x => cases x <;> simp [hs, apply_ite Chip.fab]

@[simp] theorem Chip.tunOf_postTun (i : Nat) (e : EventRec) : (c.postTun tid e).tunOf i = c.tunOf i := by simp [Chip.tunOf]

/-! ### The operation that every cause goes through -/

/-- A promise to which a cause has come in turn `turn` (R166): the cause and its port are noted, it is counted, and R167 counts from here. -/
def Promise.caused (p : Promise) (cause port turn : Nat) (held : Bool) : Promise :=
  { p with cause, port, causes := sat32 p.causes 1, lastTurn := turn, held }

/-- A kept promise to which a first cause has come. -/
def Promise.broken (p : Promise) (cause port turn : Nat) (held : Bool) : Promise :=
  { p.caused cause port turn held with suspended := true, since := turn, suspensions := sat32 p.suspensions 1 }

section
variable (hk : c.contracted tid = true) (hl : (c.tunOf tid).state.live = true)
include hk hl

theorem Chip.suspend_of_suspended (hs : (c.tunOf tid).promise.suspended = true) (cause port : Nat) :
    c.suspend tid cause port =
      c.setTun tid { c.tunOf tid with promise := (c.tunOf tid).promise.caused cause port c.turn (c.promiseHolds tid) } :=
  (if_neg (by simp [hk, hl])).trans (if_pos hs)

theorem Chip.suspend_of_kept (hs : (c.tunOf tid).promise.suspended = false) (cause port : Nat) {b : Chip}
    (hb : b = c.setTun tid { c.tunOf tid with promise := (c.tunOf tid).promise.broken cause port c.turn (c.promiseHolds tid) }) :
    c.suspend tid cause port =
      (b.post 0x03E0 cause (promiseDetail port tid c.turn)).postTun tid (b.event 0x03E0 cause (promiseDetail port tid c.turn)) := by
  subst hb
  rw [← Chip.event_post 0x03E0 cause (promiseDetail port tid c.turn) _ _ _ 0]
  exact (if_neg (by simp [hk, hl])).trans (if_neg (by simp [hs]))

end

/-- Settles O29: of a suspended promise only the context changes; a kept one is suspended and reported. -/
theorem suspensionEvents : Obligations.SuspensionEvents := by
  unfold Obligations.SuspensionEvents
  intro c tid cause port t d ht hd hk hl
  subst ht
  cases hs : (c.tunOf tid).promise.suspended with
  | true =>
    rw [Chip.suspend_of_suspended hk hl hs] at hd
    subst hd
    simp only [Chip.tunOf_setTun]
    exact ⟨hs, rfl, rfl, rfl, rfl, fun i hi => Chip.tunOf_setTun_ne hi _, fun _ => ⟨_, rfl, rfl⟩, nofun⟩
  | false =>
    rw [Chip.suspend_of_kept hk hl hs cause port rfl] at hd
    refine ⟨?_, ?_, ?_, ?_, ?_, fun i hi => ?_, nofun, fun _ => ⟨c.setTun tid _, ⟨rfl, rfl, rfl, rfl, rfl⟩, hd⟩⟩
    · simp [hd, Promise.broken]
    · simp [hd, Promise.broken, Promise.caused]
    · simp [hd, Promise.broken, Promise.caused]
    · simp [hd, Promise.broken, Promise.caused]
    · simp [hd, Promise.broken, Promise.caused]
    · simp [hd, Chip.tunOf_setTun_ne hi]

end Sys2Proof.Machine
end

section
/-!
PROOFS. Chapters 06, 08 and 09: an endpoint presents a cell at its port (R214, R221, R239, R240).
-/
namespace Sys2Proof.Machine

/-- What a row that answers the block `c` leaves, by an equation of its own for `c`. -/
theorem becomes_of_next {s : State} {i : Instr} {c d : Chip} (hi : exec i s = .next { s with chip := c }) (h : c = d) : s.becomes i d :=
  h ▸ hi

/-- CELL_PRESENT at a port other than F9, where it makes no room for the bus. -/
theorem becomes_cellPresent {s : State} {port : Fin 11} {tid : Nat} {c d : Chip} (hc : c = s.chip.drainWaiting) (h9 : port.val ≠ 9)
    (h : c.presentCell port.val tid = d) : s.becomes (.cellPresent port tid) (d.drainCheck tid) := by
  subst hc h
  refine becomes_of_next rfl ?_
  exact if_neg h9

/-- Tunnel `t` may present cells at port `p` now: the port is on and cells are forwarded, the tunnel is open or drains its unit, it
starts here at that port, and nothing holds its source back (R14, R71, R203, R209). -/
def Chip.presents (c : Chip) (p : Nat) (t : Tun) : Prop :=
  c.portOn p = true ∧ c.forwards = true ∧ (t.state = .open ∨ t.state = .closing) ∧ t.index = 0 ∧ t.inPort = p ∧ t.heldBack = false

/-- The model's test for leaving the cell at its source fails exactly where the tunnel may present. -/
theorem Chip.presents_iff {c : Chip} {p : Nat} {t : Tun} : c.presents p t ↔
    ¬ (!(c.portOn p && c.forwards) || !(t.state == .open || t.state == .closing) || t.index != 0 || t.inPort != p || t.heldBack) = true := by
  simp [Chip.presents, Decidable.or_iff_not_imp_left]

@[simp] theorem Tun.police_outPort (t : Tun) (rate depth now : Nat) : (t.police rate depth now).outPort = t.outPort := by
  simp [Tun.police, apply_ite Tun.outPort]

@[simp] theorem Tun.police_polMode (t : Tun) (rate depth now : Nat) : (t.police rate depth now).polMode = t.polMode := by
  simp [Tun.police, apply_ite Tun.polMode]

section
variable {c : Chip} {p tid : Nat} {t : Tun} {x y : Cell} (ht : t = c.tunOf tid)
  (hx : (c.fab.src.get [] p).find? (fun z => z.tid == tid) = some x) (hy : y = { x with seq := t.nextSeq }) (hp : c.presents p t)
include ht hx hy hp

/-! ### Class B -/

section
variable (hk : c.contracted tid = false) (h10 : p ≠ 10)
include hk h10

theorem Chip.presentCell_classB {k : Pool} (hs : c.backlogged t.outPort = false) (hpool : c.bestEffortPool tid false = some k) :
    c.presentCell p tid = (c.tookCell p y).linkCell t.outPort { cell := y, pool := k } := by
  subst ht hy
  unfold Chip.presentCell
  simp only [hx]
  refine (if_neg (Chip.presents_iff.1 hp)).trans ((if_neg (by simp [hk])).trans ?_)
  simp [hs, h10, hpool]

omit hy in
theorem Chip.presentCell_classB_stays (hs : c.backlogged t.outPort = true ∨ c.bestEffortPool tid false = none) :
    c.presentCell p tid = c := by
  subst ht
  unfold Chip.presentCell
  simp only [hx]
  refine (if_neg (Chip.presents_iff.1 hp)).trans ((if_neg (by simp [hk])).trans ?_)
  obtain hs | hs := hs <;> simp [hs, h10]

end

/-! ### Contracted tunnels and their policers (R239, R240) -/

section
variable {r : CertRec} {u : Tun} (hk : c.contracted tid = true) (hr : c.certRec tid = some r)
include hk hr

/-- Where the source is not here, or its policer is off, the cell goes on as conforming. -/
theorem Chip.presentCell_conforms (hs : c.backlogged t.outPort = false ∨ c.budgetLeft t.outPort = true) (hm : r.source = false ∨ t.polMode = 2) :
    c.presentCell p tid =
      (if r.source then c.countPoliced tid fun f => { f with conform := sat32 f.conform 1 } else c).presentConform p y := by
  subst ht hy
  unfold Chip.presentCell
  simp only [hx, hr]
  refine (if_neg (Chip.presents_iff.1 hp)).trans ((if_pos hk).trans ((if_pos (by simpa using hm)).trans (if_neg ?_)))
  obtain hs | hs := hs <;> simp [hs]

variable (hsrc : r.source = true) (hu : u = t.police r.policeRate r.policeDepth c.clk.powerPs)
include hsrc hu

theorem Chip.presentCell_token (hs : c.backlogged t.outPort = false ∨ c.budgetLeft t.outPort = true) (htok : 65536 ≤ u.tokens)
    (hm : t.polMode ≠ 2) :
    c.presentCell p tid =
      ((c.setTun tid { u with tokens := u.tokens - 65536 }).countPoliced tid fun f => { f with conform := sat32 f.conform 1 }).presentConform p y := by
  subst ht hy hu
  unfold Chip.presentCell
  simp only [hx, hr]
  refine (if_neg (Chip.presents_iff.1 hp)).trans ((if_pos hk).trans ((if_neg (by simp [hsrc, hm])).trans ((if_pos htok).trans (if_neg ?_))))
  obtain hs | hs := hs <;> simp [hs]

variable (htok : u.tokens < 65536)
include htok

theorem Chip.presentCell_drops (hm : t.polMode = 1) :
    c.presentCell p tid =
      (((c.setTun tid u).countPoliced tid fun f => { f with dropped := sat32 f.dropped 1 }).tookCell p y).dropCell u.outPort y := by
  subst ht hy hu
  unfold Chip.presentCell
  simp only [hx, hr]
  exact (if_neg (Chip.presents_iff.1 hp)).trans ((if_pos hk).trans ((if_neg (by simp [hsrc, hm])).trans
    ((if_neg (Nat.not_le.2 htok)).trans (if_pos (by simpa using hm)))))

theorem Chip.presentCell_demotes (hm : t.polMode = 0) (hs : c.backlogged t.outPort = false) {k : Pool}
    (hpool : (c.setTun tid u).bestEffortPool tid true = some k) :
    c.presentCell p tid =
      (((c.setTun tid u).countPoliced tid fun f => { f with demoted := sat32 f.demoted 1 }).tookCell p y).linkCell u.outPort
        { cell := y, pool := k, demoted := true } := by
  subst ht hy hu
  unfold Chip.presentCell
  simp only [hx, hr]
  refine (if_neg (Chip.presents_iff.1 hp)).trans ((if_pos hk).trans ((if_neg (by simp [hsrc, hm])).trans
    ((if_neg (Nat.not_le.2 htok)).trans ((if_neg (by simp [hm])).trans ?_))))
  simp [hs, hpool]

end

end

end Sys2Proof.Machine
end

section
/-!
PROOFS. Chapters 06 and 08: link slots and fabric spokes (R71, R159, R214).
-/
namespace Sys2Proof.Machine

/-! ### Round robin over the trunk inputs (R214) -/

/-- The place of trunk input `j` in the order of an output that last served input `rr`. -/
def linkRank (rr j : Nat) : Nat := (j + 7 - rr % 4) % 4

/-- The trunk inputs in the order in which an output that last served input `rr` looks at them. -/
def linkOrder (rr : Nat) : List Nat := (List.range 4).map fun i => (rr + 1 + i) % 4

theorem linkOrder_find?_some {rr i : Nat} {f : Nat → Bool} (hi : i < 4) (hf : f i = true)
    (hb : ∀ j, j < 4 → linkRank rr j < linkRank rr i → f j = false) : (linkOrder rr).find? f = some i := by
  have hplace : (rr + 1 + linkRank rr i) % 4 = i := by unfold linkRank; omega
  have hfirst : (List.range 4).find? (f ∘ fun k => (rr + 1 + k) % 4) = some (linkRank rr i) := by
    refine List.find?_range_eq_some.2 ⟨by simp [hplace, hf], List.mem_range.2 (Nat.mod_lt _ (by decide)), fun k hk => ?_⟩
    have hrank : linkRank rr ((rr + 1 + k) % 4) = k := by unfold linkRank at hk ⊢; omega
    simp [hb _ (Nat.mod_lt _ (by decide)) (hrank.symm ▸ hk)]
  unfold linkOrder
  rw [List.find?_map, hfirst]
  exact congrArg some hplace

theorem linkOrder_find?_none {rr : Nat} {f : Nat → Bool} (h : ∀ j, j < 4 → f j = false) : (linkOrder rr).find? f = none := by
  simp only [linkOrder, List.find?_eq_none, List.mem_map]
  rintro _ ⟨k, -, rfl⟩
  simp [h _ (Nat.mod_lt _ (by decide))]

/-! ### One link slot -/

/-- The first waiting cell of trunk input `i` at output `p` is contracted and within the output's budget. -/
def Chip.withinBudget (c : Chip) (p i : Nat) : Bool :=
  match c.backlogOf p i with
  | x :: _ => c.contracted x.cell.tid && !x.demoted && c.budgetLeft p
  | [] => false

/-- The trunk input whose first cell the next link slot of output `p` takes: a contracted cell within budget before the others (R214),
none where cells are not forwarded (R71). -/
def Chip.linkChoice (c : Chip) (p : Nat) : Option Nat :=
  if !c.forwards then none
  else match (linkOrder (c.port p).rrTrunk).find? (c.withinBudget p) with
    | some i => some i
    | none => (linkOrder (c.port p).rrTrunk).find? fun i => !(c.backlogOf p i).isEmpty

theorem Chip.linkSlot_eq (c : Chip) (p : Nat) :
    c.linkSlot p =
      match c.linkChoice p with
      | none => c
      | some i =>
        match c.backlogOf p i with
        | [] => c
        | x :: r =>
          ((if c.withinBudget p i then c else c.setPort p { c.port p with rrTrunk := i }).setBacklog p i r).linkCell p x true := by
  rfl

section
variable {c : Chip} {p i : Nat}

theorem Chip.linkSlot_idle (h : c.forwards = false ∨ ∀ j, j < 4 → c.backlogOf p j = []) : c.linkSlot p = c := by
  have hnone : c.linkChoice p = none := by
    unfold Chip.linkChoice
    obtain h | h := h
    · simp [h]
    · have hwithin : ∀ j, j < 4 → c.withinBudget p j = false := fun j hj => by simp [Chip.withinBudget, h j hj]
      rw [linkOrder_find?_none hwithin, linkOrder_find?_none fun j hj => by simp [h j hj]]
      exact ite_self _
  rw [Chip.linkSlot_eq, hnone]

variable {x : QCell} {r : List QCell} (hi : i < 4) (hf : c.forwards = true) (hq : c.backlogOf p i = x :: r)
include hi hf hq

theorem Chip.linkSlot_within (hw : c.withinBudget p i = true)
    (hb : ∀ j, j < 4 → linkRank (c.port p).rrTrunk j < linkRank (c.port p).rrTrunk i → c.withinBudget p j = false) :
    c.linkSlot p = (c.setBacklog p i r).linkCell p x true := by
  have hchoice : c.linkChoice p = some i := by
    simp [Chip.linkChoice, hf, linkOrder_find?_some hi hw hb]
  simp only [Chip.linkSlot_eq, hchoice, hq, hw, if_true]

theorem Chip.linkSlot_in_turn (hw : ∀ j, j < 4 → c.withinBudget p j = false)
    (hb : ∀ j, j < 4 → linkRank (c.port p).rrTrunk j < linkRank (c.port p).rrTrunk i → c.backlogOf p j = []) :
    c.linkSlot p = ((c.setPort p { c.port p with rrTrunk := i }).setBacklog p i r).linkCell p x true := by
  have hturn : (linkOrder (c.port p).rrTrunk).find? (fun j => !(c.backlogOf p j).isEmpty) = some i :=
    linkOrder_find?_some hi (by simp [hq]) fun j hj hr => by simp [hb j hj hr]
  have hchoice : c.linkChoice p = some i := by
    simp [Chip.linkChoice, hf, linkOrder_find?_none hw, hturn]
  simp only [Chip.linkSlot_eq, hchoice, hq, hw i hi, Bool.false_eq_true, if_false]

end

/-! ### The fabric spoke (R159) -/

@[simp] theorem Chip.stepDefer_clk (c : Chip) : c.stepDefer.clk = c.clk := by
  unfold Chip.stepDefer
  split
  · rfl
  · exact (apply_ite Chip.clk _ _ _).trans (ite_self _)

@[simp] theorem Chip.stepDefer_fab (c : Chip) : c.stepDefer.fab = c.fab := by
  unfold Chip.stepDefer
  split
  · rfl
  · exact (apply_ite Chip.fab _ _ _).trans (ite_self _)

@[simp] theorem Chip.stepDefer_cmd (c : Chip) : c.stepDefer.cmd = c.cmd := by
  unfold Chip.stepDefer
  split
  · rfl
  · exact (apply_ite Chip.cmd _ _ _).trans (ite_self _)

/-- An adjusted turn that has ended is no longer in force (R260). -/
def Chip.adjEnded (c : Chip) : Chip :=
  match c.clk.adj with
  | some (_, _, e) => if c.clk.localPs ≥ e then { c with clk := { c.clk with adj := none } } else c
  | none => c

theorem Chip.adjEnded_eq (c : Chip) : c.adjEnded = c ∨ c.adjEnded = { c with clk := { c.clk with adj := none } } := by
  unfold Chip.adjEnded
  split
  · split
    · exact .inr rfl
    · exact .inl rfl
  · exact .inl rfl

/-- What a turn boundary brings: the suspended tunnels are counted (Table 21.1) and a step may be put off (R262). -/
def Chip.turnBegun (c : Chip) : Chip :=
  let c := if c.spoke = 0 then c.bump 30 (c.tids fun i t => t.state.live && t.promise.suspended && c.contracted i).length else c
  if c.spoke = 0 then c.stepDefer else c

@[simp] theorem Chip.turnBegun_clk (c : Chip) : c.turnBegun.clk = c.clk := by simp [Chip.turnBegun, apply_ite Chip.clk]
@[simp] theorem Chip.turnBegun_fab (c : Chip) : c.turnBegun.fab = c.fab := by simp [Chip.turnBegun, apply_ite Chip.fab]
@[simp] theorem Chip.turnBegun_cmd (c : Chip) : c.turnBegun.cmd = c.cmd := by simp [Chip.turnBegun, apply_ite Chip.cmd]

/-- Every output's budget is whole again (R159). -/
def Fabric.budgetsWhole (f : Fabric) : Fabric := { f with ports := f.ports.mapAll fun _ o => { o with spent := 0 } }

theorem Fabric.budgetsWhole_spent (f : Fabric) : ∀ e ∈ f.budgetsWhole.ports, e.2.spent = 0 := by
  intro e he
  obtain ⟨o, -, rfl⟩ := List.mem_map.1 he
  rfl

/-- FABRIC_SPOKE_START passes the time to the boundary and makes the budgets whole; what else the boundary brings touches neither the clocks'
readings nor the fabric. -/
theorem exec_fabricSpokeStart (s : State) : ∃ e : Chip,
    exec .fabricSpokeStart s = .next { s with chip := { e with fab := s.chip.fab.budgetsWhole } } ∧ e.cmd = s.chip.cmd ∧
    e.clk.localPs = s.chip.clk.localPs + s.chip.toSpoke ∧ e.clk.powerPs = (s.chip.pass s.chip.toSpoke).clk.powerPs := by
  have hexec : exec .fabricSpokeStart s =
      onChip s fun c => { (c.pass c.toSpoke).adjEnded.turnBegun with fab := (c.pass c.toSpoke).adjEnded.turnBegun.fab.budgetsWhole } := rfl
  refine ⟨(s.chip.pass s.chip.toSpoke).adjEnded.turnBegun, ?_, ?_⟩
  · rw [hexec]
    obtain h | h := (s.chip.pass s.chip.toSpoke).adjEnded_eq <;> simp [onChip, h]
  · obtain h | h := (s.chip.pass s.chip.toSpoke).adjEnded_eq <;> simp only [h] <;> simp

end Sys2Proof.Machine
end

section
/-!
PROOFS. Chapters 06 and 09: the promise's return, and endpoints that take cells (R167, R232).
-/
namespace Sys2Proof.Machine

/-! ### The promise comes back (R167) -/

theorem Chip.restoreDue_iff {c : Chip} {p : Promise} :
    c.restoreDue p = true ↔ c.spoke = 0 ∧ seqBefore 48 c.turn ((p.lastTurn + 2) % 2 ^ 48) = false := by
  simp [Chip.restoreDue]

theorem Chip.restoreDue_eq_false_iff {c : Chip} {p : Promise} :
    c.restoreDue p = false ↔ c.spoke ≠ 0 ∨ seqBefore 48 c.turn ((p.lastTurn + 2) % 2 ^ 48) = true := by
  rw [← Bool.not_eq_true, Chip.restoreDue_iff, Decidable.not_and_iff_not_or_not, Bool.not_eq_false]

section
variable {s : State} {tid : Nat} {v : Tun} {w : Promise} {g : Chip} (hv : v = s.chip.tunOf tid) (hg : g = s.chip.promiseLook tid)
  (hw : w = (g.tunOf tid).promise)
include hv hg hw

theorem becomes_promiseRestore_restored {k e : Chip} {d : Nat} (hs : w.suspended = true) (hl : v.state.live = true) (hc : g.promiseHolds tid = true)
    (h0 : g.spoke = 0) (hd : seqBefore 48 g.turn ((w.lastTurn + 2) % 2 ^ 48) = false)
    (hk : k = g.setTun tid { v with promise := { w with suspended := false, since := g.turn } }) (hdet : d = promiseDetail w.port tid g.turn)
    (he : e = (k.post 0x03E1 w.cause d).postTun tid (k.event 0x03E1 w.cause d)) :
    s.becomes (.promiseRestore tid) (e.sample 7 (logBin ((g.turn + 2 ^ 48 - w.since) % 2 ^ 48))) := by
  have hdue := Chip.restoreDue_iff.2 ⟨h0, hd⟩
  subst hv hw hk hdet he hg
  refine becomes_of_next rfl ?_
  exact if_pos (by simp [hs, hl, hc, hdue])

theorem becomes_promiseRestore_looks (h : w.suspended = false ∨ v.state.live = false ∨ g.promiseHolds tid = false ∨ g.spoke ≠ 0 ∨
    seqBefore 48 g.turn ((w.lastTurn + 2) % 2 ^ 48) = true) : s.becomes (.promiseRestore tid) g := by
  rw [← Chip.restoreDue_eq_false_iff] at h
  subst hv hw hg
  refine becomes_of_next rfl ?_
  refine if_neg ?_
  obtain h | h | h | h := h <;> simp [h]

end

/-! ### Endpoints take cells (R232) -/

/-- The cell that leaves output `p` for its endpoint: the contracted choice, else the freewheel decision. -/
def Chip.endpointPick (c : Chip) (p : Nat) (r : LineRead) : Chip × Option QCell :=
  match c.contractedChoice p with
  | some tid => c.depart p tid r false
  | none => c.fwDecide p r

theorem Chip.endpointPick_contracted {c : Chip} {p k : Nat} (h : c.contractedChoice p = some k) (r : LineRead) :
    c.endpointPick p r = c.depart p k r false := by
  simp only [Chip.endpointPick, h]

theorem Chip.endpointPick_freewheel {c : Chip} {p : Nat} (h : c.contractedChoice p = none) (r : LineRead) :
    c.endpointPick p r = c.fwDecide p r := by
  simp only [Chip.endpointPick, h]

/-- The endpoint behind output `p` takes the picked cell, if there is one. -/
def handOver (p : Nat) (d : Chip × Option QCell) : Chip :=
  match d.2 with
  | none => d.1
  | some q => (((d.1.toEndpoint p q).flowAfter p q.cell.tid).drainCheck q.cell.tid).settlePairwise

theorem becomes_endpointTake {s : State} {port : Fin 11} {r : LineRead} {g : Chip} {d : Chip × Option QCell} (h4 : 4 ≤ port.val)
    (hon : s.chip.portOn port.val = true) (hf : s.chip.forwards = true) (hg : g = if port.val = 4 then s.chip.rxCuts else s.chip)
    (hd : g.endpointPick port.val r = d) : s.becomes (.endpointTake port r) (handOver port.val d) := by
  subst hg
  refine becomes_of_next rfl ?_
  exact (if_neg (by simp [hon, hf, h4])).trans (congrArg (handOver port.val) hd)

end Sys2Proof.Machine
end

section
/-!
PROOFS. Chapter 06: the chainring's commands (R121, Tables 06.11 to 06.13), and the statement about its rows.
-/
namespace Sys2Proof.Machine

section
variable {s : State} {p : Packet} {c : Chip} {n : Nat}

/-- The response of GET_PROMISE for a tunnel that is not there (Table 06.11). -/
def noPromise (n : Nat) : Bytes := le 2 n ++ [0xFF, 0] ++ le 2 0 ++ [0xFF] ++ zeros 25

/-- The response of GET_PROMISE for a contracted tunnel whose record is `r` (Table 06.12). -/
def Chip.promiseBytes (c : Chip) (n : Nat) (r : CertRec) : Bytes :=
  let u := c.tunOf n
  le 2 n ++ le 1 u.cls ++ le 1 (if u.promise.suspended then 2 else 1) ++ le 2 u.promise.cause ++ le 1 u.promise.port ++
    le 1 (c.variantOf n) ++ le 6 u.promise.since ++ zeros 2 ++ le 4 u.promise.suspensions ++ le 4 u.promise.causes ++
    le 4 (if c.variantOf n = 0 then 0 else (r.var (c.variantOf n)).bound) ++ zeros 4

section
variable (hn : n = fld p.params 0 2) (hh : s.heard 0x03F0 p c) (h : n < 1024) (hz : rsvd p.params 2 2 = true) (hroom : c.roomFor p 32)
  (hown : (c.issuer p.sess).2 ≠ 2 ∨ c.ownsTunnel (c.issuer p.sess).1 n = true)
include hn hh h hz hroom hown

theorem execGetPromise_not_live (hl : (c.tunOf n).state.live = false) :
    execGetPromise p s = .next { s with chip := c.replied p (noPromise n) } := by
  subst hn
  refine runCommand_ok hh ((if_neg ?_).trans ((if_neg ?_).trans (if_pos (by simp [hl])))) (by simpa [noPromise] using hroom)
  · simp [hz]; omega
  · obtain hown | hown := hown <;> simp [hown]

theorem execGetPromise_contracted (hl : (c.tunOf n).state.live = true) (hk : c.contracted n = true) {r : CertRec} (hr : c.certRec n = some r) :
    execGetPromise p s = .next { s with chip := c.replied p (c.promiseBytes n r) } := by
  subst hn
  refine runCommand_ok hh ((if_neg ?_).trans ((if_neg ?_).trans ((if_neg (by simp [hl])).trans ?_))) (by simpa [Chip.promiseBytes] using hroom)
  · simp [hz]; omega
  · obtain hown | hown := hown <;> simp [hown]
  · simp [hk, hr, Chip.promiseBytes, ok]

end

/-- The response of GET_CHAINRING_COUNTERS: counters 1 to 5 are those of trunk outputs. -/
def Chip.chainringCounters (c : Chip) (n : Nat) : Bytes :=
  ((List.range 8).map fun i => le 8 (if n ≥ 4 ∧ 1 ≤ i ∧ i ≤ 5 then 0 else (c.port n).cnt.get 0 i)).flatten

theorem execGetChainringCounters_answers (hn : n = fld p.params 0 1) (hh : s.heard 0x03F1 p c) (h : n ≤ 10) (hz : rsvd p.params 2 2 = true)
    (hroom : c.roomFor p 64) (hctl : fld p.params 1 1 = 0 ∨ (fld p.params 1 1 = 1 ∧ (c.issuer p.sess).2 = 1)) :
    execGetChainringCounters p s = .next { s with chip :=
      (if fld p.params 1 1 = 1 then c.setPort n { c.port n with cnt := [] } else c).replied p (c.chainringCounters n) } := by
  subst hn
  have hlen : (c.chainringCounters (fld p.params 0 1)).length = 64 := length_flatten_fields (fun _ => le_length _ _) 8
  refine runCommand_ok hh ((if_neg ?_).trans ((if_neg ?_).trans ?_)) (hlen ▸ hroom)
  · simp [hz]; omega
  · obtain h0 | ⟨h1, hl⟩ := hctl
    · simp [h0]
    · simp [hl]
  · simp [Chip.chainringCounters, ok, and_assoc]

end

/-- Settles O30, one row after another. -/
theorem cellsAndPromiseAct : Obligations.CellsAndPromiseAct := by
  unfold Obligations.CellsAndPromiseAct
  intro s port tid c t hc ht
  refine ⟨fun x y hx hy hon hf hst hi hin hb h9 => ?_, fun f rank i x r hi hf hq hrank hwithin => ?_,
    fun h => becomes_of_next rfl (Chip.linkSlot_idle h), ?_, fun g k e v w d hv hg hw => ?_,
    fun r g k d q h4 hon hf hg hk hd => ?_, fun r g d q h4 hon hf hg hk hd => ?_,
    fun p c n u hn hu hh h hz hroom hown => ?_, fun p c n d hn hh h hz hroom hctl hd => ?_⟩
  · have hp : c.presents port.val t := ⟨hon, hf, hst, hi, hin, hb⟩
    refine ⟨fun hk h10 => ⟨fun k hs hpool => ?_, fun hs => ?_⟩,
      fun r u hk hr hs hu => ⟨fun hsrc => ?_, fun hsrc hm => ?_, fun hsrc htok hm => ?_, fun hsrc htok hm => ?_, fun k hsrc htok hm hs hpool => ?_⟩⟩
    · exact becomes_cellPresent hc h9 (Chip.presentCell_classB ht hx hy hp hk h10 hs hpool)
    · exact becomes_cellPresent hc h9 (Chip.presentCell_classB_stays ht hx hp hk h10 hs)
    · have h := Chip.presentCell_conforms ht hx hy hp hk hr hs (.inl hsrc)
      rw [hsrc] at h
      exact becomes_cellPresent hc h9 h
    · have h := Chip.presentCell_conforms ht hx hy hp hk hr hs (.inr hm)
      rw [hsrc] at h
      exact becomes_cellPresent hc h9 h
    · exact becomes_cellPresent hc h9 (Chip.presentCell_token ht hx hy hp hk hr hsrc hu hs htok hm)
    · exact becomes_cellPresent hc h9 (Chip.presentCell_drops ht hx hy hp hk hr hsrc hu htok hm)
    · exact becomes_cellPresent hc h9 (Chip.presentCell_demotes ht hx hy hp hk hr hsrc hu htok hm hs hpool)
  · have hrank' : rank = linkRank (s.chip.port port.val).rrTrunk := hrank
    have hwithin' : f = s.chip.withinBudget port.val := hwithin
    subst hrank' hwithin'
    exact ⟨fun hw hb => becomes_of_next rfl (Chip.linkSlot_within hi hf hq hw hb),
      fun hw hb => becomes_of_next rfl (Chip.linkSlot_in_turn hi hf hq hw hb)⟩
  · obtain ⟨e, he, hcmd, hlocal, hpower⟩ := exec_fabricSpokeStart s
    exact ⟨_, he, s.chip.fab.budgetsWhole_spent, hlocal, hpower, rfl, rfl, hcmd, rfl, rfl⟩
  · exact ⟨becomes_promiseRestore_restored hv hg hw, becomes_promiseRestore_looks hv hg hw⟩
  · exact becomes_endpointTake h4 hon hf hg ((Chip.endpointPick_contracted hk r).trans hd)
  · exact becomes_endpointTake h4 hon hf hg ((Chip.endpointPick_freewheel hk r).trans hd)
  · subst hu
    exact ⟨execGetPromise_not_live hn hh h hz hroom hown, fun r hl hk hr => execGetPromise_contracted hn hh h hz hroom hown hl hk hr⟩
  · subst hd
    exact execGetChainringCounters_answers hn hh h hz hroom hctl

end Sys2Proof.Machine
end

section
/-!
PROOFS. Chapter 07: staging, verification, clearing and restoration of gear images (R171, R184, R197, R198), and the decision over a
shift (R186, R188).
-/
namespace Sys2Proof.Machine

/-! ### Gear commands -/

section
variable {x : Ctx} {c : Chip} {i : Nat}

theorem bodyGearStage_appends (hz : rsvd x.ps 4 4 = true) (ho : c.gear.stageOwner = none ∨ c.gear.stageOwner = some x.sess)
    (hlen : fld x.ps 0 4 + (x.ps.drop 8).length ≤ 1048568)
    (hoff : fld x.ps 0 4 = 0 ∨ c.gear.stageOwner = some x.sess ∧ fld x.ps 0 4 = c.gear.staged.length)
    (hgk : c.gkCommand x 1 (Config.gearStagingBase + fld x.ps 0 4) (x.ps.drop 8).length = (c, true)) :
    bodyGearStage x c =
      (ok, { c with gear := { c.gear with
        stageOwner := some x.sess, staged := (if fld x.ps 0 4 = 0 then [] else c.gear.staged) ++ x.ps.drop 8 } }) := by
  have hseq : ¬ (fld x.ps 0 4 != 0 && (c.gear.stageOwner.isNone || fld x.ps 0 4 != c.gear.staged.length)) = true := by
    obtain h | ⟨h, hst⟩ := hoff
    · simp [h]
    · simp [h, hst]
  unfold bodyGearStage
  dsimp only
  rw [if_neg (by simp [hz]), if_neg (by obtain h | h := ho <;> simp [h]), if_neg (by omega), if_neg hseq, hgk]
  rfl

/-- A slot that is EMPTY or VALID is not ACTIVE, VERIFYING or TARGET (Table 07.1). -/
theorem Chip.slotState_unheld (hs : c.slotState i = 0 ∨ c.slotState i = 2) :
    c.slotState i ≠ 3 ∧ ¬ (c.slotState i = 1 ∨ c.slotState i = 4) := by omega

theorem bodyGearVerify_begins (hi : fld x.ps 0 1 ≤ 3) (hz : rsvd x.ps 2 6 = true)
    (hf : fld x.ps 1 1 = 0 ∨ ((fld x.ps 1 1 = 2 ∨ fld x.ps 1 1 = 6) ∧ c.inRole .relay = false))
    (hs : c.slotState (fld x.ps 0 1) = 0 ∨ c.slotState (fld x.ps 0 1) = 2) :
    bodyGearVerify x c =
      (accepted, c.setGslot (fld x.ps 0 1)
        { c.gslot (fld x.ps 0 1) with verifying := some (x.handle, x.ps.drop 8, fld x.ps 1 1) }) := by
  have hflags : fld x.ps 1 1 ≤ 7 ∧ bitOf (fld x.ps 1 1) 0 = false ∧ (bitOf (fld x.ps 1 1) 2 && !bitOf (fld x.ps 1 1) 1) = false ∧
      (bitOf (fld x.ps 1 1) 1 && c.inRole .relay) = false := by
    obtain h | ⟨h | h, hr⟩ := hf
    · rw [h]; simp [bitOf]
    · rw [h, hr]; decide
    · rw [h, hr]; decide
  obtain ⟨hle, hstaged, hboot, hrelay⟩ := hflags
  obtain ⟨h3, h14⟩ := Chip.slotState_unheld hs
  unfold bodyGearVerify
  dsimp only
  simp only [hstaged, hboot, hrelay, Bool.false_and, Bool.false_eq_true, if_false]
  rw [if_neg (by simp [hz]; omega), if_neg h3, if_neg (by simpa using h14)]

theorem bodyGearClear_empties (hi : fld x.ps 0 1 ≤ 3) (hz : rsvd x.ps 1 3 = true)
    (hs : c.slotState (fld x.ps 0 1) = 0 ∨ c.slotState (fld x.ps 0 1) = 2) :
    bodyGearClear x c =
      (ok, { c with gear := { c.gear with slots := c.gear.slots.erase (fld x.ps 0 1) },
                    csys := { c.csys with gears := c.csys.gears.erase (fld x.ps 0 1) } }) := by
  obtain ⟨h3, h14⟩ := Chip.slotState_unheld hs
  unfold bodyGearClear
  dsimp only
  rw [if_neg (by simp [hz]; omega), if_neg h3, if_neg (by simpa using h14)]
  rfl

theorem bodyShift_opens (hi : fld x.ps 0 1 ≤ 4) (hz : rsvd x.ps 1 1 = true) (hr : c.shiftRefused (fld x.ps 0 1) (fld x.ps 2 6) = none) :
    bodyShift x c = (accepted, c.openShift (fld x.ps 0 1) (fld x.ps 2 6) x.handle) := by
  unfold bodyShift
  dsimp only
  rw [if_neg (by simp [hz]; omega), hr]

/-- The four slot records of Table 07.15. -/
def Chip.slotRecords (c : Chip) : Bytes := c.slotRecord 0 ++ c.slotRecord 1 ++ c.slotRecord 2 ++ c.slotRecord 3

/-- The first 8 bytes of Table 07.15's shift record: those of the open shift, or of none. -/
def Chip.shiftBytes (c : Chip) : Option ShiftRec → Bytes
  | some r => le 1 (if r.committed then 2 else 1) ++ le 1 r.slot ++ le 1 r.matched ++ le 1 r.peerConf ++ le 4 r.handle
  | none => le 1 0 ++ le 1 c.gear.lastSlot ++ zeros 6

/-- The response of GET_GEAR_SLOTS (Table 07.15). -/
def Chip.gearSlotBytes (c : Chip) : Bytes :=
  c.slotRecords ++ c.shiftBytes c.gear.shift ++ le 6 c.gear.lastTarget ++ le 2 c.gear.lastReason ++ zeros 16

theorem Chip.slotRecord_length (c : Chip) (i : Nat) : (c.slotRecord i).length = 32 := by
  unfold Chip.slotRecord
  dsimp only
  split <;> simp [zeros]

theorem Chip.gearSlotBytes_length (c : Chip) : c.gearSlotBytes.length = 160 := by
  have hshift : ∀ r, (c.shiftBytes r).length = 8 := fun r => by cases r <;> simp [Chip.shiftBytes, zeros]
  simp [Chip.gearSlotBytes, Chip.slotRecords, Chip.slotRecord_length, hshift, zeros]

theorem bodyGetGearSlots_answers : bodyGetGearSlots x c = (ok c.gearSlotBytes, c) := by
  have hrecs : ((List.range 4).map c.slotRecord).flatten = c.slotRecords := by
    simp [List.range_succ, Chip.slotRecords]
  unfold bodyGetGearSlots Chip.gearSlotBytes
  rw [hrecs]
  cases c.gear.shift <;> rfl

end

/-! ### The derailleur's pass ends -/

section
variable {c g : Chip} {k h fl : Nat} {b : Bytes} (hv : (c.gslot k).verifying = some (h, b, fl)) (hh : h ≠ 0) (hn : c.cancelled h = false)
  (hg : g = c.setGslot k { c.gslot k with verifying := none })
include hv hh hn hg

/-- A verification that fails keeps the slot's image (R184). -/
theorem Chip.passDone_refused {st rs off : Nat} {m : Option GearImg} (hd : g.derailleur b = (some (st, rs, off), m))
    (hf : bitOf fl 0 = false) : c.passDone k = (g.bump 28 1).complete h st rs off := by
  have hlive : g.cancelled h = false := by subst hg; exact hn
  unfold Chip.passDone
  dsimp only
  rw [hv]
  dsimp only
  rw [← hg, hlive, hd]
  simp [Chip.verifyEnd, hh, hf]

/-- A verification that passes replaces the slot's image; with no flag set nothing is persisted. -/
theorem Chip.passDone_passed {m : GearImg} (hd : g.derailleur b = (none, some m)) (hf : fl = 0) :
    c.passDone k =
      ((g.setGslot k { img := some m, since := g.turn, persist := false, boot := false, verifying := none }).bump 27 1).complete
        h 0 0 0 := by
  have hlive : g.cancelled h = false := by subst hg; exact hn
  subst hf
  unfold Chip.passDone
  dsimp only
  rw [hv]
  dsimp only
  rw [← hg, hlive, hd]
  simp [Chip.verifyEnd, hh, bitOf, stOk]

end

/-! ### Restoration after a reset (R198) -/

theorem execGearRestore_one {s : State} {k : Nat} {b : Bytes} {e : Bool} (hrole : s.chip.dev.mode.isRole = true)
    (hstore : s.chip.storeReady = true) (hkeys : s.chip.keys.restored = true) (hgears : s.chip.csys.gears = [(k, (b, e))])
    (hs : s.chip.slotState k = 0) :
    execGearRestore s =
      .next { s with chip := s.chip.setGslot k { s.chip.gslot k with verifying := some (0, b, 2 + 4 * b2n e) } } := by
  unfold execGearRestore onChip
  dsimp only
  rw [if_neg (by simp [hrole, hstore, hkeys]), hgears]
  simp [hs]

/-- The record of the SHIFT to the BOOT image: a long command of VI 0 whose COMPLETION goes to the log (R198). -/
def bootShiftRec (h : Nat) : HandleRec :=
  { handle := h, opcode := 0x0304, sess := .spi, tag := 0, evq := 0, logcopy := false, logOnly := true }

theorem execBootShiftIssue_issues {s : State} {k h t : Nat} {d : Chip} (hb : s.chip.gear.bootShift = some k)
    (ht : t = (s.chip.turn + 24) % 2 ^ 48) (hr : s.chip.shiftRefused k t = none) (hrec : s.chip.recordFree 0 = true)
    (hh : h = s.chip.newHandle 0) (hd : d = s.chip.makeRoom 0) :
    execBootShiftIssue s = .next { s with chip :=
      ({ d with cmd := { d.cmd with serial := d.cmd.serial.set 0 (h % 2 ^ 24), handles := d.cmd.handles ++ [bootShiftRec h] },
                gear := { d.gear with bootShift := none } } : Chip).openShift k t h } := by
  subst ht hh hd
  unfold execBootShiftIssue onChip
  dsimp only
  rw [hb]
  dsimp only
  rw [hr, hrec]
  rfl

/-! ### The decision at boundary T - 16 (R188) -/

/-- A trunk keeps the open shift `r` from committing: it is in DATA, and not matched or not confirmed by its peer. -/
def Chip.withholds (c : Chip) (r : ShiftRec) (n : Nat) : Bool := c.inData n && !(bitOf r.matched n && bitOf r.peerConf n)

section
variable {c : Chip} {r : ShiftRec} {n : Nat}

theorem Chip.withholds_iff : c.withholds r n = true ↔ c.inData n = true ∧ (bitOf r.matched n = false ∨ bitOf r.peerConf n = false) := by
  simp [Chip.withholds]

theorem Chip.not_withholds (h : c.inData n = true → bitOf r.matched n = true ∧ bitOf r.peerConf n = true) : c.withholds r n = false := by
  rw [← Bool.not_eq_true, Chip.withholds_iff]
  rintro ⟨hd, hno⟩
  simp [h hd] at hno

end

section
variable {s : State} {r : ShiftRec} (hs : s.chip.gear.shift = some r) (hopen : r.committed = false)
  (hn : s.chip.cancelled r.handle = false)
include hs hopen hn

theorem execShiftDecide_open :
    execShiftDecide s = .next { s with chip := match (List.range 4).find? (s.chip.withholds r) with
      | some n => s.chip.shiftAbort 0x0318 n
      | none => ({ s.chip with gear := { s.chip.gear with shift := some { r with committed := true } } } : Chip).commitPoint r.handle } := by
  unfold execShiftDecide onChip
  simp only [hs, hopen, hn]
  rfl

theorem execShiftDecide_commits (hall : ∀ n, n < 4 → s.chip.withholds r n = false) :
    execShiftDecide s = .next { s with chip :=
      ({ s.chip with gear := { s.chip.gear with shift := some { r with committed := true } } } : Chip).commitPoint r.handle } := by
  have hnone : (List.range 4).find? (s.chip.withholds r) = none := by simpa using hall
  rw [execShiftDecide_open hs hopen hn, hnone]

theorem execShiftDecide_aborts {n : Nat} (hlt : n < 4) (hno : s.chip.withholds r n = true)
    (hbelow : ∀ m, m < n → s.chip.withholds r m = false) :
    execShiftDecide s = .next { s with chip := s.chip.shiftAbort 0x0318 n } := by
  have hfirst : (List.range 4).find? (s.chip.withholds r) = some n :=
    List.find?_range_eq_some.2 ⟨hno, List.mem_range.2 hlt, fun m hm => by simp [hbelow m hm]⟩
  rw [execShiftDecide_open hs hopen hn, hfirst]

end

theorem Chip.shiftAbort_closes {c : Chip} {r : ShiftRec} (hs : c.gear.shift = some r) (reason n : Nat) :
    (c.shiftAbort reason n).gear.shift = none ∧ (c.shiftAbort reason n).gear.lastReason = reason := by
  unfold Chip.shiftAbort
  rw [hs]
  dsimp only
  split <;> simp

end Sys2Proof.Machine
end

section
/-!
PROOFS. What an ABORT close, a suspension, an eviction and the capture of cells leave of the gears: everything but the staging area, which
goes with a USB session that the close of its host's tunnel ends (R197, R374).
-/
namespace Sys2Proof.Machine

/-- The gears without the staging area. -/
def Gears.besidesStaging (g : Gears) : Gears := { g with stageOwner := none, staged := [] }

/-- A loop whose every turn leaves a view leaves it. -/
theorem foldl_keeps_view {α β : Type} (v : Chip → β) {g : Chip → α → Chip} (hg : ∀ c e, v (g c e) = v c) (l : List α) (c : Chip) :
    v (l.foldl g c) = v c :=
  foldl_keeps (P := fun d => v d = v c) (fun d e h => (hg d e).trans h) l rfl

section
variable (c : Chip)

/-! ### Cells discarded, captured and queued -/

@[simp] theorem Chip.setQueue_gear (p t : Nat) (l : List QCell) : (c.setQueue p t l).gear = c.gear := by
  simp [Chip.setQueue, apply_ite Chip.gear]
@[simp] theorem Chip.pushLadle_gear (i : Nat) (b : Bytes) : (c.pushLadle i b).gear = c.gear := by
  simp [Chip.pushLadle, apply_ite Chip.gear]
@[simp] theorem Chip.captureOne_gear (i pt p : Nat) (x : Cell) (d : Bool) (cause : Nat) : (c.captureOne i pt p x d cause).gear = c.gear := by
  simp [Chip.captureOne, apply_ite Chip.gear]
@[simp] theorem Chip.writeMsg_gear (m : LadleMsg) (b : Bytes) : (c.writeMsg m b).gear = c.gear := by
  simp [Chip.writeMsg]
@[simp] theorem Chip.gather_gear (pt p : Nat) (x : Cell) : (c.gather pt p x).gear = c.gear :=
  foldl_keeps_view Chip.gear (fun c m => by simp [apply_ite Chip.gear]) _ c
@[simp] theorem Chip.capture_gear (pt p : Nat) (x : Cell) (d : Bool) (cause : Nat) : (c.capture pt p x d cause).gear = c.gear :=
  (foldl_keeps_view Chip.gear (fun c i => c.captureOne_gear i pt p x d cause) _ _).trans (c.gather_gear pt p x)
@[simp] theorem Chip.dropCell_gear (p : Nat) (x : Cell) (d : Bool) (cause : Nat) : (c.dropCell p x d cause).gear = c.gear := by
  simp [Chip.dropCell, apply_ite Chip.gear]
@[simp] theorem Chip.dropQueue_gear (p t cause : Nat) : (c.dropQueue p t cause).gear = c.gear := by
  have h := foldl_keeps_view Chip.gear (fun (c : Chip) (x : QCell) => c.dropCell_gear p x.cell x.demoted cause) (c.queue p t) c
  simpa [Chip.dropQueue] using h
@[simp] theorem Chip.dropSealHeld_gear (n t cause : Nat) : (c.dropSealHeld n t cause).gear = c.gear := by
  unfold Chip.dropSealHeld
  dsimp only
  split
  · rfl
  · exact foldl_keeps_view Chip.gear (fun c x => c.dropCell_gear n x false cause) _ c
@[simp] theorem Chip.dropTunnel_gear (t cause : Nat) : (c.dropTunnel t cause).gear = c.gear := by
  unfold Chip.dropTunnel
  extract_lets c1 gone c2 fab c3
  have h1 : c1.gear = c.gear := foldl_keeps_view Chip.gear (fun c p => c.dropQueue_gear p t cause) _ c
  have h2 : c2.gear = c1.gear :=
    foldl_keeps_view Chip.gear (fun d (e : Nat × QCell) => d.dropCell_gear e.1 e.2.cell e.2.demoted cause) gone c1
  have h3 : c3.gear = c2.gear := by simp only [c3]
  refine (foldl_keeps_view Chip.gear (fun d n => ?_) _ c3).trans (h3.trans (h2.trans h1))
  dsimp only
  split
  · exact d.dropSealHeld_gear n t cause
  · refine (foldl_keeps_view Chip.gear (fun c (h : CopyRec) => c.dropCell_gear n h.cell false cause) _ _).trans ?_
    refine (foldl_keeps_view Chip.gear (fun c (h : HeldCell) => c.dropCell_gear n h.cell false cause) _ _).trans ?_
    exact d.dropSealHeld_gear n t cause
@[simp] theorem Chip.clearSrc_gear (t : Nat) : (c.clearSrc t).gear = c.gear := rfl
@[simp] theorem Chip.pushSrc_gear (p : Nat) (x : Cell) : (c.pushSrc p x).gear = c.gear := rfl
@[simp] theorem Chip.notePeak_gear : c.notePeak.gear = c.gear := rfl
@[simp] theorem Chip.noteDepth_gear (p t : Nat) : (c.noteDepth p t).gear = c.gear := by
  simp [Chip.noteDepth, apply_ite Chip.gear]
@[simp] theorem Chip.fwWakeOne_gear (p t : Nat) : (c.fwWakeOne p t).gear = c.gear := by
  simp [Chip.fwWakeOne, apply_ite Chip.gear]
@[simp] theorem Chip.enqueue_gear (p : Nat) (x : QCell) : (c.enqueue p x).gear = c.gear := by
  simp [Chip.enqueue, apply_ite Chip.gear]
@[simp] theorem Chip.drainCtl_gear (n : Nat) (l : List Cell) : (c.drainCtl n l).gear = c.gear := by
  induction l generalizing c with
  | nil => rfl
  | cons x r ih =>
    unfold Chip.drainCtl
    split
    · rfl
    · simp [ih]
@[simp] theorem Chip.sendFw_gear (n : Nat) (x : Cell) : (c.sendFw n x).gear = c.gear := by
  unfold Chip.sendFw
  split
  · rfl
  · dsimp only
    rw [Chip.drainCtl_gear]
    split
    · rfl
    · split <;> rfl

/-! ### Events of a tunnel, and its promise -/

@[simp] theorem Chip.postTun_gear (t : Nat) (e : EventRec) : (c.postTun t e).gear = c.gear := by
  unfold Chip.postTun
  dsimp only
  repeat' split
  all_goals simp
@[simp] theorem Chip.suspend_gear (t cause p : Nat) : (c.suspend t cause p).gear = c.gear := by
  simp [Chip.suspend, apply_ite Chip.gear]
@[simp] theorem Chip.promiseLook_gear (t : Nat) : (c.promiseLook t).gear = c.gear := by
  simp [Chip.promiseLook, apply_ite Chip.gear]
@[simp] theorem Chip.promiseStart_gear (t : Nat) : (c.promiseStart t).gear = c.gear := by
  unfold Chip.promiseStart
  dsimp only
  split <;> simp [apply_ite Chip.gear]
@[simp] theorem Chip.policerFull_gear (t : Nat) : (c.policerFull t).gear = c.gear := by
  unfold Chip.policerFull
  split <;> simp
@[simp] theorem Chip.limpCheck_gear (n : Nat) : (c.limpCheck n).gear = c.gear := by
  unfold Chip.limpCheck
  split
  · rfl
  · exact foldl_keeps_view Chip.gear (fun c i => by simp) _ c
@[simp] theorem Chip.evict_gear (fuel : Nat) : (c.evict fuel).gear = c.gear := by
  induction fuel generalizing c with
  | zero => rfl
  | succ n ih =>
    unfold Chip.evict
    dsimp only
    repeat' split
    all_goals simp [ih]
@[simp] theorem Chip.repoolAll_gear : c.repoolAll.gear = c.gear := rfl
@[simp] theorem Chip.delayCheck_gear (h : Nat) (m : HeadMode) (k : Bool) : (c.delayCheck h m k).gear = c.gear := by
  unfold Chip.delayCheck Chip.outputFault
  split <;> simp [apply_ite Chip.gear]
@[simp] theorem Chip.delayRecheck_gear : c.delayRecheck.gear = c.gear := by
  refine foldl_keeps_view Chip.gear (fun c h => ?_) _ c
  split <;> simp [apply_ite Chip.gear]
@[simp] theorem Chip.drainAborted_gear (t cause : Nat) : (c.drainAborted t cause).gear = c.gear :=
  foldl_keeps_view Chip.gear (fun c k => by simp) _ c

/-! ### The endpoints F4, F5, F6 and F7 let go of a tunnel (R292, R352) -/

@[simp] theorem Chip.raiseRing_gear (vi v t : Nat) (q : Bool) : (c.raiseRing vi v t q).gear = c.gear :=
  (congrArg Chip.gear (c.raiseRing_rest vi v t q) :)
@[simp] theorem Chip.txBack_gear (r : DataRing) (i : Nat) (d : Bytes) (st : Nat) : (c.txBack r i d st).gear = c.gear := by
  simp [Chip.txBack, Chip.descBack]
@[simp] theorem Chip.txEnd_gear (r : DataRing) : (c.txEnd r).1.gear = c.gear := by
  unfold Chip.txEnd
  split <;> simp
@[simp] theorem Chip.dropReads_gear (p : ReadFor → Bool) : (c.dropReads p).gear = c.gear := rfl
@[simp] theorem Chip.txAbort_gear (k rs : Nat) (now : Bool) : (c.txAbort k rs now).gear = c.gear := by
  unfold Chip.txAbort
  split
  · rfl
  · extract_lets reading keep gone d e
    have h : d.gear = c.gear := foldl_keeps_view Chip.gear (fun c (x : Nat × Bytes) => c.txBack_gear _ x.1 x.2 rs) gone c
    simp only [Chip.setDring_gear, e]
    split
    · exact h
    · exact (d.txEnd_gear _).trans h
@[simp] theorem Chip.unbindRing_gear (k : Nat) : (c.unbindRing k).gear = c.gear := by
  unfold Chip.unbindRing
  split <;> simp [apply_ite Chip.gear]
@[simp] theorem Chip.unbindTunnel_gear (t : Nat) : (c.unbindTunnel t).gear = c.gear :=
  foldl_keeps_view Chip.gear Chip.unbindRing_gear _ c
@[simp] theorem Chip.blkClose_gear (t : Nat) : (c.blkClose t).gear = c.gear := rfl
@[simp] theorem Chip.rasterGone_gear (t : Nat) : (c.rasterGone t).gear = c.gear := by
  simp [Chip.rasterGone, apply_ite Chip.gear]
@[simp] theorem Chip.setFrames_gear (n : Nat) (l : List EthFrame) : (c.setFrames n l).gear = c.gear := rfl
@[simp] theorem Chip.ethCount_gear (n i d : Nat) : (c.ethCount n i d).gear = c.gear := rfl
@[simp] theorem Chip.pushEth_gear (l : List Cell) : (c.pushEth l).gear = c.gear :=
  foldl_keeps_view Chip.gear (fun c x => c.pushSrc_gear 6 x) l c
@[simp] theorem Chip.ethIngress_gear (n : Nat) (f : Bytes) (bad : Option Nat) : (c.ethIngress n f bad).gear = c.gear := by
  unfold Chip.ethIngress
  dsimp only
  repeat' split
  all_goals simp
@[simp] theorem Chip.ethReceive_gear (n : Nat) (f : Bytes) (good : Bool) : (c.ethReceive n f good).gear = c.gear := by
  simp [Chip.ethReceive, apply_ite Chip.gear]
@[simp] theorem Chip.ethSend_gear (n : Nat) (f : Bytes) (good : Bool) : (c.ethSend n f good).gear = c.gear := by
  simp [Chip.ethSend, apply_ite Chip.gear]
@[simp] theorem Chip.ethGone_gear (t : Nat) : (c.ethGone t).gear = c.gear := by
  unfold Chip.ethGone
  dsimp only
  split
  · rfl
  · split <;> simp [apply_ite Chip.gear]

/-! ### The legacy endpoint F9 lets go of a tunnel (R399) -/

@[simp] theorem Chip.trivetFree_gear (n : Nat) : (c.trivetFree n).gear = c.gear := rfl
@[simp] theorem Chip.trivetsOf_gear (w : Nat) : (c.trivetsOf w).gear = c.gear := rfl
@[simp] theorem Chip.trivetTake_gear (n w : Nat) : (c.trivetTake n w).1.gear = c.gear := by
  unfold Chip.trivetTake
  split <;> rfl
@[simp] theorem Chip.atomicEnd_gear (r : LegReq) : (c.atomicEnd r).gear = c.gear := by
  simp [Chip.atomicEnd, apply_ite Chip.gear]
@[simp] theorem Chip.setVx_gear (k : Nat) (w : Option Bool) : (c.setVx k w).gear = c.gear := by
  cases w <;> simp [Chip.setVx, apply_ite Chip.gear]
@[simp] theorem Chip.vxFor_gear (m : Bool) (d : Option Bool) : (c.vxFor m d).gear = c.gear := by
  simp [Chip.vxFor]
@[simp] theorem Chip.busRelease_gear : c.busRelease.gear = c.gear := by
  simp [Chip.busRelease, apply_ite Chip.gear]
@[simp] theorem Chip.busRequest_gear : c.busRequest.gear = c.gear := by
  simp [Chip.busRequest, apply_ite Chip.gear]
@[simp] theorem Chip.startCycle_gear (r : LegReq) (k : LegCycle) : (c.startCycle r k).gear = c.gear := by
  simp [Chip.startCycle]
@[simp] theorem Chip.legSend_gear (t x : Nat) (b : Bytes) : (c.legSend t x b).gear = c.gear := by
  unfold Chip.legSend
  dsimp only
  split
  · exact foldl_keeps_view Chip.gear (fun c x => c.pushSrc_gear 9 x) _ c
  · simp
@[simp] theorem Chip.legFinish_gear (r : LegReq) (st rs fail owner : Nat) : (c.legFinish r st rs fail owner).gear = c.gear := by
  simp [Chip.legFinish, apply_ite Chip.gear]
@[simp] theorem Chip.legDead_gear (r : LegReq) : (c.legDead r).gear = c.gear := by
  simp [Chip.legDead, apply_ite Chip.gear]
@[simp] theorem Chip.legRun_gear (fuel : Nat) : (c.legRun fuel).gear = c.gear := by
  induction fuel generalizing c with
  | zero => rfl
  | succ n ih =>
    unfold Chip.legRun
    split
    · rfl
    split
    · simp [apply_ite Chip.gear]
    split
    · simp [ih]
    split
    · simp [ih, apply_ite Chip.gear]
    split
    · simp [ih]
    split
    · simp [ih]
    extract_lets take hold d r r' d'
    have hhold : d.gear = c.gear := by
      unfold d hold
      split
      · rfl
      · split <;> simp [take]
    split
    · exact hhold
    · split <;> simp [ih, apply_ite Chip.gear, d', hhold]
@[simp] theorem Chip.legKick_gear : c.legKick.gear = c.gear := c.legRun_gear _
@[simp] theorem Chip.legGone_gear (t : Nat) : (c.legGone t).gear = c.gear := by
  unfold Chip.legGone
  extract_lets u c1 gone c2 c3
  have h2 : c2.gear = c1.gear := foldl_keeps_view Chip.gear Chip.atomicEnd_gear gone c1
  split
  · rfl
  · exact ((c3.trivetsOf t).legKick_gear).trans h2

/-! ### The USB endpoint F8 lets go of a tunnel (R352, R374) -/

@[simp] theorem Chip.usbCount_gear (f : UsbCounters → UsbCounters) : (c.usbCount f).gear = c.gear := rfl
@[simp] theorem Chip.setInq_gear (k : Nat) (l : List InItem) : (c.setInq k l).gear = c.gear := rfl
@[simp] theorem Chip.pushIn_gear (k : Nat) (b : Bytes) : (c.pushIn k b).gear = c.gear := rfl
@[simp] theorem Chip.setMsc_gear (n : Nat) (m : Msc) : (c.setMsc n m).gear = c.gear := rfl
@[simp] theorem Chip.ncmNotify_gear (n : Nat) : (c.ncmNotify n).gear = c.gear := by
  simp [Chip.ncmNotify, apply_ite Chip.gear]
@[simp] theorem Chip.mscSense_gear (n l k a : Nat) (i : Option Nat) : (c.mscSense n l k a i).gear = c.gear := rfl
@[simp] theorem Chip.mscData_gear (n : Nat) (b : Bytes) (last short : Bool) : (c.mscData n b last short).gear = c.gear := by
  unfold Chip.mscData
  dsimp only
  split <;> simp
@[simp] theorem Chip.mscCsw_gear (n t r st : Nat) : (c.mscCsw n t r st).gear = c.gear := by
  simp [Chip.mscCsw, apply_ite Chip.gear]
@[simp] theorem Chip.mscFinish_gear (n : Nat) : (c.mscFinish n).gear = c.gear := by
  unfold Chip.mscFinish
  dsimp only
  split <;> simp [apply_ite Chip.gear]
@[simp] theorem Chip.lunRefresh_gear (n l : Nat) : (c.lunRefresh n l).gear = c.gear := by
  unfold Chip.lunRefresh
  dsimp only
  repeat' split
  all_goals simp
@[simp] theorem Chip.fnConnect_gear (n : Nat) : (c.fnConnect n).gear = c.gear := by
  simp [Chip.fnConnect, apply_ite Chip.gear]

/-- The end of a session takes the staging area with it, and nothing else of the gears (R37, R197). -/
@[simp] theorem Chip.endSession_besidesStaging (x : Session) : (c.endSession x).gear.besidesStaging = c.gear.besidesStaging := by
  unfold Chip.endSession
  dsimp only
  split <;> rfl
@[simp] theorem Chip.usbEndSession_besidesStaging : c.usbEndSession.gear.besidesStaging = c.gear.besidesStaging := by
  unfold Chip.usbEndSession
  split <;> simp
@[simp] theorem Chip.fnUnconfigure_besidesStaging (n : Nat) : (c.fnUnconfigure n).gear.besidesStaging = c.gear.besidesStaging := by
  unfold Chip.fnUnconfigure
  dsimp only
  split <;> simp
@[simp] theorem Chip.fnDisconnect_besidesStaging (n : Nat) : (c.fnDisconnect n).gear.besidesStaging = c.gear.besidesStaging := by
  unfold Chip.fnDisconnect
  dsimp only
  split <;> simp
@[simp] theorem Chip.fnRefresh_besidesStaging (n : Nat) : (c.fnRefresh n).gear.besidesStaging = c.gear.besidesStaging := by
  have hluns : ((List.range (c.vport n).cfg.luns).foldl (fun c l => c.lunRefresh n l) c).gear = c.gear :=
    foldl_keeps_view Chip.gear (fun c l => c.lunRefresh_gear n l) _ c
  unfold Chip.fnRefresh
  dsimp only
  repeat' split
  all_goals simp [hluns]
@[simp] theorem Chip.usbRefresh_besidesStaging : c.usbRefresh.gear.besidesStaging = c.gear.besidesStaging :=
  foldl_keeps_view (fun d => d.gear.besidesStaging) Chip.fnRefresh_besidesStaging fnPorts c
@[simp] theorem Chip.usbTunnel_besidesStaging (t : Nat) : (c.usbTunnel t).gear.besidesStaging = c.gear.besidesStaging := by
  unfold Chip.usbTunnel
  dsimp only
  split
  · rfl
  · split <;> simp

/-! ### An ABORT close (R210, R211) -/

@[simp] theorem Chip.tunnelGone_besidesStaging (t : Nat) : (c.tunnelGone t).gear.besidesStaging = c.gear.besidesStaging := by
  simp [Chip.tunnelGone]
@[simp] theorem Chip.quarantine_besidesStaging (t cause : Nat) (b : Bool) :
    (c.quarantine t cause b).gear.besidesStaging = c.gear.besidesStaging := by
  simp [Chip.quarantine, apply_ite Chip.gear]
@[simp] theorem Chip.abortHere_besidesStaging (t cause st rs : Nat) (b : Bool) :
    (c.abortHere t cause st rs b).gear.besidesStaging = c.gear.besidesStaging := by
  unfold Chip.abortHere
  dsimp only
  split <;> simp
@[simp] theorem Chip.abortClose_besidesStaging (t cause : Nat) (h : Option Nat) (st rs : Nat) (b : Bool) :
    (c.abortClose t cause h st rs b).gear.besidesStaging = c.gear.besidesStaging := by
  cases h <;> simp [Chip.abortClose, apply_ite Chip.gear]

end

end Sys2Proof.Machine
end

section
/-!
PROOFS. Chapter 07: a committed shift takes place at boundary T (R190 to R192), and the statement about the chapter's commands and rows.
-/
namespace Sys2Proof.Machine

section
variable {c : Chip} {r : ShiftRec}

/-- The gears at boundary T, before the tunnels follow: the shift's slot is active since T, and no shift is open (R190). -/
def Chip.geared (c : Chip) (r : ShiftRec) : Chip :=
  let d := if r.slot ≥ 4 then c else c.setGslot r.slot { c.gslot r.slot with since := r.target }
  d.setGear fun g =>
    { g with shift := none, active := if r.slot ≥ 4 then none else some r.slot, lastSlot := r.slot, lastTarget := r.target, lastReason := 0,
             checkDue := (List.range 4).filter fun n => d.inData n }

/-- What follows the change of gear (R191, R192, R195, R223: pools, closes, suspensions, evictions, events) leaves the gears as R190 puts
them. -/
theorem Chip.shiftApply_besidesStaging (hs : c.gear.shift = some r) :
    c.shiftApply.gear.besidesStaging = (c.geared r).gear.besidesStaging := by
  unfold Chip.shiftApply
  split
  next hx => exact absurd (hs.symm.trans hx) (by simp)
  rename_i x hx
  obtain rfl : r = x := Option.some.inj (hs.symm.trans hx)
  extract_lets old before new x c1 c2 c3 c4 c5 c6 c7 c8 c9 c10 c11
  have hgeared : c2 = c.geared r := rfl
  have hclosed : c4.gear.besidesStaging = c2.gear.besidesStaging := by
    unfold c4
    split
    · rfl
    · exact foldl_keeps_view (fun d => d.gear.besidesStaging) (fun d i => d.abortClose_besidesStaging ..) _ c3
  have hcontracted : c5.gear = c4.gear := foldl_keeps_view Chip.gear (fun d i => by simp) _ c4
  have hlimp : c6.gear = c5.gear := foldl_keeps_view Chip.gear Chip.limpCheck_gear _ c5
  have hlooked : c7.gear = c6.gear := foldl_keeps_view Chip.gear Chip.promiseLook_gear _ c6
  have hnoted : c9.gear = c8.gear := foldl_keeps_view Chip.gear (fun d e => d.noteDepth_gear ..) _ c8
  have hrest : c11.gear = c4.gear := by
    simp only [c11, c10, c8, Chip.post_gear, Chip.delayRecheck_gear, Chip.evict_gear, hnoted, hlooked, hlimp, hcontracted]
  calc (if r.handle = 0 then c11 else c11.complete r.handle stOk 0 0).gear.besidesStaging
      = c11.gear.besidesStaging := by split <;> simp
    _ = (c.geared r).gear.besidesStaging := by rw [hrest, hclosed, hgeared]

theorem Chip.shiftApply_gear (hs : c.gear.shift = some r) :
    c.shiftApply.gear.active = (if r.slot ≥ 4 then none else some r.slot) ∧ c.shiftApply.gear.shift = none ∧
      c.shiftApply.gear.lastReason = 0 := by
  have h := Chip.shiftApply_besidesStaging hs
  exact ⟨(congrArg Gears.active h :), (congrArg Gears.shift h :), (congrArg Gears.lastReason h :)⟩

theorem execShiftApply_committed {s : State} (hs : s.chip.gear.shift = some r) (hc : r.committed = true) :
    execShiftApply s = .next { s with chip := s.chip.shiftApply } := by
  unfold execShiftApply onChip
  dsimp only
  rw [hs]
  dsimp only
  rw [if_pos hc]

end

/-- Settles O31, one command or row after another. -/
theorem gearsAct : Obligations.GearsAct := by
  unfold Obligations.GearsAct
  intro s p c x i hi
  refine ⟨fun hh hx hz ho hlen hoff hgk b hb => ?_, fun hh hx h3 hz hf hs hrec => ?_,
    fun k h b fl g hv hh hn hg => ⟨fun st rs off m hd hf => ?_, fun m hd hf => ?_⟩, fun hh h3 hz hs => ?_,
    fun hh hx h4 hz hr hrec => ?_, fun r hs hopen hn => ⟨fun hall => ?_, fun n hlt hdata hno hbelow => ?_⟩, fun r hs hc => ?_,
    fun hh hroom => ?_, fun k b e hrole hstore hkeys hgears hs => execGearRestore_one hrole hstore hkeys hgears hs,
    fun k h t d hb ht hr hrec hh hd => execBootShiftIssue_issues hb ht hr hrec hh hd⟩
  · subst hx hb
    exact runCommand_ok_empty hh (bodyGearStage_appends hz ho hlen hoff hgk)
  · subst hx hi
    exact runCommand_accepted hh (bodyGearVerify_begins h3 hz hf hs) hrec
  · exact State.becomes_of_onChip (f := fun c => c.passDone k.val) rfl (Chip.passDone_refused hv hh hn hg hd hf)
  · exact State.becomes_of_onChip (f := fun c => c.passDone k.val) rfl (Chip.passDone_passed hv hh hn hg hd hf)
  · subst hi
    exact runCommand_ok_empty hh (bodyGearClear_empties h3 hz hs)
  · subst hx hi
    exact runCommand_accepted hh (bodyShift_opens h4 hz hr) hrec
  · exact execShiftDecide_commits hs hopen hn fun n hlt => Chip.not_withholds (hall n hlt)
  · exact ⟨execShiftDecide_aborts hs hopen hn hlt (Chip.withholds_iff.2 ⟨hdata, hno⟩) fun m hm => Chip.not_withholds (hbelow m hm),
      Chip.shiftAbort_closes hs 0x0318 n⟩
  · obtain ⟨hactive, hshift, hreason⟩ := Chip.shiftApply_gear hs
    exact ⟨_, execShiftApply_committed hs hc, rfl, rfl, rfl, rfl, hactive, hshift, hreason⟩
  · have hrun := runCommand_ok hh bodyGetGearSlots_answers (c.gearSlotBytes_length ▸ hroom)
    refine ⟨fun r hs => ?_, fun hs => ?_⟩
    · refine hrun.trans ?_
      simp [Chip.gearSlotBytes, Chip.slotRecords, Chip.shiftBytes, hs]
    · refine hrun.trans ?_
      simp [Chip.gearSlotBytes, Chip.slotRecords, Chip.shiftBytes, hs]

end Sys2Proof.Machine
end

section
/-!
PROOFS. Chapter 08: the control cells OPEN, OPEN_ACK, CLOSE, CLOSE_ACK and FLOW (R203, R205, R208 to R211, R519).
-/
namespace Sys2Proof.Machine

/-! ### A control cell's row hands it to the firmware -/

section
variable {s : State} {n : Fin 4} {x : Cell} {c : Chip}

theorem becomes_openCellRx (h : s.chip.openRx n.val x = c) : s.becomes (.openCellRx n x) c :=
  State.becomes_of_onChip (f := fun c => c.openRx n.val x) rfl h
theorem becomes_openAckRx (h : s.chip.openAckRx n.val x = c) : s.becomes (.openAckRx n x) c :=
  State.becomes_of_onChip (f := fun c => c.openAckRx n.val x) rfl h
theorem becomes_closeCellRx (h : s.chip.closeRx n.val x = c) : s.becomes (.closeCellRx n x) c :=
  State.becomes_of_onChip (f := fun c => c.closeRx n.val x) rfl h
theorem becomes_closeAckRx (h : s.chip.closeAckRx n.val x = c) : s.becomes (.closeAckRx n x) c :=
  State.becomes_of_onChip (f := fun c => c.closeAckRx n.val x) rfl h
theorem becomes_flowCellRx (h : s.chip.flowRx n.val x = c) : s.becomes (.flowCellRx n x) c :=
  State.becomes_of_onChip (f := fun c => c.flowRx n.val x) rfl h

end

/-! ### OPEN (R205) -/

section
variable {c d : Chip} {n : Nat} {x : Cell} {r : OpenReq} (hd : d = c.takeF10 n x) (hr : r = openOfCell n x.payload)
include hd hr

theorem Chip.openRx_refuses {st rs : Nat} (hcheck : d.checkOpen r r.index none = some (st, rs)) :
    c.openRx n x = d.sendFw n (ctlCell 0 3 (ackPayload r.tid st rs 0 r.index r.openId (zeros 16))) := by
  subst hd hr
  unfold Chip.openRx
  dsimp only
  rw [hcheck]

variable (hcheck : d.checkOpen r r.index none = none)
include hcheck

theorem Chip.openRx_forwards (hway : r.index < r.hops) :
    c.openRx n x =
      (d.newContext r.tid (r.context r.index 0xFF)).sendFw (r.out r.index) (ctlCell 0 2 (r.payload (r.index + 1))) := by
  subst hd hr
  unfold Chip.openRx
  dsimp only
  rw [hcheck]
  exact if_pos hway

theorem Chip.openRx_answers {e : Chip} (hend : r.index = r.hops) (he : e = d.newContext r.tid (r.context r.index 0xFF)) :
    c.openRx n x =
      (e.tunnelOpened r.tid r.version).sendFw n
        (ctlCell 0 3 (ackPayload r.tid 0 0 r.version 0xFF r.openId (e.endpointAnswer (r.dst 0xFF)).2)) := by
  subst hd hr he
  unfold Chip.openRx
  dsimp only
  rw [hcheck]
  exact if_neg (by omega)

end

section
variable {c d : Chip} {n tid : Nat} {x : Cell} {b : Bytes} {t : Tun} (hd : d = c.takeF10 n x) (hb : b = x.payload)
  (htid : tid = fldBe b 0 2 % 1024) (ht : t = d.tunOf tid)

section
include hd hb htid ht

/-! ### OPEN_ACK (R208, R519) -/

theorem Chip.openAckRx_stray (hs : t.state = .quarantine ∨ t.state = .free) :
    c.openAckRx n x = { d with fab := { d.fab with strayAcks := sat32 d.fab.strayAcks 1 } } := by
  subst hd hb htid ht
  exact if_pos (by simpa using hs)

section
variable (hs : t.state = .opening) (hport : t.outPort = n) (hid : t.openId = fldBe b 8 4)
include hs hport hid

/-- An OPEN_ACK that is neither stray nor of another open: the context opens or is quarantined, then the answer goes on upstream, or at
device 0 completes the handle. -/
theorem Chip.openAckRx_own :
    c.openAckRx n x =
      let e := d.setTun tid { t with answer := if t.index = 0 then sliceB b 12 16 else [] }
      let e := if fldBe b 2 2 = stOk then e.tunnelOpened tid (fldBe b 6 1) else (e.clearSrc tid).quarantine tid (fldBe b 4 2)
      if t.index > 0 then e.sendFw t.inPort (ctlCell 0 3 b)
      else match t.openHandle with
        | none => e
        | some h => (e.setTun tid { e.tunOf tid with openHandle := none }).complete h (fldBe b 2 2) (fldBe b 4 2)
            (fldBe b 6 1 % 256 + fldBe b 7 1 * 256) := by
  subst hd hb htid ht
  exact (if_neg (by simp [hs])).trans (if_neg (by simp [hs, hport, hid]))

theorem Chip.openAckRx_completes {h : Nat} {e : Chip} (hidx : t.index = 0)
    (he : e = (d.setTun tid { t with answer := sliceB b 12 16 }).tunnelOpened tid (fldBe b 6 1)) (hst : fldBe b 2 2 = 0)
    (hh : t.openHandle = some h) :
    c.openAckRx n x =
      (e.setTun tid { e.tunOf tid with openHandle := none }).complete h 0 (fldBe b 4 2) (fldBe b 6 1 % 256 + fldBe b 7 1 * 256) := by
  rw [Chip.openAckRx_own hd hb htid ht hs hport hid]
  simp [hidx, hst, hh, stOk, he]

theorem Chip.openAckRx_passes_refusal (hidx : 0 < t.index) (hst : fldBe b 2 2 ≠ 0) :
    c.openAckRx n x =
      (((d.setTun tid { t with answer := [] }).clearSrc tid).quarantine tid (fldBe b 4 2)).sendFw t.inPort (ctlCell 0 3 b) := by
  rw [Chip.openAckRx_own hd hb htid ht hs hport hid]
  simp [hidx, Nat.ne_of_gt hidx, hst, stOk]

end

/-! ### CLOSE (R209 to R211) -/

theorem Chip.closeRx_not_live (hl : t.state.live = false) :
    c.closeRx n x =
      (if fldBe b 2 1 = 1 && t.index = 0 then d.drainAborted tid (fldBe b 4 2) else d).sendFw n
        (ctlCell 0 5 (closeAckPayload tid (fldBe b 8 4) 0)) := by
  subst hd hb htid ht
  exact if_pos (by simp [hl])

theorem Chip.closeRx_drains (hmode : fldBe b 2 1 = 0) (hs : t.state = .open) (hidx : 0 < t.index) (hport : t.inPort = n) :
    c.closeRx n x = d.startDrain tid (fldBe b 4 2) (fldBe b 6 2) (fldBe b 8 4) (fldBe b 12 1) := by
  subst hd hb htid ht
  exact (if_neg (by simp [hs, TState.live])).trans ((if_pos hmode).trans (if_pos (by simp [hs, hidx, hport])))

section
variable (hmode : fldBe b 2 1 ≠ 0) (hl : t.state.live = true)
include hmode hl

/-- An ABORT of a live context: it is carried out here, goes on the way it travels, and is answered at the ends. -/
theorem Chip.closeRx_aborts :
    c.closeRx n x =
      let e := d.abortHere tid (fldBe b 4 2)
      if decide (t.index > 0) && t.inPort == n then
        if t.index < t.hops then e.sendFw t.outPort (ctlCell 0 4 b)
        else e.sendFw n (ctlCell 0 5 (closeAckPayload tid (fldBe b 8 4) (e.tunOf tid).discarded))
      else if t.index > 0 then e.sendFw t.inPort (ctlCell 0 4 b)
      else e.sendFw n (ctlCell 0 5 (closeAckPayload tid (fldBe b 8 4) (e.tunOf tid).discarded)) := by
  subst hd hb htid ht
  exact (if_neg (by simp [hl])).trans (if_neg hmode)

variable {e : Chip} (he : e = d.abortHere tid (fldBe b 4 2))
include he

theorem Chip.closeRx_abort_downstream (hidx : 0 < t.index) (hport : t.inPort = n) (hway : t.index < t.hops) :
    c.closeRx n x = e.sendFw t.outPort (ctlCell 0 4 b) := by
  rw [Chip.closeRx_aborts hd hb htid ht hmode hl, ← he]
  dsimp only
  rw [if_pos (by simp [hidx, hport]), if_pos hway]

theorem Chip.closeRx_abort_destination (hidx : 0 < t.index) (hport : t.inPort = n) (hend : t.index = t.hops) :
    c.closeRx n x = e.sendFw n (ctlCell 0 5 (closeAckPayload tid (fldBe b 8 4) (e.tunOf tid).discarded)) := by
  rw [Chip.closeRx_aborts hd hb htid ht hmode hl, ← he]
  dsimp only
  rw [if_pos (by simp [hidx, hport]), if_neg (by omega)]

theorem Chip.closeRx_abort_source (hidx : t.index = 0) :
    c.closeRx n x = e.sendFw n (ctlCell 0 5 (closeAckPayload tid (fldBe b 8 4) (e.tunOf tid).discarded)) := by
  rw [Chip.closeRx_aborts hd hb htid ht hmode hl, ← he]
  dsimp only
  rw [if_neg (by simp [hidx]), if_neg (by omega)]

end

end

/-! ### CLOSE_ACK (R209, R210) -/

include hd hb htid

/-- The last answer that a close waits for, from its downstream side (bit 0 of `acks`) or its upstream side (bit 1). -/
theorem Chip.closeAckRx_last {k : CloseRec} (hk : d.fab.closes.find? (fun k => k.tid == tid && k.handle == fldBe b 2 4) = some k)
    (hlast : (k.out = some n ∧ k.acks = 1) ∨ (k.out ≠ some n ∧ k.acks = 2)) :
    c.closeAckRx n x =
      (({ d with fab := { d.fab with closes := d.fab.closes.filter fun y => y != k } } : Chip).closeDone k.handle 0 0) := by
  subst hd hb htid
  unfold Chip.closeAckRx
  dsimp only
  rw [hk]
  obtain ⟨hout, hacks⟩ | ⟨hout, hacks⟩ := hlast
  · simp [hout, hacks, bitOf, stOk]
  · simp [hout, hacks, bitOf, stOk]

end

/-! ### FLOW (R203) -/

section
variable {c d : Chip} {n : Nat} {x : Cell} {u : Tun} (hd : d = c.takeF10 n x) (hu : u = d.tunOf x.tid) (hl : u.state.live = true)
  (hport : u.outPort = n)
include hd hu hl hport

theorem Chip.flowRx_source {b : Bytes} (hb : b = x.payload) (hidx : u.index = 0) (hcredit : u.creditSeq ≠ none) :
    c.flowRx n x = d.setTun x.tid { u with creditSeq := some (fldBe b 0 2) } := by
  subst hd hu hb
  exact (if_neg (by simp [hl, hport])).trans ((if_pos hidx).trans (if_pos (Option.isSome_iff_ne_none.2 hcredit)))

theorem Chip.flowRx_upstream (hidx : 0 < u.index) : c.flowRx n x = d.sendFw u.inPort x := by
  subst hd hu
  exact (if_neg (by simp [hl, hport])).trans (if_neg (Nat.ne_of_gt hidx))

end

end Sys2Proof.Machine
end

section
/-!
PROOFS. Chapter 08: the timers of tunnels and closes (R202, R208 to R210, R225, R519), the sieve (R226, R227), and the statement about the
chapter's rows.
-/
namespace Sys2Proof.Machine

/-! ### Timers -/

section
variable {s : State} {i : Nat} {u : Tun} (hu : u = s.chip.tunOf i)
include hu

theorem openTimeout_aborts (hs : u.state = .opening) (hidx : u.index = 0) :
    s.becomes (.openTimeout i) (s.chip.abortClose i 0x0209 none 0x0303 0x0209) := by
  subst hu
  exact State.becomes_of_onChip rfl (if_pos (by simp [hs, hidx]))

theorem openingTimeout_aborts (hs : u.state = .opening) (hidx : 0 < u.index) :
    s.becomes (.openingTimeout i) (s.chip.abortClose i 0x0209) := by
  subst hu
  exact State.becomes_of_onChip rfl (if_pos (by simp [hs, hidx]))

theorem drainTurnsExpiry_discards (hs : u.state = .closing) (hd : u.draining = false) :
    s.becomes (.drainTurnsExpiry i) (((s.chip.dropTunnel i 0x020D).clearSrc i).drainEnd i 0x020D) := by
  subst hu
  exact State.becomes_of_onChip rfl (if_pos (by simp [hs, hd]))

theorem quarantineEnd_frees (hs : u.state = .quarantine) :
    s.becomes (.quarantineEnd i) { s.chip with fab := { s.chip.fab with tun := s.chip.fab.tun.erase i } } := by
  subst hu
  exact State.becomes_of_onChip rfl (if_pos (by simp [hs]))

theorem quarantineEnd_otherwise (hs : u.state ≠ .quarantine) : s.becomes (.quarantineEnd i) s.chip := by
  subst hu
  exact State.becomes_of_onChip rfl (if_neg (by simpa using hs))

end

/-- Two predicates that agree on a list's elements find the same one. -/
theorem find?_agreeing {α : Type} {f g : α → Bool} {l : List α} (h : ∀ z ∈ l, f z = g z) : l.find? f = l.find? g := by
  induction l with
  | nil => rfl
  | cons z l ih =>
    obtain ⟨hz, hl⟩ := List.forall_mem_cons.1 h
    rw [List.find?_cons, List.find?_cons, hz, ih hl]

/-- No close under the handle waits for its unit to end, so CLOSE_TIMEOUT meets the first of them (R209). -/
theorem closeTimeout_ends {s : State} {h : Nat} {k : CloseRec} (hk : s.chip.fab.closes.find? (fun k => k.handle == h) = some k)
    (hrun : ∀ k ∈ s.chip.fab.closes, k.handle = h →
      k.drain = false ∨ (s.chip.tunOf k.tid).openId ≠ h ∨ (s.chip.tunOf k.tid).draining = false) :
    s.becomes (.closeTimeout h)
      (({ s.chip with fab := { s.chip.fab with closes := s.chip.fab.closes.filter fun y => y.handle != h } } : Chip).closeDone h 0x0303
        (if k.drain then 0x020D else 0)) := by
  have hfirst : s.chip.fab.closes.find? (fun k =>
      k.handle == h && !(k.drain && (s.chip.tunOf k.tid).openId == h && (s.chip.tunOf k.tid).draining)) = some k := by
    rw [← hk]
    refine find?_agreeing fun z hz => ?_
    by_cases hzh : z.handle = h
    · obtain hr | hr | hr := hrun z hz hzh <;> simp [hr]
    · simp [hzh]
  change execCloseTimeout h s = _
  unfold execCloseTimeout onChip
  dsimp only
  rw [hfirst]
  rfl

theorem Chip.flushMsgs_of_none {c : Chip} (h : c.fab.ladle.msgs = []) (p tid : Nat) : c.flushMsgs p tid = c := by
  simp [Chip.flushMsgs, h]

theorem sfTimeout_discards {s : State} {p : Fin 11} {i : Nat} {y : QCell} {l : List QCell} (hm : s.chip.fab.ladle.msgs = [])
    (hq : openMsg (s.chip.queue p.val i) = y :: l) (hsf : y.sf = true) :
    s.becomes (.sfTimeout p i) (s.chip.sfDiscard p.val i) := by
  change execSfTimeout p i s = _
  unfold execSfTimeout onChip
  dsimp only
  rw [Chip.flushMsgs_of_none hm, hq]
  dsimp only
  rw [if_pos hsf]

/-! ### The sieve's audit (R226, R227) -/

/-- A lost list after one more audit. -/
def LostList.audited (z : LostList) : LostList := { z with audits := z.audits + 1 }

/-- What an audit leaves that frees `back` lines and keeps the lost lists `left`. -/
def Chip.audited (c : Chip) (back : Nat) (left : List LostList) : Chip :=
  c.setPot fun k => { k with leaked := sat32 k.leaked (lostLines k.lost fun z => z.audits = 1), reclaimed := sat32 k.reclaimed back,
                             accounting := sat32 k.accounting c.mismatches, lost := left }

section
variable {s : State} {k : Stockpot} {f : Nat} (hk : k = s.chip.fab.pot) (hf : f = lostLines k.lost (fun z => decide (1 ≤ z.audits)))
include hk hf

theorem execSieveAudit_keeps {d : Chip} (hr : k.reclaim = false) (hd : d = s.chip.audited 0 (k.lost.map LostList.audited)) :
    execSieveAudit s = .next { s with chip := if f = 0 then d else d.post 0x0203 0 f } := by
  subst hk hf hd
  simp only [execSieveAudit, onChip, hr, Bool.false_eq_true, if_false, Nat.zero_mul, Nat.add_zero]
  rfl

theorem execSieveAudit_reclaims {d : Chip} (hr : k.reclaim = true)
    (hd : d = s.chip.audited f ((k.lost.filter fun z => z.audits = 0).map LostList.audited)) :
    execSieveAudit s = .next { s with chip := if f = 0 then d else d.post 0x0203 0 (f + f * 2 ^ 32) } := by
  subst hk hf hd
  simp only [execSieveAudit, onChip, hr, if_true]
  rfl

end

/-- A lost list that one audit has met, and no other. -/
theorem audits_of_mem_audited {l : List LostList} {z : LostList}
    (hz : z ∈ (l.filter fun z => z.audits = 0).map LostList.audited) : z.audits = 1 := by
  obtain ⟨y, hy, rfl⟩ := List.mem_map.1 hz
  have hnew : y.audits = 0 := by simpa using (List.mem_filter.1 hy).2
  simp [LostList.audited, hnew]

/-- Settles O32, one row after another. -/
theorem tunnelRowsAct : Obligations.TunnelRowsAct := by
  unfold Obligations.TunnelRowsAct
  intro s n x c r b tid t hc hb hr htid ht
  have hreq : r = openOfCell n.val x.payload := hb ▸ hr
  refine ⟨fun st rs h => becomes_openCellRx (Chip.openRx_refuses hc hreq h),
    fun h hway => becomes_openCellRx (Chip.openRx_forwards hc hreq h hway),
    fun d h hend hd => becomes_openCellRx (Chip.openRx_answers hc hreq h hend hd),
    fun hs => becomes_openAckRx (Chip.openAckRx_stray hc hb htid ht hs),
    fun hs hport hid => ⟨fun h d hidx hd hst hh => ?_, fun hidx hst => ?_⟩,
    fun hl hno => ?_, fun hl hmode hidx => ?_, fun hmode hs hidx hport => ?_,
    fun d hmode hl hd => ⟨fun hidx hport hway => ?_, fun hidx hport hend => ?_, fun hidx => ?_⟩,
    fun k hk hlast => becomes_closeAckRx (Chip.closeAckRx_last hc hb htid hk hlast),
    fun u hu hl hport => ⟨fun hidx hcredit => ?_, fun hidx => ?_⟩,
    fun i u hu => ⟨openTimeout_aborts hu, openingTimeout_aborts hu, drainTurnsExpiry_discards hu, quarantineEnd_frees hu,
      quarantineEnd_otherwise hu⟩,
    fun h k hk hrun => closeTimeout_ends hk hrun, fun p i y l hm hq hsf => sfTimeout_discards hm hq hsf,
    fun k f a l d hk hf ha hl hr hd => ?_, fun k f hk hf hr => ?_⟩
  · exact becomes_openAckRx (Chip.openAckRx_completes hc hb htid ht hs hport hid hidx hd hst hh)
  · exact becomes_openAckRx (Chip.openAckRx_passes_refusal hc hb htid ht hs hport hid hidx hst)
  · have hkeep : ¬ (fldBe b 2 1 = 1 && t.index = 0) = true := by obtain h | h := hno <;> simp [h]
    exact becomes_closeCellRx ((Chip.closeRx_not_live hc hb htid ht hl).trans (by rw [if_neg hkeep]))
  · exact becomes_closeCellRx ((Chip.closeRx_not_live hc hb htid ht hl).trans (by rw [if_pos (by simp [hmode, hidx])]))
  · exact becomes_closeCellRx (Chip.closeRx_drains hc hb htid ht hmode hs hidx hport)
  · exact becomes_closeCellRx (Chip.closeRx_abort_downstream hc hb htid ht hmode hl hd hidx hport hway)
  · exact becomes_closeCellRx (Chip.closeRx_abort_destination hc hb htid ht hmode hl hd hidx hport hend)
  · exact becomes_closeCellRx (Chip.closeRx_abort_source hc hb htid ht hmode hl hd hidx)
  · exact becomes_flowCellRx (Chip.flowRx_source hc hu hl hport hb hidx hcredit)
  · exact becomes_flowCellRx (Chip.flowRx_upstream hc hu hl hport hidx)
  · have hrow : execSieveAudit s = .next { s with chip := if f = 0 then d else d.post 0x0203 0 f } :=
      execSieveAudit_keeps hk hf hr (by subst hk ha hl; exact hd)
    exact ⟨fun hfound => by rwa [if_neg (Nat.ne_of_gt hfound)] at hrow, fun hnone => by rwa [if_pos hnone] at hrow⟩
  · exact ⟨_, _, execSieveAudit_reclaims hk hf hr rfl, rfl, by subst hk; rfl, rfl, rfl, rfl, fun z hz => audits_of_mem_audited hz⟩

end Sys2Proof.Machine
end

section
/-!
PROOFS. Chapter 08: the tunnel commands (R205, R207 to R210, R224, R226, R230, Tables 08.8 to 08.13).
-/
namespace Sys2Proof.Machine

/-- A long command that is accepted, is past its commit point, and completes with its reply (R56, R59). -/
theorem runCommand_done_committed {op : Nat} {p : Packet} {s : State} {c c' : Chip} {st rs res : Nat} {body : Ctx → Chip → Ans × Chip}
    (h : s.heard op p c) (hb : body (s.ctxOf op p c) c = ({ accepted with committed := true, done := some (st, rs, res) }, c'))
    (hr : c.recordFree (c.issuer p.sess).1 = true) :
    runCommand op p s body =
      .next { s with chip :=
        ((c'.accepts p (s.ctxOf op p c)).commitPoint (s.ctxOf op p c).handle).complete (s.ctxOf op p c).handle st rs res } := by
  unfold runCommand
  simp only [runCommandA_heard h, hb]
  simp [Chip.answer, stAccepted, accepted, hr, Chip.accepts]

/-- The check that keeps an L2 issuer to what is its own lets every other issuer pass, and the owner. -/
theorem not_denied {lvl : Nat} {own : Bool} (h : lvl ≠ 2 ∨ own = true) : ¬ (lvl = 2 && !own) = true := by
  obtain h | h := h <;> simp [h]

section
variable {x : Ctx} {c : Chip}

/-! ### TUNNEL_OPEN (R205, R208) -/

section
variable {r : OpenReq} (hr : r = openOfParams x.ps x.handle)
include hr

theorem bodyTunnelOpen_reserved (htid : r.tid < 16) : bodyTunnelOpen x c = (err 0x0104 0x0201, c) := by
  subst hr
  exact if_pos htid

variable {t : Tun} {d : Chip} (htid : 16 ≤ r.tid) (hgood : openParamsBad x.ps r = false) (hport : x.lvl ≠ 2 ∨ r.inPort = 4)
  (hcheck : c.checkOpen r 0 (some x.iss) = none) (hspent : x.iss ≥ 64 ∨ c.tunnelsSpent x.iss = false)
  (ht : t = { r.context 0 x.iss with
    sess := some x.sess, evq := x.evq, alpha := sfld x.ps 21 1, openHandle := some x.handle })
  (hd : d = c.newContext r.tid t)
include htid hgood hport hcheck hspent ht hd

/-- TUNNEL_OPEN past the checks of Table 08.6: the context stands in OPENING, and a path without hops is open at once. -/
theorem bodyTunnelOpen_checked :
    bodyTunnelOpen x c =
      if r.hops = 0 then
        ({ accepted with done := some (stOk, 0, r.version + 0xFF00) },
          (d.setTun r.tid { d.tunOf r.tid with openHandle := none, answer := (d.endpointAnswer (r.dst x.iss)).2 }).tunnelOpened
            r.tid r.version)
      else (accepted, d.sendFw (r.out 0) (ctlCell 0 2 (r.payload 1))) := by
  have hdenied : ¬ (x.lvl = 2 && r.inPort != 4) = true :=
    not_denied (own := r.inPort == 4) (hport.imp_right beq_iff_eq.2)
  have hnospent : ¬ (x.iss < 64 && c.tunnelsSpent x.iss) = true := by
    obtain h | h := hspent
    · simp [Nat.not_lt.2 h]
    · simp [h]
  subst hr ht hd
  unfold bodyTunnelOpen
  dsimp only
  rw [if_neg (by omega), if_neg (by simp [hgood]), if_neg hdenied, hcheck]
  exact if_neg hnospent

theorem bodyTunnelOpen_sends (hhops : 0 < r.hops) :
    bodyTunnelOpen x c = (accepted, d.sendFw (r.out 0) (ctlCell 0 2 (r.payload 1))) := by
  rw [bodyTunnelOpen_checked hr htid hgood hport hcheck hspent ht hd, if_neg (Nat.ne_of_gt hhops)]

theorem bodyTunnelOpen_local (hhops : r.hops = 0) :
    bodyTunnelOpen x c =
      ({ accepted with done := some (0, 0, r.version + 0xFF00) },
        (d.setTun r.tid { d.tunOf r.tid with openHandle := none, answer := (d.endpointAnswer (r.dst x.iss)).2 }).tunnelOpened
          r.tid r.version) := by
  rw [bodyTunnelOpen_checked hr htid hgood hport hcheck hspent ht hd, if_pos hhops]
  rfl

end

/-! ### TUNNEL_CLOSE (R209 to R211) -/

section
variable {i : Nat} {t : Tun} (hi : i = fld x.ps 0 2) (ht : t = c.tunOf i) (h16 : 16 ≤ i) (h1024 : i < 1024) (hz : rsvd x.ps 3 1 = true)
  (hown : x.lvl ≠ 2 ∨ c.ownsTunnel x.iss i = true) (hl : t.state.live = true)
include hi ht h16 h1024 hz hown hl

/-- TUNNEL_CLOSE of a live tunnel that the issuer may close: its mode decides. -/
theorem bodyTunnelClose_allowed (hmode : fld x.ps 2 1 ≤ 1) :
    bodyTunnelClose x c =
      if fld x.ps 2 1 = 0 then
        if t.index > 0 then (err 0x0104 0x0210, c)
        else if t.state == .opening then (err stState 0x020F, c)
        else if t.state == .closing then
          (busyWith (match c.fab.closes.find? fun k => k.tid == i && k.drain && k.handle == t.openId with
            | some k => k.handle
            | none => 0), c)
        else
          ({ accepted with
              committed := true
              done := if !((c.drainHere i x.handle).fab.closes.any fun k => k.handle == x.handle) then some (stOk, 0, 0) else none },
            c.drainHere i x.handle)
      else
        ({ accepted with committed := true, done := if t.hops = 0 then some (stOk, 0, 0) else none },
          c.abortClose i 0x0213 (some x.handle)) := by
  have hdenied := not_denied hown
  subst ht hi
  unfold bodyTunnelClose
  dsimp only
  rw [if_neg (by simp [hz]; omega), if_neg (by omega), if_neg hdenied, if_neg (by simp [hl])]
  rfl

theorem bodyTunnelClose_aborts (hmode : fld x.ps 2 1 = 1) (hhops : 0 < t.hops) :
    bodyTunnelClose x c = ({ accepted with committed := true }, c.abortClose i 0x0213 (some x.handle)) := by
  rw [bodyTunnelClose_allowed hi ht h16 h1024 hz hown hl (by omega), if_neg (by omega), if_neg (Nat.ne_of_gt hhops)]
  rfl

theorem bodyTunnelClose_aborts_local (hmode : fld x.ps 2 1 = 1) (hhops : t.hops = 0) :
    bodyTunnelClose x c =
      ({ accepted with committed := true, done := some (0, 0, 0) }, c.abortClose i 0x0213 (some x.handle)) := by
  rw [bodyTunnelClose_allowed hi ht h16 h1024 hz hown hl (by omega), if_neg (by omega), if_pos hhops]
  rfl

/-- A DRAIN with cells still to send leaves its handle open (R209). -/
theorem bodyTunnelClose_drains (hmode : fld x.ps 2 1 = 0) (hidx : t.index = 0) (hs : t.state = .open)
    (hwait : ((c.drainHere i x.handle).fab.closes.any fun k => k.handle == x.handle) = true) :
    bodyTunnelClose x c = ({ accepted with committed := true }, c.drainHere i x.handle) := by
  rw [bodyTunnelClose_allowed hi ht h16 h1024 hz hown hl (by omega), if_pos hmode, if_neg (by omega), if_neg (by simp [hs]),
    if_neg (by simp [hs]), hwait]
  rfl

theorem bodyTunnelClose_drain_elsewhere (hmode : fld x.ps 2 1 = 0) (hidx : 0 < t.index) :
    bodyTunnelClose x c = (err 0x0104 0x0210, c) := by
  rw [bodyTunnelClose_allowed hi ht h16 h1024 hz hown hl (by omega), if_pos hmode, if_pos hidx]

end

/-! ### GET_TUNNEL and LIST_TUNNELS (R230) -/

theorem Chip.tunnelRecord_length (c : Chip) (tid : Nat) : (c.tunnelRecord tid).length = 64 := by
  unfold Chip.tunnelRecord
  dsimp only
  split <;> simp only [List.length_append, le_length, zeros_length]

theorem bodyGetTunnel_answers (htid : fld x.ps 0 2 < 1024) (hz : rsvd x.ps 2 2 = true)
    (hown : x.lvl ≠ 2 ∨ c.ownsTunnel x.iss (fld x.ps 0 2) = true) :
    bodyGetTunnel x c = (ok (c.tunnelRecord (fld x.ps 0 2)), c) :=
  (if_neg (by simp [hz]; omega)).trans (if_neg (not_denied hown))

theorem bodyListTunnels_answers {es : List Bytes} (htid : fld x.ps 0 2 < 1024) (hmin : 1 ≤ fld x.ps 2 2) (hmax : fld x.ps 2 2 ≤ 1024)
    (hes : es = ((c.fab.tun.filter fun e => decide (fld x.ps 0 2 ≤ e.1) && e.2.state != .free).take (fld x.ps 2 2)).map fun e =>
      le 2 e.1 ++ le 1 e.2.state.code ++ le 1 e.2.ty ++ le 1 e.2.cls ++ le 1 e.2.inPort ++ le 1 e.2.outPort ++ le 1 e.2.owner) :
    bodyListTunnels x c = (ok es.flatten, c) := by
  subst hes
  exact if_neg (by simp; omega)

/-! ### SET_FORWARDING (R224) -/

section
variable (hport : fld x.ps 0 1 ≤ 10) (hfwd : fld x.ps 1 1 ≤ 7) (hmin : 1 ≤ fld x.ps 2 2) (hmax : fld x.ps 2 2 ≤ 10000)
include hport hfwd hmin hmax

theorem bodySetForwarding_sets (hcut : 4 ≤ fld x.ps 0 1 ∨ fld x.ps 1 1 % 4 = 0) :
    bodySetForwarding x c =
      (ok, c.setPort (fld x.ps 0 1) { c.port (fld x.ps 0 1) with fwd := fld x.ps 1 1, sfTimeout := fld x.ps 2 2 }) :=
  (if_neg (by simp; omega)).trans (if_neg (by simp; omega))

/-- Classes C and V of a trunk are cut-through. -/
theorem bodySetForwarding_refuses (htrunk : fld x.ps 0 1 < 4) (hsf : fld x.ps 1 1 % 4 ≠ 0) :
    bodySetForwarding x c = (err 0x0104 0x020E, c) :=
  (if_neg (by simp; omega)).trans (if_pos (by simp [htrunk, hsf]))

end

/-! ### GET_STOCKPOT and SIEVE_CTRL (R226, R227, Table 08.12) -/

/-- The response of GET_STOCKPOT (Table 08.12). -/
def Chip.stockpotBytes (c : Chip) (k : Stockpot) : Bytes :=
  le 4 c.res ++ le 4 c.guarantees ++ le 4 k.retired.length ++ le 4 c.sEff ++ le 4 (c.poolUsed .shared) ++
    le 4 (524288 - c.stored.length - k.retired.length - lostLines k.lost (fun _ => true)) ++ le 4 k.auditMs ++
    le 1 (b2n k.reclaim + 2 * b2n k.svPersist) ++ zeros 3 ++ le 8 k.corrected ++ le 8 k.poisoned ++ le 8 k.evicted ++ le 4 k.leaked ++
    le 4 k.reclaimed ++ le 4 k.accounting ++ le 4 k.descLost ++ le 4 k.creditOverrun ++ le 4 k.sfIncomplete ++ le 4 k.systemDrops

theorem Chip.stockpotBytes_length (c : Chip) (k : Stockpot) : (c.stockpotBytes k).length = 84 := by
  simp only [Chip.stockpotBytes, List.length_append, le_length, zeros_length]

theorem bodyGetStockpot_answers : bodyGetStockpot x c = (ok (c.stockpotBytes c.fab.pot), c) := rfl

theorem bodySieveCtrl_sets {d : Chip} {k : Stockpot} (hmin : 1 ≤ fld x.ps 0 2) (hmax : fld x.ps 0 2 ≤ 1000) (hfl : fld x.ps 2 1 ≤ 3)
    (hz : rsvd x.ps 3 1 = true) (hk : k = c.fab.pot)
    (hd : d = ({ c with fab := { c.fab with pot := { k with
      auditMs := fld x.ps 0 2, reclaim := bitOf (fld x.ps 2 1) 0, svPersist := bitOf (fld x.ps 2 1) 1 } } } : Chip)) :
    bodySieveCtrl x c =
      (ok, if bitOf (fld x.ps 2 1) 1 then d.storeConfig (fun z => { z with sieve := some (fld x.ps 0 2, bitOf (fld x.ps 2 1) 0) })
        else d) := by
  subst hk hd
  exact if_neg (by simp [hz]; omega)

end

/-- Settles O33, one command after another. -/
theorem tunnelCommandsAct : Obligations.TunnelCommandsAct := by
  unfold Obligations.TunnelCommandsAct
  intro s p c x b hb
  subst hb
  refine ⟨fun r t d hh hx hr => ⟨fun htid => ?_, fun htid hgood hport hcheck hspent hrec ht hd => ⟨fun hhops => ?_, fun hhops a ha => ?_⟩⟩,
    fun i t hh hx hi ht h16 h1024 hz hown hl hrec => ⟨fun hmode hhops => ?_, fun hmode hhops => ?_,
      fun hmode hidx hs hwait => ?_, fun hmode hidx => ?_⟩,
    fun hh htid hz hroom hown => ?_, fun es hh htid hmin hmax hes hroom => ?_,
    fun hh hport hfwd hmin hmax => ⟨fun hcut => ?_, fun htrunk hsf => ?_⟩, fun k hh hroom hk => ?_,
    fun d k hh hmin hmax hfl hz hk hd => ?_⟩
  · subst hx
    exact runCommand_err hh (bodyTunnelOpen_reserved hr htid) (by decide)
  · subst hx
    exact runCommand_accepted hh (bodyTunnelOpen_sends hr htid hgood hport hcheck hspent ht hd hhops) hrec
  · subst hx ha
    exact runCommand_done hh (bodyTunnelOpen_local hr htid hgood hport hcheck hspent ht hd hhops) hrec
  · subst hx
    exact runCommand_accepted_committed hh (bodyTunnelClose_aborts hi ht h16 h1024 hz hown hl hmode hhops) hrec
  · subst hx
    exact ⟨_, runCommand_done_committed hh (bodyTunnelClose_aborts_local hi ht h16 h1024 hz hown hl hmode hhops) hrec, rfl⟩
  · subst hx
    exact runCommand_accepted_committed hh (bodyTunnelClose_drains hi ht h16 h1024 hz hown hl hmode hidx hs hwait) hrec
  · subst hx
    exact runCommand_err hh (bodyTunnelClose_drain_elsewhere hi ht h16 h1024 hz hown hl hmode hidx) (by decide)
  · exact runCommand_ok hh (bodyGetTunnel_answers htid hz hown) (by rwa [Chip.tunnelRecord_length])
  · exact runCommand_ok hh (bodyListTunnels_answers htid hmin hmax hes) hroom
  · exact runCommand_ok_empty hh (bodySetForwarding_sets hport hfwd hmin hmax hcut)
  · exact runCommand_err hh (bodySetForwarding_refuses hport hfwd hmin hmax htrunk hsf) (by decide)
  · subst hk
    exact runCommand_ok hh bodyGetStockpot_answers (c.stockpotBytes_length _ ▸ hroom)
  · exact runCommand_ok_empty hh (bodySieveCtrl_sets hmin hmax hfl hz hk hd)

end Sys2Proof.Machine
end

section
/-!
PROOFS. Chapter 09: the freewheel's shapers and its commands (R236, R237, R240, R245, Tables 09.4 to 09.6).
-/
namespace Sys2Proof.Machine

/-! ### Shapers -/

/-- A shaper within its burst stays as it is while no time passes. -/
theorem Shaper.refresh_at_same_time {k : Shaper} {now : Nat} (hw : k.write = none) (hf : k.frac = 0) (hat : k.at' = now)
    (htk : k.tokens ≤ k.burst * 65536) : k.refresh now = k := by
  obtain ⟨on, rate, burst, tokens, frac, at', write⟩ := k
  subst hw hf hat
  cases on with
  | false => rfl
  | true =>
    simp only [Shaper.refresh, Bool.not_true, Bool.false_eq_true, if_false, Nat.sub_self, Nat.mul_zero, Nat.add_zero, Nat.zero_div,
      Nat.zero_mod]
    split
    · exact congrArg (Shaper.mk true rate burst · 0 at' none) (Nat.le_antisymm ‹_› htk)
    · rfl

/-- R237: the first decision after a write takes the write over, and nothing accrues at it. -/
theorem Shaper.refresh_of_write {k : Shaper} {on full : Bool} {rate burst : Nat} (now : Nat) (hw : k.write = some (on, rate, burst, full)) :
    k.refresh now = { k with on, rate, burst, tokens := if full then burst * 65536 else 0, frac := 0, at' := now, write := none } := by
  have htaken : k.refresh now = Shaper.refresh
      { k with on, rate, burst, tokens := if full then burst * 65536 else 0, frac := 0, at' := now, write := none } now := by
    simp only [Shaper.refresh, hw]
  exact htaken.trans (refresh_at_same_time rfl rfl rfl (by dsimp only; split <;> omega))

/-- R236: the accrual of a shaper that is on stops at BURST. -/
theorem Shaper.refresh_tokens_le {k : Shaper} {now : Nat} (hon : (k.refresh now).on = true) :
    (k.refresh now).tokens ≤ (k.refresh now).burst * 65536 := by
  revert hon
  unfold Shaper.refresh
  extract_lets taken num tk
  by_cases hoff : taken.on = false
  · rw [if_pos (by rw [hoff, Bool.not_false])]
    intro (hon : taken.on = true)
    exact absurd (hoff.symm.trans hon) Bool.false_ne_true
  · rw [if_neg (by rwa [Bool.not_eq_true'])]
    by_cases hfull : tk ≥ taken.burst * 65536
    · rw [if_pos hfull]
      exact fun _ => Nat.le_refl _
    · rw [if_neg hfull]
      exact fun _ => Nat.le_of_not_ge hfull

theorem not_shaper_refused {on : Bool} {rate burst : Nat} (h : on = true → shaperOk rate burst = true) :
    (on && !shaperOk rate burst) = false := by
  cases on with
  | false => rfl
  | true => simp [h rfl]

section
variable {x : Ctx} {c : Chip}

/-! ### FW_QUEUE_SET (R237) -/

section
variable {i : Nat} {t : Tun} {f : FwQueue} (hi : i = fld x.ps 0 2) (ht : t = c.tunOf i) (hf : f = c.fwOf t.outPort i) (h1024 : i < 1024)
  (hfl : fld x.ps 2 1 ≤ 3) (hz3 : rsvd x.ps 3 1 = true) (hweight : fld x.ps 4 2 ≠ 0) (hz6 : rsvd x.ps 6 2 = true)
  (hz16 : rsvd x.ps 16 8 = true) (hsh : bitOf (fld x.ps 2 1) 1 = true → shaperOk (fld x.ps 8 4) (fld x.ps 12 4) = true)
include hi ht hf h1024 hfl hz3 hweight hz6 hz16 hsh

/-- FW_QUEUE_SET with parameters in range: whether the tunnel is live and best-effort decides. -/
theorem bodyFwQueueSet_inRange :
    bodyFwQueueSet x c =
      if !t.state.live || c.contracted i then (err 0x0204 0x0220, c)
      else (ok, c.setFw t.outPort i { f with
        weight := fld x.ps 4 2
        shaper := { f.shaper with
          write := some (bitOf (fld x.ps 2 1) 1, fld x.ps 8 4, fld x.ps 12 4, bitOf (fld x.ps 2 1) 0) } }) := by
  subst hf ht hi
  exact if_neg (by simp [hz3, hweight, hz6, hz16, not_shaper_refused hsh]; omega)

theorem bodyFwQueueSet_sets {w : Shaper} (hl : t.state.live = true) (hk : c.contracted i = false)
    (hw : w = { f.shaper with write := some (bitOf (fld x.ps 2 1) 1, fld x.ps 8 4, fld x.ps 12 4, bitOf (fld x.ps 2 1) 0) }) :
    bodyFwQueueSet x c = (ok, c.setFw t.outPort i { f with weight := fld x.ps 4 2, shaper := w }) := by
  rw [bodyFwQueueSet_inRange hi ht hf h1024 hfl hz3 hweight hz6 hz16 hsh, if_neg (by simp [hl, hk]), hw]

theorem bodyFwQueueSet_refuses (h : t.state.live = false ∨ c.contracted i = true) : bodyFwQueueSet x c = (err 0x0204 0x0220, c) := by
  rw [bodyFwQueueSet_inRange hi ht hf h1024 hfl hz3 hweight hz6 hz16 hsh, if_pos]
  obtain h | h := h <;> simp [h]

end

/-! ### FW_PORT_SET and POLICER_SET (R231, R234, R237, R240, R244) -/

/-- FW_PORT_SET without PERSIST. -/
theorem bodyFwPortSet_sets {o : OutPort} {l : List Nat} {w : Shaper} (ho : o = c.port (fld x.ps 0 1)) (hport : fld x.ps 0 1 ≤ 10)
    (hfl : fld x.ps 1 1 < 4) (hmin : -32 ≤ sfld x.ps 2 1) (hmax : sfld x.ps 2 1 ≤ 64) (hz3 : rsvd x.ps 3 1 = true)
    (hweight : fld x.ps 4 2 ≠ 0) (hz6 : rsvd x.ps 6 2 = true) (hz24 : rsvd x.ps 24 8 = true)
    (hsh : bitOf (fld x.ps 1 1) 1 = true → shaperOk (fld x.ps 8 4) (fld x.ps 12 4) = true)
    (hl : l = [fld x.ps 16 2, fld x.ps 18 2, fld x.ps 20 2, fld x.ps 22 2]) (htrunk : fld x.ps 0 1 < 4 ∨ l = [0, 0, 0, 0])
    (hw : w = { o.shaper with write := some (bitOf (fld x.ps 1 1) 1, fld x.ps 8 4, fld x.ps 12 4, bitOf (fld x.ps 1 1) 0) }) :
    bodyFwPortSet x c =
      (ok, c.setPort (fld x.ps 0 1)
        { o with overhead := sfld x.ps 2 1, demoteWeight := fld x.ps 4 2, limits := l, shaper := w }) := by
  have hlimits : ((List.range 4).map fun i => fld x.ps (16 + 2 * i) 2) = l := hl.symm
  have hnopersist : bitOf (fld x.ps 1 1) 2 = false := by simp [bitOf]; omega
  have hnolimits : (decide (fld x.ps 0 1 ≥ 4) && l.any fun y => y != 0) = false := by
    obtain h | h := htrunk
    · rw [decide_eq_false (Nat.not_le.2 h), Bool.false_and]
    · subst h
      exact Bool.and_false _
  subst ho hw
  unfold bodyFwPortSet
  dsimp only
  rw [hlimits, hnopersist, if_neg]
  · rfl
  · simp [hz3, hweight, hz6, hz24, not_shaper_refused hsh, hnolimits]; omega

section
variable (htid : fld x.ps 0 2 < 1024) (hmode : fld x.ps 2 1 ≤ 2) (hz : rsvd x.ps 3 1 = true)
include htid hmode hz

theorem bodyPolicerSet_sets (hp : c.policed (fld x.ps 0 2) = true) :
    bodyPolicerSet x c = (ok, c.setTun (fld x.ps 0 2) { c.tunOf (fld x.ps 0 2) with polMode := fld x.ps 2 1 }) :=
  (if_neg (by simp [hz]; omega)).trans (if_neg (by simp [hp]))

theorem bodyPolicerSet_refuses (hp : c.policed (fld x.ps 0 2) = false) : bodyPolicerSet x c = (err 0x0204 0x0221, c) :=
  (if_neg (by simp [hz]; omega)).trans (if_pos (by simp [hp]))

end

/-! ### FW_QUEUE_GET and FW_PORT_GET (R245, Table 09.6) -/

/-- The response of FW_QUEUE_GET about tunnel `i` with context `t`, whose queue has state `f` and the shaper `k` of this moment. -/
def Chip.fwQueueBytes (c : Chip) (i : Nat) (t : Tun) (f : FwQueue) (k : Shaper) : Bytes :=
  le 2 i ++ le 1 t.outPort ++ le 1 ((c.fwRefresh t.outPort).qstate t.outPort i) ++ le 2 f.weight ++
    le 1 (if c.policed i then t.polMode else 0xFF) ++ zeros 1 ++ le 4 (if k.on then k.rate else 0) ++ le 4 k.burst ++
    le 4 (k.tokens / 65536) ++ le 4 (c.queue t.outPort i).length ++ le 4 f.depthHwm ++ le 4 f.sojournHwm ++ le 8 f.cellsOut ++
    le 8 f.accBytes ++ le 4 f.conform ++ le 4 f.demoted ++ le 4 f.dropped ++ zeros 4

theorem Chip.fwQueueBytes_length (c : Chip) (i : Nat) (t : Tun) (f : FwQueue) (k : Shaper) : (c.fwQueueBytes i t f k).length = 64 := by
  simp only [Chip.fwQueueBytes, List.length_append, le_length, zeros_length]

theorem bodyFwQueueGet_answers {i : Nat} {t : Tun} {f : FwQueue} (hi : i = fld x.ps 0 2) (ht : t = c.tunOf i)
    (hf : f = c.fwOf t.outPort i) (h1024 : i < 1024) (hz : rsvd x.ps 2 2 = true) (hown : x.lvl ≠ 2 ∨ c.ownsTunnel x.iss i = true) :
    bodyFwQueueGet x c =
      (ok (c.fwQueueBytes i t f (f.shaper.refresh c.clk.powerPs)), c.setFw t.outPort i { f with depthHwm := 0, sojournHwm := 0 }) := by
  subst hf ht hi
  exact (if_neg (by simp [hz]; omega)).trans (if_neg (not_denied hown))

/-- The first 24 bytes of FW_PORT_GET's response: what is configured, the queues, and the high-water marks. -/
def Chip.fwPortHead (c : Chip) (p : Nat) : Bytes :=
  le 1 p ++ zeros 1 ++ le 1 (unsigned 8 (c.port p).overhead) ++ zeros 1 ++ le 4 (c.fwTids p).length ++ le 4 (c.portDepth p) ++
    le 4 (c.port p).depthHwm ++ le 4 (c.port p).sojournHwm ++ zeros 4

/-- The rest of FW_PORT_GET's response: the credits available and held, and the counters. -/
def Chip.fwPortCredits (c : Chip) (p : Nat) : Bytes :=
  ((List.range 4).map fun g =>
    le 2 (if p < 4 && (c.frmOf p).credit g
      then Nat.min 65535 (((c.frmOf p).grantRx.get 0 g + 2 ^ 32 - (c.frmOf p).sentFw.get 0 g) % 2 ^ 32) else 0)).flatten ++
  ((List.range 4).map fun g =>
    le 2 (if p < 4 then Nat.min 65535 ((c.frmOf p).unused g +
      c.fab.q.foldl (fun a e => a + (e.2.filter fun y => y.credit == some (p, g)).length) 0 +
      c.fab.backlog.foldl (fun a e => a + (e.2.filter fun y => y.credit == some (p, g)).length) 0) else 0)).flatten ++
  le 8 (c.port p).fwCells ++ le 8 (c.port p).creditBlocked ++ zeros 8

theorem Chip.fwPortHead_length (c : Chip) (p : Nat) : (c.fwPortHead p).length = 24 := by
  simp only [Chip.fwPortHead, List.length_append, le_length, zeros_length]

theorem Chip.fwPortCredits_length (c : Chip) (p : Nat) : (c.fwPortCredits p).length = 40 := by
  simp only [Chip.fwPortCredits, List.length_append, le_length, zeros_length, length_flatten_fields (fun _ => le_length ..)]

theorem bodyFwPortGet_answers (hport : fld x.ps 0 1 ≤ 10) (hz : rsvd x.ps 1 3 = true) :
    bodyFwPortGet x c =
      (ok (c.fwPortHead (fld x.ps 0 1) ++ c.fwPortCredits (fld x.ps 0 1)),
        c.setPort (fld x.ps 0 1) { c.port (fld x.ps 0 1) with depthHwm := 0, sojournHwm := 0 }) := by
  refine (if_neg (by simp [hz]; omega)).trans ?_
  simp only [Chip.fwPortHead, Chip.fwPortCredits, List.append_assoc]

end

end Sys2Proof.Machine
end

section
/-!
PROOFS. Chapter 09: the ladle's commands and its writes (R246, R247, R249 to R251, Tables 09.7 and 09.8), and the statement about
the chapter.
-/
namespace Sys2Proof.Machine

section
variable {x : Ctx} {c : Chip}

/-! ### LADLE_FILTER_SET and LADLE_RING_SET (R246, R251) -/

theorem bodyLadleFilterSet_sets {f : LadleFilter}
    (hf : f = { enable := fld x.ps 1 1 == 1, ring := fld x.ps 2 1, points := fld x.ps 3 1, ports := fld x.ps 4 2, classes := fld x.ps 6 1,
                fflags := fld x.ps 7 1, ctypes := fld x.ps 8 2, tidLo := fld x.ps 10 2, tidHi := fld x.ps 12 2,
                sampleN := fld x.ps 14 1, limit := fld x.ps 16 4 })
    (hidx : fld x.ps 0 1 ≤ 15) (hen : fld x.ps 1 1 ≤ 1) (hring : f.ring ≤ 7) (hpoints : f.points ≤ 7) (hports : f.ports ≤ 2047)
    (hclasses : f.classes ≤ 15) (hflags : f.fflags ≤ 7) (hhi : f.tidHi ≤ 1023) (hlo : f.tidLo ≤ f.tidHi) (hsample : f.sampleN ≤ 16)
    (hz15 : rsvd x.ps 15 1 = true) (hz20 : rsvd x.ps 20 12 = true) :
    bodyLadleFilterSet x c =
      (ok, { c with fab := { c.fab with ladle := { c.fab.ladle with filters := c.fab.ladle.filters.set (fld x.ps 0 1) f } } }) := by
  subst hf
  dsimp only at hring hpoints hports hclasses hflags hhi hlo hsample
  exact if_neg (by simp [hz15, hz20]; omega)

section
variable {i : Nat} {d : Chip} (hi : i = fld x.ps 0 1) (hmin : 1 ≤ i) (hmax : i ≤ 7) (hmode : fld x.ps 1 1 ≤ 2) (hlog : 6 ≤ fld x.ps 2 1)
  (hlog' : fld x.ps 2 1 ≤ 16) (howner : fld x.ps 3 1 ≤ 63) (hz : rsvd x.ps 4 4 = true) (hbase : fld x.ps 8 8 % 4096 = 0)
  (hpi : fld x.ps 16 8 % 8 = 0)
  (hd : d = ({ c with fab := { c.fab with ladle := { c.fab.ladle with
    queue := c.fab.ladle.queue.filter (fun y => y.ring != i)
    msgs := c.fab.ladle.msgs.filter fun m => (c.filterOf m.filter).ring != i } } } : Chip))
include hi hmin hmax hmode hlog hlog' howner hz hbase hpi hd

/-- LADLE_RING_SET of a ring in memory with parameters in range: whether its owner is there decides. -/
theorem bodyLadleRingSet_inRange :
    bodyLadleRingSet x c =
      if 0 < fld x.ps 3 1 ∧ (c.inst (fld x.ps 3 1)).state = .absent then (err 0x0204 0x0224, c)
      else (ok, d.setRing i { mode := fld x.ps 1 1, log2 := fld x.ps 2 1, owner := fld x.ps 3 1, base := fld x.ps 8 8,
                              piAddr := fld x.ps 16 8 }) := by
  have hne : fld x.ps 0 1 ≠ 0 := by omega
  have hpos : 0 < fld x.ps 0 1 := by omega
  subst hd hi
  refine (if_neg (by simp [hz]; omega)).trans ((if_neg (by simp [hbase, hpi])).trans ?_)
  simp only [if_neg hne, gt_iff_lt, hpos, decide_true, Bool.true_and, Bool.and_eq_true, decide_eq_true_eq, beq_iff_eq]
  rfl

theorem bodyLadleRingSet_sets (h : fld x.ps 3 1 = 0 ∨ (c.inst (fld x.ps 3 1)).state ≠ .absent) :
    bodyLadleRingSet x c =
      (ok, d.setRing i { mode := fld x.ps 1 1, log2 := fld x.ps 2 1, owner := fld x.ps 3 1, base := fld x.ps 8 8,
                         piAddr := fld x.ps 16 8 }) := by
  rw [bodyLadleRingSet_inRange hi hmin hmax hmode hlog hlog' howner hz hbase hpi hd, if_neg]
  rintro ⟨hpos, habsent⟩
  obtain h | h := h
  · omega
  · exact h habsent

theorem bodyLadleRingSet_refuses (h0 : fld x.ps 3 1 ≠ 0) (h : (c.inst (fld x.ps 3 1)).state = .absent) :
    bodyLadleRingSet x c = (err 0x0204 0x0224, c) := by
  rw [bodyLadleRingSet_inRange hi hmin hmax hmode hlog hlog' howner hz hbase hpi hd, if_pos ⟨Nat.pos_of_ne_zero h0, h⟩]

end

/-! ### LADLE_READ and LADLE_CONSUME (R250, R251) -/

section
variable {r : LadleRing} (hz : rsvd x.ps 1 1 = true) (hmin : 1 ≤ fld x.ps 2 2) (hmax : fld x.ps 2 2 ≤ 5461) (hring : fld x.ps 0 1 = 0)
  (hr : r = c.ring 0) (hmode : r.mode ≠ 0)
include hz hmin hmax hring hr hmode

theorem bodyLadleRead_unwritten (hfrom : (fld x.ps 4 4 + 2 ^ 32 - r.rseq) % 2 ^ 32 < 2 ^ 31) : bodyLadleRead x c = (ok, c) := by
  subst hr
  exact (if_neg (by simp [hz, hring]; omega)).trans ((if_neg (by simp [hring, hmode])).trans (if_pos hfrom))

/-- LADLE_READ from a record that the ring holds. -/
theorem bodyLadleRead_held {e : Nat × Bytes} {l : List (Nat × Bytes)} {es : List Bytes} (hrecs : r.recs = e :: l)
    (hfrom : 2 ^ 31 ≤ (fld x.ps 4 4 + 2 ^ 32 - r.rseq) % 2 ^ 32) (hheld : (fld x.ps 4 4 + 2 ^ 32 - e.1) % 2 ^ 32 < 2 ^ 31)
    (hes : es = ((r.recs.filter fun y => decide ((y.1 + 2 ^ 32 - fld x.ps 4 4) % 2 ^ 32 < 2 ^ 31)).take (fld x.ps 2 2)).map Prod.snd) :
    bodyLadleRead x c = (ok es.flatten, c) := by
  subst hr hes
  refine (if_neg (by simp [hz, hring]; omega)).trans ((if_neg (by simp [hring, hmode])).trans ((if_neg (Nat.not_lt.2 hfrom)).trans ?_))
  have hnogap : decide ((fld x.ps 4 4 + 2 ^ 32 - e.1) % 2 ^ 32 ≥ 2 ^ 31) = false := decide_eq_false (Nat.not_le.2 hheld)
  simp only [hrecs, hnogap, Bool.false_eq_true, if_false]
  rfl

end

/-- LADLE_CONSUME: the consumer RSEQ moves to `k`, which is UPTO, but the next RSEQ where UPTO lies beyond it. -/
theorem bodyLadleConsume_advances {r : LadleRing} {k : Nat} (hring : fld x.ps 0 1 ≤ 7) (hz : rsvd x.ps 1 3 = true)
    (hr : r = c.ring (fld x.ps 0 1)) (hmode : r.mode ≠ 0)
    (hk : (seqBefore 32 r.rseq (fld x.ps 4 4) = true ∧ seqBefore 32 r.consumer r.rseq = true ∧ k = r.rseq) ∨
      (seqBefore 32 r.rseq (fld x.ps 4 4) = false ∧ seqBefore 32 r.consumer (fld x.ps 4 4) = true ∧ k = fld x.ps 4 4)) :
    bodyLadleConsume x c =
      (ok, c.setRing (fld x.ps 0 1)
        { r with consumer := k, fullPosted := false, recs := r.recs.filter fun e => !seqBefore 32 e.1 k }) := by
  subst hr
  refine (if_neg (by simp [hz]; omega)).trans ((if_neg hmode).trans ?_)
  obtain ⟨hbeyond, hforward, rfl⟩ | ⟨hbeyond, hforward, rfl⟩ := hk <;>
    simp only [hbeyond, hforward, if_true, Bool.false_eq_true, if_false]

end

/-! ### Writing records (R247, R249, R250) -/

@[simp] theorem Chip.setRing_ring (c : Chip) (i : Nat) (r : LadleRing) : (c.setRing i r).ring i = r := Tab.get_set ..

/-- Ring 0 after it took a record whose bytes with its RSEQ are `y`, with room left. -/
def LadleRing.took (r : LadleRing) (y : Bytes) : LadleRing :=
  { r with rseq := (r.rseq + 1) % 2 ^ 32, gap := false, recs := r.recs ++ [(r.rseq, y)], fullPosted := false }

theorem Chip.ladleWrite_ring0 {c : Chip} {k : LadleRec} {r : LadleRing} (hk : k.ring = 0) (hr : r = c.ring 0) (hmode : r.mode ≠ 0)
    (hgap : r.gap = false) (hlen : r.recs.length < 5461) (hroom : (r.rseq + 2 ^ 32 - r.consumer) % 2 ^ 32 + 1 < 5461) :
    c.ladleWrite k = c.setRing 0 (r.took (patch k.bytes 28 (le 4 r.rseq))) := by
  subst hr
  have hfits : ¬ (c.ring 0).recs.length + 1 > 5461 := by omega
  have hnotfull : ¬ ((c.ring 0).rseq + 2 ^ 32 - (c.ring 0).consumer) % 2 ^ 32 ≥ 5461 := by omega
  simp only [Chip.ladleWrite, hk, hmode, hgap, LadleRing.size, if_true, if_false, hnotfull, Nat.ne_of_lt hroom, hfits, List.length_append,
    List.length_singleton, decide_false, Bool.and_false, Bool.false_eq_true]
  rfl

/-- The block once LADLE_RECORD_WRITE has taken every record that waited. -/
def Chip.emptyLadleQueue (c : Chip) : Chip := { c with fab := { c.fab with ladle := { c.fab.ladle with queue := [] } } }

@[simp] theorem Chip.emptyLadleQueue_ring (c : Chip) (i : Nat) : c.emptyLadleQueue.ring i = c.ring i := rfl

/-- LADLE_RECORD_WRITE of one record of ring 0, which has no PI_ADDR to write. -/
theorem execLadleRecordWrite_ring0 {s : State} {k : LadleRec} (hq : s.chip.fab.ladle.queue = [k]) (hk : k.ring = 0) :
    execLadleRecordWrite s = .next { s with chip := s.chip.emptyLadleQueue.ladleWrite k } := by
  have hnone : ((List.range 8).filter fun i => decide (i > 0) && [k].any fun y => y.ring == i) = [] := by
    simp [hk]
    omega
  simp only [execLadleRecordWrite, onChip, hq, hnone, List.foldl_cons, List.foldl_nil, Chip.emptyLadleQueue]

/-- Settles O34, one command after another; ring 0's record is written by `Chip.ladleWrite`. -/
theorem freewheelAndLadleAct : Obligations.FreewheelAndLadleAct := by
  unfold Obligations.FreewheelAndLadleAct
  intro s p c b hb
  subst hb
  refine ⟨fun i f t hh hi ht hf h1024 hfl hz3 hweight hz6 hz16 hsh => ⟨fun hl hk w hw => ?_, fun h => ?_⟩,
    fun o l w hh ho hport hfl hmin hmax hz3 hweight hz6 hz24 hsh hl htrunk hw => ?_,
    fun k now on rate burst full hw => ?_, fun k now => Shaper.refresh_tokens_le,
    fun hh htid hmode hz => ⟨fun hp => ?_, fun hp => ?_⟩,
    fun i t f hh hi ht hf h1024 hz hroom hown d k hk hd => ?_, fun o hh hport hz ho hroom => ?_,
    fun f hh hf hidx hen hring hpoints hports hclasses hflags hhi hlo hsample hz15 hz20 => ?_,
    fun i d hh hi hmin hmax hmode hlog hlog' howner hz hbase hpi hd => ⟨fun h => ?_, fun h0 h => ?_⟩,
    fun r hh hz hmin hmax hring hr hmode => ⟨fun hfrom => ?_, fun e l es hrecs hfrom hheld hes hroom => ?_⟩,
    fun r k hh hring hz hr hmode hk => ?_, fun k r y hq hk hr hmode hgap hlen hroom hy => ?_⟩
  · exact runCommand_ok_empty hh (bodyFwQueueSet_sets hi ht hf h1024 hfl hz3 hweight hz6 hz16 hsh hl hk hw)
  · exact runCommand_err hh (bodyFwQueueSet_refuses hi ht hf h1024 hfl hz3 hweight hz6 hz16 hsh h) (by decide)
  · exact runCommand_ok_empty hh (bodyFwPortSet_sets ho hport hfl hmin hmax hz3 hweight hz6 hz24 hsh hl htrunk hw)
  · rw [Shaper.refresh_of_write now hw]
    exact ⟨rfl, rfl, rfl, rfl, rfl⟩
  · exact runCommand_ok_empty hh (bodyPolicerSet_sets htid hmode hz hp)
  · exact runCommand_err hh (bodyPolicerSet_refuses htid hmode hz hp) (by decide)
  · have hd : d = c.fwQueueBytes i t f k := hd
    subst hd hk
    exact runCommand_ok hh (bodyFwQueueGet_answers hi ht hf h1024 hz hown) (by rwa [Chip.fwQueueBytes_length])
  · have hlen : (c.fwPortHead (fld p.params 0 1) ++ c.fwPortCredits (fld p.params 0 1)).length = 64 := by
      rw [List.length_append, Chip.fwPortHead_length, Chip.fwPortCredits_length]
    subst ho
    exact ⟨_, hlen, List.take_left' (c.fwPortHead_length _), runCommand_ok hh (bodyFwPortGet_answers hport hz) (hlen ▸ hroom)⟩
  · exact runCommand_ok_empty hh
      (bodyLadleFilterSet_sets hf hidx hen hring hpoints hports hclasses hflags hhi hlo hsample hz15 hz20)
  · exact runCommand_ok_empty hh (bodyLadleRingSet_sets hi hmin hmax hmode hlog hlog' howner hz hbase hpi hd h)
  · exact runCommand_err hh (bodyLadleRingSet_refuses hi hmin hmax hmode hlog hlog' howner hz hbase hpi hd h0 h) (by decide)
  · exact runCommand_ok_empty hh (bodyLadleRead_unwritten hz hmin hmax hring hr hmode hfrom)
  · exact runCommand_ok hh (bodyLadleRead_held hz hmin hmax hring hr hmode hrecs hfrom hheld hes) hroom
  · exact runCommand_ok_empty hh (bodyLadleConsume_advances hring hz hr hmode hk)
  · have hrow := execLadleRecordWrite_ring0 hq hk
    rw [Chip.ladleWrite_ring0 hk (hr.trans (s.chip.emptyLadleQueue_ring 0).symm) hmode hgap hlen hroom, ← hy] at hrow
    have hring := s.chip.emptyLadleQueue.setRing_ring 0 (r.took y)
    exact ⟨_, hrow, rfl, congrArg LadleRing.recs hring, congrArg LadleRing.rseq hring, (congrArg LadleRing.consumer hring :),
      rfl, rfl, rfl, rfl⟩

end Sys2Proof.Machine
end

section
/-!
PROOFS. What an ABORT close, a suspension, an eviction and the capture of cells leave of time: the clocks and the time unit, whole.
-/
namespace Sys2Proof.Machine

/-- The clocks and the time unit stay as they are. -/
@[simp] abbrev Chip.KeepsTime (c d : Chip) : Prop := d.clk = c.clk ∧ d.time = c.time

theorem Chip.KeepsTime.trans {a b c : Chip} (h : a.KeepsTime b) (h' : b.KeepsTime c) : a.KeepsTime c :=
  ⟨h'.1.trans h.1, h'.2.trans h.2⟩

/-- A loop whose every turn keeps the time keeps it. -/
@[simp] theorem foldl_keepsTime {α : Type} {g : Chip → α → Chip} (hg : ∀ (c : Chip) e, c.KeepsTime (g c e)) (l : List α) (c : Chip) :
    c.KeepsTime (l.foldl g c) :=
  ⟨foldl_keeps_view Chip.clk (fun c e => (hg c e).1) l c, foldl_keeps_view Chip.time (fun c e => (hg c e).2) l c⟩

section
variable {p : Prop} [Decidable p] (c d : Chip)

@[simp] theorem Chip.ite_clk : (if p then c else d).clk = if p then c.clk else d.clk := apply_ite Chip.clk ..
@[simp] theorem Chip.ite_time : (if p then c else d).time = if p then c.time else d.time := apply_ite Chip.time ..

end

section
variable (c : Chip)

/-! ### Cells discarded, captured and queued -/

@[simp] theorem Chip.setQueue_keepsTime (p t : Nat) (l : List QCell) : c.KeepsTime (c.setQueue p t l) := by
  simp [Chip.setQueue]
@[simp] theorem Chip.pushLadle_keepsTime (i : Nat) (b : Bytes) : c.KeepsTime (c.pushLadle i b) := by
  simp [Chip.pushLadle]
@[simp] theorem Chip.captureOne_keepsTime (i pt p : Nat) (x : Cell) (d : Bool) (cause : Nat) : c.KeepsTime (c.captureOne i pt p x d cause) := by
  simp [Chip.captureOne]
@[simp] theorem Chip.writeMsg_keepsTime (m : LadleMsg) (b : Bytes) : c.KeepsTime (c.writeMsg m b) := by
  simp [Chip.writeMsg]
@[simp] theorem Chip.gather_keepsTime (pt p : Nat) (x : Cell) : c.KeepsTime (c.gather pt p x) := by
  simp [Chip.gather]
@[simp] theorem Chip.capture_keepsTime (pt p : Nat) (x : Cell) (d : Bool) (cause : Nat) : c.KeepsTime (c.capture pt p x d cause) := by
  simp [Chip.capture]
@[simp] theorem Chip.dropCell_keepsTime (p : Nat) (x : Cell) (d : Bool) (cause : Nat) : c.KeepsTime (c.dropCell p x d cause) := by
  simp [Chip.dropCell]
@[simp] theorem Chip.dropQueue_keepsTime (p t cause : Nat) : c.KeepsTime (c.dropQueue p t cause) := by
  simp [Chip.dropQueue]
@[simp] theorem Chip.dropSealHeld_keepsTime (n t cause : Nat) : c.KeepsTime (c.dropSealHeld n t cause) := by
  unfold Chip.dropSealHeld
  dsimp only
  split <;> simp
@[simp] theorem Chip.dropTunnel_keepsTime (t cause : Nat) : c.KeepsTime (c.dropTunnel t cause) := by
  simp [Chip.dropTunnel]
@[simp] theorem Chip.clearSrc_keepsTime (t : Nat) : c.KeepsTime (c.clearSrc t) := ⟨rfl, rfl⟩
@[simp] theorem Chip.pushSrc_keepsTime (p : Nat) (x : Cell) : c.KeepsTime (c.pushSrc p x) := ⟨rfl, rfl⟩
@[simp] theorem Chip.notePeak_keepsTime : c.KeepsTime c.notePeak := ⟨rfl, rfl⟩
@[simp] theorem Chip.noteDepth_keepsTime (p t : Nat) : c.KeepsTime (c.noteDepth p t) := by
  simp [Chip.noteDepth]
@[simp] theorem Chip.fwWakeOne_keepsTime (p t : Nat) : c.KeepsTime (c.fwWakeOne p t) := by
  simp [Chip.fwWakeOne]
@[simp] theorem Chip.enqueue_keepsTime (p : Nat) (x : QCell) : c.KeepsTime (c.enqueue p x) := by
  simp [Chip.enqueue]
@[simp] theorem Chip.drainCtl_keepsTime (n : Nat) (l : List Cell) : c.KeepsTime (c.drainCtl n l) := by
  induction l generalizing c with
  | nil => exact ⟨rfl, rfl⟩
  | cons x r ih =>
    unfold Chip.drainCtl
    split
    · exact ⟨rfl, rfl⟩
    · simp [ih]
@[simp] theorem Chip.sendFw_keepsTime (n : Nat) (x : Cell) : c.KeepsTime (c.sendFw n x) := by
  simp [Chip.sendFw, apply_ite Prod.fst]

/-! ### Events of a tunnel, and its promise -/

@[simp] theorem Chip.postTun_keepsTime (t : Nat) (e : EventRec) : c.KeepsTime (c.postTun t e) := by
  unfold Chip.postTun
  dsimp only
  repeat' split
  all_goals simp
@[simp] theorem Chip.suspend_keepsTime (t cause p : Nat) : c.KeepsTime (c.suspend t cause p) := by
  simp [Chip.suspend]
@[simp] theorem Chip.promiseLook_keepsTime (t : Nat) : c.KeepsTime (c.promiseLook t) := by
  simp [Chip.promiseLook]
@[simp] theorem Chip.promiseStart_keepsTime (t : Nat) : c.KeepsTime (c.promiseStart t) := by
  unfold Chip.promiseStart
  dsimp only
  split <;> simp
@[simp] theorem Chip.policerFull_keepsTime (t : Nat) : c.KeepsTime (c.policerFull t) := by
  unfold Chip.policerFull
  split <;> simp
@[simp] theorem Chip.limpCheck_keepsTime (n : Nat) : c.KeepsTime (c.limpCheck n) := by
  simp [Chip.limpCheck]
@[simp] theorem Chip.evict_keepsTime (fuel : Nat) : c.KeepsTime (c.evict fuel) := by
  induction fuel generalizing c with
  | zero => exact ⟨rfl, rfl⟩
  | succ n ih =>
    unfold Chip.evict
    dsimp only
    repeat' split
    all_goals simp [ih]
@[simp] theorem Chip.repoolAll_keepsTime : c.KeepsTime c.repoolAll := ⟨rfl, rfl⟩
@[simp] theorem Chip.delayCheck_keepsTime (h : Nat) (m : HeadMode) (k : Bool) : c.KeepsTime (c.delayCheck h m k) := by
  unfold Chip.delayCheck Chip.outputFault
  split <;> simp
@[simp] theorem Chip.delayRecheck_keepsTime : c.KeepsTime c.delayRecheck := by
  refine foldl_keepsTime (fun c h => ?_) _ c
  split <;> simp
@[simp] theorem Chip.drainAborted_keepsTime (t cause : Nat) : c.KeepsTime (c.drainAborted t cause) := by
  simp [Chip.drainAborted]

/-! ### The endpoints F4, F5, F6 and F7 let go of a tunnel (R292, R352) -/

@[simp] theorem Chip.raiseRing_keepsTime (vi v t : Nat) (q : Bool) : c.KeepsTime (c.raiseRing vi v t q) :=
  ⟨(congrArg Chip.clk (c.raiseRing_rest vi v t q) :), (congrArg Chip.time (c.raiseRing_rest vi v t q) :)⟩
@[simp] theorem Chip.txBack_keepsTime (r : DataRing) (i : Nat) (d : Bytes) (st : Nat) : c.KeepsTime (c.txBack r i d st) := by
  simp [Chip.txBack, Chip.descBack]
@[simp] theorem Chip.txEnd_keepsTime (r : DataRing) : c.KeepsTime (c.txEnd r).1 := by
  unfold Chip.txEnd
  split <;> simp
@[simp] theorem Chip.dropReads_keepsTime (p : ReadFor → Bool) : c.KeepsTime (c.dropReads p) := ⟨rfl, rfl⟩
@[simp] theorem Chip.txAbort_keepsTime (k rs : Nat) (now : Bool) : c.KeepsTime (c.txAbort k rs now) := by
  unfold Chip.txAbort
  dsimp only
  split <;> simp [apply_ite Prod.fst]
@[simp] theorem Chip.unbindRing_keepsTime (k : Nat) : c.KeepsTime (c.unbindRing k) := by
  unfold Chip.unbindRing
  split <;> simp
@[simp] theorem Chip.unbindTunnel_keepsTime (t : Nat) : c.KeepsTime (c.unbindTunnel t) := by
  simp [Chip.unbindTunnel]
@[simp] theorem Chip.blkClose_keepsTime (t : Nat) : c.KeepsTime (c.blkClose t) := ⟨rfl, rfl⟩
@[simp] theorem Chip.rasterGone_keepsTime (t : Nat) : c.KeepsTime (c.rasterGone t) := by
  simp [Chip.rasterGone]
@[simp] theorem Chip.setFrames_keepsTime (n : Nat) (l : List EthFrame) : c.KeepsTime (c.setFrames n l) := ⟨rfl, rfl⟩
@[simp] theorem Chip.ethCount_keepsTime (n i d : Nat) : c.KeepsTime (c.ethCount n i d) := ⟨rfl, rfl⟩
@[simp] theorem Chip.pushEth_keepsTime (l : List Cell) : c.KeepsTime (c.pushEth l) := by
  simp [Chip.pushEth]
@[simp] theorem Chip.ethIngress_keepsTime (n : Nat) (f : Bytes) (bad : Option Nat) : c.KeepsTime (c.ethIngress n f bad) := by
  unfold Chip.ethIngress
  dsimp only
  repeat' split
  all_goals simp
@[simp] theorem Chip.ethReceive_keepsTime (n : Nat) (f : Bytes) (good : Bool) : c.KeepsTime (c.ethReceive n f good) := by
  simp [Chip.ethReceive]
@[simp] theorem Chip.ethSend_keepsTime (n : Nat) (f : Bytes) (good : Bool) : c.KeepsTime (c.ethSend n f good) := by
  simp [Chip.ethSend]
@[simp] theorem Chip.ethGone_keepsTime (t : Nat) : c.KeepsTime (c.ethGone t) := by
  unfold Chip.ethGone
  dsimp only
  split
  · exact ⟨rfl, rfl⟩
  · split <;> simp

/-! ### The legacy endpoint F9 lets go of a tunnel (R399) -/

@[simp] theorem Chip.trivetFree_keepsTime (n : Nat) : c.KeepsTime (c.trivetFree n) := ⟨rfl, rfl⟩
@[simp] theorem Chip.trivetsOf_keepsTime (w : Nat) : c.KeepsTime (c.trivetsOf w) := ⟨rfl, rfl⟩
@[simp] theorem Chip.trivetTake_keepsTime (n w : Nat) : c.KeepsTime (c.trivetTake n w).1 := by
  unfold Chip.trivetTake
  split <;> exact ⟨rfl, rfl⟩
@[simp] theorem Chip.atomicEnd_keepsTime (r : LegReq) : c.KeepsTime (c.atomicEnd r) := by
  simp [Chip.atomicEnd]
@[simp] theorem Chip.setVx_keepsTime (k : Nat) (w : Option Bool) : c.KeepsTime (c.setVx k w) := by
  cases w <;> simp [Chip.setVx]
@[simp] theorem Chip.vxFor_keepsTime (m : Bool) (d : Option Bool) : c.KeepsTime (c.vxFor m d) := by
  simp [Chip.vxFor]
@[simp] theorem Chip.busRelease_keepsTime : c.KeepsTime c.busRelease := by
  simp [Chip.busRelease]
@[simp] theorem Chip.busRequest_keepsTime : c.KeepsTime c.busRequest := by
  simp [Chip.busRequest]
@[simp] theorem Chip.startCycle_keepsTime (r : LegReq) (k : LegCycle) : c.KeepsTime (c.startCycle r k) := by
  simp [Chip.startCycle]
@[simp] theorem Chip.legSend_keepsTime (t x : Nat) (b : Bytes) : c.KeepsTime (c.legSend t x b) := by
  simp [Chip.legSend]
@[simp] theorem Chip.legFinish_keepsTime (r : LegReq) (st rs fail owner : Nat) : c.KeepsTime (c.legFinish r st rs fail owner) := by
  simp [Chip.legFinish]
@[simp] theorem Chip.legDead_keepsTime (r : LegReq) : c.KeepsTime (c.legDead r) := by
  simp [Chip.legDead]
@[simp] theorem Chip.legRun_keepsTime (fuel : Nat) : c.KeepsTime (c.legRun fuel) := by
  induction fuel generalizing c with
  | zero => exact ⟨rfl, rfl⟩
  | succ n ih =>
    unfold Chip.legRun
    split
    · exact ⟨rfl, rfl⟩
    split
    · simp
    split
    · simp [ih]
    split
    · simp [ih]
    split
    · simp [ih]
    split
    · simp [ih]
    extract_lets take hold d r r' d'
    have hhold : c.KeepsTime d := by
      unfold d hold
      split
      · exact ⟨rfl, rfl⟩
      · split <;> simp [take]
    split
    · exact hhold
    · split <;> simp [ih, d', hhold]
@[simp] theorem Chip.legKick_keepsTime : c.KeepsTime c.legKick := c.legRun_keepsTime _
@[simp] theorem Chip.legGone_keepsTime (t : Nat) : c.KeepsTime (c.legGone t) := by
  simp [Chip.legGone]

/-! ### The USB endpoint F8 lets go of a tunnel (R352, R374) -/

@[simp] theorem Chip.usbCount_keepsTime (f : UsbCounters → UsbCounters) : c.KeepsTime (c.usbCount f) := ⟨rfl, rfl⟩
@[simp] theorem Chip.setInq_keepsTime (k : Nat) (l : List InItem) : c.KeepsTime (c.setInq k l) := ⟨rfl, rfl⟩
@[simp] theorem Chip.pushIn_keepsTime (k : Nat) (b : Bytes) : c.KeepsTime (c.pushIn k b) := ⟨rfl, rfl⟩
@[simp] theorem Chip.setMsc_keepsTime (n : Nat) (m : Msc) : c.KeepsTime (c.setMsc n m) := ⟨rfl, rfl⟩
@[simp] theorem Chip.ncmNotify_keepsTime (n : Nat) : c.KeepsTime (c.ncmNotify n) := by
  simp [Chip.ncmNotify]
@[simp] theorem Chip.mscSense_keepsTime (n l k a : Nat) (i : Option Nat) : c.KeepsTime (c.mscSense n l k a i) := ⟨rfl, rfl⟩
@[simp] theorem Chip.mscData_keepsTime (n : Nat) (b : Bytes) (last short : Bool) : c.KeepsTime (c.mscData n b last short) := by
  unfold Chip.mscData
  dsimp only
  split <;> simp
@[simp] theorem Chip.mscCsw_keepsTime (n t r st : Nat) : c.KeepsTime (c.mscCsw n t r st) := by
  simp [Chip.mscCsw]
@[simp] theorem Chip.mscFinish_keepsTime (n : Nat) : c.KeepsTime (c.mscFinish n) := by
  unfold Chip.mscFinish
  dsimp only
  split <;> simp
@[simp] theorem Chip.lunRefresh_keepsTime (n l : Nat) : c.KeepsTime (c.lunRefresh n l) := by
  unfold Chip.lunRefresh
  dsimp only
  repeat' split
  all_goals simp
@[simp] theorem Chip.fnConnect_keepsTime (n : Nat) : c.KeepsTime (c.fnConnect n) := by
  simp [Chip.fnConnect]

@[simp] theorem Chip.endSession_keepsTime (x : Session) : c.KeepsTime (c.endSession x) := by
  unfold Chip.endSession
  dsimp only
  split <;> exact ⟨rfl, rfl⟩
@[simp] theorem Chip.usbEndSession_keepsTime : c.KeepsTime c.usbEndSession := by
  unfold Chip.usbEndSession
  split <;> simp
@[simp] theorem Chip.fnUnconfigure_keepsTime (n : Nat) : c.KeepsTime (c.fnUnconfigure n) := by
  unfold Chip.fnUnconfigure
  dsimp only
  split <;> simp
@[simp] theorem Chip.fnDisconnect_keepsTime (n : Nat) : c.KeepsTime (c.fnDisconnect n) := by
  unfold Chip.fnDisconnect
  dsimp only
  split <;> simp
@[simp] theorem Chip.fnRefresh_keepsTime (n : Nat) : c.KeepsTime (c.fnRefresh n) := by
  simp [Chip.fnRefresh]
@[simp] theorem Chip.usbRefresh_keepsTime : c.KeepsTime c.usbRefresh := by
  simp [Chip.usbRefresh]
@[simp] theorem Chip.usbTunnel_keepsTime (t : Nat) : c.KeepsTime (c.usbTunnel t) := by
  unfold Chip.usbTunnel
  dsimp only
  split
  · exact ⟨rfl, rfl⟩
  · split <;> simp

/-! ### An ABORT close (R210, R211) -/

@[simp] theorem Chip.tunnelGone_keepsTime (t : Nat) : c.KeepsTime (c.tunnelGone t) := by
  simp [Chip.tunnelGone]
@[simp] theorem Chip.quarantine_keepsTime (t cause : Nat) (b : Bool) : c.KeepsTime (c.quarantine t cause b) := by
  simp [Chip.quarantine]
@[simp] theorem Chip.abortHere_keepsTime (t cause st rs : Nat) (b : Bool) : c.KeepsTime (c.abortHere t cause st rs b) := by
  unfold Chip.abortHere
  dsimp only
  split <;> simp
@[simp] theorem Chip.abortClose_keepsTime (t cause : Nat) (h : Option Nat) (st rs : Nat) (b : Bool) :
    c.KeepsTime (c.abortClose t cause h st rs b) := by
  cases h <;> simp [Chip.abortClose]

end

end Sys2Proof.Machine
end

section
/-!
PROOFS. Chapter 10: a step of the local clock, the size it is given, the boundary it waits for and the jump (R259, R260, R262).
-/
namespace Sys2Proof.Machine

/-! ### R259's arithmetic -/

/-- Δq is a whole number of 25 ns, the nearest to `d`, and of two equally near the one further from zero. -/
theorem quantise_nearest (d : Int) :
    (∃ k : Int, quantise d = 25 * k) ∧ 2 * (d - quantise d * 1000).natAbs ≤ 25000 ∧
      (2 * (d - quantise d * 1000).natAbs = 25000 → d.natAbs < (quantise d * 1000).natAbs) := by
  -- With q the units of 25 ns in Δq, |d| lies in [25000 q - 12500, 25000 q + 12500), whatever the sign.
  unfold quantise
  dsimp only
  split
  · refine ⟨⟨-((2 * d.natAbs + 25000) / 50000 : Nat), ?_⟩, ?_, ?_⟩ <;> omega
  · refine ⟨⟨((2 * d.natAbs + 25000) / 50000 : Nat), ?_⟩, ?_, ?_⟩ <;> omega

theorem stepExt_lt (dq : Int) : stepExt dq < 125000 := by
  unfold stepExt
  omega

theorem TimeStep.newStart_eq {x : TimeStep} (h : 0 ≤ (x.atPs : Int) + x.dq * 1000) : (x.newStart : Int) = x.atPs + x.dq * 1000 :=
  Int.toNat_of_nonneg h

/-- E carries the adjusted turn to a multiple of 125 µs. -/
theorem TimeStep.newEnd_mod_turn {x : TimeStep} (hb : x.atPs % turnPs = 0) (h : 0 ≤ (x.atPs : Int) + x.dq * 1000) :
    (x.newStart + turnPs + stepExt x.dq * 1000) % turnPs = 0 := by
  have hs := TimeStep.newStart_eq h
  simp only [turnPs, stepExt] at *
  omega

/-! ### The shift that stands open when the clock steps (R196) -/

section
variable (c : Chip)

/-- A shift that takes place changes gears, tunnels and what follows them (R190 to R195), and no clock. -/
@[simp] theorem Chip.shiftApply_keepsTime : c.KeepsTime c.shiftApply := by
  unfold Chip.shiftApply
  split
  · exact ⟨rfl, rfl⟩
  extract_lets old before new x c1 c2 c3 c4 c5 c6 c7 c8 c9 c10 c11
  have hgeared : c.KeepsTime c2 := by simp [c2, c1]
  have hclosed : c2.KeepsTime c4 := by
    unfold c4 c3
    split <;> simp
  have hfollowed : c4.KeepsTime c11 := by simp [c11, c10, c9, c8, c7, c6, c5]
  have h := (hgeared.trans hclosed).trans hfollowed
  split
  · exact h
  · simpa using h

@[simp] theorem Chip.shiftAbort_keepsTime (rs n : Nat) : c.KeepsTime (c.shiftAbort rs n) := by
  unfold Chip.shiftAbort
  split
  · exact ⟨rfl, rfl⟩
  · simp

end

/-! ### The step itself (R259, R262) -/

/-- A change of the time unit's state leaves the clocks, the pending step and the count of steps. -/
theorem Chip.timeState_keepsStep (c : Chip) (x : TimeState) (rs : Nat) :
    (c.timeState x rs).clk = c.clk ∧ (c.timeState x rs).time.pending = c.time.pending ∧
      (c.timeState x rs).time.stepCount = c.time.stepCount := by
  unfold Chip.timeState
  split <;> simp

section
variable {c : Chip} {x : TimeStep}

/-- The clock at B, which it has reached, on the new scale (R259). -/
def Clock.stepped (k : Clock) (x : TimeStep) : Clock :=
  { k with localPs := x.newStart + (k.localPs - x.atPs)
           adj := some (x.newTurn, x.newStart, x.newStart + turnPs + stepExt x.dq * 1000) }

theorem Clock.stepped_localPs {k : Clock} (hb : x.atPs ≤ k.localPs) (hpos : 0 ≤ (x.atPs : Int) + x.dq * 1000) :
    ((k.stepped x).localPs : Int) = k.localPs + x.dq * 1000 := by
  have hstart := TimeStep.newStart_eq hpos
  unfold Clock.stepped
  dsimp only
  omega

/-- The jump is all that a step does to the clocks, the pending step and the count: what it posts and suspends, and the open shift that it ends
(R196), leave them. -/
theorem Chip.stepApply_time (c : Chip) (x : TimeStep) :
    (c.stepApply x).clk = c.clk.stepped x ∧ (c.stepApply x).time.pending = none ∧
      (c.stepApply x).time.stepCount = (c.time.stepCount + 1) % 256 := by
  unfold Chip.stepApply
  extract_lets old start new c1 c2 c3 c4 c5 c6
  have hjumped : c4.clk = c.clk.stepped x ∧ c4.time.pending = none ∧ c4.time.stepCount = (c.time.stepCount + 1) % 256 := by
    simp [c4, c3, c2, c1, Clock.stepped, start, new]
  obtain ⟨hclk, hpending, hcount⟩ := hjumped
  have hfree : c5.clk = c4.clk ∧ c5.time.pending = c4.time.pending ∧ c5.time.stepCount = c4.time.stepCount := by
    unfold c5
    split
    · exact c4.timeState_keepsStep ..
    · exact ⟨rfl, rfl, rfl⟩
  have hsuspended : c5.KeepsTime c6 := by simp [c6]
  rw [← hclk, ← hpending, ← hcount]
  split <;> simpa [hsuspended] using hfree

theorem execTimeStepApply_before {s : State} (hp : s.chip.time.pending = some x) (hb : s.chip.clk.localPs < x.atPs) :
    s.becomes .timeStepApply s.chip := by
  change execTimeStepApply s = _
  simp [execTimeStepApply, onChip, hp, hb]

theorem execTimeStepApply_reached {s : State} (hp : s.chip.time.pending = some x) (hb : x.atPs ≤ s.chip.clk.localPs) :
    s.becomes .timeStepApply (s.chip.stepApply x) := by
  change execTimeStepApply s = _
  simp [execTimeStepApply, onChip, hp, Nat.not_lt.2 hb]

/-! ### B is put off (R262) -/

theorem Chip.stepDefer_deferred (hp : c.time.pending = some x) (hd : c.stepDeferred = true) (hb : c.clk.localPs < x.atPs)
    (hn : x.atPs ≤ c.clk.localPs + turnPs) :
    c.stepDefer =
      { c with time := { c.time with pending := some { x with atTurn := (x.atTurn + 1) % 2 ^ 48, atPs := x.atPs + turnPs } } } := by
  simp [Chip.stepDefer, Chip.setTime, hp, hd, hb, hn]

theorem Chip.stepDefer_not_deferred (hd : c.stepDeferred = false) : c.stepDefer = c := by
  unfold Chip.stepDefer
  split <;> simp [hd]

end

/-- Settles O35: R259's arithmetic, the boundary before B, and B itself. -/
theorem stepsQuantisedAndApplied : Obligations.StepsQuantisedAndApplied := by
  unfold Obligations.StepsQuantisedAndApplied
  refine ⟨quantise_nearest, fun c x hp hb hn => ⟨fun hd => Chip.stepDefer_deferred hp hd hb hn, Chip.stepDefer_not_deferred⟩,
    fun s x hp => ⟨execTimeStepApply_before hp, fun hb hturn hpos => ?_⟩⟩
  obtain ⟨hclk, hpending, hcount⟩ := s.chip.stepApply_time x
  exact ⟨_, x.newTurn, x.newStart, _, execTimeStepApply_reached hp hb, hclk ▸ Clock.stepped_localPs hb hpos,
    (congrArg Clock.adj hclk :), TimeStep.newStart_eq hpos, TimeStep.newEnd_mod_turn hturn hpos, rfl, stepExt_lt x.dq, hpending,
    hcount, rfl, rfl, rfl⟩

end Sys2Proof.Machine
end

section
/-!
SUPPORT. Chapter 11: what an access of BAR0 that the host makes and the HOST gatekeeper allows does (R271, R484), what a doorbell does (R274,
R287), and how one bit of a register is written.
-/
namespace Sys2Proof.Machine

/-! ### One bit of a register -/

/-- Adding a bit that is clear carries into no other. -/
theorem bitOf_add_two_pow {x i j : Nat} (hi : bitOf x i = false) (hj : j ≠ i) : bitOf (x + 2 ^ i) j = bitOf x j := by
  simp only [bitOf, beq_eq_false_iff_ne, ne_eq] at hi ⊢
  obtain hlt | hgt := Nat.lt_or_gt_of_ne hj
  · obtain ⟨k, rfl⟩ := Nat.exists_eq_add_of_lt hlt
    have hsplit : 2 ^ (j + k + 1) = 2 ^ j * (2 ^ k * 2) := by rw [Nat.add_assoc, Nat.pow_add, Nat.pow_succ]
    rw [hsplit, Nat.add_mul_div_left _ _ (Nat.two_pow_pos j), Nat.add_mul_mod_self_right]
  · obtain ⟨k, rfl⟩ := Nat.exists_eq_add_of_lt hgt
    have hsplit (y : Nat) : y / 2 ^ (i + k + 1) = y / 2 ^ i / 2 / 2 ^ k := by
      rw [Nat.div_div_eq_div_mul, Nat.div_div_eq_div_mul, Nat.add_assoc, Nat.pow_add, Nat.pow_succ, Nat.mul_comm (2 ^ k) 2]
    have hcarry : (x / 2 ^ i + 1) / 2 = x / 2 ^ i / 2 := by omega
    rw [hsplit, hsplit, Nat.add_div_right _ (Nat.two_pow_pos i), hcarry]

theorem bitOf_add_two_pow_same (x i : Nat) : bitOf (x + 2 ^ i) i = !bitOf x i := by
  simp only [bitOf, Nat.add_div_right _ (Nat.two_pow_pos i)]
  obtain h | h := Nat.mod_two_eq_zero_or_one (x / 2 ^ i)
  · simp [Nat.add_mod, h]
  · simp [Nat.add_mod, h]

theorem two_pow_le_of_bitOf {x i : Nat} (h : bitOf x i = true) : 2 ^ i ≤ x := by
  refine Nat.le_of_not_lt fun hlt => ?_
  simp [bitOf, Nat.div_eq_of_lt hlt] at h

/-- Writing a bit writes that bit and no other. -/
theorem bitOf_setBit (x i j : Nat) (v : Bool) : bitOf (setBit x i v) j = if j = i then v else bitOf x j := by
  unfold setBit
  by_cases hv : bitOf x i = v
  · rw [if_pos (by simp [hv])]
    split
    next hj => rw [hj, hv]
    next => rfl
  · rw [if_neg (by simpa using hv)]
    cases v
    case true =>
      have hclear : bitOf x i = false := by simpa using hv
      rw [if_pos rfl]
      split
      next hj => rw [hj, bitOf_add_two_pow_same, hclear]; rfl
      next hj => exact bitOf_add_two_pow hclear hj
    case false =>
      have hset : bitOf x i = true := by simpa using hv
      obtain ⟨y, rfl⟩ := Nat.exists_eq_add_of_le' (two_pow_le_of_bitOf hset)
      have hclear : bitOf y i = false := by simpa [bitOf_add_two_pow_same] using hset
      rw [if_neg (by decide), Nat.add_sub_cancel]
      split
      next hj => rw [hj, hclear]
      next hj => exact (bitOf_add_two_pow hclear hj).symm

/-- Clearing the bits of a list that are set in `v` clears those and no others (R11). -/
theorem bitOf_foldl_clear (v : Nat) (l : List Nat) (m j : Nat) :
    bitOf (l.foldl (fun m b => if bitOf v b then setBit m b false else m) m) j = (bitOf m j && !(decide (j ∈ l) && bitOf v j)) := by
  induction l generalizing m with
  | nil => simp
  | cons b l ih =>
    have hone : bitOf (if bitOf v b then setBit m b false else m) j = (bitOf m j && !(decide (j = b) && bitOf v j)) := by
      by_cases hv : bitOf v b = true
      · rw [if_pos hv, bitOf_setBit]
        by_cases hj : j = b <;> simp [hj, hv]
      · rw [if_neg hv]
        by_cases hj : j = b <;> simp [hj, hv]
    rw [List.foldl_cons, ih, hone]
    by_cases hj : j = b <;> by_cases hl : j ∈ l <;> cases bitOf v j <;> simp [hj, hl]

/-! ### The gatekeeper's verdict -/

theorem barVerdict_all (s : State) (vi off len kind : Nat) :
    (barVerdict s vi off len kind).all = (barVerdict s vi off len kind).bytes.all id := rfl

theorem barVerdict_nobyte (s : State) (vi off len kind : Nat) :
    (barVerdict s vi off len kind).nobyte = !(barVerdict s vi off len kind).bytes.any id := rfl

section
variable {s : State} {vi off len kind : Nat}

theorem State.reaches.up (h : s.reaches vi off len kind) : s.chip.barReach = true := by
  obtain ⟨hup, -, -⟩ := h
  exact hup

theorem State.reaches.there (h : s.reaches vi off len kind) : (s.chip.inst vi).state ≠ .absent := by
  obtain ⟨-, hthere, -⟩ := h
  exact hthere

theorem State.reaches.verdict_bytes (h : s.reaches vi off len kind) : (barVerdict s vi off len kind).bytes = List.replicate len true := by
  obtain ⟨-, -, hcheck⟩ := h
  exact (congrArg Prod.snd hcheck :)

theorem State.reaches.verdict_all (h : s.reaches vi off len kind) : (barVerdict s vi off len kind).all = true := by
  rw [barVerdict_all, h.verdict_bytes]
  simp

theorem State.reaches.verdict_some (h : s.reaches vi off len kind) (hlen : len ≠ 0) : (barVerdict s vi off len kind).nobyte = false := by
  rw [barVerdict_nobyte, h.verdict_bytes]
  simp [hlen]

/-- Nothing is recorded of an access that is allowed. -/
theorem State.reaches.not_recorded (h : s.reaches vi off len kind) (c : Chip) :
    c.barRecord (barVerdict s vi off len kind) vi off len kind = c := by
  unfold Chip.barRecord
  rw [if_pos h.verdict_all]

/-! ### Writes to a page -/

variable {i : Instr} {f : Chip → Chip} {c : Chip}

theorem Chip.pageWrite_of_reaches (h : s.reaches vi (pageBase vi + off) 4 1) (f : Chip → Chip) :
    s.chip.pageWrite s vi off f = f s.chip := by
  obtain ⟨hup, hthere, hcheck⟩ := h
  unfold Chip.pageWrite
  rw [if_neg (by simp [hup, hthere]), hcheck]
  rfl

theorem Chip.pageWrite_of_unreached (h : c.barReach = false) (f : Chip → Chip) : c.pageWrite s vi off f = c := by
  unfold Chip.pageWrite
  rw [if_pos (by simp [h])]

theorem State.becomes_of_pageWrite (hi : exec i s = onChip s fun c => c.pageWrite s vi off f)
    (hr : s.reaches vi (pageBase vi + off) 4 1) (h : f s.chip = c) : s.becomes i c :=
  State.becomes_of_onChip hi ((Chip.pageWrite_of_reaches hr f).trans h)

theorem State.becomes_of_unreached (hi : exec i s = onChip s fun c => c.pageWrite s vi off f) (h : s.chip.barReach = false) :
    s.becomes i s.chip :=
  State.becomes_of_onChip hi (Chip.pageWrite_of_unreached h f)

/-! ### Doorbells -/

theorem Chip.doorbell_of_active (h : (c.inst vi).state = .active) (f : Chip → Chip) : c.doorbell vi f = (f c).wakeEvent 0 := by
  simp [Chip.doorbell, h]

/-- A doorbell of a VI that is not ACTIVE is latched (R287). -/
theorem Chip.doorbell_of_inactive (hactive : (c.inst vi).state ≠ .active) (hthere : (c.inst vi).state ≠ .absent) (f : Chip → Chip) :
    c.doorbell vi f = (c.setInst vi { c.inst vi with latched := sat32 (c.inst vi).latched 1 }).wakeEvent 0 := by
  simp [Chip.doorbell, hactive, hthere]

/-- A doorbell that the host rings at an ACTIVE VI acts. -/
theorem State.becomes_of_doorbell (hi : exec i s = onChip s fun c => c.pageWrite s vi off fun c => c.doorbell vi f)
    (hr : s.reaches vi (pageBase vi + off) 4 1) (ha : (s.chip.inst vi).state = .active) (h : f s.chip = c) :
    s.becomes i (c.wakeEvent 0) :=
  State.becomes_of_pageWrite hi hr ((Chip.doorbell_of_active ha f).trans (by rw [h]))

end

end Sys2Proof.Machine
end

section
/-!
PROOFS. Chapter 11: the doorbells of a queue pair (R274).
-/
namespace Sys2Proof.Machine

section
variable {c : Chip} {vi qp n : Nat} {q : QueuePair} (hq : c.host.qps.find (64 * vi + qp) = some q)
include hq

/-! ### A pair that is stopped -/

theorem Chip.sqFetch_of_stopped (hs : q.stopped = true) : c.sqFetch vi qp = c := by
  unfold Chip.sqFetch
  rw [hq]
  simp [hs]

theorem Chip.sqTail_of_stopped (hs : q.stopped = true) : c.sqTail vi qp n = c := by
  unfold Chip.sqTail
  rw [hq]
  exact if_pos hs

theorem Chip.cqHead_of_stopped (hs : q.stopped = true) : c.cqHead vi qp n = c := by
  unfold Chip.cqHead
  rw [hq]
  exact if_pos hs

/-! ### A pair that is not stopped -/

variable (hs : q.stopped = false)
include hs

/-- SQ_TAIL of a pair in service: more entries outstanding than the ring holds stop it. -/
theorem Chip.sqTail_of_running :
    c.sqTail vi qp n =
      if sub16 n q.sqHead > 2 ^ q.sqLog2 then (c.setQp (64 * vi + qp) { q with stopped := true }).overrun vi qp false
      else (c.setQp (64 * vi + qp) { q with sqTail := n }).sqFetch vi qp := by
  unfold Chip.sqTail
  rw [hq]
  exact if_neg (by simp [hs])

/-- CQ_HEAD of a pair in service: more completion entries outstanding than the ring holds stop it. -/
theorem Chip.cqHead_of_running :
    c.cqHead vi qp n =
      if sub16 q.cqTail n > 2 ^ q.cqLog2 then (c.setQp (64 * vi + qp) { q with stopped := true }).overrun vi qp false
      else (c.setQp (64 * vi + qp) { q with cqHead := n, rbHeld := q.rbHeld.drop (q.cqUsed - sub16 q.cqTail n) }).sqFetch vi qp := by
  unfold Chip.cqHead
  rw [hq]
  exact if_neg (by simp [hs])

end

/-- RING_OVERRUN is counted, and RING_ERROR names the pair. -/
theorem Chip.overrun_eq (c : Chip) (vi qp : Nat) :
    c.overrun vi qp false = ({ c with host := { c.host with ringOverrun := sat32 c.host.ringOverrun 1 } } : Chip).postVi
      vi 0x0602 0x060E (vi + 256 * qp + 65536 * 0) := rfl

/-- Settles O38: each doorbell of a pair in service by what it leaves outstanding, then the pair that is stopped. -/
theorem doorbellOverrunStops : Obligations.DoorbellOverrunStops := by
  unfold Obligations.DoorbellOverrunStops
  rintro s vi qp v q k n rfl rfl hq ha
  refine ⟨fun hr hs => ⟨fun hover => ?_, fun hfits => ?_⟩, fun hr hs => ⟨fun hover => ?_, fun hfits h hh => ?_⟩,
    fun c d hd => hd.trans (c.overrun_eq _ _),
    fun c r hr hs => ⟨Chip.sqFetch_of_stopped hr hs, Chip.sqTail_of_stopped hr hs, Chip.cqHead_of_stopped hr hs⟩⟩
  · exact State.becomes_of_doorbell rfl hr ha ((Chip.sqTail_of_running hq hs).trans (if_pos hover))
  · exact State.becomes_of_doorbell rfl hr ha ((Chip.sqTail_of_running hq hs).trans (if_neg (Nat.not_lt.2 hfits)))
  · exact State.becomes_of_doorbell rfl hr ha ((Chip.cqHead_of_running hq hs).trans (if_pos hover))
  · subst hh
    exact State.becomes_of_doorbell rfl hr ha ((Chip.cqHead_of_running hq hs).trans (if_neg (Nat.not_lt.2 hfits)))

end Sys2Proof.Machine
end

section
/-!
PROOFS. Chapter 11: the host's other writes and its reads (R271, R272, R274, R277, R287, R293, R294).
-/
namespace Sys2Proof.Machine

section
variable {s : State} {c : Chip} {vi : Nat}

/-! ### EVQ_HEAD and PRODUCER (R274) -/

theorem Chip.evqHead_within {e n : Nat} {r : EventRing} (hr : c.host.evqs.find (vqKey vi e) = some r) (hs : r.stopped = false)
    (hfits : sub16 (c.cmd.queues.get {} (vqKey vi e)).seq n ≤ 2 ^ r.log2) :
    c.evqHead vi e n = { c with host := { c.host with evqs := c.host.evqs.set (vqKey vi e) { r with head := n } } } := by
  unfold Chip.evqHead
  dsimp only
  rw [hr]
  exact (if_neg (by simp [hs])).trans (if_neg (Nat.not_lt.2 hfits))

theorem Chip.ringProducer_within {g n : Nat} {r : DataRing} (hr : c.host.rings.find (256 * vi + g) = some r) (hs : r.stopped = false)
    (hfits : sub16 n r.consumed ≤ 2 ^ r.log2) :
    c.ringProducer vi g n = (c.setDring (256 * vi + g) { r with producer := n }).ringKick (256 * vi + g) := by
  unfold Chip.ringProducer ringKey
  dsimp only
  rw [hr]
  exact (if_neg (by simp [hs])).trans (if_neg (Nat.not_lt.2 hfits))

/-! ### QCTL0 (R272) -/

section
variable {v : Nat} {i : Inst} {q : QueuePair} {r : EventRing} (hi : i = c.inst vi) (hoff : bitOf i.qctl0 31 = false)
  (hon : bitOf v 31 = true) (hq : q = qctlPair i v) (hr : r = qctlEvq i v)
include hi hoff hon hq hr

/-- ENABLE goes to 1 with everything in order: queue pair 0 and event queue 0 are made. -/
theorem Chip.qctl0_creates (ha : i.state = .active) (hqr : q.ranges = true) (hrr : r.ranges = true) (hvec : c.vectorOk vi q.vector = true)
    (hquota : c.queueEntries vi + (q.entries + 2 ^ r.log2) ≤ i.queueEntries) (hnoqp : c.host.qps.find (64 * vi) = none)
    (hnoevq : c.host.evqs.find (vqKey vi 0) = none) :
    c.qctl0 vi v = ((c.setInst vi { i with qctl0 := 2 ^ 31 + v % 2 ^ 28, qp0Up := true }).setQp (64 * vi) q).addEvq vi 0 r := by
  subst hi hq hr
  have hfit : c.entriesFit vi ((qctlPair (c.inst vi) v).entries + 2 ^ (qctlEvq (c.inst vi) v).log2) = true := decide_eq_true hquota
  unfold Chip.qctl0
  dsimp only
  rw [if_pos hon, if_neg (by simp [hoff]), if_pos (by simp [ha, hqr, hrr, hvec, hfit, hnoqp, hnoevq])]

/-- ENABLE written 1 with a size out of range or beyond the quota reads 0, and no queue is made. -/
theorem Chip.qctl0_refused (hbad : q.ranges = false ∨ i.queueEntries < c.queueEntries vi + (q.entries + 2 ^ r.log2)) :
    c.qctl0 vi v = c.setInst vi { i with qctl0 := v % 2 ^ 28 } := by
  subst hi hq hr
  have hnotboth : (qctlPair (c.inst vi) v).ranges = false ∨
      c.entriesFit vi ((qctlPair (c.inst vi) v).entries + 2 ^ (qctlEvq (c.inst vi) v).log2) = false :=
    hbad.imp_right fun h => decide_eq_false (Nat.not_le.2 h)
  unfold Chip.qctl0
  dsimp only
  rw [if_pos hon, if_neg (by simp [hoff])]
  obtain h | h := hnotboth <;> exact if_neg (by simp [h])

end

/-! ### Reads (R9, R271, R294) -/

theorem pageOf_first {off : Nat} (h : off < 0x10000) : pageOf off = some (0, off) := if_pos h

theorem Chip.barRead_page {off o : Nat} (hp : pageOf off = some (vi, o)) : c.barRead off = c.pageRead vi o := by
  unfold Chip.barRead
  rw [hp]

/-- A read that the gatekeeper allows answers the words, and latches TURN's upper half with its lower half. -/
theorem Chip.hostRegisterRead_allowed {off len o : Nat} (h : s.reaches vi off len 0) (hp : pageOf off = some (vi, o))
    (hlen : len = 4 ∨ len = 8) (hal : off % len = 0) :
    s.chip.hostRegisterRead s off len = (s.chip.barReadEffect off len).emit (.tlpData (s.chip.barReadBytes off len)) := by
  have hsize : ¬ ((len != 4 && len != 8) || off % len != 0) = true := by
    obtain rfl | rfl := hlen <;> simp [hal]
  obtain ⟨hup, -, hcheck⟩ := h
  unfold Chip.hostRegisterRead
  dsimp only
  rw [if_neg (by simp [hup]), if_neg hsize, hp]
  dsimp only
  rw [hcheck]
  exact if_neg (by simp)

/-- A read of any register but TURN's lower half changes nothing. -/
theorem Chip.hostRegisterRead_plain {off len o : Nat} (h : s.reaches vi off len 0) (hp : pageOf off = some (vi, o))
    (hlen : len = 4 ∨ len = 8) (hal : off % len = 0) (hturn : off ≠ 0x3008) :
    s.chip.hostRegisterRead s off len = s.chip.emit (.tlpData (if len = 8 then le 4 (s.chip.barRead off) ++ le 4 (s.chip.barRead (off + 4))
      else le 4 (s.chip.barRead off))) := by
  rw [Chip.hostRegisterRead_allowed h hp hlen hal]
  simp only [Chip.barReadEffect, Chip.barReadBytes, hturn, decide_false, Bool.false_and, Bool.false_eq_true, if_false]

theorem Chip.hostRegisterRead_unreached (h : c.barReach = false) (off len : Nat) : c.hostRegisterRead s off len = c :=
  if_pos (by simp [h])

theorem Chip.pageRead_absent (h : (c.inst vi).state = .absent) (o : Nat) : c.pageRead vi o = 0 := by
  unfold Chip.pageRead
  exact if_pos (by simp [h])

/-- Doorbells and reserved offsets read zero. -/
theorem Chip.pageRead_none {o : Nat} (hlo : 0x12C ≤ o) (hno : o < 0x3000 ∨ vi ≠ 0) : c.pageRead vi o = 0 := by
  have hdev : ¬ (decide (vi = 0) && decide (0x3000 ≤ o) && decide (o < 0x4000)) = true := by
    simp only [Bool.and_eq_true, decide_eq_true_eq]
    omega
  have hbase : ¬ (decide (0x100 ≤ o) && decide (o < 0x128)) = true := by
    simp only [Bool.and_eq_true, decide_eq_true_eq]
    omega
  unfold Chip.pageRead
  dsimp only
  rw [if_neg (show ¬ o = 0 by omega), if_neg (show ¬ o = 4 by omega), if_neg hbase, if_neg (show ¬ o = 0x128 by omega), if_neg hdev]
  exact ite_self 0

section
variable (h : (c.inst vi).state ≠ .absent)
include h

theorem Chip.pageRead_latched : c.pageRead vi 4 = (c.inst vi).latched := by
  simp [Chip.pageRead, h]
theorem Chip.pageRead_qctl0 : c.pageRead vi 0x128 = (c.inst vi).qctl0 := by
  simp [Chip.pageRead, h]
theorem Chip.pageRead_sq0Base : c.pageRead vi 0x100 = (c.inst vi).sq0Base % 2 ^ 32 := by
  simp [Chip.pageRead, Inst.baseReg, h]
theorem Chip.pageRead_sq0Base_upper : c.pageRead vi 0x104 = (c.inst vi).sq0Base / 2 ^ 32 % 2 ^ 32 := by
  simp [Chip.pageRead, Inst.baseReg, h]

end

/-- The registers of Table 11.18 stand in the manager's page. -/
theorem Chip.pageRead_device {o : Nat} (h : (c.inst 0).state ≠ .absent) (hlo : 0x3000 ≤ o) (hhi : o < 0x4000) :
    c.pageRead 0 o = c.deviceReg o := by
  have hdev : (decide (0 = 0) && decide (0x3000 ≤ o) && decide (o < 0x4000)) = true := by simp [hlo, hhi]
  unfold Chip.pageRead
  dsimp only
  rw [if_neg (by simpa using h), if_neg (show ¬ o = 0 by omega), if_neg (show ¬ o = 4 by omega),
    if_neg (by simp only [Bool.and_eq_true, decide_eq_true_eq]; omega), if_neg (show ¬ o = 0x128 by omega), if_pos hdev]

/-- TURN's lower half, read, latches the upper half (R294). -/
theorem turnLatchRead_lower (h : s.reaches 0 0x3008 4 0) :
    s.becomes (.turnLatchRead false)
      { s.chip with host := { s.chip.host with turnLatch := s.chip.turnReg / 2 ^ 32 },
                    out := s.chip.out ++ [.tlpData (le 4 (s.chip.turnReg % 2 ^ 32))] } := by
  refine State.becomes_of_onChip (f := fun c => c.hostRegisterRead s 0x3008 4) rfl ?_
  rw [Chip.hostRegisterRead_allowed h (pageOf_first (by decide)) (.inl rfl) (by decide)]
  have hword : s.chip.barRead 0x3008 = s.chip.turnReg % 2 ^ 32 :=
    (Chip.barRead_page (pageOf_first (by decide))).trans (Chip.pageRead_device h.there (by decide) (by decide))
  unfold Chip.barReadBytes
  rw [hword]
  rfl

theorem turnLatchRead_upper (h : s.reaches 0 0x300C 4 0) :
    s.becomes (.turnLatchRead true) { s.chip with out := s.chip.out ++ [.tlpData (le 4 s.chip.host.turnLatch)] } := by
  refine State.becomes_of_onChip (f := fun c => c.hostRegisterRead s 0x300C 4) rfl ?_
  rw [Chip.hostRegisterRead_plain h (pageOf_first (by decide)) (.inl rfl) (by decide) (by decide)]
  have hword : s.chip.barRead 0x300C = s.chip.host.turnLatch :=
    (Chip.barRead_page (pageOf_first (by decide))).trans (Chip.pageRead_device h.there (by decide) (by decide))
  rw [hword]
  rfl

/-! ### Register writes (R271, R294) -/

theorem Chip.irqClear_bits (c : Chip) (v : Nat) :
    ∃ m, c.irqClear v = { c with host := { c.host with irqCause := m } } ∧
      ∀ b, b < 3 → bitOf m b = (bitOf c.host.irqCause b && !bitOf v b) :=
  ⟨_, rfl, fun b hb => by simp [bitOf_foldl_clear, hb]⟩

section
variable {off : BitVec 23} {val : BitVec 64}

/-- A word that the gatekeeper allows is written. -/
theorem registerWrite_word (h : s.reaches 0 off.toNat 4 1) (hpage : off.toNat < 0x8000) (hal : off.toNat % 4 = 0) :
    s.becomes (.registerWrite off 4 val) (s.chip.pageWord 0 off.toNat (val.toNat % 2 ^ 32)) := by
  have hfirst : pageOf off.toNat = some (0, off.toNat) := pageOf_first (by omega)
  have hhost : inAperture off.toNat = false := by simp [inAperture, hfirst]
  have hword (c : Chip) (v : Nat) : c.barWord off.toNat v = c.pageWord 0 off.toNat v := by
    unfold Chip.barWord
    rw [hfirst]
  have hone : List.range (4 / 4) = [0] := rfl
  change execRegisterWrite off 4 val s = _
  unfold execRegisterWrite onChip
  dsimp only
  rw [if_neg (by simp [h.up, hhost]), if_neg (by simp [hal]), hfirst, h.not_recorded, h.verdict_some (by decide), h.verdict_bytes, hone]
  simp [nth, hword]

/-- A write of another size, or not aligned, is an Unsupported Request. -/
theorem registerWrite_unsupported {len : Nat} (h : s.chip.barReach = true) (hhost : inAperture off.toNat = false)
    (hbad : (len ≠ 4 ∧ len ≠ 8) ∨ off.toNat % len ≠ 0) : s.becomes (.registerWrite off len val) (s.chip.aerError 3) := by
  change execRegisterWrite off len val s = _
  unfold execRegisterWrite onChip
  dsimp only
  rw [if_neg (by simp [h, hhost]), if_pos (by simpa using hbad)]

end

/-! ### HEARTBEAT (R293, R294) -/

theorem Chip.raise_irqCause (c : Chip) (v : Nat) : (c.raise v).host.irqCause = c.host.irqCause := by
  unfold Chip.raise
  dsimp only
  split <;> rfl

theorem Chip.irqCause_sets (c : Chip) (b : Nat) : bitOf (c.irqCause b).host.irqCause b = true := by
  unfold Chip.irqCause
  dsimp only
  split
  next hset => exact hset
  next => split <;> simp [Chip.raise_irqCause, bitOf_setBit]

/-! ### Held replies and vectors (R277, R59) -/

section
variable {qp : Fin 64} {w : Fin 64} {q : QueuePair} {r : Reply} {l : List Reply}
  (hq : s.chip.host.qps.find (64 * w.val + qp.val) = some q) (hh : q.held = r :: l)
include hq hh

/-- The oldest reply held is written, with the COMPLETION that waited for it, once the completion ring has room. -/
theorem execHeldReplyWrite_eq :
    execHeldReplyWrite w qp s = .next { s with chip :=
      if 2 ^ q.cqLog2 ≤ q.cqUsed then s.chip
      else ((s.chip.setQp (64 * w.val + qp.val) { q with held := l }).writeCqe w.val qp.val r).payOwed fun h =>
        r.rflags % 2 == 1 && h.handle == r.result } := by
  unfold execHeldReplyWrite onChip
  dsimp only
  rw [hq]
  dsimp only
  rw [hh]

theorem heldReplyWrite_writes (hroom : q.cqUsed < 2 ^ q.cqLog2) :
    s.becomes (.heldReplyWrite w qp)
      (((s.chip.setQp (64 * w.val + qp.val) { q with held := l }).writeCqe w.val qp.val r).payOwed
        fun h => r.rflags % 2 == 1 && h.handle == r.result) := by
  have hrow := execHeldReplyWrite_eq hq hh
  rwa [if_neg (Nat.not_le.2 hroom)] at hrow

theorem heldReplyWrite_waits (hfull : 2 ^ q.cqLog2 ≤ q.cqUsed) : s.becomes (.heldReplyWrite w qp) s.chip := by
  have hrow := execHeldReplyWrite_eq hq hh
  rwa [if_pos hfull] at hrow

end

section
variable {w : Fin 2048} {x : Vec} (hx : x = s.chip.vec w.val)
include hx

theorem coalesceTimer_sends (hc : x.coalescing = true) (hl : (s.chip.setVec w.val { x with coalescing := false }).vecLive w.val = true) :
    s.becomes (.coalesceTimer w) ((s.chip.setVec w.val { x with coalescing := false }).raise w.val) := by
  subst hx
  change execCoalesceTimer w s = _
  unfold execCoalesceTimer onChip
  dsimp only
  rw [if_neg (by simp [hc]), if_pos hl]

theorem coalesceTimer_idle (hc : x.coalescing = false) : s.becomes (.coalesceTimer w) s.chip := by
  subst hx
  change execCoalesceTimer w s = _
  unfold execCoalesceTimer onChip
  dsimp only
  rw [if_pos (by simp [hc])]

theorem msixVectorUnmask_sends (hreach : s.chip.barReach = true) :
    s.becomes (.msixVectorUnmask w) ((s.chip.setVec w.val { x with masked := false }).sendPending w.val) := by
  subst hx
  exact State.becomes_of_onChip rfl (if_pos hreach)

end

end

/-- Settles O39, one register or row after another. -/
theorem hostRegistersAct : Obligations.HostRegistersAct := by
  unfold Obligations.HostRegistersAct
  rintro s vi v c n rfl rfl
  refine ⟨fun e r hr ha hf hs hfits => ?_, fun g r hr ha hf hs hfits => ?_, fun g hr hq => ?_,
    fun hb => ⟨fun qp => ?_, ?_, ?_, ?_⟩,
    fun i q r hreach hi hoff hon hq hr => ⟨fun ha hqr hrr hvec hquota hnoqp hnoevq => ?_, fun hbad => ?_⟩,
    fun hr => ?_, fun hr => ⟨_, rfl, turnLatchRead_lower hr⟩,
    fun off len o hr hp hlen hal hturn => Chip.hostRegisterRead_plain hr hp hlen hal hturn, fun o ho => ?_, fun i hi ha => ?_, fun ha => ?_,
    turnLatchRead_upper, fun off val => registerWrite_word, fun off val len => registerWrite_unsupported,
    fun hfw => ?_, fun hfw => ?_, ?_, fun qp q r l hf hh => ⟨heldReplyWrite_writes hf hh, heldReplyWrite_waits hf hh⟩,
    fun w x hx => ⟨coalesceTimer_sends hx, coalesceTimer_idle hx, msixVectorUnmask_sends hx⟩⟩
  · exact State.becomes_of_doorbell rfl hr ha (Chip.evqHead_within hf hs hfits)
  · exact State.becomes_of_doorbell rfl hr ha (Chip.ringProducer_within hf hs hfits)
  · exact State.becomes_of_pageWrite rfl hr (Chip.doorbell_of_inactive (by simp [hq]) (by simp [hq]) _)
  · exact State.becomes_of_unreached rfl hb
  · exact State.becomes_of_unreached rfl hb
  · exact State.becomes_of_unreached rfl hb
  · exact State.becomes_of_onChip (f := fun c => c.hostRegisterRead s 0x300C 4) rfl (Chip.hostRegisterRead_unreached hb _ _)
  · exact State.becomes_of_pageWrite rfl hreach (Chip.qctl0_creates hi hoff hon hq hr ha hqr hrr hvec hquota hnoqp hnoevq)
  · exact State.becomes_of_pageWrite rfl hreach (Chip.qctl0_refused hi hoff hon hq hr hbad)
  · obtain ⟨m, hm, hbits⟩ := s.chip.irqClear_bits v.toNat
    exact ⟨m, State.becomes_of_pageWrite rfl (off := 0x301C) hr hm, hbits⟩
  · obtain habsent | ⟨hlo, hhi⟩ | ⟨hvi, hlo⟩ := ho
    · exact Chip.pageRead_absent habsent o
    · exact Chip.pageRead_none hlo (.inl hhi)
    · exact Chip.pageRead_none hlo (.inr fun h => hvi (Fin.ext h))
  · subst hi
    exact ⟨Chip.pageRead_latched ha, Chip.pageRead_qctl0 ha, Chip.pageRead_sq0Base ha, Chip.pageRead_sq0Base_upper ha⟩
  · have hdev {o : Nat} := Chip.pageRead_device (c := s.chip) (o := o) ha
    exact ⟨hdev (by decide) (by decide), hdev (by decide) (by decide), hdev (by decide) (by decide), hdev (by decide) (by decide)⟩
  · exact State.becomes_of_onChip rfl (if_pos hfw)
  · exact State.becomes_of_onChip rfl (if_neg (by simp [hfw]))
  · exact ⟨_, rfl, s.chip.irqCause_sets 2, s.chip.irqCause_cmd 2, s.chip.irqCause_dev 2⟩

end Sys2Proof.Machine
end

section
/-!
PROOFS. Chapter 11: the commands about instances, and the ends of a quiesce (R282, R286 to R288, Tables 11.13 to 11.15).
-/
namespace Sys2Proof.Machine

section
variable {x : Ctx} {c : Chip} {vi : Nat} {i : Inst}

theorem bodyInstanceCreate_creates {j : Inst} (hvi : vi = fld x.ps 0 1) (hj : j = instOf x.ps) (hmin : 1 ≤ vi) (hmax : vi ≤ 63)
    (hflags : fld x.ps 1 1 ≤ 1) (hz2 : rsvd x.ps 2 2 = true) (hz27 : rsvd x.ps 27 1 = true) (hz30 : rsvd x.ps 30 18 = true)
    (hrange : j.ranges = true) (hfree : (c.inst vi).state = .absent) (hpasid : j.pasidValid = false ∨ c.host.pasidEnable = true)
    (hpools : c.poolsCover j = true) : bodyInstanceCreate x c = (ok, (c.setInst vi j).instState vi .active 0) := by
  subst hvi hj
  have hallowed : ¬ ((instOf x.ps).pasidValid && !c.host.pasidEnable) = true := by
    obtain h | h := hpasid <;> simp [h]
  unfold bodyInstanceCreate
  dsimp only
  rw [if_neg (by simp [hz2, hz27, hz30, hrange]; omega), if_neg (by simp [hfree]), if_neg hallowed, if_neg (by simp [hpools])]

/-- The VI of Table 11.15 that an issuer may name: one that is there, and of an L2 issuer its own. -/
theorem Chip.namedVi_allowed (hvi : vi = fld x.ps 0 1) (hmin : 1 ≤ vi) (hmax : vi ≤ 63) (hz : rsvd x.ps 1 3 = true)
    (hown : x.lvl ≠ 2 ∨ vi = x.iss) (hthere : (c.inst vi).state ≠ .absent) : c.namedVi x = .ok vi := by
  subst hvi
  have hallowed : ¬ (x.lvl = 2 && fld x.ps 0 1 != x.iss) = true := by
    obtain h | h := hown <;> simp [h]
  unfold Chip.namedVi
  dsimp only
  rw [if_neg (by simp [hz]; omega), if_neg hallowed, if_neg (by simpa using hthere)]

/-! ### Commands about the VI that is named -/

section
variable (hv : c.namedVi x = .ok vi) (hi : i = c.inst vi)
include hv

theorem bodyGetInstance_answers : bodyGetInstance x c = (ok (c.instRecord vi), c) := by
  unfold bodyGetInstance
  rw [hv]

include hi

theorem bodyInstanceDestroy_clears (hs : i.state = .quiesced) :
    bodyInstanceDestroy x c = (ok, (c.instClear vi 0x060A none false).instGone vi 0) := by
  subst hi
  unfold bodyInstanceDestroy
  rw [hv]
  exact if_neg (by simp [hs])

theorem bodyInstanceDestroy_refuses (hs : i.state ≠ .quiesced) : bodyInstanceDestroy x c = (err 0x0204 0x0603, c) := by
  subst hi
  unfold bodyInstanceDestroy
  rw [hv]
  exact if_pos (by simpa using hs)

theorem bodyQuiesceInstance_begins (hh : i.qhandle = 0) (hs : i.state = .active) :
    bodyQuiesceInstance x c =
      ({ accepted with committed := true },
        (c.setInst vi { i with qhandle := x.handle, resetting := false }).quiesceVi vi 0x0609 false) := by
  subst hi
  unfold bodyQuiesceInstance
  rw [hv]
  exact (if_neg (by simp [hh])).trans (if_neg (by simp [hs]))

theorem bodyResetInstance_resets (hh : i.qhandle = 0) (hs : i.state = .quiesced) : bodyResetInstance x c = c.resetVi x vi := by
  subst hi
  unfold bodyResetInstance
  rw [hv]
  exact (if_neg (by simp [hh])).trans (if_neg (by simp [hs]))

theorem bodyResetInstance_refuses (hh : i.qhandle = 0) (hs : i.state ≠ .quiesced) : bodyResetInstance x c = (err 0x0204 0x0603, c) := by
  subst hi
  unfold bodyResetInstance
  rw [hv]
  exact (if_neg (by simp [hh])).trans (if_pos (by simpa using hs))

theorem bodyForceReset_resets (hh : i.qhandle = 0 ∨ i.resetting = false) :
    bodyForceReset x c = ((c.qhandleAbort vi 0x060D).engineKill vi 0x060A).resetVi x vi := by
  subst hi
  unfold bodyForceReset
  rw [hv]
  exact if_neg (by obtain h | h := hh <;> simp [h])

end

/-- With no CLOSE to be answered, a reset ends at once (R288). -/
theorem Chip.resetVi_ends {d : Chip}
    (hd : d = (c.setInst vi { c.inst vi with qhandle := x.handle, resetting := true }).instClear vi 0x060A (some x.handle) false)
    (hno : (d.fab.closes.any fun k => k.handle == x.handle) = false) :
    c.resetVi x vi = ({ accepted with done := some (0, 0, 0) }, d.resetEnd vi 0 0x060A) := by
  subst hd
  exact if_neg (by simp [hno])

end

/-! ### The ends of a quiesce (R286, R287) -/

section
variable {s : State} {w : Fin 64} {j : Inst} (hj : j = s.chip.inst w.val) (hs : j.state = .quiescing)
include hj hs

/-- No engine holds work of the VI: it is QUIESCED, and the handle of the quiesce completes. -/
theorem execQuiesceDone_ends (hidle : s.chip.engines w.val = 0) {d : Chip}
    (hd : d = s.chip.instState w.val .quiesced (if j.linkLoss then 0x060C else 0x0609)) :
    execQuiesceDone w s = .next { s with chip :=
      if j.qhandle = 0 || j.resetting then d
      else (d.setInst w.val { d.inst w.val with qhandle := 0 }).complete j.qhandle 0 0 0 } := by
  subst hj hd
  unfold execQuiesceDone onChip
  dsimp only
  rw [if_neg (by simp [hs, hidle])]
  rfl

theorem quiesceDone_without_handle (hidle : s.chip.engines w.val = 0) {d : Chip}
    (hd : d = s.chip.instState w.val .quiesced (if j.linkLoss then 0x060C else 0x0609)) (hh : j.qhandle = 0) :
    s.becomes (.quiesceDone w) d := by
  have hrow := execQuiesceDone_ends hj hs hidle hd
  rwa [if_pos (by simp [hh])] at hrow

theorem quiesceDone_completes (hidle : s.chip.engines w.val = 0) {d : Chip}
    (hd : d = s.chip.instState w.val .quiesced (if j.linkLoss then 0x060C else 0x0609)) (hh : j.qhandle ≠ 0) (hr : j.resetting = false) :
    s.becomes (.quiesceDone w) ((d.setInst w.val { d.inst w.val with qhandle := 0 }).complete j.qhandle 0 0 0) := by
  have hrow := execQuiesceDone_ends hj hs hidle hd
  rwa [if_neg (by simp [hh, hr])] at hrow

omit hj hs in
theorem quiesceDone_waits (hbusy : s.chip.engines w.val ≠ 0) : s.becomes (.quiesceDone w) s.chip := by
  change execQuiesceDone w s = _
  simp [execQuiesceDone, onChip, hbusy]

/-- The VI stays QUIESCING; the handle completes with the engines that still hold its work. -/
theorem quiesceTimeout_completes (hh : j.qhandle ≠ 0) (hr : j.resetting = false) :
    s.becomes (.quiesceTimeout w)
      ((s.chip.setInst w.val { j with qhandle := 0 }).complete j.qhandle 0x0303 0 (s.chip.engines w.val)) := by
  subst hj
  change execQuiesceTimeout w s = _
  unfold execQuiesceTimeout onChip
  dsimp only
  rw [if_neg (by simp [hs, hh, hr])]
  rfl

end

end Sys2Proof.Machine
end

section
/-!
PROOFS. Chapter 11: the commands about queue pairs, event queues and data rings (R272, R273, R282, R292), and the statement about the chapter's
commands.
-/
namespace Sys2Proof.Machine

section
variable {x : Ctx} {c : Chip} {w n : Nat}

/-! ### QUEUE_CREATE -/

section
variable (hw : w = viOf x.sess) (hn : n = fld x.ps 1 1) (hmin : 1 ≤ n) (hz5 : rsvd x.ps 5 1 = true) (hz10 : rsvd x.ps 10 6 = true)
  (hz40 : rsvd x.ps 40 8 = true) (hco : fld x.ps 8 2 ≤ 1000) (hvec : c.vectorOk w (fld x.ps 6 2) = true)
include hw hn hmin hz5 hz10 hz40 hco hvec

theorem bodyQueueCreate_pair {q : QueuePair} (hkind : fld x.ps 0 1 = 0) (hmax : n < (c.inst w).maxQp)
    (hq : q = { sqLog2 := fld x.ps 2 1, cqLog2 := fld x.ps 3 1, rbLog2 := fld x.ps 4 1, sqBase := fld x.ps 16 8, cqBase := fld x.ps 24 8,
                rbBase := fld x.ps 32 8, vector := fld x.ps 6 2, coalesceUs := fld x.ps 8 2 })
    (hrange : q.ranges = true) (hfit : c.entriesFit w q.entries = true) (hfree : c.host.qps.find (64 * w + n) = none) :
    bodyQueueCreate x c = (ok, c.setQp (64 * w + n) q) := by
  subst hw hn hq
  unfold bodyQueueCreate
  dsimp only
  rw [if_neg (by simp [hkind, hz5, hz10, hz40, hvec]; omega), if_pos hkind, if_neg (by simp [hrange]; omega), if_neg (by simp [hfit]),
    if_neg (by simp [hfree])]

theorem bodyQueueCreate_eventQueue {r : EventRing} (hkind : fld x.ps 0 1 = 1) (hmax : n < (c.inst w).maxEvq)
    (hr : r = { log2 := fld x.ps 2 1, base := fld x.ps 16 8, piAddr := fld x.ps 24 8, vector := fld x.ps 6 2, coalesceUs := fld x.ps 8 2 })
    (hrange : r.ranges = true) (hfit : c.entriesFit w (2 ^ r.log2) = true) (hfree : c.host.evqs.find (vqKey w n) = none) :
    bodyQueueCreate x c = (ok, c.addEvq w n r) := by
  subst hw hn hr
  unfold bodyQueueCreate
  dsimp only
  rw [if_neg (by simp [hkind, hz5, hz10, hz40, hvec]; omega), if_neg (by omega), if_neg (by simp [hrange]; omega), if_neg (by simp [hfit]),
    if_neg (by simp [hfree])]

end

/-! ### QUEUE_DELETE (R292) -/

/-- A pair other than the bootstrap pair and the one that carries the command is deleted. -/
theorem bodyQueueDelete_pair {q : QueuePair} (hw : w = viOf x.sess) (hn : n = fld x.ps 1 1) (hkind : fld x.ps 0 1 = 0)
    (hz : rsvd x.ps 2 2 = true) (hmax : n ≤ 63) (hboot : n ≠ 0) (hq : c.host.qps.find (64 * w + n) = some q) (hother : x.sess ≠ .pcie w n) :
    bodyQueueDelete x c = (ok, c.deleteQp w n) := by
  subst hw hn
  unfold bodyQueueDelete
  dsimp only
  rw [if_neg (by simp [hkind, hz]), if_pos hkind, if_neg (by simp [hq]; omega), if_neg (by simpa using hother)]
  exact congrArg (Prod.mk ok) (if_neg hboot)

/-! ### RING_BIND (R292) -/

/-- The lowest index that no ring of the VI has. -/
theorem firstFreeRing (hn : n < 256) (hfree : c.host.rings.find (256 * w + n) = none)
    (hbelow : ∀ m, m < n → c.host.rings.find (256 * w + m) ≠ none) :
    ((List.range 256).find? fun i => (c.host.rings.find (ringKey w i)).isNone) = some n := by
  refine List.find?_range_eq_some.2 ⟨by simp [ringKey, hfree], List.mem_range.2 hn, fun m hm => ?_⟩
  simpa [ringKey, Option.isSome_iff_ne_none] using hbelow m hm

section
variable {t : Tun} {g : DataRing} (ht : t = c.tunOf (fld x.ps 0 2)) (hw : w = t.f4Vi)
  -- the fields of Table 11.13, of a receive ring
  (htid : fld x.ps 0 2 < 1024) (hdir : fld x.ps 2 1 = 1) (hz : rsvd x.ps 16 16 = true) (hlo : 4 ≤ fld x.ps 3 1) (hhi : fld x.ps 3 1 ≤ 12)
  (hco : fld x.ps 6 2 ≤ 1000) (hbase : fld x.ps 8 8 % 64 = 0) (hvec : c.vectorOk w (fld x.ps 4 2) = true)
  -- the tunnel is open, ends at F4, is the issuer's to bind, and has no receive ring
  (hs : t.state = .open) (hmine : x.lvl ≠ 2 ∨ (c.tunnelsOf x.iss).contains (fld x.ps 0 2) = true) (hend : t.index = t.hops)
  (hport : t.outPort = 4) (hone : ∀ e ∈ c.host.rings, e.2.tid = fld x.ps 0 2 → e.2.dir ≠ 1)
include ht hw htid hdir hz hlo hhi hco hbase hvec hs hmine hend hport hone

/-- A receive ring within its quota is bound at the lowest free index. -/
theorem bodyRingBind_receive (hfit : c.entriesFit w (2 ^ fld x.ps 3 1) = true) (hn : n < 256)
    (hfree : c.host.rings.find (256 * w + n) = none) (hbelow : ∀ m, m < n → c.host.rings.find (256 * w + m) ≠ none)
    (hg : g = { vi := w, tid := fld x.ps 0 2, dir := 1, log2 := fld x.ps 3 1, base := fld x.ps 8 8, vector := fld x.ps 4 2,
                coalesceUs := fld x.ps 6 2 }) :
    bodyRingBind x c = (ok [] n, c.setDring (256 * w + n) g) := by
  have hallowed : (x.lvl != 2 || (c.tunnelsOf x.iss).contains (fld x.ps 0 2)) = true := by
    obtain h | h := hmine
    · simp [h]
    · rw [h, Bool.or_true]
  have hunbound : ((c.host.rings.filter fun e => e.2.tid == fld x.ps 0 2).any fun e => e.2.dir == 1) = false := by
    simpa [List.any_eq_false] using fun k r hm htid => hone (k, r) hm htid
  have hfirst := firstFreeRing hn hfree hbelow
  subst hg hw ht
  unfold bodyRingBind
  dsimp only
  rw [hdir, if_pos rfl, hallowed, hunbound, if_neg (by simp [hz]; omega), if_neg (by decide), if_neg (by simp [hvec, hbase]; omega),
    if_neg (by simp [hs, hend, hport]), if_neg (by simp [hfit]), hfirst]
  rfl

end

end

/-- Settles O41, one command or row after another. -/
theorem instancesAct : Obligations.InstancesAct := by
  unfold Obligations.InstancesAct
  rintro s p c x b vi i rfl hvi hi
  refine ⟨fun j hh hj hmin hmax hflags hz2 hz27 hz30 hrange hfree hpasid hpools => ?_, fun hmin hmax hz hown hthere => ?_,
    fun w j hj hs => ⟨fun d hidle hd => ⟨quiesceDone_without_handle hj hs hidle hd, quiesceDone_completes hj hs hidle hd⟩,
      quiesceDone_waits, quiesceTimeout_completes hj hs⟩,
    fun w n q hh hw hn hmin hz5 hz10 hz40 hco hvec => ⟨fun hkind hmax hq hrange hfit hfree => ?_,
      fun r hkind hmax hr hrange hfit hfree => ?_⟩,
    fun w n q hh hw hn hkind hz hmax hboot hq hother => ?_,
    fun t w n g hh ht htid hdir hz hlo hhi hco hbase hw hvec hs hmine hend hport hone hfit hn hfree hbelow hg => ?_⟩
  · exact runCommand_ok_empty hh (bodyInstanceCreate_creates (x := s.ctxOf 0x0601 p c) hvi hj hmin hmax hflags hz2 hz27 hz30 hrange
      (hi ▸ hfree) hpasid hpools)
  · have hv (op : Nat) : c.namedVi (s.ctxOf op p c) = .ok vi := Chip.namedVi_allowed hvi hmin hmax hz hown (hi ▸ hthere)
    refine ⟨fun hh hs => ?_, fun hh hs => ?_, fun hh hx hq hs hrec => ?_, fun d hh hx hq hs hrec hd hno => ?_, fun hh hq hs => ?_,
      fun e d hh hx hq hrec he hd hno => ?_, fun hh hroom => ?_⟩
    · exact runCommand_ok_empty hh (bodyInstanceDestroy_clears (hv _) hi hs)
    · exact runCommand_err hh (bodyInstanceDestroy_refuses (hv _) hi hs) (by decide)
    · subst hx
      exact runCommand_accepted_committed hh (bodyQuiesceInstance_begins (hv _) hi hq hs) hrec
    · subst hx
      exact runCommand_done hh ((bodyResetInstance_resets (hv _) hi hq hs).trans (Chip.resetVi_ends (hi ▸ hd) hno)) hrec
    · exact runCommand_err hh (bodyResetInstance_refuses (hv _) hi hq hs) (by decide)
    · subst hx
      exact runCommand_done hh ((bodyForceReset_resets (hv _) hi hq).trans (Chip.resetVi_ends (he ▸ hd) hno)) hrec
    · exact runCommand_ok hh (bodyGetInstance_answers (hv _)) hroom
  · exact runCommand_ok_empty hh (bodyQueueCreate_pair (x := s.ctxOf 0x0607 p c) hw hn hmin hz5 hz10 hz40 hco hvec hkind hmax hq hrange hfit
      hfree)
  · exact runCommand_ok_empty hh (bodyQueueCreate_eventQueue (x := s.ctxOf 0x0607 p c) hw hn hmin hz5 hz10 hz40 hco hvec hkind hmax hr hrange
      hfit hfree)
  · exact runCommand_ok_empty hh (bodyQueueDelete_pair (x := s.ctxOf 0x0608 p c) hw hn hkind hz hmax hboot hq hother)
  · exact runCommand_ok hh (bodyRingBind_receive (x := s.ctxOf 0x0609 p c) ht hw htid hdir hz hlo hhi hco hbase hvec hs hmine hend hport hone
      hfit hn hfree hbelow hg) (Nat.zero_le _)

end Sys2Proof.Machine
end

section
/-!
PROOFS. Chapter 12: the display commands (R295, R296, R305, R307, R309, R311, R312, R315, Tables 12.7 to 12.9), and the statement about
them.
-/
namespace Sys2Proof.Machine

/-! ### One bit of a flag byte, and the two reasons of R296 -/

theorem bitOf_zero_iff {n : Nat} (h : n ≤ 1) : bitOf n 0 = true ↔ n = 1 := by
  simp only [bitOf, Nat.pow_zero, Nat.div_one, beq_iff_eq]
  omega

theorem bitOf_zero_eq {n : Nat} (h : n ≤ 1) : bitOf n 0 = (n == 1) := by
  rw [Bool.eq_iff_iff, bitOf_zero_iff h, beq_iff_eq]

theorem eq_or_eq_of_ite_some {α : Type} {a b r : α} {p q : Prop} [Decidable p] [Decidable q]
    (h : (if p then some a else if q then some b else none) = some r) : r = a ∨ r = b := by
  split at h
  next => exact .inl (Option.some.inj h).symm
  next =>
    split at h
    next => exact .inr (Option.some.inj h).symm
    next => cases h

/-- R296 refuses a layer for its bounds or for its format. -/
theorem LayerCfg.fault_reason {l : LayerCfg} {n r : Nat} (h : l.fault n = some r) : r = 0x0701 ∨ r = 0x0702 :=
  (eq_or_eq_of_ite_some h).symm

/-! ### What display commands check first: the role, HEAD and a layer's owner -/

section
variable {x : Ctx} {c : Chip}

theorem Chip.headArg_allowed {role : Role} (hrole : c.inRole role = true) (hhead : fld x.ps 0 1 ≤ 3) (go : Nat → Ans × Chip) :
    c.headArg x role go = go (fld x.ps 0 1) :=
  (if_neg (by simp [hrole])).trans (if_neg (Nat.not_lt.2 hhead))

/-- L1, and the layer's owner, may name a layer. -/
theorem Chip.notOwner_false {h l : Nat} (hown : x.lvl ≠ 2 ∨ (c.hub h).ownerOf l = x.iss) : c.notOwner x h l = false := by
  simp only [Chip.notOwner, Bool.and_eq_false_iff, beq_eq_false_iff_ne, bne_eq_false_iff_eq]
  exact hown

end

/-! ### HEAD_MODE_SET (R299, R309) -/

section
variable {x : Ctx} {c : Chip} {u : HubHead} {m : HeadMode} {tid : Nat} (hrole : c.inRole .hub = true) (hhead : fld x.ps 0 1 ≤ 3)
  (hu : u = c.hub (fld x.ps 0 1))
  (hm : m = modeOf (fld x.ps 1 1) (fld x.ps 2 1) (fld x.ps 4 4) ((List.range 8).map fun i => fld x.ps (8 + 2 * i) 2) (fld x.ps 24 4))
  (ht : tid = fld x.ps 28 2) (htid : tid < 1024) (hok : m.ok = true) (hz3 : rsvd x.ps 3 1 = true) (hz30 : rsvd x.ps 30 2 = true)
include hrole hhead hu hm ht htid hok hz3 hz30

theorem bodyHeadModeSet_busy {k : Nat} (hbusy : u.busy = some k) : bodyHeadModeSet x c = (err 0x0202 0 k, c) := by
  subst hu hm ht
  refine (Chip.headArg_allowed hrole hhead _).trans ((if_neg (by simp [hok, hz3, hz30]; omega)).trans ?_)
  rw [hbusy]
  rfl

/-- Without a limit of teeth or burst the mode waits for the latch. -/
theorem bodyHeadModeSet_accepts (hbusy : u.busy = none) (hsr : u.sr = false) (hopen : (c.tunOf tid).state = .open)
    (hidx : (c.tunOf tid).index = 0) (hport : (c.tunOf tid).inPort = 5) (hras : (c.tunOf tid).rasterAt 0 1 (fld x.ps 0 1) = true)
    (hteeth : c.teethNow tid = none) :
    bodyHeadModeSet x c = (accepted, c.setHub (fld x.ps 0 1) { u with pend := some (m, tid, x.handle) }) := by
  subst hu hm ht
  refine (Chip.headArg_allowed hrole hhead _).trans ((if_neg (by simp [hok, hz3, hz30]; omega)).trans ?_)
  simp only [hbusy, hsr, hopen, hidx, hport, hras, hteeth]
  rfl

end

/-! ### LAYER_SET and LAYER_FLIP (R296, R311) -/

/-- The layer that a LAYER_SET's parameters describe. -/
def layerOf (b : Bytes) : LayerCfg :=
  { enable := bitOf (fld b 2 1) 0, premult := bitOf (fld b 2 1) 1, replicate := bitOf (fld b 2 1) 2, c709 := bitOf (fld b 2 1) 3,
    full := bitOf (fld b 2 1) 4, format := fld b 3 1, srcW := fld b 4 2, srcH := fld b 6 2, dstX := fld b 8 2, dstY := fld b 10 2,
    alpha := fld b 12 1, seq := fld b 16 4, stride0 := fld b 20 4, stride1 := fld b 24 4, addr0 := fld b 32 8, addr1 := fld b 40 8 }

section
variable {x : Ctx} {c : Chip} {u : HubHead} {n : Nat} (hrole : c.inRole .hub = true) (hhead : fld x.ps 0 1 ≤ 3)
  (hu : u = c.hub (fld x.ps 0 1)) (hn : n = fld x.ps 1 1) (hmax : n ≤ 3) (hown : x.lvl ≠ 2 ∨ u.ownerOf n = x.iss)
include hrole hhead hu hn hmax hown

section
variable (hflags : fld x.ps 2 1 ≤ 31) (hz13 : rsvd x.ps 13 3 = true) (hz28 : rsvd x.ps 28 4 = true) (hz48 : rsvd x.ps 48 16 = true)
include hflags hz13 hz28 hz48

/-- LAYER_SET of a layer that its issuer may name: R296 decides. -/
theorem bodyLayerSet_allowed :
    bodyLayerSet x c = ((layerOf x.ps).fault n).elim
      (ok, c.setHub (fld x.ps 0 1) { u with shadow := u.shadow.set n (layerOf x.ps), setBy := u.setBy.set n x.iss })
      fun r => (err 0x0104 r, c) := by
  subst hu hn
  refine (Chip.headArg_allowed hrole hhead _).trans ((if_neg (by simp [hz13, hz28, hz48]; omega)).trans
    ((if_neg (by simp [Chip.notOwner_false hown])).trans ?_))
  unfold layerOf
  split
  next r hfault => rw [hfault]; rfl
  next hvalid => rw [hvalid]; rfl

theorem bodyLayerSet_replaces (hvalid : (layerOf x.ps).fault n = none) :
    bodyLayerSet x c =
      (ok, c.setHub (fld x.ps 0 1) { u with shadow := u.shadow.set n (layerOf x.ps), setBy := u.setBy.set n x.iss }) := by
  rw [bodyLayerSet_allowed hrole hhead hu hn hmax hown hflags hz13 hz28 hz48, hvalid]
  rfl

theorem bodyLayerSet_refuses {r : Nat} (hfault : (layerOf x.ps).fault n = some r) : bodyLayerSet x c = (err 0x0104 r, c) := by
  rw [bodyLayerSet_allowed hrole hhead hu hn hmax hown hflags hz13 hz28 hz48, hfault]
  rfl

end

theorem bodyLayerFlip_flips {k l : LayerCfg} (hflags : fld x.ps 2 1 ≤ 1) (hz : rsvd x.ps 3 5 = true) (hk : k = u.shadow.get {} n)
    (hl : l = { k with addr0 := fld x.ps 8 8, addr1 := if k.format = 3 then fld x.ps 16 8 else k.addr1,
                       seq := if fld x.ps 2 1 = 1 then k.seq else (k.seq + 1) % 2 ^ 32 })
    (hvalid : l.fault n = none) :
    bodyLayerFlip x c =
      (ok, c.setHub (fld x.ps 0 1)
        { u with shadow := u.shadow.set n l, flips := u.flips.set n (u.flips.get 0 n + 1),
                 flipReplaced := if u.flips.get 0 n > 0 then sat32 u.flipReplaced 1 else u.flipReplaced }) := by
  subst hu hn hk hl
  refine (Chip.headArg_allowed hrole hhead _).trans ((if_neg (by simp [hz]; omega)).trans
    ((if_neg (by simp [Chip.notOwner_false hown])).trans ?_))
  simp only [bitOf_zero_iff hflags, hvalid]

end

/-! ### HEAD_CTRL and SELF_REFRESH (R295, R312, R313, R315) -/

section
variable {x : Ctx} {c : Chip} {u : HubHead} {n : Nat} (hrole : c.inRole .hub = true) (hhead : fld x.ps 0 1 ≤ 3)
  (hu : u = c.hub (fld x.ps 0 1)) (hn : n = fld x.ps 1 1) (hmax : n ≤ 1)
include hrole hhead hu hn hmax

theorem bodyHeadCtrl_sets (hfreeze : fld x.ps 2 1 ≠ 1) (hz3 : rsvd x.ps 3 1 = true) (hz8 : rsvd x.ps 8 8 = true)
    (howner : ∀ i, i < 4 → fld x.ps (4 + i) 1 ≤ 63 ∨ fld x.ps (4 + i) 1 = 0xFF) :
    bodyHeadCtrl x c =
      (ok, c.setHub (fld x.ps 0 1)
        { u with enable := n == 1, live := u.live && n == 1, freezeN := if fld x.ps 2 1 = 0 then 4 else fld x.ps 2 1,
                 ownerNext := some [fld x.ps 4 1, fld x.ps 5 1, fld x.ps 6 1, fld x.ps 7 1] }) := by
  subst hu hn
  have howners : (((List.range 4).map fun i => fld x.ps (4 + i) 1).any fun v => decide (v > 63) && v != 0xFF) = false := by
    simp only [List.any_eq_false, List.mem_map, List.mem_range]
    rintro v ⟨i, hi, rfl⟩
    have := howner i hi
    simp
    omega
  refine (Chip.headArg_allowed hrole hhead _).trans ((if_neg (by simp only [howners, hz3, hz8]; simp; omega)).trans ?_)
  simp only [bitOf_zero_eq hmax]
  rfl

section
variable (hz : rsvd x.ps 2 2 = true) (hbusy : u.busy = none) (hmode : u.mode ≠ none)
include hz hbusy hmode

/-- Entry into self-refresh is asked for, or exit, for which fetch goes on at once. -/
theorem bodySelfRefresh_requests {d : Chip} (hsr : u.sr = (n == 0))
    (hd : d = c.setHub (fld x.ps 0 1) { u with srReq := some (n == 1, x.handle) }) :
    bodySelfRefresh x c = (accepted, if n = 0 then d.fetchGo (fld x.ps 0 1) else d) := by
  subst hu hn hd
  refine (Chip.headArg_allowed hrole hhead _).trans ((if_neg (by simp [hz]; omega)).trans ?_)
  rw [hbusy]
  exact if_neg (by simp [hmode, hsr]; omega)

/-- A head that is already as OP asks. -/
theorem bodySelfRefresh_refuses (hsr : u.sr = (n == 1)) : bodySelfRefresh x c = (err 0x0204 0x0707, c) := by
  subst hu hn
  refine (Chip.headArg_allowed hrole hhead _).trans ((if_neg (by simp [hz]; omega)).trans ?_)
  rw [hbusy]
  exact if_pos (by simp [hsr])

end

end

/-! ### DOCK_OUTPUT_SET and DP_AUX (R305, R307, R315) -/

/-- A sink that defers or is silent on every try gives no answer in time. -/
theorem auxOutcome_replicate {z : AuxAnswer} (hz : z = .defer ∨ z = .silent) (n : Nat) (r : List AuxAnswer) :
    auxOutcome n (List.replicate n z ++ r) = .inl 0x070B := by
  induction n with
  | zero => rfl
  | succ n ih => obtain rfl | rfl := hz <;> exact ih

section
variable {x : Ctx} {c : Chip} (hrole : c.inRole .dock = true) (hhead : fld x.ps 0 1 ≤ 3)
include hrole hhead

/-- The output's settings are stored; that a changed output trains its link again is the model's choice (log 73). -/
theorem bodyDockOutputSet_stores {d k : DockHead} {n : Nat} {w : Bool} (hd : d = c.dock (fld x.ps 0 1)) (hn : n = fld x.ps 1 1)
    (hkind : n ≤ 2) (hlanes : fld x.ps 2 1 = 1 ∨ fld x.ps 2 1 = 2 ∨ fld x.ps 2 1 = 4) (hrate : fld x.ps 3 1 ≤ 3) (hmin : 2 ≤ fld x.ps 4 1)
    (hmax : fld x.ps 4 1 ≤ 30) (hflags : fld x.ps 5 1 ≤ 3) (hz : rsvd x.ps 6 10 = true) (hno : c.headIn (fld x.ps 0 1) 0 = none)
    (hw : w = (n != 0 && (n != d.kind || fld x.ps 2 1 != d.maxLanes || fld x.ps 3 1 != d.maxRate ||
      bitOf (fld x.ps 5 1) 1 != bitOf d.oflags 1)))
    (hk : k = { d with trainDue := w && d.hpd && d.mode.isSome, kind := n, maxLanes := fld x.ps 2 1, maxRate := fld x.ps 3 1,
                       delay := fld x.ps 4 1, oflags := fld x.ps 5 1, delayBad := false,
                       main := if n = 0 then .off else if d.kind = 0 && d.hpd then .idle else d.main,
                       link := if n = 0 then none else d.link }) :
    bodyDockOutputSet x c = (ok, c.setDock (fld x.ps 0 1) k) := by
  subst hd hn hw hk
  have hdelay : (if fld x.ps 4 1 = 0 then 16 else fld x.ps 4 1) = fld x.ps 4 1 := if_neg (by omega)
  refine (Chip.headArg_allowed hrole hhead _).trans ?_
  simp only [hdelay, hno]
  exact (if_neg (by simp [hz]; omega)).trans (if_neg (by cases (c.dock (fld x.ps 0 1)).mode <;> simp))

section
variable {a : List AuxAnswer} {e : Chip} (hhpd : (c.dock (fld x.ps 0 1)).hpd = true) (hmin : 1 ≤ fld x.ps 2 1)
  (hmax : fld x.ps 2 1 ≤ 16) (hz : rsvd x.ps 3 1 = true) (hop : fld x.ps 1 1 = 0) (haddr : fld x.ps 4 4 < 2 ^ 20)
  (he : e = c.emit (.aux (fld x.ps 0 1) 0 (fld x.ps 4 4) []))
include hhpd hmin hmax hz hop haddr he

/-- A native read is sent, and what the sink's answers come to decides. -/
theorem bodyDpAux_reads :
    bodyDpAux a x c = (auxOutcome 8 a).elim (fun r => (err (if r = 0x070A then 0x0204 else 0x0303) r, e))
      fun y => (ok (y.take (fld x.ps 2 1)), e) := by
  subst he
  refine (Chip.headArg_allowed hrole hhead _).trans ((if_neg (by simp [hop, hz]; omega)).trans ((if_neg (by simp [hhpd])).trans ?_))
  simp only [hop]
  cases auxOutcome 8 a <;> rfl

theorem bodyDpAux_answers {y : Bytes} (ha : auxOutcome 8 a = .inr y) : bodyDpAux a x c = (ok (y.take (fld x.ps 2 1)), e) := by
  rw [bodyDpAux_reads hrole hhead hhpd hmin hmax hz hop haddr he, ha]
  rfl

theorem bodyDpAux_fails {r : Nat} (ha : auxOutcome 8 a = .inl r) :
    bodyDpAux a x c = (err (if r = 0x070A then 0x0204 else 0x0303) r, e) := by
  rw [bodyDpAux_reads hrole hhead hhpd hmin hmax hz hop haddr he, ha]
  rfl

end

end

/-! ### GET_HEAD (Table 12.9) -/

/-- The record of a hub head. -/
def HubHead.record (u : HubHead) (h : Nat) : Bytes :=
  le 1 h ++ le 1 (if u.sr then 3 else if u.pend.isSome || u.opened.isSome then 2 else if u.mode.isNone || !u.enable then 0 else 1) ++
  zeros 2 ++ le 2 u.gen ++ le 2 (if u.mode.isNone then 0 else u.tid) ++ le 4 u.frameNo ++
  le 4 (match u.crcs with | (_, k) :: _ => k | [] => 0) ++
  (le 4 (u.under.get 0 0) ++ le 4 (u.under.get 0 1) ++ le 4 (u.under.get 0 2) ++ le 4 (u.under.get 0 3)) ++
  le 4 u.skipped ++ zeros 4 ++ le 4 u.lossy ++ le 4 u.mismatch ++ le 4 u.freeze ++ le 4 u.flipReplaced ++ le 4 u.discards ++ zeros 4

theorem HubHead.record_length (u : HubHead) (h : Nat) : (u.record h).length = 64 := by
  simp only [HubHead.record, List.length_append, le_length, zeros_length]

theorem bodyGetHead_hub {x : Ctx} {c : Chip} (hhead : fld x.ps 0 1 ≤ 3) (hz : rsvd x.ps 1 3 = true) (hrole : c.inRole .dock = false) :
    bodyGetHead x c = (ok ((c.hub (fld x.ps 0 1)).record (fld x.ps 0 1)), c) := by
  have hunder (f : Nat → Bytes) : ((List.range 4).map f).flatten = f 0 ++ f 1 ++ f 2 ++ f 3 := by simp [List.range_succ]
  refine (if_neg (by simp [hz]; omega)).trans ((if_neg (by simp [hrole])).trans ?_)
  simp only [hunder]
  rfl

/-- Settles O42, one command after another. -/
theorem displayCommandsAct : Obligations.DisplayCommandsAct := by
  unfold Obligations.DisplayCommandsAct
  rintro s p c x b h n u rfl rfl hn hu hhead
  refine ⟨fun m tid hh hx hrole hm ht htid hok hz3 hz30 => ⟨fun k hbusy => ?_, fun hbusy hsr hopen hidx hport hras hteeth hrec => ?_⟩,
    fun l hh hrole hmax hflags hz13 hz28 hz48 hown hl => ⟨fun hvalid => ?_, fun r hfault => ⟨LayerCfg.fault_reason hfault, ?_⟩⟩,
    fun l k hh hrole hmax hflags hz hown hk hl hvalid => ?_, fun hh hrole hmax hfreeze hz3 hz8 howner => ?_,
    fun hh hx hrole hz hbusy hmode hrec => ⟨fun hop hsr => ?_, fun hop hsr => ?_, fun hmax hsr => ?_⟩,
    fun d k w hh hrole hd hkind hlanes hrate hmin hmax hflags hz hno hw hk => ?_,
    fun a k e hh hrole hhpd hk hmin hmax hz hop haddr he hroom => ?_, fun d hh hz hrole hroom hd => ?_⟩
  · exact runCommand_err hh (bodyHeadModeSet_busy (x := s.ctxOf 0x0701 p c) hrole hhead hu hm ht htid hok hz3 hz30 hbusy) (by decide)
  · subst hx
    exact runCommand_accepted hh
      (bodyHeadModeSet_accepts hrole hhead hu hm ht htid hok hz3 hz30 hbusy hsr hopen hidx hport hras hteeth) hrec
  · subst hl
    exact runCommand_ok_empty hh (bodyLayerSet_replaces (x := s.ctxOf 0x0702 p c) hrole hhead hu hn hmax hown hflags hz13 hz28 hz48 hvalid)
  · subst hl
    exact runCommand_err hh (bodyLayerSet_refuses (x := s.ctxOf 0x0702 p c) hrole hhead hu hn hmax hown hflags hz13 hz28 hz48 hfault)
      (by decide)
  · exact runCommand_ok_empty hh (bodyLayerFlip_flips (x := s.ctxOf 0x0703 p c) hrole hhead hu hn hmax hown hflags hz hk hl hvalid)
  · exact runCommand_ok_empty hh (bodyHeadCtrl_sets (x := s.ctxOf 0x0704 p c) hrole hhead hu hn hmax hfreeze hz3 hz8 howner)
  · subst hx hop
    exact runCommand_accepted hh (bodySelfRefresh_requests (n := 1) hrole hhead hu hn (by decide) hz hbusy hmode hsr rfl) hrec
  · subst hx hop
    exact runCommand_accepted hh (bodySelfRefresh_requests (n := 0) hrole hhead hu hn (by decide) hz hbusy hmode hsr rfl) hrec
  · exact runCommand_err hh (bodySelfRefresh_refuses (x := s.ctxOf 0x0705 p c) hrole hhead hu hn hmax hz hbusy hmode hsr) (by decide)
  · exact runCommand_ok_empty hh
      (bodyDockOutputSet_stores (x := s.ctxOf 0x0706 p c) hrole hhead hd hn hkind hlanes hrate hmin hmax hflags hz hno hw hk)
  · subst hk
    have hlen (y : Bytes) : c.roomFor p (y.take (fld p.params 2 1)).length :=
      (List.length_take_le ..).trans (hmax.trans hroom)
    have hanswer (y : Bytes) (ha : auxOutcome 8 a = .inr y) := runCommand_ok hh
      (bodyDpAux_answers (x := s.ctxOf 0x0707 p c) hrole hhead hhpd hmin hmax hz (hn ▸ hop) haddr he ha) (hlen y)
    have hfail (r : Nat) (ha : auxOutcome 8 a = .inl r) := runCommand_err hh
      (bodyDpAux_fails (x := s.ctxOf 0x0707 p c) hrole hhead hhpd hmin hmax hz (hn ▸ hop) haddr he ha) (by split <;> decide)
    exact ⟨fun y r ha => hanswer y (ha ▸ rfl), fun r ha => hfail 0x070A (ha ▸ rfl), fun ha => hfail 0x070B (ha ▸ rfl),
      fun y ha => hanswer y (ha ▸ rfl), fun z r ha hsink => hfail 0x070B (ha ▸ auxOutcome_replicate hsink 8 r)⟩
  · subst hd hu
    exact runCommand_ok hh (bodyGetHead_hub (x := s.ctxOf 0x0708 p c) hhead hz hrole) ((HubHead.record_length ..).trans_le hroom)

end Sys2Proof.Machine
end

section
/-!
SUPPORT. The gatekeepers' rule sets: what a write of one set or of one region leaves, and what the check of GK_SYNC finds (R478, R482).
-/
namespace Sys2Proof.Machine

/-! ### One rule set -/

theorem RuleSet.Valid.setRegion {x : RuleSet} {k i : Nat} {r : Region} (h : x.Valid k) (hi : i < 128) (hr : r.valid k = true) :
    ({ x with regions := x.regions.set i r } : RuleSet).Valid k := by
  obtain ⟨hrising, hentries⟩ := h
  refine ⟨Tab.rising_set i r hrising, fun e he => ?_⟩
  obtain rfl | he := Tab.mem_set he
  · exact ⟨hi, hr⟩
  · exact hentries e he

theorem RuleSet.Valid.of_regions {x y : RuleSet} {k : Nat} (h : y.regions = x.regions) (hx : x.Valid k) : y.Valid k := by
  unfold RuleSet.Valid at hx ⊢
  rwa [h]

theorem RuleSet.valid_empty (k : Nat) : ({} : RuleSet).Valid k := ⟨rfl, fun _ he => absurd he List.not_mem_nil⟩

/-- Writing valid entries one after another keeps a rule set valid. -/
theorem RuleSet.Valid.setRegions {k : Nat} (l : Tab Region) (hl : ∀ e ∈ l, e.1 < 128 ∧ e.2.valid k = true) {x : RuleSet} (h : x.Valid k) :
    ({ x with regions := l.foldl (fun t e => t.set e.1 e.2) x.regions } : RuleSet).Valid k := by
  induction l generalizing x with
  | nil => exact h
  | cons e l ih =>
    obtain ⟨hi, hr⟩ := hl e List.mem_cons_self
    exact ih (fun y hy => hl y (List.mem_cons_of_mem _ hy)) (h.setRegion hi hr)

/-- The check of GK_SYNC finds every overlap (R482). -/
theorem pairwise_of_firstOverlap_none {l : Tab Region} (h : firstOverlap l = none) :
    l.Pairwise fun a b => a.2.overlaps b.2 = false := by
  induction l with
  | nil => exact .nil
  | cons e l ih =>
    unfold firstOverlap at h
    split at h
    next => cases h
    next hnone => exact .cons (fun b hb => by simpa using List.find?_eq_none.1 hnone b hb) (ih h)

theorem RuleSet.apart_of_firstOverlap_none {x : RuleSet} (h : firstOverlap x.regions = none) : x.Apart :=
  pairwise_of_firstOverlap_none h

/-! ### Tables of rule sets -/

/-- A property of every gatekeeper's rule set is kept when one of them is replaced by a set that has it. -/
theorem ruleSets_set {P : Nat → RuleSet → Prop} {t : Tab RuleSet} (h : ∀ k, k < 5 → P k (t.get {} k)) {k : Nat} {x : RuleSet} (hx : P k x) :
    ∀ j, j < 5 → P j ((t.set k x).get {} j) := by
  intro j hj
  by_cases hjk : j = k
  · rw [hjk, Tab.get_set]
    exact hx
  · rw [Tab.get_set_ne _ _ _ hjk]
    exact h j hj

theorem regionOf_set_same (t : Tab RuleSet) (k i : Nat) (x : RuleSet) : regionOf (t.set k x) k i = x.regions.get {} i := by
  unfold regionOf
  rw [Tab.get_set]

theorem regionOf_set_ne (t : Tab RuleSet) {j k : Nat} (h : j ≠ k) (i : Nat) (x : RuleSet) : regionOf (t.set k x) j i = regionOf t j i := by
  unfold regionOf
  rw [Tab.get_set_ne _ _ _ h]

/-- A set replaced by one with the same regions changes no region. -/
theorem regionOf_set_of_regions {t : Tab RuleSet} {k : Nat} {x : RuleSet} (h : x.regions = (t.get {} k).regions) (j i : Nat) :
    regionOf (t.set k x) j i = regionOf t j i := by
  by_cases hj : j = k
  · rw [hj, regionOf_set_same, h]
    rfl
  · exact regionOf_set_ne t hj i x

/-- A set replaced by one in which one region is written changes that region alone. -/
theorem regionOf_setRegion_ne {t : Tab RuleSet} {k i : Nat} {r : Region} {x : RuleSet} (hx : x = t.get {} k) {j m : Nat}
    (h : ¬(j = k ∧ m = i)) : regionOf (t.set k { x with regions := x.regions.set i r }) j m = regionOf t j m := by
  by_cases hj : j = k
  · have hm : m ≠ i := fun hm => h ⟨hj, hm⟩
    rw [hj, regionOf_set_same, Tab.get_set_ne _ _ _ hm, hx]
    rfl
  · exact regionOf_set_ne t hj m _

/-! ### The guard's sets -/

/-- Safety of the sets, table by table. -/
theorem Guard.safe_iff (g : Guard) :
    g.Safe ↔ (∀ k, k < 5 → (g.active.get {} k).Valid k ∧ (g.active.get {} k).Apart) ∧ (∀ k, k < 5 → (g.shadow.get {} k).Valid k) ∧
      ∀ k, k < 5 → (g.stored.get {} k).Valid k := by
  refine ⟨fun h => ⟨fun k hk => ?_, fun k hk => ?_, fun k hk => ?_⟩, fun ⟨ha, hs, hp⟩ k hk => ?_⟩
  · obtain ⟨hv, hap, -, -⟩ := h k hk
    exact ⟨hv, hap⟩
  · obtain ⟨-, -, hv, -⟩ := h k hk
    exact hv
  · obtain ⟨-, -, -, hv⟩ := h k hk
    exact hv
  · obtain ⟨hv, hap⟩ := ha k hk
    exact ⟨hv, hap, hs k hk, hp k hk⟩

theorem Guard.Safe.setShadow {g : Guard} (h : g.Safe) {k : Nat} {x : RuleSet} (hx : x.Valid k) :
    ({ g with shadow := g.shadow.set k x } : Guard).Safe := by
  obtain ⟨hactive, hshadow, hstored⟩ := g.safe_iff.1 h
  exact (Guard.safe_iff _).2 ⟨hactive, ruleSets_set (P := fun k x => x.Valid k) hshadow hx, hstored⟩

/-- The switch of GK_SYNC to a shadow set without overlaps; `p` is PERSIST. -/
def Guard.switch (g : Guard) (k : Nat) (p : Bool) : Guard :=
  { g with active := g.active.set k (g.shadow.get {} k), stored := if p then g.stored.set k (g.shadow.get {} k) else g.stored }

theorem Guard.Safe.switch {g : Guard} (h : g.Safe) {k : Nat} (hk : k < 5) (p : Bool) (hno : firstOverlap (g.shadow.get {} k).regions = none) :
    (g.switch k p).Safe := by
  obtain ⟨hactive, hshadow, hstored⟩ := g.safe_iff.1 h
  refine (Guard.safe_iff _).2 ⟨?_, hshadow, ?_⟩
  · exact ruleSets_set (P := fun k x => x.Valid k ∧ x.Apart) hactive ⟨hshadow k hk, RuleSet.apart_of_firstOverlap_none hno⟩
  · cases p with
    | false => exact hstored
    | true => exact ruleSets_set (P := fun k x => x.Valid k) hstored (hshadow k hk)

/-- A shadow set whose regions change at most where the active set has no LOCKED region keeps the locks. -/
theorem Guard.LocksHold.setShadow {g : Guard} (h : g.LocksHold) {t : Tab RuleSet}
    (ht : ∀ k i, g.locked k i → regionOf t k i = regionOf g.shadow k i) : ({ g with shadow := t } : Guard).LocksHold :=
  fun k i hlocked => (ht k i hlocked).trans (h k i hlocked)

/-- After the switch each region of the gatekeeper is the shadow's, which a LOCKED one equals. -/
theorem Guard.regionOf_switch (g : Guard) (k : Nat) (p : Bool) (j i : Nat) :
    regionOf (g.switch k p).active j i = if j = k then regionOf g.shadow j i else regionOf g.active j i := by
  split
  next hj => subst hj; exact regionOf_set_same ..
  next hj => exact regionOf_set_ne _ hj ..

theorem Guard.LocksHold.switch_region {g : Guard} (h : g.LocksHold) (k : Nat) (p : Bool) {j i : Nat} (hlocked : g.locked j i) :
    regionOf (g.switch k p).active j i = regionOf g.active j i := by
  rw [Guard.regionOf_switch]
  split
  · exact h j i hlocked
  · rfl

theorem Guard.LocksHold.switch {g : Guard} (h : g.LocksHold) (k : Nat) (p : Bool) : (g.switch k p).LocksHold := by
  intro j i hlocked
  unfold Guard.locked at hlocked
  rw [Guard.regionOf_switch] at hlocked ⊢
  by_cases hj : j = k
  · rw [if_pos hj]
    rfl
  · rw [if_neg hj] at hlocked ⊢
    exact h j i hlocked

/-! ### The sets that a reset installs (R480, R483, Table 20.5) -/

/-- Every entry of the reset's sets is valid at its gatekeeper, and no two of them overlap. -/
theorem Guard.initial_safe : ∀ k, k < 5 → (Guard.initial.get {} k).Valid k ∧ (Guard.initial.get {} k).Apart := by
  have hvalid : ∀ k, k < 5 → Tab.rising (Guard.initial.get {} k).regions = true ∧
      ((Guard.initial.get {} k).regions.all fun e => decide (e.1 < 128) && e.2.valid k) = true ∧
      firstOverlap (Guard.initial.get {} k).regions = none := by decide
  intro k hk
  obtain ⟨hrising, hall, hno⟩ := hvalid k hk
  exact ⟨⟨hrising, by simpa using hall⟩, RuleSet.apart_of_firstOverlap_none hno⟩

/-- The firmware's own LOCKED regions are valid at gatekeeper CTRL. -/
theorem Guard.initial_entries : ∀ e ∈ (Guard.initial.get {} 4).regions, e.1 < 128 ∧ e.2.valid 4 = true := by decide

/-- A boot installs valid sets without overlaps when the stored ones are valid: a stored set that overlaps is left out. -/
theorem Guard.boot_active {g : Guard} (h : ∀ k, k < 5 → (g.stored.get {} k).Valid k) :
    ∀ k, k < 5 → (g.boot.1.active.get {} k).Valid k ∧ (g.boot.1.active.get {} k).Apart := by
  unfold Guard.boot
  dsimp only
  refine List.foldlRecOn (motive := fun (acc : Tab RuleSet × List (Nat × Nat × Nat)) => ∀ k, k < 5 →
     (acc.1.get {} k).Valid k ∧ (acc.1.get {} k).Apart) (b := (Guard.initial, [])) _ _
    Guard.initial_safe ?_
  intro acc hacc k hk
  have hk5 : k < 5 := List.mem_range.1 hk
  split
  next => exact hacc
  next x hx =>
    have hxv : x.Valid k := Tab.get_of_find {} hx ▸ h k hk5
    split
    next => exact hacc
    next hno =>
      refine ruleSets_set (P := fun k x => x.Valid k ∧ x.Apart) hacc ⟨?_, RuleSet.apart_of_firstOverlap_none hno⟩
      split
      next h4 => subst h4; exact hxv.setRegions _ Guard.initial_entries
      next => exact hxv

/-- A boot installs each set as active and as shadow. -/
theorem Guard.boot_shadow (g : Guard) : g.boot.1.shadow = g.boot.1.active := rfl

end Sys2Proof.Machine
end

section
/-!
PROOFS. Chapter 20: what each command of the table can do to the gatekeepers' rule sets, and the two invariants of the rule sets.
-/
namespace Sys2Proof.Machine

/-! ### Ways to the rule sets -/

/-- What command `i` can have done to the rule sets between `s` and `t`. -/
inductive GuardStep (s t : State) : Instr → Prop
  | same {i : Instr} (h : t.guard = s.guard) : GuardStep s t i
  | boot {i : Instr} {g : Guard} (hi : restarts i = true) (hg : g.stored = s.guard.stored ∨ g.stored = [])
      (h : t.guard = { g.boot.1 with stored := s.guard.stored }) : GuardStep s t i
  | region {p : Packet} {k n : Nat} {r : Region} {x : RuleSet} (hk : k < 5) (hn : n < 128)
      (hx : x = s.guard.shadow.get {} k) (hopen : ¬s.guard.locked k n) (hr : r.valid k = true)
      (h : t.guard = { s.guard with shadow := s.guard.shadow.set k { x with regions := x.regions.set n r } }) : GuardStep s t (.gkSet p)
  | mode {p : Packet} {k : Nat} {x : RuleSet} (hk : k < 5) (hx : x.regions = (s.guard.shadow.get {} k).regions)
      (h : t.guard = { s.guard with shadow := s.guard.shadow.set k x }) : GuardStep s t (.gkMode p)
  | switch {k : Fin 5} {p : Bool} (hno : firstOverlap (s.guard.shadow.get {} k).regions = none) (h : t.guard = s.guard.switch k p) :
      GuardStep s t (.gkSyncDone k)

/-- The outcome of `i` is a next state, whose rule sets are as `GuardStep` says. -/
def Guard.StepTo (s : State) (i : Instr) (o : Host.Outcome State Fault Refusal) : Prop := ∃ t, o = .next t ∧ GuardStep s t i

section
variable {s : State} {i : Instr}

theorem Guard.stepTo_same {t : State} (h : t.guard = s.guard) : Guard.StepTo s i (.next t) := ⟨t, rfl, .same h⟩

theorem State.fusesInterrupted_guard (s : State) : s.fusesInterrupted.guard = s.guard := by
  unfold State.fusesInterrupted
  split <;> rfl

theorem Guard.stepTo_powerOn (hi : restarts i = true) {r : State} (hr : r.guard = s.guard) (st : Straps) :
    Guard.StepTo s i (.next (powerOn st r)) := by
  refine ⟨_, rfl, .boot (g := if flashRead r.fuses st && r.chip.flash.configOk then r.guard else { r.guard with stored := [] }) hi ?_
    (by rw [← hr]; rfl)⟩
  split
  · exact .inl (congrArg Guard.stored hr)
  · exact .inr rfl

theorem Guard.stepTo_warm (hi : restarts i = true) {r : State} (hr : r.guard = s.guard) (st : Straps) (reason : Nat) :
    Guard.StepTo s i (.next (warmResetWith st reason r)) := by
  refine ⟨_, rfl, .boot (g := if flashRead r.fuses st && r.chip.flash.configOk then r.guard else { r.guard with stored := [] }) hi ?_
    (by rw [← hr]; rfl)⟩
  split
  · exact .inl (congrArg Guard.stored hr)
  · exact .inr rfl

end

theorem execPowerOnReset_guard (n : Nat) (st : Straps) (s : State) : Guard.StepTo s (.powerOnReset n st) (execPowerOnReset n st s) := by
  unfold execPowerOnReset
  split
  · exact Guard.stepTo_same rfl
  split
  · exact Guard.stepTo_same rfl
  · exact Guard.stepTo_powerOn rfl s.fusesInterrupted_guard st

theorem execWarmReset_guard (st : Straps) (s : State) : Guard.StepTo s (.warmReset st) (execWarmReset st s) := by
  unfold execWarmReset
  split
  · exact Guard.stepTo_warm rfl s.fusesInterrupted_guard st _
  · exact Guard.stepTo_same rfl

theorem execCommandReset_guard (s : State) : Guard.StepTo s .commandReset (execCommandReset s) := by
  unfold execCommandReset
  split
  · exact Guard.stepTo_same s.fusesInterrupted_guard
  · exact Guard.stepTo_same rfl

theorem execCcWatchdogExpiry_guard (st : Straps) (s : State) : Guard.StepTo s (.ccWatchdogExpiry st) (execCcWatchdogExpiry st s) := by
  have hg := State.fusesInterrupted_guard { s with chip := s.chip.bump 4 1 }
  unfold execCcWatchdogExpiry
  dsimp only
  split
  · split
    · exact Guard.stepTo_warm (s := s) rfl hg st _
    · exact Guard.stepTo_same hg
  · exact Guard.stepTo_same hg

theorem execCommitRollbackDone_guard (ok : Bool) (s : State) : Guard.StepTo s (.commitRollbackDone ok) (execCommitRollbackDone ok s) := by
  unfold execCommitRollbackDone
  split
  · exact Guard.stepTo_same rfl
  · dsimp only
    split <;> exact Guard.stepTo_same rfl

theorem execKeyLifecycleDone_guard (s : State) : Guard.StepTo s .keyLifecycleDone (execKeyLifecycleDone s) := by
  unfold execKeyLifecycleDone
  split
  · exact Guard.stepTo_same rfl
  · dsimp only
    split
    · exact Guard.stepTo_same rfl
    split <;> exact Guard.stepTo_same rfl

/-- GK_SET leaves the rule sets, or writes a valid region that is not LOCKED in the active set into the shadow (R478, R480, R481). -/
theorem bodyGkSet_guard (x : Ctx) (c : Chip) (g : Guard) :
    (bodyGkSet x c g).2.2 = g ∨ ∃ k n r, k < 5 ∧ n < 128 ∧ ¬g.locked k n ∧ r.valid k = true ∧ (bodyGkSet x c g).2.2 =
      { g with shadow := g.shadow.set k { g.shadow.get {} k with regions := (g.shadow.get {} k).regions.set n r } } := by
  unfold bodyGkSet
  dsimp only
  split
  next => exact .inl rfl
  next hargs =>
    split
    next => exact .inl rfl
    next =>
      split
      next => exact .inl rfl
      next =>
        split
        next => exact .inl rfl
        next hopen =>
          split
          next => exact .inl rfl
          next hvalid =>
            simp only [Bool.or_eq_true, decide_eq_true_eq, not_or] at hargs
            exact .inr ⟨_, _, _, by omega, by omega, hopen, by simpa using hvalid, rfl⟩

/-- GK_MODE leaves the rule sets, or replaces a shadow set by one with the same regions (R481). -/
theorem bodyGkMode_guard (x : Ctx) (c : Chip) (g : Guard) :
    (bodyGkMode x c g).2.2 = g ∨ ∃ k y, k < 5 ∧ y.regions = (g.shadow.get {} k).regions ∧
      (bodyGkMode x c g).2.2 = { g with shadow := g.shadow.set k y } := by
  unfold bodyGkMode
  dsimp only
  split
  next => exact .inl rfl
  next hargs =>
    split
    next => exact .inl rfl
    next =>
      split
      next => exact .inl rfl
      next =>
        simp only [Bool.or_eq_true, decide_eq_true_eq, not_or] at hargs
        exact .inr ⟨_, { g.shadow.get {} (fld x.ps 0 1) with straddle := fld x.ps 1 1, dflt := fld x.ps 4 4 }, by omega, rfl, rfl⟩

/-- GK_SYNC_DONE leaves the rule sets, or switches to a shadow set without overlaps (R482, R483). -/
theorem gkSyncDone_guard (k : Nat) (c : Chip) (g : Guard) :
    (gkSyncDone k c g).2 = g ∨ firstOverlap (g.shadow.get {} k).regions = none ∧ ∃ p, (gkSyncDone k c g).2 = g.switch k p := by
  unfold gkSyncDone
  dsimp only
  split
  next => exact .inl rfl
  next h p _ =>
    split
    next => exact .inl rfl
    next =>
      split
      next => exact .inl rfl
      next hno => exact .inr ⟨hno, p, rfl⟩

theorem execGkSet_guard (p : Packet) (s : State) : Guard.StepTo s (.gkSet p) (execGkSet p s) := by
  refine ⟨_, rfl, ?_⟩
  obtain h | ⟨x, c, h⟩ := runCommandA_carried (op := 0x0F01) (p := p) (f := s.fuses) (g := s.guard) (body := bodyGkSet) s.chip s.guard
  · exact .same h
  · obtain hb | ⟨k, n, r, hk, hn, hopen, hr, hb⟩ := bodyGkSet_guard x c s.guard
    · exact .same (h.trans hb)
    · exact .region hk hn rfl hopen hr (h.trans hb)

theorem execGkMode_guard (p : Packet) (s : State) : Guard.StepTo s (.gkMode p) (execGkMode p s) := by
  refine ⟨_, rfl, ?_⟩
  obtain h | ⟨x, c, h⟩ := runCommandA_carried (op := 0x0F02) (p := p) (f := s.fuses) (g := s.guard) (body := bodyGkMode) s.chip s.guard
  · exact .same h
  · obtain hb | ⟨k, y, hk, hy, hb⟩ := bodyGkMode_guard x c s.guard
    · exact .same (h.trans hb)
    · exact .mode hk hy (h.trans hb)

theorem execGkSyncDone_guard (k : Fin 5) (s : State) : Guard.StepTo s (.gkSyncDone k) (execGkSyncDone k s) := by
  refine ⟨_, rfl, ?_⟩
  obtain h | ⟨hno, p, h⟩ := gkSyncDone_guard k.val s.chip s.guard
  · exact .same h
  · exact .switch hno h

/-- The rows that reach the rule sets, each by its own lemma; every other row is an effect on the chip or on the chip and the fuses. -/
theorem exec_guard (i : Instr) (s : State) : Guard.StepTo s i (exec i s) := by
  cases i
  case powerOnReset n st => exact execPowerOnReset_guard n st s
  case vddAonBrownout st => exact Guard.stepTo_powerOn rfl s.fusesInterrupted_guard st
  case warmReset st => exact execWarmReset_guard st s
  case commandReset => exact execCommandReset_guard s
  case ccWatchdogExpiry st => exact execCcWatchdogExpiry_guard st s
  case kettleWatchdogExpiry st => exact Guard.stepTo_warm (s := s) rfl (State.fusesInterrupted_guard { s with chip := s.chip.bump 4 1 }) st _
  case commitRollbackDone ok => exact execCommitRollbackDone_guard ok s
  case keyLifecycleDone => exact execKeyLifecycleDone_guard s
  case gkSet p => exact execGkSet_guard p s
  case gkMode p => exact execGkMode_guard p s
  case gkSyncDone k => exact execGkSyncDone_guard k s
  all_goals exact ⟨_, rfl, .same rfl⟩

theorem GuardStep.of_exec {i : Instr} {s t : State} (h : exec i s = .next t) : GuardStep s t i := by
  obtain ⟨t', ht', hstep⟩ := exec_guard i s
  obtain rfl : t = t' := Host.Outcome.next.inj (h.symm.trans ht')
  exact hstep

/-! ### Safety of the rule sets -/

theorem GuardStep.safe {s t : State} {i : Instr} (h : GuardStep s t i) (hs : s.guard.Safe) : t.guard.Safe := by
  obtain ⟨-, hshadow, hstored⟩ := s.guard.safe_iff.1 hs
  cases h with
  | same h => exact h ▸ hs
  | @boot _ g _ hg h =>
    have hvalid : ∀ k, k < 5 → (g.stored.get {} k).Valid k := by
      obtain hg | hg := hg <;> rw [hg]
      · exact hstored
      · exact fun k _ => RuleSet.valid_empty k
    have hboot := Guard.boot_active hvalid
    rw [h]
    exact (Guard.safe_iff _).2 ⟨hboot, fun k hk => (hboot k hk).1, hstored⟩
  | region hk hn hx _ hr h => exact h ▸ hs.setShadow (.setRegion (hx ▸ hshadow _ hk) hn hr)
  | mode hk hx h => exact h ▸ hs.setShadow (.of_regions hx (hshadow _ hk))
  | switch hno h => exact h ▸ hs.switch (Fin.isLt _) _ hno

/-- Settles O5: the entries of the reset's sets are looked at one by one; active and shadow sets are the same. -/
theorem guardSafeAtReset : Obligations.GuardSafeAtReset := by
  refine ⟨(Guard.safe_iff _).2 ⟨Guard.initial_safe, fun k hk => (Guard.initial_safe k hk).1, fun k _ => RuleSet.valid_empty k⟩, ?_⟩
  exact fun _ _ _ => rfl

/-- Settles O6: of the ways a command reaches the rule sets, each keeps them safe; an idle step does not reach them. -/
theorem guardSafeEveryStep : Obligations.GuardSafeEveryStep := by
  unfold Obligations.GuardSafeEveryStep
  intro s t hs ht
  unfold step at ht
  split at ht
  next =>
    obtain rfl := Host.Outcome.next.inj ht
    exact hs
  next i rest _ => exact (GuardStep.of_exec ht).safe hs

/-! ### LOCKED regions -/

theorem GuardStep.locksHold {s t : State} {i : Instr} (h : GuardStep s t i) (hs : s.guard.LocksHold) : t.guard.LocksHold := by
  cases h with
  | same h => exact h ▸ hs
  | boot _ _ h => exact h ▸ fun _ _ _ => rfl
  | region _ _ hx hopen _ h =>
    refine h ▸ hs.setShadow fun j m hlocked => regionOf_setRegion_ne hx ?_
    rintro ⟨rfl, rfl⟩
    exact hopen hlocked
  | mode _ hx h => exact h ▸ hs.setShadow fun j m _ => regionOf_set_of_regions hx j m
  | switch _ h => exact h ▸ hs.switch _ _

/-- No command but a restart changes a LOCKED region of an active set. -/
theorem GuardStep.locked_region {s t : State} {i : Instr} (h : GuardStep s t i) (hs : s.guard.LocksHold) (hi : restarts i = false)
    {k r : Nat} (hlocked : s.guard.locked k r) : regionOf t.guard.active k r = regionOf s.guard.active k r := by
  cases h with
  | same h => rw [h]
  | boot hboot _ _ => exact absurd (hi.symm.trans hboot) (by decide)
  | region _ _ _ _ _ h => rw [h]
  | mode _ _ h => rw [h]
  | switch _ h => exact h ▸ hs.switch_region _ _ hlocked

/-- Settles O7: GK_SET does not write a LOCKED region into the shadow, and a switch finds there what is LOCKED. -/
theorem lockedRegionsStay : Obligations.LockedRegionsStay := by
  unfold Obligations.LockedRegionsStay
  intro i s t hs ht
  have hstep := GuardStep.of_exec ht
  exact ⟨hstep.locksHold hs, fun hi k r hlocked => hstep.locked_region hs hi hlocked⟩

end Sys2Proof.Machine
end

section
/-!
SUPPORT. The power channels: what each operation on a channel leaves of that channel, of every other one, and of the rest of the power unit
(R412 to R416).
-/
namespace Sys2Proof.Machine

/-- The power unit without its channels. -/
def Power.besidesChannels (p : Power) : Power := { p with ch := [] }

theorem Power.selected_of_besidesChannels {p q : Power} (h : p.besidesChannels = q.besidesChannels) : p.selected = q.selected :=
  (congrArg Power.selected h :)
theorem Power.tp_of_besidesChannels {p q : Power} (h : p.besidesChannels = q.besidesChannels) : p.tp = q.tp := (congrArg Power.tp h :)

/-- A channel whose gate is driven low (R412, R415). -/
def PowerChan.gatedLow (x : PowerChan) (st : ChanState) : PowerChan :=
  { x with pg := false, gate := false, state := st, timer := none, gateWin := false, gateGood := false, inLimit := false }

/-- A channel whose trip has been recorded (R416). -/
def PowerChan.tripped (x : PowerChan) (cause : Nat) : PowerChan :=
  { x with faultCount := Nat.min 255 (x.faultCount + 1), cause, trips := sat16 x.trips 1 }

section
variable (c : Chip) (n : Nat)

theorem Chip.chan_of_pwr {a b : Chip} (h : a.pwr = b.pwr) (m : Nat) : a.chan m = b.chan m := by
  unfold Chip.chan
  rw [h]

@[simp] theorem Chip.chan_setChan (x : PowerChan) : (c.setChan n x).chan n = x := Tab.get_set ..
theorem Chip.chan_setChan_ne (x : PowerChan) {m : Nat} (h : m ≠ n) : (c.setChan n x).chan m = c.chan m := Tab.get_set_ne _ _ _ h
@[simp] theorem Chip.chan_post (m x r d st : Nat) : (c.post x r d st).chan m = c.chan m := Chip.chan_of_pwr (c.post_pwr x r d st) m
@[simp] theorem Chip.chan_drive (p : PinId) (v m : Nat) : (c.drive p v).chan m = c.chan m := rfl
theorem Chip.setChan_besidesChannels (x : PowerChan) : (c.setChan n x).pwr.besidesChannels = c.pwr.besidesChannels := rfl

/-! ### Power-good -/

@[simp] theorem Chip.chan_powerGood (v : Bool) : (c.powerGood n v).chan n = { c.chan n with pg := v } := by
  unfold Chip.powerGood
  dsimp only
  split
  next h => rw [← beq_iff_eq.1 h]
  next => rw [Chip.chan_post, Chip.chan_setChan]

theorem Chip.chan_powerGood_ne (v : Bool) {m : Nat} (h : m ≠ n) : (c.powerGood n v).chan m = c.chan m := by
  unfold Chip.powerGood
  dsimp only
  split
  next => rfl
  next => rw [Chip.chan_post, Chip.chan_setChan_ne _ _ _ h]

theorem Chip.powerGood_besidesChannels (v : Bool) : (c.powerGood n v).pwr.besidesChannels = c.pwr.besidesChannels := by
  unfold Chip.powerGood
  dsimp only
  split
  next => rfl
  next => rw [Chip.post_pwr, Chip.setChan_besidesChannels]

/-! ### A gate that goes low -/

@[simp] theorem Chip.chan_gateLow (st : ChanState) : (c.gateLow n st).chan n = (c.chan n).gatedLow st := by
  unfold Chip.gateLow
  dsimp only
  split <;> simp [PowerChan.gatedLow]

theorem Chip.chan_gateLow_ne (st : ChanState) {m : Nat} (h : m ≠ n) : (c.gateLow n st).chan m = c.chan m := by
  unfold Chip.gateLow
  dsimp only
  split <;> simp [Chip.chan_setChan_ne _ _ _ h, Chip.chan_powerGood_ne _ _ _ h]

theorem Chip.gateLow_besidesChannels (st : ChanState) : (c.gateLow n st).pwr.besidesChannels = c.pwr.besidesChannels := by
  unfold Chip.gateLow
  dsimp only
  split <;> simp only [Chip.drive_pwr, Chip.setChan_besidesChannels, Chip.powerGood_besidesChannels]

/-! ### A recorded trip -/

theorem Chip.recordTrip_pwr (cause : Nat) (l : Bool) :
    (c.recordTrip n cause l).pwr = (c.setChan n ((c.chan n).tripped cause)).pwr := by
  unfold Chip.recordTrip
  dsimp only
  rw [Chip.sample_pwr, Chip.bump_pwr, Chip.post_pwr]
  rfl

@[simp] theorem Chip.chan_recordTrip (cause : Nat) (l : Bool) : (c.recordTrip n cause l).chan n = (c.chan n).tripped cause := by
  rw [Chip.chan_of_pwr (c.recordTrip_pwr n cause l), Chip.chan_setChan]

theorem Chip.chan_recordTrip_ne (cause : Nat) (l : Bool) {m : Nat} (h : m ≠ n) : (c.recordTrip n cause l).chan m = c.chan m := by
  rw [Chip.chan_of_pwr (c.recordTrip_pwr n cause l), Chip.chan_setChan_ne _ _ _ h]

/-! ### The selected feed's dead time -/

@[simp] theorem Chip.chan_startDead (r m : Nat) : (c.startDead r).chan m = c.chan m := by
  unfold Chip.startDead
  split <;> rfl

end

end Sys2Proof.Machine
end

section
/-!
PROOFS. Chapter 17: the breaker (R413, R414) and the trip that ends in it (R416, R425, R437).
-/
namespace Sys2Proof.Machine

/-- A row of the power unit whose effect makes `c` of the block leaves `c`, settled. -/
theorem onPower_next {s : State} {f : Chip → Chip} {c : Chip} (h : f s.chip = c) :
    onPower s f = .next { s with chip := c.powerSettle } := by
  subst h
  rfl

/-! ### A trip -/

/-- The fault count that a trip reaches is RETRY_MAX: the channel latches (R416). -/
def PowerChan.lastTry (x : PowerChan) : Bool := x.conf.retryMax != 255 && decide (Nat.min 255 (x.faultCount + 1) ≥ x.conf.retryMax)

/-- The state in which a trip leaves a channel that is not a trunk's (R416). -/
def PowerChan.tripState (x : PowerChan) : ChanState := if x.lastTry then .latched else .retryWait

/-- A trip up to the dead time that begins when the channel was the selected feed (R416, R425). -/
def Chip.tripGate (c : Chip) (n cause : Nat) : Chip :=
  if isTrunkCh n then (c.gateLow n .standby).setChan n { (c.chan n).gatedLow .standby with tripPending := some cause }
  else ((c.gateLow n (c.chan n).tripState).setChan n
    { (c.chan n).gatedLow (c.chan n).tripState with retryMs := (c.chan n).conf.retryMs }).recordTrip n cause (c.chan n).lastTry

section
variable (c : Chip) (n cause : Nat)

theorem Chip.tripGate_besidesChannels : (c.tripGate n cause).pwr.besidesChannels = c.pwr.besidesChannels := by
  unfold Chip.tripGate
  split
  · rw [Chip.setChan_besidesChannels, Chip.gateLow_besidesChannels]
  · rw [Chip.recordTrip_pwr, Chip.setChan_besidesChannels, Chip.setChan_besidesChannels, Chip.gateLow_besidesChannels]

theorem Chip.trip_eq : c.trip n cause = if c.pwr.selected = some n then (c.tripGate n cause).startDead 0x0C06 else c.tripGate n cause := by
  have hgate : c.trip n cause =
      if (c.tripGate n cause).pwr.selected == some n then (c.tripGate n cause).startDead 0x0C06 else c.tripGate n cause := by
    unfold Chip.trip Chip.tripGate PowerChan.tripState PowerChan.lastTry
    simp only [Chip.chan_gateLow]
  rw [hgate, Power.selected_of_besidesChannels (c.tripGate_besidesChannels n cause)]
  simp only [beq_iff_eq]

theorem Chip.chan_trip (m : Nat) : (c.trip n cause).chan m = (c.tripGate n cause).chan m := by
  rw [Chip.trip_eq]
  split
  · exact Chip.chan_startDead ..
  · rfl

variable {c n cause}

theorem Chip.chan_trip_trunk (h : isTrunkCh n = true) :
    (c.trip n cause).chan n = { (c.chan n).gatedLow .standby with tripPending := some cause } := by
  rw [Chip.chan_trip, Chip.tripGate, if_pos h, Chip.chan_setChan]

theorem Chip.chan_trip_other (h : isTrunkCh n = false) :
    (c.trip n cause).chan n =
      ({ (c.chan n).gatedLow (c.chan n).tripState with retryMs := (c.chan n).conf.retryMs } : PowerChan).tripped cause := by
  rw [Chip.chan_trip, Chip.tripGate, if_neg (by simp [h]), Chip.chan_recordTrip, Chip.chan_setChan]

theorem Chip.chan_trip_ne {m : Nat} (h : m ≠ n) : (c.trip n cause).chan m = c.chan m := by
  rw [Chip.chan_trip, Chip.tripGate]
  split
  · rw [Chip.chan_setChan_ne _ _ _ h, Chip.chan_gateLow_ne _ _ _ h]
  · rw [Chip.chan_recordTrip_ne _ _ _ _ h, Chip.chan_setChan_ne _ _ _ h, Chip.chan_gateLow_ne _ _ _ h]

/-- Whichever channel trips, its gate is low, its timer stopped and power-good withdrawn. -/
theorem Chip.trip_gate : ((c.trip n cause).chan n).gate = false ∧ ((c.trip n cause).chan n).timer = none ∧
    ((c.trip n cause).chan n).pg = false := by
  cases h : isTrunkCh n with
  | true => rw [Chip.chan_trip_trunk h]; exact ⟨rfl, rfl, rfl⟩
  | false => rw [Chip.chan_trip_other h]; exact ⟨rfl, rfl, rfl⟩

theorem Chip.trip_selected (h : c.pwr.selected = some n) :
    (c.trip n cause).pwr.selected = none ∧ (c.trip n cause).pwr.dead = some (0x0C06, n) := by
  have hsel : (c.tripGate n cause).pwr.selected = some n :=
    (Power.selected_of_besidesChannels (c.tripGate_besidesChannels n cause)).trans h
  rw [Chip.trip_eq, if_pos h, Chip.startDead, hsel]
  exact ⟨rfl, rfl⟩

theorem Chip.trip_not_selected (h : c.pwr.selected ≠ some n) : (c.trip n cause).pwr.selected = c.pwr.selected := by
  rw [Chip.trip_eq, if_neg h]
  exact Power.selected_of_besidesChannels (c.tripGate_besidesChannels n cause)

end

theorem PowerChan.tripState_retry {x : PowerChan} (h : x.conf.retryMax = 255 ∨ Nat.min 255 (x.faultCount + 1) < x.conf.retryMax) :
    x.tripState = .retryWait :=
  if_neg (by simp only [PowerChan.lastTry, Bool.and_eq_true, bne_iff_ne, decide_eq_true_eq]; omega)

theorem PowerChan.tripState_latched {x : PowerChan} (h : x.conf.retryMax ≠ 255) (hk : x.conf.retryMax ≤ Nat.min 255 (x.faultCount + 1)) :
    x.tripState = .latched :=
  if_pos (by simp only [PowerChan.lastTry, Bool.and_eq_true, bne_iff_ne, decide_eq_true_eq]; exact ⟨h, hk⟩)

/-! ### The rows of the breaker -/

section
variable {s : State} {ch : Fin 14} {x : PowerChan} (hx : x = s.chip.chan ch.val)
include hx

theorem becomes_inLimitChange_set (hon : x.state = .on) (ht : x.timer = none) :
    s.becomes (.inLimitChange ch true)
      (((s.chip.setChan ch.val { x with inLimit := true, timer := some x.conf.faultUs }).powerGood ch.val false).powerSettle) := by
  subst hx
  change execInLimitChange ch true s = _
  unfold execInLimitChange
  refine onPower_next ((if_pos (by simp [hon])).trans ((if_pos rfl).trans ?_))
  rw [ht]
  rfl

theorem becomes_inLimitChange_clear (hon : x.state = .on) :
    s.becomes (.inLimitChange ch false) ((s.chip.setChan ch.val { x with inLimit := false, timer := none }).powerSettle) := by
  subst hx
  change execInLimitChange ch false s = _
  unfold execInLimitChange
  exact onPower_next ((if_pos (by simp [hon])).trans (if_neg (by simp)))

/-- The timer's expiry trips the channel once, with cause SEVERE when that fires in the same cycle (R414). -/
theorem becomes_faultTimerExpiry_running {u : Nat} (ht : x.timer = some u) (b : Bool) :
    s.becomes (.faultTimerExpiry ch b) ((s.chip.trip ch.val (if b then 2 else 1)).powerSettle) := by
  subst hx
  change execFaultTimerExpiry ch b s = _
  unfold execFaultTimerExpiry
  exact onPower_next (if_pos (by simp [ht]))

theorem becomes_faultTimerExpiry_stopped (ht : x.timer = none) (b : Bool) : s.becomes (.faultTimerExpiry ch b) s.chip.powerSettle := by
  subst hx
  change execFaultTimerExpiry ch b s = _
  unfold execFaultTimerExpiry
  exact onPower_next (if_neg (by simp [ht]))

theorem becomes_severeTrip (hs : x.state = .start ∨ x.state = .on) :
    s.becomes (.severeTrip ch) ((s.chip.trip ch.val 2).powerSettle) := by
  subst hx
  change execSevereTrip ch s = _
  unfold execSevereTrip
  exact onPower_next (if_pos (by simpa using hs))

end

/-- Settles O53: the rows one by one, then the trip that each of them ends in. -/
theorem breakerTrips : Obligations.BreakerTrips := by
  unfold Obligations.BreakerTrips
  rintro s ch c x rfl hx
  refine ⟨becomes_inLimitChange_set hx, becomes_inLimitChange_clear hx,
    fun u ht => ⟨becomes_faultTimerExpiry_running hx ht false, becomes_faultTimerExpiry_running hx ht true⟩,
    becomes_faultTimerExpiry_stopped hx, becomes_severeTrip hx, ?_⟩
  rintro n cause d y k rfl rfl
  obtain ⟨hgate, htimer, hpg⟩ := Chip.trip_gate (c := d) (n := n) (cause := cause)
  refine ⟨hgate, htimer, hpg, fun m => Chip.chan_trip_ne, fun hother => ?_, fun htrunk => ?_, Chip.trip_selected, Chip.trip_not_selected⟩
  · rw [Chip.chan_trip_other hother]
    exact ⟨rfl, rfl, rfl, PowerChan.tripState_retry, PowerChan.tripState_latched⟩
  · rw [Chip.chan_trip_trunk htrunk]
    exact ⟨rfl, rfl, rfl⟩

end Sys2Proof.Machine
end

section
/-!
PROOFS. Chapter 18: the takeover of a fast swap (R446) opens the wrong feed on trunks 2 and 3.
-/
namespace Sys2Proof.Machine

/-- Trunk 2's armed sink, which has detected the loss, while P0 is the selected feed. -/
def armedSinkFedByP0 : State :=
  { State.reset with chip := { pwr := {
      selected := some 0, tp := [(2, { prole := 2, attach := 2, pstate := .contract, armed := true, fsDetect := true })] } } }

/-- The feed that an outcome leaves selected. -/
def selectedAfter : Host.Outcome State Fault Refusal → Option Nat
  | .next t => t.chip.pwr.selected
  | _ => none

/-- The row compares the selected feed with `2 + n` taken in `Fin 4`, which is 0 for trunk 2: it opens P0, though P4 is the trunk's channel. -/
theorem fastSwapTakeover_opens_p0 : selectedAfter (exec (.fastSwapTakeover 2 0) armedSinkFedByP0) = none := by decide +kernel

/-- Refutes O56: a takeover on trunk 2 that finds P0 selected, not the trunk's own channel P4, opens P0 all the same. -/
theorem not_contractTimersAct : ¬Obligations.ContractTimersAct := by
  unfold Obligations.ContractTimersAct
  intro h
  obtain ⟨-, -, -, -, -, -, -, -, -, -, -, -, -, -, -, -, -, -, -, -, -, -, -, -, -, -, -, -, -, -, -, htakeover⟩ :=
    h armedSinkFedByP0 2 _ _ rfl rfl
  have hrun := htakeover 0 _ _ rfl rfl rfl (by decide) (by decide) rfl rfl
  have hsel := (congrArg selectedAfter hrun).symm.trans fastSwapTakeover_opens_p0
  revert hsel
  decide +kernel

end Sys2Proof.Machine
end

section
/-!
SUPPORT. A row's step from its effect on the chip, and a bit above a field's range.
-/
namespace Sys2Proof.Machine

/-- A row whose effect on the chip is `f`, as the row's own definition gives it. -/
theorem onChip_next {s : State} {f : Chip → Chip} {c : Chip} (h : f s.chip = c) : onChip s f = .next { s with chip := c } := by
  subst h
  rfl

theorem bitOf_of_lt_two_pow {x i : Nat} (h : x < 2 ^ i) : bitOf x i = false :=
  Bool.eq_false_iff.2 fun hb => absurd (two_pow_le_of_bitOf hb) (Nat.not_le.2 h)

end Sys2Proof.Machine
end

section
/-!
SUPPORT. Reading the fields of a response: what `sliceB` and `fld` return of bytes that were put together from fields and records (R7).
-/
namespace Sys2Proof

theorem sliceB_eq_map (b : Bytes) (o n : Nat) : sliceB b o n = (List.range n).map fun i => b.getD (o + i) 0 := by
  unfold sliceB
  apply List.ext_getElem
  · simp
  · intro i h _
    rw [List.getElem_append]
    split
    next hlt =>
      have hib : o + i < b.length := by
        simp at hlt
        omega
      simp [hib]
    next hge =>
      have hib : b.length ≤ o + i := by
        simp at hge h
        omega
      simp [hib]

@[simp] theorem sliceB_length (b : Bytes) (o n : Nat) : (sliceB b o n).length = n := by
  simp [sliceB_eq_map]

theorem sliceB_append_left {a b : Bytes} {o n : Nat} (h : o + n ≤ a.length) : sliceB (a ++ b) o n = sliceB a o n := by
  simp only [sliceB_eq_map]
  refine List.map_congr_left fun i hi => ?_
  rw [List.mem_range] at hi
  exact List.getD_append _ _ _ _ (by omega)

theorem sliceB_append_right {a b : Bytes} {o n : Nat} (h : a.length ≤ o) : sliceB (a ++ b) o n = sliceB b (o - a.length) n := by
  simp only [sliceB_eq_map]
  refine List.map_congr_left fun i _ => ?_
  rw [List.getD_append_right _ _ _ _ (by omega), Nat.sub_add_comm h]

/-- A byte string is its own slice, whole. -/
theorem sliceB_of_length {b : Bytes} {n : Nat} (h : b.length = n) : sliceB b 0 n = b := by
  subst h
  simp [sliceB]

/-- A slice of a slice. -/
theorem sliceB_sliceB {b : Bytes} {o m j n : Nat} (h : j + n ≤ m) : sliceB (sliceB b o m) j n = sliceB b (o + j) n := by
  simp only [sliceB_eq_map]
  refine List.map_congr_left fun i hi => ?_
  rw [List.mem_range] at hi
  simp [show j + i < m by omega, Nat.add_assoc]

/-- Record `i` of a table of records of one length. -/
theorem sliceB_flatten_records {f : Nat → Bytes} {m : Nat} (hf : ∀ i, (f i).length = m) {i k : Nat} (hi : i < k) :
    sliceB ((List.range k).map f).flatten (m * i) m = f i := by
  induction k with
  | zero => cases hi
  | succ k ih =>
    have hlen : ((List.range k).map f).flatten.length = m * k := by
      rw [Machine.length_flatten_fields hf, Nat.mul_comm]
    rw [List.range_succ, List.map_append, List.flatten_append]
    obtain hik | rfl := Nat.lt_succ_iff_lt_or_eq.1 hi
    · rw [sliceB_append_left (by rw [hlen, ← Nat.mul_succ]; exact Nat.mul_le_mul_left m hik), ih hik]
    · rw [sliceB_append_right hlen.le, hlen, Nat.sub_self]
      simpa using sliceB_of_length (hf i)

theorem fld_append_left {a b : Bytes} {o n : Nat} (h : o + n ≤ a.length) : fld (a ++ b) o n = fld a o n :=
  congrArg leNat (sliceB_append_left h)

theorem fld_append_right {a b : Bytes} {o n : Nat} (h : a.length ≤ o) : fld (a ++ b) o n = fld b (o - a.length) n :=
  congrArg leNat (sliceB_append_right h)

/-- A field of a record, read from the bytes in which the record lies. -/
theorem fld_of_slice {b r : Bytes} {o m j n : Nat} (hr : sliceB b o m = r) (h : j + n ≤ m) : fld b (o + j) n = fld r j n := by
  unfold fld
  rw [← hr, sliceB_sliceB h]

theorem leNat_le (n x : Nat) : leNat (le n x) = x % 256 ^ n := by
  induction n generalizing x with
  | zero => simp [le, leNat, Nat.mod_one]
  | succ n ih =>
    have hbyte : (BitVec.ofNat 8 (x % 256)).toNat = x % 256 := Nat.mod_mod x 256
    rw [le, leNat, ih, hbyte, Nat.pow_succ', Nat.mod_mul]

@[simp] theorem fld_le (n x : Nat) : fld (le n x) 0 n = x % 256 ^ n := by
  unfold fld
  rw [sliceB_of_length (Machine.le_length n x), leNat_le]

theorem fld_one (b : Bytes) (i : Nat) : fld b i 1 = (b.getD i 0).toNat := by
  simp [fld, sliceB_eq_map, leNat]

end Sys2Proof
end

section
/-!
PROOFS. Chapter 15: the handshakes of the dock port's OUT endpoints (R370) and what its settings do to connections (R376).
-/
namespace Sys2Proof.Machine

/-! ### OUT handshakes -/

section
variable {s : State} {fn : Fin 8} {ep : UsbEp} {len drained used : Nat} {c : Chip}

/-- An endpoint that takes packets: attached, not suspended, configured and not halted (R369, R371). -/
def Chip.takesPackets (c : Chip) (fn : Nat) (ep : UsbEp) : Prop :=
  c.usb.attached = true ∧ c.usb.suspended = false ∧ (c.vport fn).configured = true ∧ (c.vport fn).halts.contains ep.code = false

/-- `n` bytes stand in the buffer of endpoint `k`. -/
def Chip.setOutUsed (c : Chip) (k n : Nat) : Chip := c.setUsb fun u => { u with outUsed := u.outUsed.set k n }

theorem Chip.outFree_setOutUsed (c : Chip) (k n : Nat) : (c.setOutUsed k n).outFree k = 16384 - n :=
  congrArg (16384 - ·) (Tab.get_set ..)

/-- The endpoint has taken a packet: `n` bytes stand in its buffer, and its toggle or sequence number moves on. -/
def Chip.holdPacket (c : Chip) (k n : Nat) : Chip := (c.setOutUsed k n).setUsb fun u => u.nextSeq k

/-- On USB 2.0 the data toggle moves on. -/
theorem Chip.holdPacket_of_usb2 (h : c.usb.speed ≠ 3) (k n : Nat) :
    c.holdPacket k n = { c with usb := { c.usb with outUsed := c.usb.outUsed.set k n, seqs := c.usb.seqs.set k ((c.usb.seqs.get 0 k + 1) % 2) } } := by
  unfold Chip.holdPacket Chip.setOutUsed Chip.setUsb Usb.nextSeq Usb.seqMod
  simp [h]

/-- The handshake for a packet of `len` bytes, with `used` bytes in the endpoint's buffer. -/
def Chip.outPacket (c : Chip) (fn : Nat) (ep : UsbEp) (used len : Nat) : Chip :=
  let k := epKey fn ep
  if !c.outOpen ep || len > c.outFree k then c.emit (.usbHandshake fn ep.code (if c.usb.speed = 3 then 5 else 1) 0)
  else
    let d := c.holdPacket k (used + len)
    let left := c.outFree k - len
    if d.usb.speed = 3 then d.emit (.usbHandshake fn ep.code 0 (Nat.min 16 (left / 1024)))
    else if d.usb.speed = 2 && left < 512 then d.emit (.usbHandshake fn ep.code 3 0)
    else d.emit (.usbHandshake fn ep.code 0 0)

theorem execUsbOutDataPacket_of_takes (h : s.chip.takesPackets fn.val ep)
    (hc : c = s.chip.setOutUsed (epKey fn.val ep) (s.chip.usb.outUsed.get 0 (epKey fn.val ep) - drained)) :
    s.becomes (.usbOutDataPacket fn ep len drained) (c.outPacket fn.val ep (s.chip.usb.outUsed.get 0 (epKey fn.val ep) - drained) len) := by
  obtain ⟨ha, hs, hv, hh⟩ := h
  change execUsbOutDataPacket fn ep len drained s = _
  refine onChip_next ?_
  dsimp only
  rw [if_neg (by simp [ha, hs, hv]), if_neg (by simp only [hh, Bool.false_eq_true, not_false_eq_true])]
  subst hc
  rfl

theorem Chip.outPacket_refused (h : c.usb.speed ≠ 3) (hno : c.outFree (epKey fn.val ep) < len ∨ c.outOpen ep = false) :
    c.outPacket fn.val ep used len = c.emit (.usbHandshake fn.val ep.code 1 0) := by
  unfold Chip.outPacket
  dsimp only
  rw [if_pos (by rcases hno with hn | hn <;> simp [hn]), if_neg h]

/-- The code of the handshake for a packet that is taken on USB 2.0 (R370). -/
def Chip.takenCode (c : Chip) (left : Nat) : Nat := if c.usb.speed = 2 && left < 512 then 3 else 0

theorem Chip.outPacket_taken (h : c.usb.speed ≠ 3) (hopen : c.outOpen ep = true) (hfits : len ≤ c.outFree (epKey fn.val ep)) :
    c.outPacket fn.val ep used len = (c.holdPacket (epKey fn.val ep) (used + len)).emit
      (.usbHandshake fn.val ep.code (c.takenCode (c.outFree (epKey fn.val ep) - len)) 0) := by
  unfold Chip.outPacket Chip.takenCode
  dsimp only
  have hspeed : (c.holdPacket (epKey fn.val ep) (used + len)).usb.speed = c.usb.speed := rfl
  rw [if_neg (by simp [hopen, hfits]), hspeed, if_neg h]
  exact (apply_ite (fun code => (c.holdPacket _ _).emit (.usbHandshake fn.val ep.code code 0)) _ 3 0).symm

/-- The code of the answer to PING at high speed (R370). -/
theorem execUsbPing_of_takes (h : s.chip.takesPackets fn.val ep) (h2 : s.chip.usb.speed = 2) :
    s.becomes (.usbPing fn ep) (s.chip.emit (.usbHandshake fn.val ep.code
      (if s.chip.outOpen ep && s.chip.outFree (epKey fn.val ep) ≥ 512 then 0 else 1) 0)) := by
  obtain ⟨ha, hs, hv, hh⟩ := h
  change execUsbPing fn ep s = _
  refine onChip_next ?_
  dsimp only
  rw [if_neg (by simp [ha, hs, hv, h2]), if_neg (by simp only [hh, Bool.false_eq_true, not_false_eq_true])]

end

/-- Settles O44: a packet is refused or taken by what is open and free, and the speed picks the code. -/
theorem highSpeedHandshakes : Obligations.HighSpeedHandshakes := by
  unfold Obligations.HighSpeedHandshakes
  rintro s fn ep len drained f u k c rfl rfl ha hs hv hh hc rfl
  have htakes : s.chip.takesPackets fn.val ep := ⟨ha, hs, hv, hh⟩
  have hrow := execUsbOutDataPacket_of_takes (len := len) htakes hc
  have hused : c.usb.outUsed.get 0 (epKey fn.val ep) = s.chip.usb.outUsed.get 0 (epKey fn.val ep) - drained := by
    rw [hc]; exact Tab.get_set ..
  have hfree : c.outFree (epKey fn.val ep) = 16384 - (s.chip.usb.outUsed.get 0 (epKey fn.val ep) - drained) :=
    congrArg (16384 - ·) hused
  have hopen : c.outOpen ep = s.chip.outOpen ep := by rw [hc]; rfl
  have hspeed : c.usb.speed = s.chip.usb.speed := by rw [hc]
  refine ⟨fun h21 hno => ?_, fun d hd ho hfits => ?_, fun h2 => ⟨fun ho hfit => ?_, fun hno => ?_⟩, fun h1 => ?_⟩
  · rw [Chip.outPacket_refused (by omega) (by rwa [hfree, hopen])] at hrow
    exact hrow
  · have htaken : s.chip.usb.speed ≠ 3 → s.becomes (.usbOutDataPacket fn ep len drained)
        (d.emit (.usbHandshake fn.val ep.code (c.takenCode (16384 - (s.chip.usb.outUsed.get 0 (epKey fn.val ep) - drained) - len)) 0)) := by
      intro h3
      rw [Chip.outPacket_taken (hspeed ▸ h3) (hopen.trans ho) (hfree ▸ hfits), Chip.holdPacket_of_usb2 (hspeed ▸ h3), hfree] at hrow
      rw [hd]
      convert hrow using 5
      rw [hc]
    refine ⟨fun h2 hleft => ?_, fun h2 hleft => ?_, fun h1 => ?_⟩
    · have := htaken (by omega)
      rwa [Chip.takenCode, if_neg (by simp; omega)] at this
    · have := htaken (by omega)
      rwa [Chip.takenCode, if_pos (by simp [hspeed, h2, hleft])] at this
    · have := htaken (by omega)
      rwa [Chip.takenCode, if_neg (by simp [hspeed, h1])] at this
  · have := execUsbPing_of_takes htakes h2
    rwa [if_pos (by simp [ho, Chip.outFree]; omega)] at this
  · have := execUsbPing_of_takes htakes h2
    rwa [if_neg (by rcases hno with hno | hno <;> simp [Chip.outFree, hno])] at this
  · change execUsbPing fn ep s = _
    exact onChip_next (if_pos (by simp [h1]))

/-! ### The settings -/

/-- A list of tunnels is not empty exactly when some tunnel of the fabric is in it. -/
theorem Chip.tids_length_pos (c : Chip) (q : Nat → Tun → Bool) : 0 < (c.tids q).length ↔ ∃ e ∈ c.fab.tun, q e.1 e.2 = true := by
  unfold Chip.tids
  rw [List.length_map, List.length_pos_iff_exists_mem]
  exact exists_congr fun e => List.mem_filter

/-- A live tunnel that ends at F8 is bound to virtual port `n` (R361). -/
def Tun.boundTo (n : Nat) (t : Tun) : Bool := t.state.live && t.index == t.hops && t.outPort == 8 && fld t.typeParams 0 1 == n

theorem Tun.boundTo_iff (n : Nat) (t : Tun) :
    t.boundTo n = true ↔ t.state.live = true ∧ t.index = t.hops ∧ t.outPort = 8 ∧ fld t.typeParams 0 1 = n := by
  simp [Tun.boundTo, and_assoc]

section
variable {x : Ctx} {c : Chip} {k : FnCfg}

/-- Parameters of DOCK_FN_SET in range (Table 15.3), for virtual port `n`, without PERSIST. -/
def fnSetValid (b : Bytes) (n : Nat) : Prop :=
  1 ≤ n ∧ n ≤ 7 ∧ (n = 1 → fld b 1 1 = 0 ∨ fld b 1 1 = 4) ∧ (n ≠ 1 → fld b 1 1 ≤ 3) ∧ fld b 3 1 < 2 ∧ rsvd b 13 3 = true ∧ fld b 12 1 ≤ 2 ∧
  (fld b 1 1 = 2 → 1 ≤ fld b 2 1 ∧ fld b 2 1 ≤ 8) ∧ (fld b 1 1 = 1 → 60 ≤ fld b 10 2 ∧ fld b 10 2 ≤ 9596)

/-- The settings that a DOCK_FN_SET carries. -/
def fnSetCfg (b : Bytes) : FnCfg :=
  { kind := fld b 1 1, luns := fld b 2 1, removable := bitOf (fld b 3 1) 0, mac := sliceB b 4 6, maxSegment := fld b 10 2, pipes := fld b 12 1 }

theorem bodyDockFnSet_of_valid (h : fnSetValid x.ps (fld x.ps 0 1)) :
    bodyDockFnSet x c =
      if (c.tids fun _ t => t.boundTo (fld x.ps 0 1)).length > 0 then no c stState 0x0A03
      else (ok, (((c.fnDisconnect (fld x.ps 0 1)).setVport (fld x.ps 0 1)
        { (c.fnDisconnect (fld x.ps 0 1)).vport (fld x.ps 0 1) with cfg := fnSetCfg x.ps }).setMsc (fld x.ps 0 1) {}).fnConnect (fld x.ps 0 1)) := by
  obtain ⟨h1, h7, hone, hother, hf, hz, hp, hluns, hmac⟩ := h
  have hpersist : bitOf (fld x.ps 3 1) 1 = false := bitOf_of_lt_two_pow hf
  unfold bodyDockFnSet
  dsimp only
  rw [if_neg (by simp; omega), if_neg (by split <;> simp <;> omega), if_neg (by simp [hz]; omega), hpersist]
  rfl

/-- DOCK_PORT_SET with parameters in range and without PERSIST (R376). -/
theorem bodyDockPortSet_of_valid {u : UsbCfg} (ha : fld x.ps 0 1 ≤ 1) (h1 : 1 ≤ fld x.ps 1 1) (h3 : fld x.ps 1 1 ≤ 3) (hd : fld x.ps 2 1 < 4)
    (hz : rsvd x.ps 3 1 = true)
    (hu : u = { admin := fld x.ps 0 1 == 1, maxSpeed := fld x.ps 1 1, wakeAllow := bitOf (fld x.ps 2 1) 0, u1u2 := bitOf (fld x.ps 2 1) 1 }) :
    bodyDockPortSet x c = (ok, (((if (u.admin != c.usb.cfg.admin || u.maxSpeed != c.usb.cfg.maxSpeed) && c.usb.attached
      then fnPorts.foldl Chip.fnConnect (c.usbDetach 0) else c).usbChange 0 fun y => { y with cfg := u }).usbAttach 0)) := by
  have hpersist : bitOf (fld x.ps 2 1) 2 = false := bitOf_of_lt_two_pow hd
  subst hu
  unfold bodyDockPortSet
  dsimp only
  rw [if_neg (by simp [hz]; omega), hpersist]
  rfl

end

/-- Settles O45: both commands do to the connections what R376 says. -/
theorem dockSettingsApply : Obligations.DockSettingsApply := by
  unfold Obligations.DockSettingsApply
  rintro s p c d b n rfl rfl
  refine ⟨fun k h ha h1 h3 hd hz hk hdet => ?_, fun k h h1 h7 hone hother hf hz hp hluns hmac hk => ?_⟩
  · subst hdet
    exact runCommand_ok_empty h (bodyDockPortSet_of_valid ha h1 h3 hd hz hk)
  · have hbody := fun x (hx : x.ps = p.params) => bodyDockFnSet_of_valid (x := x) (c := c) (by rw [hx]; exact ⟨h1, h7, hone, hother, hf, hz, hp, hluns, hmac⟩)
    refine ⟨fun ⟨e, he, hl, hi, ho, hn⟩ => ?_, fun hnone hdis => ?_⟩
    · refine runCommand_err h ((hbody _ rfl).trans (if_pos ?_)) (by decide)
      exact (c.tids_length_pos _).2 ⟨e, he, (Tun.boundTo_iff ..).2 ⟨hl, hi, ho, hn⟩⟩
    · subst hdis hk
      refine runCommand_ok_empty h ((hbody _ rfl).trans (if_neg ?_))
      intro hpos
      obtain ⟨e, he, hb⟩ := (c.tids_length_pos _).1 hpos
      obtain ⟨hl, hi, ho, hn⟩ := (Tun.boundTo_iff ..).1 hb
      exact hnone e he hl hi ho hn

end Sys2Proof.Machine
end

section
/-!
PROOFS. Chapter 14: a commit takes the next write sequence (R348), not the staged block's own number.
-/
namespace Sys2Proof.Machine

/-- A block of a WRITE that entered staging as number 5. -/
def blockStagedFifth : Staged := { id := 5, vol := 0, lba := 0, data := [], by' := some (1, 1) }

/-- The NAND of the part after reset has committed nothing: its next write sequence is 0. -/
theorem commitBlock_seq_of_reset :
    ((State.reset.chip.commitBlock blockStagedFifth none).nand.map.find (blkKey 0 0)).map (·.seq) = some 0 := by decide +kernel

/-- Refutes O47: the committed block carries the write sequence of its commit, 0, where the statement has the number it was staged under, 5. -/
theorem not_nandEndsAct : ¬Obligations.NandEndsAct := by
  unfold Obligations.NandEndsAct
  intro h
  obtain ⟨-, -, -, -, -, hcommit, -⟩ := h State.reset 0 _ _ rfl rfl
  have hfind := (hcommit State.reset.chip blockStagedFifth none 1 1 rfl (by decide +kernel)).1
  have hseq := (congrArg (Option.map (·.seq)) hfind).symm.trans commitBlock_seq_of_reset
  exact absurd hseq (by decide)

end Sys2Proof.Machine
end

section
/-!
PROOFS. Chapter 13's commands and rows, and the rows of chapter 10's PTP engine.
-/
namespace Sys2Proof.Machine

/-! ### Ports -/

section
variable {x : Ctx} {c : Chip} {n : Nat} {p : EthPort}

theorem Chip.ethPort_setEthPort (c : Chip) (n : Nat) (p : EthPort) : (c.setEthPort n p).ethPort n = p := Tab.get_set ..

theorem Chip.setEthPort_setEthPort (c : Chip) (n : Nat) (p q : EthPort) : (c.setEthPort n p).setEthPort n q = c.setEthPort n q := by
  unfold Chip.setEthPort Chip.setEth
  simp only [Tab.set_set]

/-- A port that was DOWN goes UP (R317). -/
theorem Chip.ethUp_of_down (h : p.up = false) (c : Chip) (n : Nat) :
    (c.setEthPort n p).ethUp n true =
      (c.setEthPort n { p with up := true, ups := (p.ups + 1) % 2 ^ 48 }).post 0x0901 0 (n + 256 * 1 + 65536 * p.cfg.mode) := by
  unfold Chip.ethUp
  dsimp only
  rw [Chip.ethPort_setEthPort, if_neg (by simp [h]), Chip.setEthPort_setEthPort]
  simp [b2n]

/-! ### Commands -/

/-- ETH_PORT_SET with fields in range, without PERSIST (R328). -/
theorem bodyEthPortSet_of_valid {k : EthCfg} (h3 : fld x.ps 0 1 ≤ 3) (ha : fld x.ps 1 1 ≤ 1) (hm : fld x.ps 2 1 ≤ 4) (hf : fld x.ps 3 1 < 128)
    (hl : fld x.ps 4 1 ≤ 3) (hi : fld x.ps 5 1 ≤ 1) (ht : fld x.ps 6 2 < 1024) (h64 : 64 ≤ fld x.ps 8 2) (h96 : fld x.ps 8 2 ≤ 9600)
    (hz : rsvd x.ps 10 6 = true) (hsrc : fld x.ps 5 1 = 1 → c.f6Source (fld x.ps 6 2) = true)
    (hk : k = { admin := fld x.ps 1 1 == 1, mode := fld x.ps 2 1, pflags := fld x.ps 3 1, loop := fld x.ps 4 1, miss := fld x.ps 5 1,
                missTid := fld x.ps 6 2, maxFrame := fld x.ps 8 2 })
    {d : Chip} (hd : d = if k.mode != (c.ethPort (fld x.ps 0 1)).cfg.mode || k.loop != (c.ethPort (fld x.ps 0 1)).cfg.loop ||
      bitOf k.pflags 3 != bitOf (c.ethPort (fld x.ps 0 1)).cfg.pflags 3 || !k.admin then c.ethDown (fld x.ps 0 1) else c) :
    bodyEthPortSet x c = (ok, d.setEthPort (fld x.ps 0 1) { d.ethPort (fld x.ps 0 1) with cfg := k }) := by
  have hpersist : bitOf (fld x.ps 3 1) 7 = false := bitOf_of_lt_two_pow hf
  subst hd hk
  unfold bodyEthPortSet
  dsimp only
  rw [if_neg (by simp [hz]; omega), if_neg (by simp; exact hsrc), hpersist]
  rfl

/-- An entry of the classification table is replaced as a whole (R321). -/
def Chip.setClassEntry (c : Chip) (i : Nat) (e : Bytes) : Chip := c.setEth fun t => { t with cls := t.cls.set i e }

/-- ETH_CLASS_WRITE of an entry whose fields are in range and whose tunnel is there (R321, R322). -/
theorem bodyEthClassWrite_of_valid (hi : fld x.ps 0 2 ≤ 4095) (hw : fld x.ps 2 1 ≤ 1) (h3 : rsvd x.ps 3 1 = true) (h6 : rsvd x.ps 6 2 = true)
    (he : entryOk (sliceB x.ps 8 32) = true)
    (hsrc : fld (sliceB x.ps 8 32) 24 1 = 1 → c.f6Source (fld (sliceB x.ps 8 32) 26 2) = true) {g : Nat}
    (hg : g = fld (c.classEntry (fld x.ps 0 2)) 28 2) :
    bodyEthClassWrite x c = if fld x.ps 2 1 = 1 && fld x.ps 4 2 != g then no c stState 0x0902 else
      (ok [] (if g ≥ 65535 then 1 else g + 1), c.setClassEntry (fld x.ps 0 2) (patch (sliceB x.ps 8 32) 28 (le 2 (if g ≥ 65535 then 1 else g + 1)))) := by
  subst hg
  unfold bodyEthClassWrite
  dsimp only
  rw [if_neg (by simp [h3, h6, he]; omega), if_neg (by simp; exact hsrc)]
  rfl

theorem Chip.classEntry_set_ne {i j : Nat} (h : j ≠ i) (c : Chip) (e : Bytes) :
    (c.setClassEntry i e).classEntry j = c.classEntry j := Tab.get_set_ne _ _ _ h

end

/-! ### Rows -/

section
variable {s : State} {n : Fin 4} {f : Bytes} {g : Bool} {a u : Nat}

/-- A port that receives frames from its pads, without RS-FEC codewords to count and without INGRESS_CT (R320, R324). -/
def EthPort.storesFrames (k : EthPort) : Prop := k.up = true ∧ k.cfg.loop = 0 ∧ k.cfg.mode ≠ 4 ∧ bitOf k.cfg.pflags 4 = false

/-- The counter of the check that a frame fails (R324). -/
def EthPort.failure (k : EthPort) (f : Bytes) (fcsOk : Bool) : Option Nat :=
  if !fcsOk then some 3 else if f.length + 4 > k.cfg.maxFrame then some 4 else none

theorem execEthFrameRx_of_stores (h : (s.chip.ethPort n.val).storesFrames) :
    s.becomes (.ethFrameRx n f g a u) (s.chip.ethIngress n.val f ((s.chip.ethPort n.val).failure f g)) := by
  obtain ⟨hup, hl, hm, -⟩ := h
  change execEthFrameRx n f g a u s = _
  refine onChip_next ?_
  dsimp only
  rw [if_neg (by simp [hup, hl]), if_neg hm, if_neg (by simp [hl])]
  unfold Chip.ethReceive
  exact if_neg (by simp [hup])

/-- A frame that fails a check is counted there, and without INGRESS_CT makes nothing else (R324). -/
theorem Chip.ethIngress_bad {c : Chip} {m : Nat} (h : bitOf (c.ethPort m).cfg.pflags 4 = false) (k : Nat) :
    c.ethIngress m f (some k) = c.ethCount m k 1 := by
  unfold Chip.ethIngress
  dsimp only
  split
  next => rw [if_neg (by simp [h])]
  next => rfl

theorem Chip.ethIngress_control {c : Chip} {m : Nat} (h : c.ethFate m f = .control) :
    c.ethIngress m f none = (c.ethCount m 1 1).ethCount m 6 1 := by
  unfold Chip.ethIngress
  simp only [h]

theorem Chip.ethIngress_tunnel {c : Chip} {m t : Nat} (h : c.ethFate m f = .tunnel t) (hroom : f.length ≤ 65536 - c.ethWaiting m) :
    c.ethIngress m f none = (c.ethCount m 1 1).pushEth (frameCells t (m + 4 * framePcp f) f) := by
  have hwait : (c.ethCount m 1 1).ethWaiting m = c.ethWaiting m := rfl
  unfold Chip.ethIngress
  simp only [h, hwait]
  exact if_pos hroom

/-- A port with one whole frame ready, and no other ready or started, sends it (R325). -/
theorem Chip.ethStart_ready {c : Chip} {m : Nat} {e : EthFrame} {l : List EthFrame} (hup : (c.ethPort m).up = true)
    (hl : (c.ethPort m).cfg.loop = 0) (hq : (c.ethPort m).frames = e :: l) (hs : e.started = false) (hr : e.ready = true) (hd : e.done = true)
    (ho : ∀ g ∈ l, g.started = false ∧ g.ready = false) : c.ethStart m false = (c.setFrames m l).ethSend m e.bytes true := by
  have hnone : (e :: l).find? (fun g => g.started) = none := by
    rw [List.find?_eq_none]
    intro g hg
    rcases List.mem_cons.1 hg with rfl | hg
    · simp [hs]
    · simp [(ho g hg).1]
  have hready : (e :: l).filter (fun g => g.ready) = [e] := by
    rw [List.filter_cons_of_pos hr, List.filter_eq_nil_iff.2 fun g hg => by simp [(ho g hg).2]]
  unfold Chip.ethStart
  dsimp only
  rw [if_neg (by simp [hup, hl]), hq, hnone, hready]
  have hsend : (if e.done = true then (c.setFrames m ((e :: l).erase e)).ethSend m e.bytes true else
      c.setFrames m ((e :: l).map fun h => if h = e then { h with started := true } else h)) = (c.setFrames m l).ethSend m e.bytes true := by
    rw [if_pos hd, List.erase_cons_head]
  cases hc : c.contracted e.tid
  case false => simpa [hc] using hsend
  case true => simpa [hc] using hsend

end

/-! ### PTP -/

section
variable {x : Ctx} {c : Chip}

/-- PTP_PORT_SET with fields in range on a running port that keeps its mode and its domain (Table 10.7). -/
theorem bodyPtpPortSet_of_kept {old k : PtpPort} (hold : old = c.ptp (fld x.ps 0 1)) (h3 : fld x.ps 0 1 ≤ 3) (hm : fld x.ps 1 1 ≤ 3)
    (hf : fld x.ps 2 1 ≤ 15) (hflags : bitOf (fld x.ps 2 1) 1 = false ∨ bitOf (fld x.ps 2 1) 2 = false)
    (h4 : logOk x.ps 4 = true) (h5 : logOk x.ps 5 = true) (h6 : logOk x.ps 6 = true) (h2 : 2 ≤ fld x.ps 7 1) (h10 : fld x.ps 7 1 ≤ 10)
    (hz : rsvd x.ps 10 2 = true) (hz' : rsvd x.ps 24 8 = true) (hon : (c.ethPort (fld x.ps 0 1)).on = true)
    (hmode : fld x.ps 1 1 = old.mode) (hdom : fld x.ps 3 1 = old.domain)
    (hothers : ∀ e ∈ c.time.ptp, e.1 = fld x.ps 0 1 ∨ e.2.mode = 0 ∨ e.2.domain = old.domain)
    (hparent : old.parent ≠ none ∨ c.time.data.find (0x20 + fld x.ps 0 1) = none)
    (hk : k = { old with pflags := fld x.ps 2 1, logSync := sfld x.ps 4 1, logAnnounce := sfld x.ps 5 1, logDelay := sfld x.ps 6 1,
                         announceTimeout := fld x.ps 7 1, priority1 := fld x.ps 8 1, priority2 := fld x.ps 9 1, ingressAdj := sfld x.ps 12 4,
                         egressAdj := sfld x.ps 16 4, asym := sfld x.ps 20 4 }) :
    bodyPtpPortSet x c = (ok, c.setPtp (fld x.ps 0 1) k) := by
  have hnone : (c.time.ptp.any fun e => e.1 != fld x.ps 0 1 && e.2.mode != 0 && e.2.domain != fld x.ps 3 1) = false := by
    rw [List.any_eq_false]
    intro e he
    rcases hothers e he with h | h | h <;> simp [h, hdom]
  have hbits : (bitOf (fld x.ps 2 1) 1 && bitOf (fld x.ps 2 1) 2) = false := by
    rcases hflags with h | h <;> simp [h]
  have hkeep : (decide (fld x.ps 1 1 = old.mode) && decide (fld x.ps 3 1 = old.domain)) = true := by simp [hmode, hdom]
  have hlost : ¬ (old.parent.isNone && (c.time.data.find (0x20 + fld x.ps 0 1)).isSome) = true := by
    rcases hparent with h | h <;> simp [h]
  subst hold hk
  unfold bodyPtpPortSet
  dsimp only
  rw [if_neg (by simp [h4, h5, h6, hz, hz', hnone, hbits]; omega), if_neg (by simp [hon])]
  simp only [if_pos hkeep]
  rw [hmode, hdom]
  exact congrArg (Prod.mk ok) (if_neg hlost)

end

/-- Settles O37. -/
theorem ethernetAndPtpAct : Obligations.EthernetAndPtpAct := by
  unfold Obligations.EthernetAndPtpAct
  rintro s p c b rfl
  refine ⟨?_, ?_, ?_, ?_, ?_, fun n k hk => ⟨?_, ?_, ?_, ?_⟩, ?_, fun n => ⟨?_, ?_, ?_⟩⟩
  · rintro n k d h rfl h3 ha hm hf hl hi ht h64 h96 hz hsrc hk hd
    exact runCommand_ok_empty h (bodyEthPortSet_of_valid h3 ha hm hf hl hi ht h64 h96 hz hsrc hk hd)
  · rintro i e g d h rfl rfl hg hi hw h3 h6 he hsrc
    have hbody := bodyEthClassWrite_of_valid (x := s.ctxOf 0x0902 p c) hi hw h3 h6 he hsrc hg
    refine ⟨fun hgen hd => ⟨?_, fun j hj => ?_⟩, fun h1 hne => ?_⟩
    · subst hd
      refine runCommand_ok h (hbody.trans (if_neg ?_)) (Nat.zero_le _)
      rcases hgen with hgen | hgen <;> simp [hgen]
    · subst hd
      exact Chip.classEntry_set_ne hj ..
    · exact runCommand_err h (hbody.trans (if_pos (by simp [h1, hne]))) (by decide)
  · rintro d h h1 hn rfl hroom
    refine runCommand_ok h (if_neg ?_) hroom
    simp
    omega
  · rintro k h h3 hz rfl hroom
    refine runCommand_ok h (if_neg ?_) (by simpa [zeros] using hroom)
    simp [hz]
    omega
  · rintro k d h h3 hclear hz rfl rfl hroom
    refine runCommand_ok h ?_ (by rwa [length_flatten_fields (m := 8) (fun _ => le_length ..)])
    unfold bodyEthCounters
    dsimp only
    rw [if_neg (by simp [hz]; omega), if_neg (by rcases hclear with h0 | ⟨h1, hl⟩ <;> simp [*])]
    rfl
  · rintro hon h7 href hm hup rs
    change execEthLockChange n true false rs s = _
    subst hk
    refine onChip_next ?_
    dsimp only
    simp only [hon, h7, href, hm, Bool.not_false, Bool.and_true, Bool.false_and, Nat.reduceBEq, Nat.reduceBNe, Bool.and_false,
      Bool.true_or]
    refine (Chip.ethUp_of_down (p := { s.chip.ethPort n.val with lock := true, an := false, rsAligned := false }) hup ..).trans ?_
    simp only [hm, Nat.mul_one, Nat.reduceMul]
  · intro hon hauto hl hlock
    subst hk
    change execEthAutoPolTimer n s = _
    exact onChip_next (if_pos (by simp [hon, hauto, hl, hlock]))
  · subst hk
    intro f a u hup hl hm hct
    have hrow := fun g => execEthFrameRx_of_stores (f := f) (g := g) (a := a) (u := u) ⟨hup, hl, hm, hct⟩
    have hgood : f.length + 4 ≤ (s.chip.ethPort n.val).cfg.maxFrame → (s.chip.ethPort n.val).failure f true = none :=
      fun hlen => if_neg (Nat.not_lt.2 hlen)
    refine ⟨(Chip.ethIngress_bad hct 3) ▸ hrow false, fun hlong => ?_, fun hlen hfate => ?_, fun t hlen hfate hroom => ?_⟩
    · have hbad : (s.chip.ethPort n.val).failure f true = some 4 := if_pos hlong
      rw [← Chip.ethIngress_bad hct 4 (f := f), ← hbad]
      exact hrow true
    · rw [← Chip.ethIngress_control hfate, ← hgood hlen]
      exact hrow true
    · rw [← Chip.ethIngress_tunnel hfate hroom, ← hgood hlen]
      exact hrow true
  · subst hk
    intro f l hup hl hq hs hr hd ho
    change execEthFrameTx n false s = _
    exact onChip_next (Chip.ethStart_ready hup hl hq hs hr hd ho)
  · rintro n k old h rfl hold h3 hm hf hflags h4 h5 h6 h2 h10 hz hz' hon hmode hdom hothers hparent hk
    exact runCommand_ok_empty h
      (bodyPtpPortSet_of_kept hold h3 hm hf hflags h4 h5 h6 h2 h10 hz hz' hon hmode hdom hothers hparent hk)
  · intro m hm
    change execPtpMessageRx n s = _
    refine onChip_next ?_
    simp only [hm]
    rfl
  · rintro k x rfl rfl hmode hup hmaster
    change execPtpIntervalTimer n .announce s = _
    refine onChip_next ?_
    dsimp only
    rw [if_neg (by simp [hmode, hup]), if_neg (by simp [hmaster])]
  · rintro k rfl hp
    change execPtpAnnounceTimeout n s = _
    exact onChip_next (if_neg (by simpa using hp))

end Sys2Proof.Machine
end

section
/-!
PROOFS. Chapter 16: the trivet registers that a VME master reaches (R401).
-/
namespace Sys2Proof.Machine

/-- A row of the bridge while it drives a bus. -/
theorem onLegacy_next {s : State} {f : Chip → Chip} {c : Chip} (hon : s.chip.legOn = true) (h : f s.chip = c) :
    onLegacy s f = .next { s with chip := c.legSettle } := by
  subst h
  exact onChip_next (if_pos hon)

/-- A row of the bridge while it drives no bus. -/
theorem onLegacy_off {s : State} {f : Chip → Chip} (hoff : s.chip.legOn = false) : onLegacy s f = .next { s with chip := s.chip } :=
  onChip_next (if_neg (by simp [hoff]))

section
variable {c : Chip} {n o : Nat}

theorem Chip.trivetOwner_of_find (h : c.leg.trivets.find n = some o) : c.trivetOwner n = o := Tab.get_of_find _ h

theorem Chip.trivetOwner_of_free (h : c.leg.trivets.find n = none) : c.trivetOwner n = 0xFFFF := Tab.get_of_find_none _ h

/-- Only the owner 0xFFFE is a VME master's. -/
theorem Chip.trivetOwner_eq_vme (h : c.leg.trivets.find n ≠ some 0xFFFE) : c.trivetOwner n ≠ 0xFFFE := by
  cases hf : c.leg.trivets.find n with
  | none => rw [Chip.trivetOwner_of_free hf]; decide
  | some o => rw [Chip.trivetOwner_of_find hf]; rintro rfl; exact h hf

theorem Chip.trivetTake_of_free (h : c.leg.trivets.find n = none) (who : Nat) :
    c.trivetTake n who = (c.setLeg fun l => { l with trivets := l.trivets.set n who }, true) := by
  simp [Chip.trivetTake, h]

theorem Chip.trivetTake_of_held (h : c.leg.trivets.find n = some o) (who : Nat) : c.trivetTake n who = (c, false) := by
  simp [Chip.trivetTake, h]

/-- What a 4-byte read of a held trivet's register returns (R401). -/
theorem heldTrivet_bytes (h : o < 2 ^ 16) :
    sliceB (be 4 (0x80000000 + o)) 0 4 = [0x80, 0, BitVec.ofNat 8 (o / 256), BitVec.ofNat 8 (o % 256)] := by
  have h1 : (0x80000000 + o) % 256 = o % 256 := by omega
  have h2 : (0x80000000 + o) / 256 % 256 = o / 256 := by omega
  have h3 : (0x80000000 + o) / 256 / 256 % 256 = 0 := by omega
  have h4 : (0x80000000 + o) / 256 / 256 / 256 % 256 = 0x80 := by omega
  simp only [sliceB, be, le, h1, h2, h3, h4]
  rfl

/-- A 4-byte read at trivet `n`'s register (R401). -/
theorem Chip.trivetCycle_read (hn : n < 8) : c.trivetCycle (4 * n) (.read 4) =
    (if (c.trivetTake n 0xFFFE).2 then (c.trivetTake n 0xFFFE).1 else c).slaveEnd true
      (some (sliceB (be 4 (if (c.trivetTake n 0xFFFE).2 then 0 else 0x80000000 + c.trivetOwner n)) 0 4)) := by
  have hoff : 4 * n / 4 = n ∧ 4 * n % 4 = 0 := by omega
  unfold Chip.trivetCycle
  simp only [hoff]
  exact if_neg (by simp; omega)

theorem Chip.trivetCycle_read_free (hn : n < 8) (h : c.leg.trivets.find n = none) :
    c.trivetCycle (4 * n) (.read 4) = (c.setLeg fun l => { l with trivets := l.trivets.set n 0xFFFE }).slaveEnd true (some [0, 0, 0, 0]) := by
  rw [Chip.trivetCycle_read hn, Chip.trivetTake_of_free h]
  simp only [if_pos]
  rfl

theorem Chip.trivetCycle_read_held (hn : n < 8) (h : c.leg.trivets.find n = some o) (h16 : o < 2 ^ 16) :
    c.trivetCycle (4 * n) (.read 4) =
      c.slaveEnd true (some [0x80, 0, BitVec.ofNat 8 (o / 256), BitVec.ofNat 8 (o % 256)]) := by
  rw [Chip.trivetCycle_read hn, Chip.trivetTake_of_held h, Chip.trivetOwner_of_find h]
  simp only [Bool.false_eq_true, if_false]
  rw [heldTrivet_bytes h16]

/-- A 4-byte write at trivet `n`'s register (R401). -/
theorem Chip.trivetCycle_write (hn : n < 8) {b : Bytes} (hb : b.length = 4) : c.trivetCycle (4 * n) (.write b) =
    if c.trivetOwner n = 0xFFFE then ((c.trivetFree n).slaveEnd true none).legKick
    else (c.setLeg fun l => { l with trivetWrites := sat32 l.trivetWrites 1 }).slaveEnd true none := by
  have hoff : 4 * n / 4 = n ∧ 4 * n % 4 = 0 := by omega
  unfold Chip.trivetCycle
  simp only [hoff, hb]
  exact if_neg (by simp; omega)

/-- Bytes of a slave cycle. -/
def slaveLen : SlaveCycle → Nat
  | .read n => n
  | .write d => d.length

/-- A slave cycle on a TRIVET window while the bridge neither owns the bus nor asks for it. -/
theorem execInboundCycle_trivet {s : State} {am : BitVec 6} {addr : BitVec 32} {x : SlaveCycle} {rmw : Bool} {i a k : Nat} {w : LegIn}
    (hon : s.chip.legOn = true) (ha : a = addr.toNat % 2 ^ amSpace am.toNat) (hk : slaveLen x = k) (h0 : k ≠ 0) (hm : s.chip.leg.cfg.mode = 1) (hs : s.chip.leg.slave = none) (ho : s.chip.leg.owned = false)
    (hr : s.chip.leg.requesting = false) (hd : s.chip.decodeIn am.toNat a k = some (i, w)) (hw : w.trivet = true) :
    s.becomes (.inboundCycle am addr x rmw) ((s.chip.trivetCycle (a - w.base) x).legSettle) := by
  subst ha hk
  change execInboundCycle am addr x rmw s = _
  refine onLegacy_next hon ?_
  cases x
  all_goals
    dsimp only [slaveLen] at h0 hd ⊢
    rw [if_neg (by simp [hm, hs, ho, h0])]
    simp [hd, hr, hw]

end

/-- Settles O49. -/
theorem trivetRegisters : Obligations.TrivetRegisters := by
  unfold Obligations.TrivetRegisters
  rintro s am addr data rmw c i w n a rfl ha hon hm hs ho hr hd hw hn haddr hlen
  have hoff : a - w.base = 4 * n := by omega
  have hread := execInboundCycle_trivet (x := .read 4) (rmw := rmw) hon ha rfl (by decide) hm hs ho hr hd hw
  have hwrite := execInboundCycle_trivet (x := .write data) (rmw := rmw) hon ha hlen (by decide) hm hs ho hr hd hw
  rw [hoff] at hread
  rw [hoff, Chip.trivetCycle_write hn hlen] at hwrite
  refine ⟨fun hfree => ?_, fun o hheld h16 => ?_, fun hheld => ?_, fun hother => ?_⟩
  · rw [Chip.trivetCycle_read_free hn hfree] at hread
    exact hread
  · rw [Chip.trivetCycle_read_held hn hheld h16] at hread
    exact hread
  · rw [if_pos (Chip.trivetOwner_of_find hheld)] at hwrite
    exact hwrite
  · rw [if_neg (Chip.trivetOwner_eq_vme hother)] at hwrite
    exact hwrite

end Sys2Proof.Machine
end

section
/-!
PROOFS. Chapter 16's commands: the answers of the bridge's settings, windows, grants, trivets and status.
-/
namespace Sys2Proof.Machine

section
variable {x : Ctx} {c : Chip}

/-! ### Settings -/

/-- The settings that a bridge with requests may not change (Table 16.5). -/
def LegCfg.sameBus (k o : LegCfg) : Bool := k.mode == o.mode && k.sysflags == o.sysflags && k.brLevel == o.brLevel && k.release == o.release

theorem bodyLegacyConfig_of_valid {k : LegCfg} (hk : k = legCfgOf x.ps) (hv : k.valid = true) (hf : fld x.ps 1 1 ≤ 15) (h19 : rsvd x.ps 19 1 = true)
    (h25 : rsvd x.ps 25 1 = true) (h32 : rsvd x.ps 32 16 = true) :
    bodyLegacyConfig x c = if bitOf (fld x.ps 1 1) 0 && k.inTimeout ≥ k.busTimer then no c stParam 0x0B0E
      else if !c.leg.q.isEmpty && !k.sameBus c.leg.cfg then no c stState 0x0B0D
      else (ok, (if bitOf (fld x.ps 1 1) 3 then c.storeConfig fun p => { p with leg := some k } else c).legApply k) := by
  subst hk
  have hsame : (!(legCfgOf x.ps).sameBus c.leg.cfg) = ((legCfgOf x.ps).mode != c.leg.cfg.mode || (legCfgOf x.ps).sysflags != c.leg.cfg.sysflags ||
      (legCfgOf x.ps).brLevel != c.leg.cfg.brLevel || (legCfgOf x.ps).release != c.leg.cfg.release) := by
    simp only [LegCfg.sameBus, Bool.not_and, bne]
  rw [hsame]
  unfold bodyLegacyConfig
  dsimp only
  rw [if_neg (by simp [hv, h19, h25, h32]; omega)]

theorem LegCfg.sameBus_iff (k o : LegCfg) :
    k.sameBus o = true ↔ k.mode = o.mode ∧ k.sysflags = o.sysflags ∧ k.brLevel = o.brLevel ∧ k.release = o.release := by
  simp [LegCfg.sameBus, and_assoc]

/-! ### Windows -/

theorem spanOk_iff (base size bits : Nat) :
    spanOk base size bits = true ↔ size % 4096 = 0 ∧ 4096 ≤ size ∧ base % 4096 = 0 ∧ base + size ≤ 2 ^ bits := by
  simp [spanOk, and_assoc]

/-- The window of WINDOW_SET's parameters, with generation `g`. -/
def legWinOf (b : Bytes) (g : Nat) : LegWin :=
  { enable := bitOf (fld b 1 1) 0, posted := bitOf (fld b 1 1) 1, prefetch := bitOf (fld b 1 1) 2, rmw := bitOf (fld b 1 1) 3,
    aperture := bitOf (fld b 1 1) 4, width := fld b 2 1, am := fld b 3 1, owner := fld b 4 1, trivet := fld b 5 1, size := fld b 8 4,
    base := fld b 12 4, slide := fld b 16 4, gen := g }

/-- An entry is legal for window `i` (R384 to R386, Table 16.6). -/
structure LegWin.Legal (w : LegWin) (c : Chip) (i : Nat) : Prop where
  width : w.width ≤ if c.strobe then 1 else 4
  am : c.strobe = false → amOk w.am = true
  owner : w.owner ≤ 63
  trivet : w.trivet ≤ 7
  span : spanOk w.base w.size (if c.strobe then 24 else amSpace w.am) = true
  slide : w.slide % 4096 = 0
  reach : w.slide ≤ w.size - 32768
  sole : (w.aperture && w.owner != 0 && c.leg.wins.any fun e => e.1 != i && e.2.aperture && e.2.owner == w.owner) = false

/-- The window's entry is replaced and its prefetch lines are dropped. -/
def Chip.setLegWin (c : Chip) (i : Nat) (w : LegWin) : Chip :=
  (c.dropLines fun l => l.win == i).setLeg fun l => { l with wins := l.wins.set i w }

theorem bodyWindowSet_of_legal {w : LegWin} (hi : fld x.ps 0 1 ≤ 15) (hf : fld x.ps 1 1 ≤ 127)
    (hw : w = legWinOf x.ps (if (c.legWin (fld x.ps 0 1)).gen ≥ 65535 then 1 else (c.legWin (fld x.ps 0 1)).gen + 1))
    (hl : w.Legal c (fld x.ps 0 1)) (hz : rsvd x.ps 20 12 = true) :
    bodyWindowSet x c = if c.poisoned (fld x.ps 0 1) then no c stState 0x0B04
      else if bitOf (fld x.ps 1 1) 5 && fld x.ps 6 2 != (c.legWin (fld x.ps 0 1)).gen then no c stState 0x0B0F
      else (ok [] w.gen, if bitOf (fld x.ps 1 1) 6 then
        (c.setLegWin (fld x.ps 0 1) w).storeConfig fun p => { p with legWins := p.legWins.set (fld x.ps 0 1) w } else c.setLegWin (fld x.ps 0 1) w) := by
  obtain ⟨hwidth, ham, ho, ht, hspan, hslide, hreach, hsole⟩ := hl
  have ham' : (!c.strobe && !amOk w.am) = false := by
    cases hs : c.strobe
    case false => simp [ham hs]
    case true => rfl
  subst hw
  unfold bodyWindowSet
  extract_lets i fl old w second
  have hsecond : second = false := hsole
  have hmode : (!c.strobe && !amOk w.am) = false := ham'
  have hspan' : spanOk w.base w.size (if c.strobe = true then 24 else amSpace w.am) = true := hspan
  have hfields : i ≤ 15 ∧ fl ≤ 127 ∧ w.width ≤ (if c.strobe = true then 1 else 4) ∧ w.owner ≤ 63 ∧ w.trivet ≤ 7 ∧ w.slide % 4096 = 0 ∧
      w.slide ≤ w.size - 32768 := ⟨hi, hf, hwidth, ho, ht, hslide, hreach⟩
  rw [if_neg]
  · rfl
  · clear_value i fl w second
    simp [hsecond, hmode, hspan', hz, hfields]

/-- The entry of INBOUND_SET's parameters. -/
def legInOf (b : Bytes) : LegIn :=
  { enable := bitOf (fld b 1 1) 0, trivet := bitOf (fld b 1 1) 1, amsel := fld b 2 1, tid := fld b 4 2, base := fld b 8 4, size := fld b 12 4,
    target := fld b 16 8 }

theorem bodyInboundSet_of_valid {w : LegIn} (hw : w = legInOf x.ps) (hi : fld x.ps 0 1 ≤ 7) (hf : fld x.ps 1 1 ≤ 7) (h3 : rsvd x.ps 3 1 = true)
    (h6 : rsvd x.ps 6 2 = true) (h24 : rsvd x.ps 24 8 = true) (ha : w.amsel ≤ 127) (ht : w.tid ≤ 1023)
    (hs : spanOk w.base w.size 32 = true) (h16 : bitOf w.amsel 0 = true → w.base + w.size ≤ 2 ^ 16)
    (h24' : bitOf w.amsel 1 = true → w.base + w.size ≤ 2 ^ 24) (hv : w.trivet = true → w.size = 4096) :
    bodyInboundSet x c = if w.enable && !w.trivet && !c.hostTid w.tid then no c stState 0x0B0B
      else (ok, if bitOf (fld x.ps 1 1) 2 then
        (c.setLeg fun l => { l with ins := l.ins.set (fld x.ps 0 1) w }).storeConfig fun p => { p with legIns := p.legIns.set (fld x.ps 0 1) w }
        else c.setLeg fun l => { l with ins := l.ins.set (fld x.ps 0 1) w }) := by
  obtain ⟨hmod, h4096, hbase, h32⟩ := (spanOk_iff ..).1 hs
  have hspan : ([(0, 16), (1, 24), (2, 32)].all fun e => !bitOf w.amsel e.1 || spanOk w.base w.size e.2) = true := by
    simp only [List.all_cons, List.all_nil, Bool.and_true, Bool.and_eq_true, Bool.or_eq_true, Bool.not_eq_true', spanOk_iff]
    refine ⟨?_, ?_, ?_⟩
    · exact (Bool.eq_false_or_eq_true _).symm.imp_right fun h => ⟨hmod, h4096, hbase, h16 h⟩
    · exact (Bool.eq_false_or_eq_true _).symm.imp_right fun h => ⟨hmod, h4096, hbase, h24' h⟩
    · exact .inr ⟨hmod, h4096, hbase, h32⟩
  have hpage : (w.trivet && w.size != 4096) = false := by
    cases hw' : w.trivet
    case false => rfl
    case true => simp [hv hw']
  subst hw
  unfold bodyInboundSet
  extract_lets i fl w span
  have hspan' : span = true := hspan
  have hpage' : (w.trivet && w.size != 4096) = false := hpage
  have hs' : spanOk w.base w.size 32 = true := hs
  have hfields : i ≤ 7 ∧ fl ≤ 7 ∧ w.amsel ≤ 127 ∧ w.tid ≤ 1023 := ⟨hi, hf, ha, ht⟩
  rw [if_neg]
  · rfl
  · clear_value i fl w span
    simp [hspan', hpage', hs', hfields, h3, h6, h24]

theorem bodyWindowSlide_of_valid (hi : fld x.ps 0 1 ≤ 15) (hz : rsvd x.ps 1 3 = true) (hv : fld x.ps 4 4 % 4096 = 0)
    (hr : fld x.ps 4 4 ≤ (c.legWin (fld x.ps 0 1)).size - 32768) :
    bodyWindowSlide x c =
      if x.lvl = 2 && !((c.legWin (fld x.ps 0 1)).aperture && (c.legWin (fld x.ps 0 1)).owner = x.iss) then no c stDenied 0x0002
      else (ok, c.setLeg fun l => { l with wins := l.wins.set (fld x.ps 0 1) { c.legWin (fld x.ps 0 1) with slide := fld x.ps 4 4 } }) := by
  unfold bodyWindowSlide
  dsimp only
  rw [if_neg (by simp [hz, hv]; omega)]

theorem bodyClearWindowError_of_poisoned {e : LegErr} (hi : fld x.ps 0 1 ≤ 15) (hz : rsvd x.ps 1 3 = true)
    (he : (c.legHealth (fld x.ps 0 1)).poisoned = some e) (hl : x.lvl ≠ 2 ∨ (c.legWin (fld x.ps 0 1)).owner = x.iss) :
    bodyClearWindowError x c =
      (ok (le 4 e.addr ++ le 1 e.tag ++ le 1 e.cause ++ le 6 e.turn ++ le 4 (c.legHealth (fld x.ps 0 1)).discarded),
       (c.setHealth (fld x.ps 0 1) fun h => { h with poisoned := none, discarded := 0 }).dropLines fun l => l.win == fld x.ps 0 1) := by
  unfold bodyClearWindowError
  dsimp only
  rw [if_neg (by simp [hz]; omega), if_neg (by rcases hl with hl | hl <;> simp [hl]), he]
  rfl

/-- The grants of a tunnel are the window mask `m`, none when it is 0 (R385). -/
def Legacy.setGrant (l : Legacy) (t m : Nat) : Legacy := { l with grants := if m = 0 then l.grants.erase t else l.grants.set t m }

theorem bodyLegacyGrant_of_valid (ht : fld x.ps 0 2 ≤ 1023) (hz : rsvd x.ps 4 4 = true) :
    bodyLegacyGrant x c = (ok, c.setLeg fun l => l.setGrant (fld x.ps 0 2) (fld x.ps 2 2)) := if_neg (by simp [hz]; omega)

theorem bodyIrqRearm_of_valid (h1 : 1 ≤ fld x.ps 0 1) (h7 : fld x.ps 0 1 ≤ 7) (hz : rsvd x.ps 1 3 = true) :
    bodyIrqRearm x c = if x.lvl = 2 && nth 0xFF c.leg.cfg.irqOwner (fld x.ps 0 1 - 1) != x.iss then no c stDenied 0x0002
      else (ok, c.setLeg fun l => { l with irqMasked := setBit l.irqMasked (fld x.ps 0 1) false }) := by
  unfold bodyIrqRearm
  dsimp only
  rw [if_neg (by simp [hz]; omega)]

/-! ### Trivets -/

/-- TRIVET with fields in range and a level that its OP allows. -/
theorem bodyTrivet_of_valid (h7 : fld x.ps 0 1 ≤ 7) (hop : fld x.ps 1 1 ≤ 2) (hz : rsvd x.ps 2 2 = true) (hl : fld x.ps 1 1 = 2 → x.lvl = 1) :
    bodyTrivet x c =
      if fld x.ps 1 1 = 0 then
        if (c.trivetTake (fld x.ps 0 1) (0x1000 + x.iss)).2 then (ok [] (0x1000 + x.iss), (c.trivetTake (fld x.ps 0 1) (0x1000 + x.iss)).1)
        else no c stBusy 0x0B08 (c.trivetOwner (fld x.ps 0 1))
      else if c.trivetOwner (fld x.ps 0 1) = 0x1000 + x.iss || (fld x.ps 1 1 = 2 && c.trivetOwner (fld x.ps 0 1) != 0xFFFF) then
        (ok [] 0xFFFF, ((c.trivetFree (fld x.ps 0 1)).legKick).legSettle)
      else no c stState 0x0B09 (c.trivetOwner (fld x.ps 0 1)) := by
  unfold bodyTrivet
  dsimp only
  rw [if_neg (by simp [hz]; omega), if_neg (by simp; exact hl)]

theorem bodyTrivet_forced_denied (h7 : fld x.ps 0 1 ≤ 7) (hop : fld x.ps 1 1 = 2) (hz : rsvd x.ps 2 2 = true) (hl : x.lvl ≠ 1) :
    bodyTrivet x c = no c stDenied 0x0002 := by
  unfold bodyTrivet
  dsimp only
  rw [if_neg (by simp [hz]; omega), if_pos (by simp [hop, hl])]

/-! ### Status -/

/-- The mask of the numbers below `n` that satisfy `p`. -/
def maskOf (p : Nat → Bool) (n : Nat) : Nat := (List.range n).foldl (fun a i => a + if p i then 2 ^ i else 0) 0

theorem maskOf_succ (p : Nat → Bool) (n : Nat) : maskOf p (n + 1) = maskOf p n + if p n then 2 ^ n else 0 := by
  simp [maskOf, List.range_succ]

theorem maskOf_lt (p : Nat → Bool) (n : Nat) : maskOf p n < 2 ^ n := by
  induction n with
  | zero => exact Nat.one_pos
  | succ n ih =>
    rw [maskOf_succ, Nat.pow_succ]
    split <;> omega

theorem bitOf_maskOf (p : Nat → Bool) {n k : Nat} (hk : k < n) : bitOf (maskOf p n) k = p k := by
  induction n with
  | zero => cases hk
  | succ n ih =>
    have hclear := bitOf_of_lt_two_pow (maskOf_lt p n)
    rw [maskOf_succ]
    obtain hkn | rfl := Nat.lt_succ_iff_lt_or_eq.1 hk
    · rw [← ih hkn]
      split
      next => exact bitOf_add_two_pow hclear (Nat.ne_of_lt hkn)
      next => rfl
    · cases hp : p k
      case false => simpa using hclear
      case true => simp [bitOf_add_two_pow_same, hclear]

/-- The owner code that LEGACY_STATUS shows an issuer for trivet `n`. -/
def Chip.trivetShown (c : Chip) (x : Ctx) (n : Nat) : Nat :=
  if x.lvl != 1 && c.trivetOwner n != 0xFFFF && c.trivetOwner n != 0x1000 + x.iss then 0xFFFD else c.trivetOwner n

/-- The response of LEGACY_STATUS (Table 16.7). -/
def Chip.legStatus (c : Chip) (x : Ctx) : Bytes :=
  le 1 c.leg.cfg.mode ++ le 1 c.leg.cfg.sysflags ++ le 1 c.leg.q.length ++ le 1 c.leg.irqMasked ++ le 2 (maskOf c.poisoned 16) ++ zeros 2
    ++ ((List.range 16).map fun i => le 2 (c.legWin i).gen).flatten ++ ((List.range 8).map fun n => le 2 (c.trivetShown x n)).flatten
    ++ ((List.range 8).map fun i => le 4 (c.leg.cnt.get 0 i)).flatten ++ ((List.range 16).map fun i => le 4 (nth 0 c.leg.ring i)).flatten

theorem bodyLegacyStatus_eq (x : Ctx) (c : Chip) : bodyLegacyStatus x c = (ok (c.legStatus x), c) := rfl

/-- The fields of LEGACY_STATUS before its tables. -/
def Chip.legStatusHead (c : Chip) : Bytes :=
  le 1 c.leg.cfg.mode ++ le 1 c.leg.cfg.sysflags ++ le 1 c.leg.q.length ++ le 1 c.leg.irqMasked ++ le 2 (maskOf c.poisoned 16) ++ zeros 2

theorem Chip.legStatusHead_length (c : Chip) : c.legStatusHead.length = 8 := by
  simp [Chip.legStatusHead]

theorem Chip.legStatus_length (c : Chip) (x : Ctx) : (c.legStatus x).length = 152 := by
  simp [Chip.legStatus, length_flatten_fields (m := 2) (fun _ => le_length ..), length_flatten_fields (m := 4) (fun _ => le_length ..)]

/-- Entry `i` of a table of numbers that stands after `o` bytes of a response. -/
theorem fld_table {a b : Bytes} {o m n i : Nat} {g : Nat → Nat} (ha : a.length = o) (hi : i < n) :
    fld (a ++ ((List.range n).map fun k => le m (g k)).flatten ++ b) (o + m * i) m = g i % 256 ^ m := by
  have hlen := length_flatten_fields (f := fun k => le m (g k)) (fun _ => le_length ..) n
  have hin : m * i + m ≤ n * m := by
    rw [← Nat.mul_succ, Nat.mul_comm n]
    exact Nat.mul_le_mul_left m hi
  rw [fld_append_left (by rw [List.length_append, hlen]; omega), fld_append_right (by omega), ha, Nat.add_sub_cancel_left]
  exact (congrArg leNat (sliceB_flatten_records (f := fun k => le m (g k)) (fun _ => le_length ..) hi)).trans (leNat_le m (g i))

theorem Chip.fld_legStatus_head (c : Chip) (x : Ctx) {o n : Nat} (h : o + n ≤ 8) : fld (c.legStatus x) o n = fld c.legStatusHead o n := by
  have hhead : c.legStatus x = c.legStatusHead ++ (((List.range 16).map fun i => le 2 (c.legWin i).gen).flatten ++
      (((List.range 8).map fun n => le 2 (c.trivetShown x n)).flatten ++ (((List.range 8).map fun i => le 4 (c.leg.cnt.get 0 i)).flatten ++
      ((List.range 16).map fun i => le 4 (nth 0 c.leg.ring i)).flatten))) := by
    simp [Chip.legStatus, Chip.legStatusHead]
  rw [hhead, fld_append_left (by rw [Chip.legStatusHead_length]; exact h)]

theorem Chip.fld_legStatus_gen (c : Chip) (x : Ctx) {k : Nat} (hk : k < 16) : fld (c.legStatus x) (8 + 2 * k) 2 = (c.legWin k).gen % 65536 := by
  unfold Chip.legStatus
  rw [List.append_assoc, List.append_assoc]
  exact fld_table (g := fun i => (c.legWin i).gen) c.legStatusHead_length hk

theorem Chip.fld_legStatus_trivet (c : Chip) (x : Ctx) {k : Nat} (hk : k < 8) : fld (c.legStatus x) (40 + 2 * k) 2 = c.trivetShown x k % 65536 := by
  unfold Chip.legStatus
  rw [List.append_assoc]
  refine fld_table (g := c.trivetShown x) ?_ hk
  rw [List.length_append, length_flatten_fields (fun _ => le_length ..)]
  exact congrArg (· + 16 * 2) c.legStatusHead_length

theorem Chip.fld_legStatus_count (c : Chip) (x : Ctx) {k : Nat} (hk : k < 8) : fld (c.legStatus x) (56 + 4 * k) 4 = c.leg.cnt.get 0 k % 2 ^ 32 := by
  unfold Chip.legStatus
  refine fld_table (g := fun i => c.leg.cnt.get 0 i) ?_ hk
  rw [List.length_append, List.length_append, length_flatten_fields (fun _ => le_length ..), length_flatten_fields (fun _ => le_length ..)]
  exact congrArg (· + 16 * 2 + 8 * 2) c.legStatusHead_length

end

/-- Settles O52. -/
theorem legacyCommandsAct : Obligations.LegacyCommandsAct := by
  unfold Obligations.LegacyCommandsAct
  rintro s p c b i rfl rfl
  refine ⟨fun k h hk hv hf h19 h25 h32 => ?_, fun w g fl h hfl hi hf hg hw hbus hstrobe ho ht hsize h4096 hbase hslide hreach hz hsole => ?_,
    fun w h hi hf h3 h6 h24 hw ha ht hsize h4096 hbase h32 h16 h24' hpage => ?_, fun v h hv hi hz hmod hreach => ?_,
    fun e h hi hz hroom he hl => ?_, fun t m h ht hm h1023 hz => ?_, fun h h1 h7 hz => ?_, fun u h hu h7 hz => ?_, fun h hroom => ?_⟩
  · have hbody := bodyLegacyConfig_of_valid (x := s.ctxOf 0x0B01 p c) (c := c) hk hv hf h19 h25 h32
    refine ⟨fun h0 hle => ?_, fun hto same hsame => ?_⟩
    · exact runCommand_err h (hbody.trans (if_pos (by simp [h0, hle]))) (by decide)
    · rw [if_neg (by rcases hto with hto | hto <;> simp [hto])] at hbody
      rw [← LegCfg.sameBus_iff] at hsame
      have hkept : c.leg.q = [] ∨ same → ¬ (!c.leg.q.isEmpty && !k.sameBus c.leg.cfg) = true := by
        rintro (hq | hq)
        · simp [hq]
        · simp [hsame.1 hq]
      refine ⟨fun hq hne => ?_, fun hq h3 => ?_, fun hq h3 => ?_⟩
      · rw [if_pos (by simp [hq, mt hsame.2 hne])] at hbody
        exact runCommand_err h hbody (by decide)
      · rw [if_neg (hkept hq)] at hbody
        exact runCommand_ok_empty h (hbody.trans (by simp [h3]))
      · rw [if_neg (hkept hq)] at hbody
        exact runCommand_ok_empty h (hbody.trans (by simp [h3]))
  · subst hfl hg
    have hlegal : w.Legal c (fld p.params 0 1) := {
      width := by cases hs : c.strobe <;> simp [hs, hbus, hstrobe]
      am := fun hs => by simpa [amOk] using (hbus hs).2.1
      owner := ho
      trivet := ht
      span := (spanOk_iff ..).2 ⟨hsize, h4096, hbase, by
        cases hs : c.strobe
        case false => simpa using (hbus hs).2.2
        case true => simpa using (hstrobe hs).2⟩
      slide := hslide
      reach := hreach
      sole := by
        rw [Bool.eq_false_iff]
        intro hany
        simp only [Bool.and_eq_true, List.any_eq_true, bne_iff_ne, beq_iff_eq] at hany
        obtain ⟨⟨hap, hown⟩, e, he, ⟨hne, hea⟩, heq⟩ := hany
        exact hsole hap hown e he hne hea heq }
    have hbody := bodyWindowSet_of_legal (x := s.ctxOf 0x0B02 p c) (c := c) hi hf hw hlegal hz
    have hg : w.gen = if 65535 ≤ (c.legWin (fld p.params 0 1)).gen then 1 else (c.legWin (fld p.params 0 1)).gen + 1 := by rw [hw]
    rw [← hg]
    refine ⟨fun hp => ?_, fun hp h5 hne => ?_, fun hp hgen d hd => ?_⟩
    · exact runCommand_err h (hbody.trans (if_pos hp)) (by decide)
    · rw [if_neg (by simp [hp])] at hbody
      exact runCommand_err h (hbody.trans (if_pos (by simp [h5, hne]))) (by decide)
    · subst hd
      rw [if_neg (by simp [hp]), if_neg (by rcases hgen with hgen | hgen <;> simp [hgen])] at hbody
      refine ⟨fun h6 => ?_, fun h6 => ?_⟩
      · exact runCommand_ok h (hbody.trans (congrArg (Prod.mk _) (if_neg (by simp [h6])))) (Nat.zero_le _)
      · exact runCommand_ok h (hbody.trans (congrArg (Prod.mk _) (if_pos h6))) (Nat.zero_le _)
  · have hbody := bodyInboundSet_of_valid (x := s.ctxOf 0x0B03 p c) (c := c) hw hi hf h3 h6 h24 ha ht
      ((spanOk_iff ..).2 ⟨hsize, h4096, hbase, h32⟩) h16 h24' hpage
    refine ⟨fun he htr hh => ?_, fun hto d hd => ?_⟩
    · exact runCommand_err h (hbody.trans (if_pos (by simp [he, htr, hh]))) (by decide)
    · subst hd
      rw [if_neg (by rcases hto with hto | hto | hto <;> simp [hto])] at hbody
      refine ⟨fun h2 => ?_, fun h2 => ?_⟩
      · exact runCommand_ok_empty h (hbody.trans (congrArg (Prod.mk _) (if_neg (by simp [h2]))))
      · exact runCommand_ok_empty h (hbody.trans (congrArg (Prod.mk _) (if_pos h2)))
  · subst hv
    have hbody := bodyWindowSlide_of_valid (x := s.ctxOf 0x0B04 p c) (c := c) hi hz hmod hreach
    refine ⟨fun h2 hne => ?_, fun hto => ?_⟩
    · refine runCommand_err h (hbody.trans (if_pos ?_)) (by decide)
      rcases hne with hne | hne <;> simp [h2, hne]
    · refine runCommand_ok_empty h (hbody.trans (if_neg ?_))
      rcases hto with hto | ⟨hap, hown⟩ <;> simp [*]
  · refine runCommand_ok h (bodyClearWindowError_of_poisoned (x := s.ctxOf 0x0B05 p c) hi hz he hl) ?_
    simpa using hroom
  · subst ht hm
    have hbody := bodyLegacyGrant_of_valid (x := s.ctxOf 0x0B06 p c) (c := c) h1023 hz
    refine ⟨fun h0 => ?_, fun h0 => ?_⟩
    · simp only [Legacy.setGrant, State.ctxOf_ps, if_pos h0] at hbody
      exact runCommand_ok_empty h hbody
    · simp only [Legacy.setGrant, State.ctxOf_ps, if_neg h0] at hbody
      exact runCommand_ok_empty h hbody
  · have hbody := bodyIrqRearm_of_valid (x := s.ctxOf 0x0B07 p c) (c := c) h1 h7 hz
    refine ⟨fun h2 hne => ?_, fun hto => ?_⟩
    · exact runCommand_err h (hbody.trans (if_pos (by simp [h2, hne]))) (by decide)
    · refine runCommand_ok_empty h (hbody.trans (if_neg ?_))
      rcases hto with hto | hto <;> simp [hto]
  · subst hu
    have htake : fld p.params 1 1 = 0 → _ := fun h0 =>
      (bodyTrivet_of_valid (x := s.ctxOf 0x0B08 p c) (c := c) h7 (by simp [h0]) hz (by simp [h0])).trans (if_pos h0)
    have hfree : fld p.params 1 1 = 1 ∨ fld p.params 1 1 = 2 ∧ (c.issuer p.sess).2 = 1 → _ := fun h12 =>
      (bodyTrivet_of_valid (x := s.ctxOf 0x0B08 p c) (c := c) h7 (by simp; omega) hz (by simp; omega)).trans (if_neg (by simp; omega))
    refine ⟨fun h0 hnone => ?_, fun o h0 hheld => ?_, fun h1 hown => ?_, fun o h1 hheld hne => ?_, fun h1 hlt hnone => ?_, fun h2 hl => ?_,
      fun o h2 hl hheld hne => ?_⟩
    · refine runCommand_ok h ((htake h0).trans ?_) (Nat.zero_le _)
      simp only [State.ctxOf_ps, State.ctxOf_iss, Chip.trivetTake_of_free hnone, if_true]
      rfl
    · refine runCommand_err h ((htake h0).trans ?_) (by decide)
      simp only [State.ctxOf_ps, State.ctxOf_iss, Chip.trivetTake_of_held hheld, Chip.trivetOwner_of_find hheld, Bool.false_eq_true, if_false]
      rfl
    · refine runCommand_ok h ((hfree (.inl h1)).trans (if_pos ?_)) (Nat.zero_le _)
      simp [Chip.trivetOwner_of_find hown]
    · refine runCommand_err h ((hfree (.inl h1)).trans ((if_neg ?_).trans ?_)) (by decide)
      · simp [Chip.trivetOwner_of_find hheld, hne, h1]
      · simp only [State.ctxOf_ps, Chip.trivetOwner_of_find hheld]
        rfl
    · refine runCommand_err h ((hfree (.inl h1)).trans ((if_neg ?_).trans ?_)) (by decide)
      · simp [Chip.trivetOwner_of_free hnone, h1]
        omega
      · simp only [State.ctxOf_ps, Chip.trivetOwner_of_free hnone]
        rfl
    · exact runCommand_err h (bodyTrivet_forced_denied h7 h2 hz (by simp [hl])) (by decide)
    · refine runCommand_ok h ((hfree (.inr ⟨h2, hl⟩)).trans (if_pos ?_)) (Nat.zero_le _)
      simp [Chip.trivetOwner_of_find hheld, hne, h2]
  · refine ⟨c.legStatus (s.ctxOf 0x0B09 p c), c.legStatus_length _, ?_, ?_, ?_, ?_, ?_, fun k hk => ⟨?_, ?_⟩, fun k hk => ⟨fun h1 => ?_, ?_⟩⟩
    · exact runCommand_ok h (bodyLegacyStatus_eq ..) (by rwa [Chip.legStatus_length])
    · exact (Chip.fld_legStatus_head _ _ (by decide)).trans (by simp [Chip.legStatusHead, fld_append_left])
    · exact (Chip.fld_legStatus_head _ _ (by decide)).trans (by simp [Chip.legStatusHead, fld_append_left, fld_append_right])
    · exact (Chip.fld_legStatus_head _ _ (by decide)).trans (by simp [Chip.legStatusHead, fld_append_left, fld_append_right])
    · exact (Chip.fld_legStatus_head _ _ (by decide)).trans (by simp [Chip.legStatusHead, fld_append_left, fld_append_right])
    · have hmask : fld c.legStatusHead 4 2 = maskOf c.poisoned 16 % 2 ^ 16 := by simp [Chip.legStatusHead, fld_append_left, fld_append_right]
      rw [Chip.fld_legStatus_head _ _ (by decide), hmask, Nat.mod_eq_of_lt (maskOf_lt ..), bitOf_maskOf _ hk]
    · exact Chip.fld_legStatus_gen _ _ hk
    · rw [Chip.fld_legStatus_trivet _ _ hk]
      simp [Chip.trivetShown, h1]
    · exact Chip.fld_legStatus_count _ _ hk

end Sys2Proof.Machine
end

section
/-!
SUPPORT. The bridge's settings and the signal lines it hears: what serving requests and ending bus cycles leaves of them (R379, R382, R389).
-/
namespace Sys2Proof.Machine

/-- The bridge's settings, and SYSFAIL and ACFAIL as it hears them. -/
def Chip.heardBus (c : Chip) : LegCfg × Bool × Bool := (c.leg.cfg, c.leg.sysfail, c.leg.acfail)

theorem Chip.heardBus_of_leg {c d : Chip} (h : d.leg = c.leg) : d.heardBus = c.heardBus := congrArg (fun l => (l.cfg, l.sysfail, l.acfail)) h

theorem Chip.cfg_of_heardBus {c d : Chip} (h : d.heardBus = c.heardBus) : d.leg.cfg = c.leg.cfg := congrArg Prod.fst h
theorem Chip.sysfail_of_heardBus {c d : Chip} (h : d.heardBus = c.heardBus) : d.leg.sysfail = c.leg.sysfail := congrArg (·.2.1) h
theorem Chip.acfail_of_heardBus {c d : Chip} (h : d.heardBus = c.heardBus) : d.leg.acfail = c.leg.acfail := congrArg (·.2.2) h

theorem Chip.syscon_of_heardBus {c d : Chip} (h : d.heardBus = c.heardBus) : d.syscon = c.syscon := by
  unfold Chip.syscon
  rw [Chip.cfg_of_heardBus h]

section
variable (c : Chip)

/-! ### Pins, counts and tables -/

@[simp] theorem Chip.drive_heardBus (p : PinId) (v : Nat) : (c.drive p v).heardBus = c.heardBus := rfl
@[simp] theorem Chip.emit_heardBus (o : Out) : (c.emit o).heardBus = c.heardBus := rfl
@[simp] theorem Chip.postVi_heardBus (v x r d : Nat) : (c.postVi v x r d).heardBus = c.heardBus := Chip.heardBus_of_leg (c.postVi_leg v x r d)
@[simp] theorem Chip.pushSrc_heardBus (p : Nat) (x : Cell) : (c.pushSrc p x).heardBus = c.heardBus := rfl
@[simp] theorem Chip.legCount_heardBus (i d : Nat) : (c.legCount i d).heardBus = c.heardBus := rfl
@[simp] theorem Chip.setHealth_heardBus (i : Nat) (f : LegHealth → LegHealth) : (c.setHealth i f).heardBus = c.heardBus := rfl
@[simp] theorem Chip.discardWrite_heardBus (i : Nat) : (c.discardWrite i).heardBus = c.heardBus := rfl
@[simp] theorem Chip.dropLines_heardBus (p : LegLine → Bool) : (c.dropLines p).heardBus = c.heardBus := rfl
@[simp] theorem Chip.trivetFree_heardBus (n : Nat) : (c.trivetFree n).heardBus = c.heardBus := rfl
@[simp] theorem Chip.trivetTake_heardBus (n w : Nat) : (c.trivetTake n w).1.heardBus = c.heardBus := by
  unfold Chip.trivetTake
  split <;> rfl
@[simp] theorem Chip.atomicEnd_heardBus (r : LegReq) : (c.atomicEnd r).heardBus = c.heardBus := by
  simp [Chip.atomicEnd, apply_ite Chip.heardBus]

/-- A change of the bridge that leaves the settings and the two lines. -/
theorem Chip.setLeg_heardBus {f : Legacy → Legacy} (h : ∀ l : Legacy, ((f l).cfg, (f l).sysfail, (f l).acfail) = (l.cfg, l.sysfail, l.acfail)) :
    (c.setLeg f).heardBus = c.heardBus := h c.leg

/-! ### The bus -/

@[simp] theorem Chip.setVx_heardBus (k : Nat) (w : Option Bool) : (c.setVx k w).heardBus = c.heardBus := by
  cases w <;> simp [Chip.setVx, apply_ite Chip.heardBus, Chip.setLeg_heardBus]
@[simp] theorem Chip.vxFor_heardBus (m : Bool) (d : Option Bool) : (c.vxFor m d).heardBus = c.heardBus := by
  simp [Chip.vxFor]
@[simp] theorem Chip.busRelease_heardBus : c.busRelease.heardBus = c.heardBus := by
  simp [Chip.busRelease, apply_ite Chip.heardBus, Chip.setLeg_heardBus]
@[simp] theorem Chip.busRequest_heardBus : c.busRequest.heardBus = c.heardBus := by
  simp [Chip.busRequest, apply_ite Chip.heardBus, Chip.setLeg_heardBus]
@[simp] theorem Chip.arbitrate_heardBus : c.arbitrate.heardBus = c.heardBus := by
  unfold Chip.arbitrate
  dsimp only
  split
  · rfl
  · simp [apply_ite Chip.heardBus, Chip.setLeg_heardBus]
@[simp] theorem Chip.afterCycle_heardBus (e l : Bool) : (c.afterCycle e l).heardBus = c.heardBus := by
  simp [Chip.afterCycle, apply_ite Chip.heardBus]
@[simp] theorem Chip.cycleOver_heardBus : c.cycleOver.heardBus = c.heardBus := by
  simp [Chip.cycleOver, Chip.setLeg_heardBus]
@[simp] theorem Chip.startCycle_heardBus (r : LegReq) (k : LegCycle) : (c.startCycle r k).heardBus = c.heardBus := by
  simp [Chip.startCycle, Chip.setLeg_heardBus]

/-! ### Requests -/

@[simp] theorem Chip.legSend_heardBus (t x : Nat) (b : Bytes) : (c.legSend t x b).heardBus = c.heardBus := by
  unfold Chip.legSend
  dsimp only
  split
  · exact foldl_keeps_view Chip.heardBus (fun c x => c.pushSrc_heardBus 9 x) _ c
  · simp
@[simp] theorem Chip.legFinish_heardBus (r : LegReq) (st rs fail owner : Nat) : (c.legFinish r st rs fail owner).heardBus = c.heardBus := by
  simp [Chip.legFinish, apply_ite Chip.heardBus, Chip.setLeg_heardBus]
@[simp] theorem Chip.legDead_heardBus (r : LegReq) : (c.legDead r).heardBus = c.heardBus := by
  simp [Chip.legDead, apply_ite Chip.heardBus]
@[simp] theorem Chip.keepLine_heardBus (x : LegLine) : (c.keepLine x).heardBus = c.heardBus := by
  unfold Chip.keepLine
  split
  · rfl
  · extract_lets d
    have hroom : d.heardBus = c.heardBus := by
      unfold d
      split
      · simp [apply_ite Chip.heardBus]
      · rfl
    exact (d.setLeg_heardBus fun _ => rfl).trans hroom
@[simp] theorem Chip.keepPre_heardBus (r : LegReq) : (c.keepPre r).heardBus = c.heardBus :=
  foldl_keeps_view Chip.heardBus (fun c _ => c.keepLine_heardBus _) _ c
@[simp] theorem Chip.legRun_heardBus (fuel : Nat) : (c.legRun fuel).heardBus = c.heardBus := by
  induction fuel generalizing c with
  | zero => rfl
  | succ n ih =>
    unfold Chip.legRun
    split
    · rfl
    split
    · simp [apply_ite Chip.heardBus]
    split
    · simp [ih]
    split
    · simp [ih, apply_ite Chip.heardBus]
    split
    · simp [ih]
    split
    · simp [ih, Chip.setLeg_heardBus]
    extract_lets take hold d r r' d'
    have hhold : d.heardBus = c.heardBus := by
      unfold d hold
      split
      · rfl
      · split <;> simp [take]
    split
    · exact hhold
    · have hput : d'.heardBus = c.heardBus := (d.setLeg_heardBus fun _ => rfl).trans hhold
      split <;> simp [ih, apply_ite Chip.heardBus, hput]
@[simp] theorem Chip.legKick_heardBus : c.legKick.heardBus = c.heardBus := c.legRun_heardBus _

/-! ### Poisoning and the end of a cycle -/

@[simp] theorem Chip.poison_heardBus (i a t w : Nat) : (c.poison i a t w).heardBus = c.heardBus := by
  unfold Chip.poison
  split
  · rfl
  · extract_lets d posted n e f
    have hdisc : e.heardBus = d.heardBus := foldl_keeps_view Chip.heardBus (fun c _ => c.discardWrite_heardBus i) _ d
    rw [Chip.postVi_heardBus, show f.heardBus = e.heardBus from e.setLeg_heardBus fun _ => rfl, hdisc]
    rfl
@[simp] theorem Chip.cycleFailed_heardBus (r : LegReq) (k : LegCycle) (m : List LegCycle) (w : Nat) (b : Bytes) :
    (c.cycleFailed r k m w b).heardBus = c.heardBus := by
  simp [Chip.cycleFailed, apply_ite Chip.heardBus, Chip.setLeg_heardBus]
@[simp] theorem Chip.cycleEnd_heardBus (w : Option Nat) (b : Bytes) : (c.cycleEnd w b).heardBus = c.heardBus := by
  unfold Chip.cycleEnd
  split
  · rfl
  split
  · rfl
  split
  · rfl
  split
  · exact c.cycleFailed_heardBus ..
  · extract_lets d wr r r' put e
    have hput : ∀ e q, (put e q).heardBus = e.heardBus := fun e _ => e.setLeg_heardBus fun _ => rfl
    have hover : d.heardBus = c.heardBus := c.cycleOver_heardBus
    split
    · simp [hput, hover]
    split
    · split <;> simp [hput, hover]
    · simp [e, hover]

end

end Sys2Proof.Machine
end

section
/-!
PROOFS. Chapter 16's rows of the aperture and of the bridge as bus master (R379 to R392).
-/
namespace Sys2Proof.Machine

/-! ### The aperture -/

section
variable {s : State} {a : ApAccess} {d : Chip} {l : List (Nat × Nat)} {data : Bytes}

/-- The host reaches the aperture of a present VI. -/
def State.apertureReached (s : State) (a : ApAccess) : Prop := s.chip.hostReach = true ∧ (s.chip.inst a.vi.val).state ≠ .absent

/-- The aperture request of an access, but for the fields in which kinds of access differ. -/
def apReq (a : ApAccess) (i : Nat) (w : LegWin) : LegReq :=
  { client := 0x1000 + a.vi.val, xtag := a.tag, op := 1, idx := i, win := w, off := w.slide + a.off, len := a.len, parts := [] }

/-- An aperture access that completes as Unsupported Request. -/
def Chip.apertureUr (c : Chip) (a : ApAccess) : Chip := (c.aerError 3).emit (.apertureCpl a.vi.val a.tag 1 [])

theorem execApertureWrite_reached (h : s.apertureReached a) (hg : s.chip.apertureCheck s a 1 = (d, l)) (hl : l ≠ []) :
    s.becomes (.apertureWrite a data) ((d.apertureWin a).elim (d.legCount 2 1) fun e =>
      if d.poisoned e.1 then d.discardWrite e.1 else
        (d.apertureReq { apReq a e.1 e.2 with xtag := 0, op := 2, posted := true, data := sliceB data 0 a.len, parts := l }).legSettle) := by
  obtain ⟨hr, hi⟩ := h
  change execApertureWrite a data s = _
  refine onChip_next ?_
  dsimp only
  rw [if_neg (by simp [hr, hi]), hg, if_neg (by simpa using hl)]
  cases hwin : d.apertureWin a with
  | none => rfl
  | some e => rfl

theorem execApertureRead_reached (h : s.apertureReached a) (hg : s.chip.apertureCheck s a 0 = (d, l)) :
    s.becomes (.apertureRead a) (if l.isEmpty then d.apertureUr a else (d.apertureWin a).elim (d.apertureUr a) fun e =>
      (d.apertureReq { apReq a e.1 e.2 with parts := l, buf := legBuf a.len l }).legSettle) := by
  obtain ⟨hr, hi⟩ := h
  change execApertureRead a s = _
  refine onChip_next ?_
  dsimp only
  rw [if_neg (by simp [hr]), if_neg (by simpa using hi), hg]
  refine if_congr Iff.rfl rfl ?_
  cases hwin : d.apertureWin a with
  | none => rfl
  | some e => rfl

theorem execApertureAtomic_width (h : s.apertureReached a) (hw : a.len ≠ 4 ∧ a.len ≠ 8) (o : Fin 3) :
    s.becomes (.apertureAtomic a o data) (s.chip.apertureUr a) := by
  obtain ⟨hr, hi⟩ := h
  change execApertureAtomic a o data s = _
  refine onChip_next ?_
  dsimp only
  rw [if_neg (by simp [hr]), if_neg (by simpa using hi), if_pos (by simpa using hw)]
  rfl

theorem execApertureAtomic_reached (h : s.apertureReached a) (hw : a.len = 4 ∨ a.len = 8) (hg : s.chip.apertureCheck s a 2 = (d, l)) (o : Fin 3) :
    s.becomes (.apertureAtomic a o data) (if l.isEmpty then d.apertureUr a else (d.apertureWin a).elim (d.apertureUr a) fun e =>
      if d.strobe && a.len > (if e.2.width = 0 then 2 else 4) then d.apertureUr a else
        (d.apertureReq { apReq a e.1 e.2 with op := 3, data := sliceB data 0 (if o.val = 2 then 2 * a.len else a.len), atop := o.val,
                                              parts := [(0, a.len)], buf := List.replicate a.len 0xFF }).legSettle) := by
  obtain ⟨hr, hi⟩ := h
  change execApertureAtomic a o data s = _
  refine onChip_next ?_
  dsimp only
  rw [if_neg (by simp [hr]), if_neg (by simpa using hi), if_neg (by simp; omega), hg]
  refine if_congr Iff.rfl rfl ?_
  cases hwin : d.apertureWin a with
  | none => rfl
  | some e => rfl

theorem Chip.apertureReq_takes {c : Chip} (h : c.leg.apWait = []) (ht : c.leg.tagsKept < 64) (r : LegReq) : c.apertureReq r = c.legAccept r := by
  simp [Chip.apertureReq, h, ht]

theorem Chip.apertureReq_waits {c : Chip} (h : c.leg.apWait ≠ [] ∨ 64 ≤ c.leg.tagsKept) (r : LegReq) :
    c.apertureReq r = c.setLeg fun k => { k with apWait := k.apWait ++ [r] } := by
  unfold Chip.apertureReq
  exact if_neg (by rcases h with h | h <;> simp [h])

end

/-! ### Poisoning -/

section
variable {c : Chip} {i j : Nat}

theorem Chip.legHealth_setHealth (c : Chip) (i : Nat) (f : LegHealth → LegHealth) : (c.setHealth i f).legHealth i = f (c.legHealth i) := Tab.get_set ..

theorem Chip.legHealth_setHealth_ne (h : j ≠ i) (c : Chip) (f : LegHealth → LegHealth) : (c.setHealth i f).legHealth j = c.legHealth j :=
  Tab.get_set_ne _ _ _ h

theorem Chip.legHealth_of_leg {c d : Chip} (h : d.leg.health = c.leg.health) (j : Nat) : d.legHealth j = c.legHealth j := by
  unfold Chip.legHealth
  rw [h]

theorem Chip.legHealth_discardWrite (c : Chip) (i j : Nat) :
    (c.discardWrite i).legHealth j = (c.setHealth i fun h => { h with discarded := sat32 h.discarded 1 }).legHealth j :=
  Chip.legHealth_of_leg rfl j

theorem Chip.legHealth_dropLines (c : Chip) (p : LegLine → Bool) (j : Nat) : (c.dropLines p).legHealth j = c.legHealth j :=
  Chip.legHealth_of_leg rfl j

theorem Chip.legHealth_discardWrite_poisoned (c : Chip) (i : Nat) : ((c.discardWrite i).legHealth i).poisoned = (c.legHealth i).poisoned := by
  rw [Chip.legHealth_discardWrite, Chip.legHealth_setHealth]

theorem Chip.legHealth_discardWrite_ne (h : j ≠ i) (c : Chip) : (c.discardWrite i).legHealth j = c.legHealth j := by
  rw [Chip.legHealth_discardWrite, Chip.legHealth_setHealth_ne h]

/-- A posted write to a window that is not on the bus: poisoning discards it. -/
def LegReq.postedTo (i : Nat) (r : LegReq) : Bool := r.idx == i && r.op == 2 && r.posted && !r.started

/-- Window `i`'s error is recorded, its lines are gone, and the posted writes that it discards are counted. -/
def Chip.poisonRecord (c : Chip) (i : Nat) (e : LegErr) : Chip :=
  let d := (c.setHealth i fun h => { h with poisoned := some e }).dropLines fun x => x.win == i
  (List.range (d.leg.q.filter (LegReq.postedTo i)).length).foldl (fun c _ => c.discardWrite i) d

/-- The requests that poisoning leaves in the queue. -/
def Chip.poisonQueue (c : Chip) (i : Nat) : List LegReq :=
  (c.leg.q.filter fun r => !r.postedTo i).map fun (r : LegReq) =>
    if r.idx = i && (r.op = 1 || r.op = 2 || r.op = 3) && !r.started then { r with dead := true } else r

theorem Chip.poison_leg (h : c.poisoned i = false) (a t w : Nat) : (c.poison i a t w).leg =
    { (c.poisonRecord i { addr := a, tag := t, cause := w, turn := c.turn }).leg with
      q := (c.poisonRecord i { addr := a, tag := t, cause := w, turn := c.turn }).poisonQueue i } := by
  unfold Chip.poison
  rw [if_neg (by simp [h])]
  exact Chip.postVi_leg ..

theorem Chip.poisonRecord_poisoned (c : Chip) (i : Nat) (e : LegErr) : ((c.poisonRecord i e).legHealth i).poisoned = some e := by
  unfold Chip.poisonRecord
  refine (foldl_keeps_view (fun d => (d.legHealth i).poisoned) (fun d _ => d.legHealth_discardWrite_poisoned i) _ _).trans ?_
  rw [Chip.legHealth_dropLines, Chip.legHealth_setHealth]

theorem Chip.poisonRecord_legHealth_ne (h : j ≠ i) (c : Chip) (e : LegErr) : (c.poisonRecord i e).legHealth j = c.legHealth j := by
  unfold Chip.poisonRecord
  refine (foldl_keeps_view (fun d => d.legHealth j) (fun d _ => d.legHealth_discardWrite_ne h) _ _).trans ?_
  rw [Chip.legHealth_dropLines, Chip.legHealth_setHealth_ne h]

/-- What poisoning leaves of a window's posted writes is on the bus (R391). -/
theorem Chip.started_of_mem_poisonQueue {r : LegReq} (hr : r ∈ c.poisonQueue i) (hi : r.idx = i) (ho : r.op = 2) (hp : r.posted = true) :
    r.started = true := by
  unfold Chip.poisonQueue at hr
  obtain ⟨x, hx, rfl⟩ := List.mem_map.1 hr
  have hleft : x.postedTo i = false := by simpa using (List.mem_filter.1 hx).2
  by_cases hdead : (decide (x.idx = i) && (decide (x.op = 1) || decide (x.op = 2) || decide (x.op = 3)) && !x.started) = true
  · simp only [if_pos hdead] at hi ho hp ⊢
    simpa [LegReq.postedTo, hi, ho, hp] using hleft
  · simp only [if_neg hdead] at hi ho hp ⊢
    simpa [LegReq.postedTo, hi, ho, hp] using hleft

end

/-! ### Bus cycles -/

section
variable {s : State} {c : Chip}

/-- A posted write's cycle that fails: the write is over, and its window is poisoned (R391). -/
theorem Chip.cycleFailed_posted {r : LegReq} {k : LegCycle} {m : List LegCycle} {w : Nat} (hop : r.op = 2) (hp : r.posted = true)
    (hw : w = 1 ∨ w = 2 ∨ w = 3) (b : Bytes) : c.cycleFailed r k m w b =
      ((((((c.legCount (if w = 1 then 0 else 1) 1).cycleOver).legFinish { r with cycles := m } 0 0).poison r.idx k.addr r.tag w).afterCycle true
        false).legKick) := by
  have hcount : (if w = 1 then c.legCount 0 1 else if w = 4 then c else c.legCount 1 1) = c.legCount (if w = 1 then 0 else 1) 1 := by
    split
    next => rfl
    next => rw [if_neg (by omega)]
  unfold Chip.cycleFailed
  simp only [hcount, hop, hp]
  rfl

theorem Chip.cycleEnd_failed {r : LegReq} {k : LegCycle} {m : List LegCycle} {l : List LegReq} (hr : c.leg.running = true) (hq : c.leg.q = r :: l)
    (hc : r.cycles = k :: m) (w : Nat) (b : Bytes) : c.cycleEnd (some w) b = c.cycleFailed r k m w b := by
  unfold Chip.cycleEnd
  rw [if_neg (by simp [hr]), hq]
  simp only [hc]

/-- The system controller's part in a bus timer's expiry (R381). -/
theorem execBusTimerExpiry_in_vme (hon : s.chip.legOn = true) (hm : s.chip.leg.cfg.mode = 1) :
    s.becomes .busTimerExpiry
      (if s.chip.syscon && s.chip.leg.running then ((if s.chip.syscon then s.chip.drive .vmeBerr 1 else s.chip).cycleEnd (some 2) []).drive .vmeBerr 0
       else (if s.chip.syscon then s.chip.drive .vmeBerr 1 else s.chip).cycleEnd (some 2) []).legSettle := by
  have hsys : ((if s.chip.syscon then s.chip.drive .vmeBerr 1 else s.chip).cycleEnd (some 2) []).syscon = s.chip.syscon :=
    Chip.syscon_of_heardBus (by simp [apply_ite Chip.heardBus])
  change execBusTimerExpiry s = _
  refine onLegacy_next hon ?_
  dsimp only
  rw [if_neg (by simp [hm]), hsys]

/-! ### Arbitration -/

/-- A grant passed on ends once the granted master drives VME_BBSY_L (R379). -/
def Chip.afterGrant (c : Chip) (bbsy : Bool) : Chip := c.leg.grantedTo.elim c fun k => if bbsy && !c.leg.bbsy then c.drive (.vmeBgo k) 0 else c

/-- VME_BCLR_L ends once the bus is free (R379). -/
def Chip.afterClear (c : Chip) (busy bbsy : Bool) : Chip :=
  if busy && !bbsy && c.syscon && bitOf c.leg.cfg.sysflags 1 then c.drive .vmeBclr 0 else c

theorem Chip.afterGrant_ends {k : Nat} {c : Chip} (hg : c.leg.grantedTo = some k) (hb : c.leg.bbsy = false) :
    c.afterGrant true = c.drive (.vmeBgo k) 0 := by
  simp [Chip.afterGrant, hg, hb]

theorem Chip.afterGrant_stays {c : Chip} {bbsy : Bool} (h : c.leg.grantedTo = none ∨ c.leg.bbsy = true ∨ bbsy = false) : c.afterGrant bbsy = c := by
  unfold Chip.afterGrant
  cases hg : c.leg.grantedTo with
  | none => rfl
  | some k => exact if_neg (by rcases h with h | h | h <;> simp_all)

/-- The bridge has seen the other masters' lines as they now are. -/
def Chip.arbSeen (c : Chip) (brq : BitVec 4) (bclr bbsy : Bool) : Chip :=
  ((c.afterGrant bbsy).afterClear c.leg.bbsy bbsy).setLeg fun l => { l with brqOthers := brq.toNat, bclr, bbsy }

theorem Chip.afterGrant_leg (c : Chip) (bbsy : Bool) : (c.afterGrant bbsy).leg = c.leg := by
  unfold Chip.afterGrant
  cases c.leg.grantedTo with
  | none => rfl
  | some k => simp [apply_ite Chip.leg]

theorem Chip.arbSeen_leg (c : Chip) (brq : BitVec 4) (bclr bbsy : Bool) :
    (c.arbSeen brq bclr bbsy).leg = { c.leg with brqOthers := brq.toNat, bclr, bbsy } := by
  have hclear : ((c.afterGrant bbsy).afterClear c.leg.bbsy bbsy).leg = c.leg := by
    simp [Chip.afterClear, apply_ite Chip.leg, Chip.afterGrant_leg]
  exact congrArg (fun l : Legacy => { l with brqOthers := brq.toNat, bclr, bbsy }) hclear

/-- VME_ARBITRATION leaves the bridge as `e`, with the bus let go or not; a started atomic at the queue's head keeps the bus. -/
theorem execVmeArbitration_in_vme {brq : BitVec 4} {bclr bbsy : Bool} {d e : Chip} (hon : s.chip.legOn = true) (hm : s.chip.leg.cfg.mode = 1)
    (hd : d = s.chip.arbSeen brq bclr bbsy) (he : ∀ locked, (s.chip.leg.q = [] → locked = false) →
      (if s.chip.leg.owned && s.chip.leg.cfg.release = 1 && !s.chip.leg.running && !locked && (brq.toNat != 0 || bclr) then d.busRelease else d) = e) :
    s.becomes (.vmeArbitration brq bclr bbsy) ((e.arbitrate.legKick).legSettle) := by
  change execVmeArbitration brq bclr bbsy s = _
  refine onLegacy_next hon ((if_neg (by simp [hm])).trans ?_)
  extract_lets l c1 c2 d' locked e'
  have h1 : c1 = s.chip.afterGrant bbsy := by
    unfold c1 Chip.afterGrant
    cases s.chip.leg.grantedTo <;> rfl
  have hd' : d' = d := by
    rw [hd]
    unfold d' c2 l Chip.arbSeen Chip.afterClear
    rw [h1, Chip.afterGrant_leg]
  have hleg : d'.leg = { s.chip.leg with brqOthers := brq.toNat, bclr, bbsy } := by rw [hd', hd, Chip.arbSeen_leg]
  have hlocked : s.chip.leg.q = [] → locked = false := by
    intro hq
    unfold locked
    rw [hleg, hq]
  rw [← he locked hlocked]
  unfold e'
  rw [hleg, hd']

end

/-! ### SYSRESET -/

/-- SYSRESET seen with no request that holds a tag (R382). -/
theorem execVmeSysreset_asserted_idle {s : State} (hon : s.chip.legOn = true) (hq : s.chip.leg.q = []) :
    s.becomes (.vmeSysreset true) ((((s.chip.setLeg fun k => { k with sysreset := true, running := false }).busRelease).post 0x0B05 0
      (b2n s.chip.leg.sysfail + 2 * b2n s.chip.leg.acfail + 4)).legSettle) := by
  change execVmeSysreset true s = _
  refine onLegacy_next hon ((if_neg (by decide)).trans ?_)
  extract_lets c1 busy c2 c3 ws c4 c5 c6 c7
  have h2 : c2 = s.chip.setLeg fun k => { k with sysreset := true, running := false } := by
    have hbusy : busy = false := by
      unfold busy c1 Chip.setLeg
      rw [hq]
    unfold c2
    rw [hbusy, Bool.and_false]
    rfl
  have hq2 : c2.leg.q = [] := by
    rw [h2]
    exact hq
  have h3 : c3 = c2 := by
    unfold c3
    rw [hq2]
    rfl
  have hws : ws = [] := by
    unfold ws
    rw [h3, hq2]
    rfl
  have h6 : c6 = c2 := by
    unfold c6 c5 c4
    rw [hws]
    exact h3
  have hheard : c7.heardBus = s.chip.heardBus := by
    unfold c7
    rw [Chip.busRelease_heardBus, h6, h2]
    rfl
  rw [Chip.sysfail_of_heardBus hheard, Chip.acfail_of_heardBus hheard]
  unfold c7
  rw [h6, h2]

/-- The bus rows while the bridge drives no bus. -/
theorem busRows_off {s : State} (h : s.chip.legOn = false) :
    s.becomes .legacyTagGranted s.chip ∧ (∀ l, s.becomes (.busGrant l) s.chip) ∧ (∀ g d, s.becomes (.busCycleDone g d) s.chip) ∧
      s.becomes .busTimerExpiry s.chip ∧ s.becomes .readyTimeout s.chip ∧ (∀ b x y, s.becomes (.vmeArbitration b x y) s.chip) ∧
      (∀ a, s.becomes (.vmeSysreset a) s.chip) ∧ (∀ x y, s.becomes (.vmeSysfailAcfail x y) s.chip) ∧
      (∀ am a x r, s.becomes (.inboundCycle am a x r) s.chip) ∧ s.becomes .inboundCycleEnd s.chip ∧
      (∀ l d g, s.becomes (.irqPoll l d g) s.chip) ∧ (∀ n, s.becomes (.prefetchExpiry n) s.chip) :=
  ⟨(onLegacy_off h : execLegacyTagGranted s = _), fun l => (onLegacy_off h : execBusGrant l s = _),
    fun g d => (onLegacy_off h : execBusCycleDone g d s = _), (onLegacy_off h : execBusTimerExpiry s = _),
    (onLegacy_off h : execReadyTimeout s = _), fun b x y => (onLegacy_off h : execVmeArbitration b x y s = _),
    fun a => (onLegacy_off h : execVmeSysreset a s = _), fun x y => (onLegacy_off h : execVmeSysfailAcfail x y s = _),
    fun am a x r => (onLegacy_off h : execInboundCycle am a x r s = _), (onLegacy_off h : execInboundCycleEnd s = _),
    fun l d g => (onLegacy_off h : execIrqPoll l d g s = _), fun n => (onLegacy_off h : execPrefetchExpiry n s = _)⟩

/-- Settles O50. -/
theorem legacyBusActs : Obligations.LegacyBusActs := by
  unfold Obligations.LegacyBusActs
  rintro s c rfl
  refine ⟨busRows_off, fun a vi ur hvi hur => ?_, fun hon => ?_, ?_, ?_⟩
  · subst hvi
    have hur' : ∀ d, ur d = d.apertureUr a := hur
    refine ⟨fun hno => ⟨fun d => ?_, ?_, fun o d => ?_⟩, fun hr hi => ⟨fun d => ?_, ?_⟩, fun hr hi => ?_⟩
    · exact (onChip_next (if_pos (by simp [hno])) : execApertureWrite a d s = _)
    · exact (onChip_next (if_pos (by simp [hno])) : execApertureRead a s = _)
    · exact (onChip_next (if_pos (by simp [hno])) : execApertureAtomic a o d s = _)
    · exact (onChip_next (if_pos (by simp [hi])) : execApertureWrite a d s = _)
    · exact (onChip_next ((if_neg (by simp [hr])).trans (if_pos (by simp [hi]))) : execApertureRead a s = _)
    · have hreach : s.apertureReached a := ⟨hr, hi⟩
      refine ⟨fun data d l hg hl => ?_, fun d l hg => ?_, fun o x hw => ?_, fun o x d l hw hg => ?_⟩
      · have hrow := execApertureWrite_reached (data := data) hreach hg hl
        refine ⟨fun hnone => ?_, fun i w hwin => ?_⟩
        · rwa [hnone] at hrow
        · rw [hwin, Option.elim_some] at hrow
          refine ⟨fun hp => ?_, fun hp r hreq => ?_⟩
          · rwa [if_pos hp] at hrow
          · rw [if_neg (by simp [hp])] at hrow
            subst hreq
            refine ⟨fun hq ht => ?_, fun hq => ?_⟩
            · rw [Chip.apertureReq_takes hq ht] at hrow
              exact hrow
            · rw [Chip.apertureReq_waits hq] at hrow
              exact hrow
      · have hrow := execApertureRead_reached hreach hg
        refine ⟨fun hno => ?_, fun hl i w hwin r hreq => ?_⟩
        · rw [hur']
          rcases hno with rfl | hnone
          · exact hrow
          · rwa [hnone, Option.elim_none, ite_self] at hrow
        · rw [if_neg (by simpa using hl), hwin, Option.elim_some] at hrow
          subst hreq
          exact hrow
      · rw [hur']
        exact execApertureAtomic_width hreach hw o
      · have hrow := execApertureAtomic_reached (data := x) hreach hw hg o
        refine ⟨fun hno => ?_, fun hl hs i w hwin r hreq => ?_⟩
        · rw [hur']
          rcases hno with rfl | hnone
          · exact hrow
          · rwa [hnone, Option.elim_none, ite_self] at hrow
        · rw [if_neg (by simpa using hl), hwin, Option.elim_some, if_neg (by simp [hs])] at hrow
          subst hreq
          exact hrow
  · refine ⟨fun r l hq => ⟨fun ht => ?_, fun ht => ?_⟩, fun n hm => ⟨fun hreq hbr => ?_, fun hno => ?_⟩, fun d => ⟨?_, ?_⟩,
      fun hm => ?_, fun hs hb => ?_, fun brq bclr bbsy c1 c2 d hm h1 h1' h2 h2' hd => ?_, fun hq => ?_, fun hdrive => ?_, fun x y hm => ?_⟩
    · change execLegacyTagGranted s = _
      refine onLegacy_next hon ?_
      simp only [hq]
      exact if_neg (by omega)
    · change execLegacyTagGranted s = _
      refine onLegacy_next hon ?_
      simp only [hq]
      exact if_pos ht
    · change execBusGrant n s = _
      refine onLegacy_next hon ((if_neg (by simp [hm])).trans (if_pos ?_))
      simp [hreq, hbr]
    · change execBusGrant n s = _
      refine onLegacy_next hon ((if_neg (by simp [hm])).trans (if_neg ?_))
      rcases hno with hno | hno <;> simp [hno]
    · exact (onLegacy_next hon rfl : execBusCycleDone true d s = _)
    · exact (onLegacy_next hon rfl : execBusCycleDone false d s = _)
    · have hrow := execBusTimerExpiry_in_vme hon hm
      refine ⟨fun hsys hrun => ?_, fun hsys hrun => ?_, fun hsys => ?_⟩
      all_goals simpa only [*, Bool.and_true, Bool.and_false, Bool.false_and, Bool.false_eq_true, if_true, if_false] using hrow
    · exact (onLegacy_next hon (if_pos (by simp [hs, hb])) : execReadyTimeout s = _)
    · have hgrant : c1 = s.chip.afterGrant bbsy := by
        by_cases hends : s.chip.leg.bbsy = false ∧ bbsy = true
        · obtain ⟨hb, rfl⟩ := hends
          cases hg : s.chip.leg.grantedTo with
          | none => rw [Chip.afterGrant_stays (.inl hg), h1' (.inl hg)]
          | some k => rw [Chip.afterGrant_ends hg hb, h1 k hg hb rfl]
        · have hstays : s.chip.leg.bbsy = true ∨ bbsy = false := by
            rwa [not_and_or, Bool.not_eq_false, Bool.not_eq_true] at hends
          rw [Chip.afterGrant_stays (.inr hstays), h1' (.inr hstays)]
      have hclear : c2 = c1.afterClear s.chip.leg.bbsy bbsy := by
        have hleg : c1.leg = s.chip.leg := hgrant ▸ s.chip.afterGrant_leg bbsy
        have hsys : c1.syscon = s.chip.syscon := by
          unfold Chip.syscon
          rw [hleg]
        unfold Chip.afterClear
        rw [hsys, hleg]
        split
        next hall =>
          simp only [Bool.and_eq_true, Bool.not_eq_true', and_assoc] at hall
          exact h2 hall
        next hany =>
          simp only [Bool.and_eq_true, Bool.not_eq_true', not_and_or, and_assoc, Bool.not_eq_true, Bool.not_eq_false] at hany
          exact h2' hany
      have hseen : d = s.chip.arbSeen brq bclr bbsy := by rw [hd, hclear, hgrant]; rfl
      refine ⟨fun ho => ?_, fun ho hrel hrun hq hask => ?_⟩
      · exact execVmeArbitration_in_vme hon hm hseen fun locked _ => if_neg (by simp [ho])
      · refine execVmeArbitration_in_vme hon hm hseen fun locked hlocked => if_pos ?_
        have hbrq : brq.toNat ≠ 0 ∨ bclr = true := hask.imp_left fun hne h0 => hne (BitVec.eq_of_toNat_eq h0)
        simpa [ho, hrel, hrun, hlocked hq] using hbrq
    · exact execVmeSysreset_asserted_idle hon hq
    · change execVmeSysreset false s = _
      refine onLegacy_next hon ((if_pos rfl).trans ?_)
      simp only [Chip.setLeg, hdrive, Bool.false_eq_true, if_false]
    · refine ⟨fun hne => ?_, fun hx hy => ?_⟩
      · change execVmeSysfailAcfail x y s = _
        refine onLegacy_next hon (if_neg ?_)
        rcases hne with hne | hne <;> simp [hm, hne]
      · change execVmeSysfailAcfail x y s = _
        exact onLegacy_next hon (if_pos (by simp [hx, hy]))
  · intro d e r k m l w b hrun hq hc hop hp hw he
    rw [Chip.cycleEnd_failed hrun hq hc, Chip.cycleFailed_posted hop hp hw, he]
  · intro d i a t w hp
    have hleg := Chip.poison_leg hp a t w
    have hhealth : ∀ j, (d.poison i a t w).legHealth j = (d.poisonRecord i { addr := a, tag := t, cause := w, turn := d.turn }).legHealth j :=
      fun j => Chip.legHealth_of_leg (by rw [hleg]) j
    refine ⟨?_, fun j hj => ?_, fun r hr hi ho hpost => ?_⟩
    · rw [hhealth, Chip.poisonRecord_poisoned]
    · rw [hhealth, Chip.poisonRecord_legHealth_ne hj]
    · rw [hleg] at hr
      exact Chip.started_of_mem_poisonQueue hr hi ho hpost

end Sys2Proof.Machine
end

section
/-!
PROOFS. Chapter 21's recorder and its commands, the reference clocks (R507) and the supplies (R499).
-/
namespace Sys2Proof.Machine

/-! ### Posting an event keeps the recorder but for the event's own counter -/

section
variable (c : Chip)

theorem Chip.dmaWrite_life (vi a : Nat) (d : Bytes) : (c.dmaWrite vi a d).life = c.life := by
  unfold Chip.dmaWrite; split <;> rfl
theorem Chip.raise_life (v : Nat) : (c.raise v).life = c.life := by
  unfold Chip.raise; dsimp only; split <;> rfl
theorem Chip.raiseRing_life (vi rv t : Nat) (q : Bool) : (c.raiseRing vi rv t q).life = c.life := by
  unfold Chip.raiseRing; dsimp only; repeat' split
  all_goals simp [Chip.raise_life]
theorem Chip.irqCause_life (b : Nat) : (c.irqCause b).life = c.life := by
  unfold Chip.irqCause; dsimp only; repeat' split
  all_goals simp [Chip.raise_life]
theorem Chip.postLog_life (e : EventRec) : (c.postLog e).life = c.life := Chip.irqCause_life ..
theorem Chip.pushRec_life (k : Nat) (e : EventRec) : (c.pushRec k e).life = c.life := by
  unfold Chip.pushRec; dsimp only; repeat' split
  all_goals simp [Chip.raiseRing_life, Chip.dmaWrite_life]
theorem Chip.flushOverflow_life (k : Nat) : (c.flushOverflow k).life = c.life := by
  unfold Chip.flushOverflow; dsimp only; repeat' split
  all_goals simp [Chip.pushRec_life]
theorem Chip.postQueue_life (k : Nat) (e : EventRec) : (c.postQueue k e).life = c.life := by
  unfold Chip.postQueue; dsimp only; repeat' split
  all_goals simp [Chip.pushRec_life, Chip.flushOverflow_life]
theorem Chip.postMgr_life (e : EventRec) : (c.postMgr e).life = c.life := by
  unfold Chip.postMgr; repeat' split
  all_goals simp [Chip.postQueue_life]

/-- The restored record and SAVE_SEQ (R493). -/
def Chip.restoration (c : Chip) : Option LifeRec × Nat := (c.life.restored, c.life.saveSeq)

theorem Chip.post_restoration (x r d st : Nat) : (c.post x r d st).restoration = c.restoration := by
  have hlife : ((c.postLog (c.event x r d st)).postMgr (c.event x r d st)).life = c.life := by rw [Chip.postMgr_life, Chip.postLog_life]
  have hkeep : ((c.postLog (c.event x r d st)).postMgr (c.event x r d st)).restoration = c.restoration :=
    congrArg (fun l : Life => (l.restored, l.saveSeq)) hlife
  unfold Chip.post
  dsimp only
  split
  · exact hkeep
  · exact hkeep

end

/-! ### Counters and bins -/

section
variable (c : Chip)

/-- One more in counter `i`. -/
theorem Chip.bump_counter (i j : Nat) :
    (c.bump i 1).life.counters.get 0 j = if j = i then sat64 (c.life.counters.get 0 j) 1 else c.life.counters.get 0 j := by
  rw [Chip.bump_life]
  split
  next h => rw [h, Tab.get_set]
  next h => rw [Tab.get_set_ne _ _ _ h]

/-- One more in bin `b` of histogram `h`. -/
theorem Chip.sample_bin (h b k : Nat) : (c.sample h b).life.hist.get 0 k =
    if k = 16 * h + b then sat32 (c.life.hist.get 0 k) 1 else c.life.hist.get 0 k := by
  rw [Chip.sample_life]
  split
  next hk => rw [hk, Tab.get_set]
  next hk => rw [Tab.get_set_ne _ _ _ hk]

/-- The counters, and the bin that stands at `k` of the histograms. -/
def Chip.binView (k : Nat) (c : Chip) : Tab Nat × Nat := (c.life.counters, c.life.hist.get 0 k)

theorem Chip.setPot_binView (k : Nat) (f : Stockpot → Stockpot) : (c.setPot f).binView k = c.binView k := rfl

theorem Chip.setLife_binView (k : Nat) {f : Life → Life} (h : ∀ l, (f l).counters = l.counters ∧ (f l).hist = l.hist) :
    (c.setLife f).binView k = c.binView k := by
  obtain ⟨hcounters, hhist⟩ := h c.life
  unfold Chip.binView Chip.setLife
  dsimp only
  rw [hcounters, hhist]

/-- A sample of a later histogram than the first three leaves their bins. -/
theorem Chip.sample_binView {h k : Nat} (h3 : 3 ≤ h) (hk : k < 48) (b : Nat) : (c.sample h b).binView k = c.binView k := by
  unfold Chip.binView
  rw [Chip.sample_bin, if_neg (by omega)]
  rfl

/-- The bins of a second's temperature, core voltage and power (Table 21.2). -/
def tickBins (r : TickReading) : Nat × Nat × Nat :=
  (if r.tj < -30 then 0 else Nat.min 15 ((r.tj + 30) / 10 + 1).toNat, Nat.min 15 ((r.coreMv + 40) / 5).toNat, Nat.min 15 (r.watts / 4))

theorem tickBins_le (r : TickReading) : (tickBins r).1 ≤ 15 ∧ (tickBins r).2.1 ≤ 15 ∧ (tickBins r).2.2 ≤ 15 := by
  refine ⟨?_, Nat.min_le_left .., Nat.min_le_left ..⟩
  unfold tickBins
  dsimp only
  split
  · exact Nat.zero_le _
  · exact Nat.min_le_left ..

/-- Of the counters and the first three histograms, a second's samples change what its own three samples change. -/
theorem Chip.lifeSamples_binView (r : TickReading) {k : Nat} (hk : k < 48) :
    (c.lifeSamples r).binView k = (((c.sample 0 (tickBins r).1).sample 1 (tickBins r).2.1).sample 2 (tickBins r).2.2).binView k := by
  unfold Chip.lifeSamples
  extract_lets clampBin c1 c2 c3 since c4 c5 c6 m c7
  have h4 : c4.binView k = c3.binView k := by
    unfold c4
    refine foldl_keeps_view (Chip.binView k) ?_ _ _
    intro d n
    dsimp only
    split
    next => rfl
    next => simp only [Chip.sample_binView _ (by decide : 3 ≤ 3) hk, Chip.sample_binView _ (by decide : 3 ≤ 4) hk,
        Chip.sample_binView _ (by decide : 3 ≤ 5) hk]
  have h5 : c5.binView k = c4.binView k := by
    unfold c5
    exact c4.setLife_binView k fun _ => ⟨rfl, rfl⟩
  have h6 : c6.binView k = c5.binView k := by
    unfold c6
    split
    next => exact c5.sample_binView (by decide) hk _
    next => rfl
  have h7 : c7.binView k = c6.binView k := by
    unfold c7
    exact c6.sample_binView (by decide) hk _
  rw [Chip.setPot_binView, h7, h6, h5, h4]
  rfl

end

/-! ### Saves and the restoration (R492, R493) -/

section
variable {s : State} {c d e : Chip}

theorem Chip.lifeSave_first (h : c.life.saving = none) (lc fl hd : Nat) : c.lifeSave lc fl hd = c.lifeStart lc fl hd := by
  unfold Chip.lifeSave
  rw [h]

theorem Chip.lifeSave_waits (h : c.life.saving ≠ none) (lc hd : Nat) {fl : Nat} (hfl : bitOf fl 0 = false) :
    c.lifeSave lc fl hd = c.setLife fun l => { l with next := l.next ++ [{ record := { rflags := fl }, handle := hd }] } := by
  obtain ⟨v, hv⟩ := Option.ne_none_iff_exists'.1 h
  unfold Chip.lifeSave
  rw [hv]
  dsimp only
  rw [hfl]
  rfl

theorem becomes_lifetimePeriodicSave (hd : d = s.chip.setLife fun l => { l with lastPeriodic := s.chip.poweredS }) :
    s.becomes .lifetimePeriodicSave (d.lifeSave s.fuses.lifecycle 2 0) := by
  subst hd
  rfl

/-- What a save's end leaves: its record where it was taken, and SAVE_SEQ advanced if either store took it. -/
def Chip.saveTaken (c : Chip) (v : LifeSave) (flash copy : Bool) : Chip :=
  c.setLife fun l => { l with
    saving := none, slot := (l.slot + 1) % 512, saveSeq := if flash || copy then v.record.seq else l.saveSeq,
    journal := if flash then l.journal.set l.slot v.record else l.journal.erase l.slot,
    crockCopy := if copy then some v.record else l.crockCopy }

/-- The outcome of a save, taken by a store or by none: its event and its command's completion. -/
def Chip.saveAnswered (d : Chip) (v : LifeSave) (done : Bool) : Chip :=
  let d := if done then d else d.post 0x1002 0x1003 (v.record.seq % 2 ^ 32)
  if v.handle = 0 then d else if done then d.complete v.handle stOk 0 0 else d.complete v.handle stMedia 0x1003 0

/-- Whether the Crock's copy is written too. -/
def Chip.saveCopies (c : Chip) (v : LifeSave) (crock : Bool) : Bool :=
  crock && !bitOf v.record.rflags 0 && c.storeReady && (c.inRole .hub || c.inRole .dock)

theorem execLifetimeSaveDone_last {v : LifeSave} {f k : Bool} (hv : s.chip.life.saving = some v)
    (he : (s.chip.saveTaken v f (s.chip.saveCopies v k)).saveAnswered v (f || s.chip.saveCopies v k) = e) (hn : e.life.next = []) :
    s.becomes (.lifetimeSaveDone f k) e := by
  change execLifetimeSaveDone f k s = _
  refine onChip_next ?_
  dsimp only
  subst he
  simp only [hv]
  unfold Chip.saveAnswered Chip.saveTaken Chip.saveCopies at hn
  dsimp only at hn
  rw [hn]
  rfl

theorem execLifetimeSaveDone_next {v n : LifeSave} {l : List LifeSave} {f k : Bool} (hv : s.chip.life.saving = some v)
    (he : (s.chip.saveTaken v f (s.chip.saveCopies v k)).saveAnswered v (f || s.chip.saveCopies v k) = e) (hn : e.life.next = n :: l) :
    s.becomes (.lifetimeSaveDone f k)
      ((e.setLife fun y => { y with next := l }).lifeStart s.fuses.lifecycle n.record.rflags n.handle) := by
  change execLifetimeSaveDone f k s = _
  refine onChip_next ?_
  dsimp only
  subst he
  simp only [hv]
  unfold Chip.saveAnswered Chip.saveTaken Chip.saveCopies at hn
  dsimp only at hn
  rw [hn]
  rfl

/-- A save's outcome by its four cases: taken or not, asked for by a command or not. -/
theorem Chip.saveAnswered_eq {v : LifeSave} {done : Bool} (ht : done = true → v.handle = 0 → e = d)
    (hth : done = true → v.handle ≠ 0 → e = d.complete v.handle 0 0 0)
    (hf : done = false → v.handle = 0 → e = d.post 0x1002 0x1003 (v.record.seq % 2 ^ 32))
    (hfh : done = false → v.handle ≠ 0 → e = (d.post 0x1002 0x1003 (v.record.seq % 2 ^ 32)).complete v.handle 0x0401 0x1003 0) :
    d.saveAnswered v done = e := by
  unfold Chip.saveAnswered
  by_cases hh : v.handle = 0
  · rw [if_pos hh]
    cases done with
    | true => exact (ht rfl hh).symm
    | false => exact (hf rfl hh).symm
  · rw [if_neg hh]
    cases done with
    | true => exact (hth rfl hh).symm
    | false => exact (hfh rfl hh).symm

theorem Chip.bump_restoration (i n : Nat) : (c.bump i n).restoration = c.restoration := rfl

/-- With nothing restored from the journal, the Crock's copy is (R493). -/
theorem Chip.lifeFromCrock_restoration {r : LifeRec} (hc : c.life.crockCopy = some r) (hr : c.life.restored = none) :
    c.lifeFromCrock.restoration = (some r, Nat.max c.life.saveSeq r.seq) := by
  unfold Chip.lifeFromCrock
  simp only [hc, hr, Option.isSome_none, Bool.false_and, Bool.false_eq_true, if_false, Chip.post_restoration]
  split
  next => rw [Chip.bump_restoration]; rfl
  next => rfl

theorem Chip.lifeFromCrock_older {r b : LifeRec} (hc : c.life.crockCopy = some r) (hr : c.life.restored = some b) (h : r.seq ≤ b.seq) :
    c.lifeFromCrock = c := by
  unfold Chip.lifeFromCrock
  simp [hc, hr, h]

/-! ### The record's bytes (Table 21.3) -/

theorem LifeRec.bytes_length (r : LifeRec) : r.bytes.length = 1220 := by
  simp [LifeRec.bytes, LifeRec.body, length_flatten_fields (m := 8) (fun _ => le_length ..),
    length_flatten_fields (m := 4) (fun _ => le_length ..)]

/-- The body of LIFETIME_EXPORT, before its signature's word (R494). -/
def Chip.exportBody (c : Chip) (x : Ctx) : Bytes :=
  (c.lifeSnap x.fuses.lifecycle 8 c.life.saveSeq).bytes ++ sliceB x.ps 0 32 ++ sliceB x.fuses.serialNo 0 12 ++
    sliceB (Config.sha384 c.dev.meas.flatten) 0 48

theorem Chip.exportBody_length (c : Chip) (x : Ctx) : (c.exportBody x).length = 1312 := by
  simp [Chip.exportBody, LifeRec.bytes_length]

theorem bodyLifetimeExport_signed {x : Ctx} (h : x.fuses.lifecycle = 1 ∨ x.fuses.lifecycle = 2) (c : Chip) :
    bodyLifetimeExport x c = (ok (c.exportBody x ++ le 4 0 ++
      sliceB (Config.ecdsaSign c.identityKey (c.exportBody x ++ le 4 0) c.clk.fresh) 0 96), c.nextFresh) := by
  have hid : identityOk x.fuses.lifecycle = true := by simpa [identityOk] using h
  unfold bodyLifetimeExport
  dsimp only
  rw [hid]
  rfl

theorem bodyLifetimeExport_unsigned {x : Ctx} (h1 : x.fuses.lifecycle ≠ 1) (h2 : x.fuses.lifecycle ≠ 2) (c : Chip) :
    bodyLifetimeExport x c = (ok (c.exportBody x ++ le 4 1 ++ zeros 96), c.nextFresh) := by
  have hid : identityOk x.fuses.lifecycle = false := by simp [identityOk, h1, h2]
  unfold bodyLifetimeExport
  dsimp only
  rw [hid]
  rfl

/-- The open LIFETIME_SAVE, if there is one (R492). -/
def Chip.openSave (c : Chip) : Option LifeSave :=
  (c.life.saving.toList ++ c.life.next).find? fun v => v.handle != 0 && (c.openRec? v.handle).isSome

theorem bodyLifetimeSave_busy {x : Ctx} {v : LifeSave} (h : c.openSave = some v) : bodyLifetimeSave x c = (err 0x0202 0 v.handle, c) := by
  unfold Chip.openSave at h
  unfold bodyLifetimeSave
  dsimp only
  rw [h]
  rfl

theorem bodyLifetimeSave_accepted {x : Ctx} (h : c.openSave = none) :
    bodyLifetimeSave x c = ({ accepted with committed := true }, c.lifeSave x.fuses.lifecycle 4 x.handle) := by
  unfold Chip.openSave at h
  unfold bodyLifetimeSave
  dsimp only
  rw [h]

/-! ### Ticks and references (R488, R507) -/

/-- LIFETIME_TICK's counters before its samples. -/
def Chip.tickCounts (c : Chip) (hot : Bool) : Chip :=
  let d := if hot then (c.bump 0 1).bump 10 1 else c.bump 0 1
  if c.dev.mode == .keepalive then d.bump 13 1 else if c.dev.mode == .quiet then d.bump 14 1 else d

theorem becomes_lifetimeTick (s : State) (r : TickReading) : s.becomes (.lifetimeTick r) ((s.chip.tickCounts r.hot).lifeSamples r) := by
  change execLifetimeTick r s = _
  refine onChip_next ?_
  unfold Chip.tickCounts
  cases r.hot with
  | true => rfl
  | false => rfl

theorem becomes_refclkFail_again {n : Fin 3} (h : s.chip.dev.refFailed.contains n.val = true) : s.becomes (.refclkFail n) s.chip := by
  change execRefclkFail n s = _
  refine onChip_next ?_
  dsimp only
  rw [if_pos h]

theorem becomes_refclkFail {n : Fin 3} (h : s.chip.dev.refFailed.contains n.val = false)
    (hd : d = { s.chip with dev := { s.chip.dev with refFailed := insertSorted n.val s.chip.dev.refFailed } }) :
    s.becomes (.refclkFail n)
      (if n.val = 0 then (List.range 4).foldl Chip.trunkNoClock d else if n.val = 1 then d.ethAllDown else d.hostLost) := by
  subst hd
  change execRefclkFail n s = _
  refine onChip_next ?_
  dsimp only
  rw [if_neg (by simpa using h)]

end

/-- Settles O60: the counters and bins of a second, the saves by what is in progress, the record's bytes field by field, and the effect of each
reference that fails. -/
theorem lifetimeAndBoardAct : Obligations.LifetimeAndBoardAct := by
  unfold Obligations.LifetimeAndBoardAct
  rintro s c rfl
  refine ⟨fun r => ⟨_, if r.hot then (s.chip.bump 0 1).bump 10 1 else s.chip.bump 0 1, _, becomes_lifetimeTick s r, rfl,
      fun h => if_pos h, fun h => by rw [h]; rfl, fun h => ?_, fun h => ?_, fun h1 h2 => ?_⟩,
    fun d r u v w hu hv hw => ?_, fun d x hd hx => ?_, fun f k h => ?_, fun f k copy v d e hv hcopy hd he => ?_, fun h => ?_,
    fun r b hc hr h => ?_, fun r hc hr => ?_, fun p c x g e hg he => ?_, fun n d hd => ?_, fun d n hp => ?_, rfl, rfl,
    fun d i j => d.bump_counter i j⟩
  · unfold Chip.tickCounts
    dsimp only
    rw [h]
    rfl
  · unfold Chip.tickCounts
    dsimp only
    rw [h]
    rfl
  · unfold Chip.tickCounts
    dsimp only
    rw [if_neg (by simpa using h1), if_neg (by simpa using h2)]
  · have hbins : tickBins r = (u, v, w) := by rw [hu, hv, hw]; rfl
    obtain ⟨hu15, hv15, hw15⟩ := tickBins_le r
    have hview := fun k (hk : k < 48) => d.lifeSamples_binView r hk
    rw [hbins] at hu15 hv15 hw15 hview
    dsimp only at hu15 hv15 hw15 hview
    have hbin := fun k hk => (congrArg Prod.snd (hview k hk) :)
    unfold Chip.binView at hbin
    simp only [Chip.sample_bin] at hbin
    refine ⟨(congrArg Prod.fst (hview 0 (by decide)) :), fun b hb => ?_, fun b hb => ?_, fun b hb => ?_⟩
    · rw [hbin b (by omega), if_neg (by omega), if_neg (by omega)]
      simp
    · rw [hbin (16 + b) (by omega), if_neg (by omega), if_neg (by omega : ¬ 16 + b = 16 * 0 + u)]
      simp
    · rw [hbin (32 + b) (by omega), if_neg (by omega : ¬ 32 + b = 16 * 1 + v), if_neg (by omega : ¬ 32 + b = 16 * 0 + u)]
      simp
  · have hrow := becomes_lifetimePeriodicSave hd
    have hsaving : d.life.saving = s.chip.life.saving := by subst hd; rfl
    subst hx
    refine ⟨by subst hd; rfl, by subst hd; rfl, fun h => ?_, fun h => ?_⟩
    · rw [Chip.lifeSave_first (hsaving.trans h)] at hrow
      subst hd
      exact ⟨_, hrow, rfl, rfl, rfl⟩
    · rwa [Chip.lifeSave_waits (hsaving.trans_ne h) _ _ (by decide)] at hrow
  · change execLifetimeSaveDone f k s = _
    refine onChip_next ?_
    dsimp only
    rw [h]
  · obtain ⟨ht, hth, hf, hfh⟩ := he
    have hanswer : (s.chip.saveTaken v f (s.chip.saveCopies v k)).saveAnswered v (f || s.chip.saveCopies v k) = e := by
      have hc : s.chip.saveCopies v k = copy := hcopy.symm
      have hs : s.chip.saveTaken v f copy = d := hd.symm
      rw [hc, hs]
      exact Chip.saveAnswered_eq ht hth hf hfh
    exact ⟨execLifetimeSaveDone_last hv hanswer, fun n l => execLifetimeSaveDone_next hv hanswer⟩
  · exact onChip_next (by unfold Chip.lifeFromCrock; rw [h])
  · exact onChip_next (Chip.lifeFromCrock_older hc hr h)
  · have hrest := Chip.lifeFromCrock_restoration hc hr
    exact ⟨_, rfl, congrArg Prod.fst hrest, congrArg Prod.snd hrest⟩
  · have hbody : e = c.exportBody (s.ctxOf 0x1002 p c) := by rw [he, hg]; rfl
    refine ⟨by rw [hg]; exact LifeRec.bytes_length _, fun hh hr => ?_, fun hh hr => ⟨fun h => ?_, fun h1 h2 => ?_⟩,
      fun hh hx => ⟨fun v hv => ?_, fun hv hr => ?_⟩⟩
    · subst hg
      exact runCommand_ok hh rfl (by rwa [LifeRec.bytes_length])
    · rw [hbody]
      refine runCommand_ok hh (bodyLifetimeExport_signed h c) ?_
      simpa [Chip.exportBody_length] using hr
    · rw [hbody]
      refine runCommand_ok hh (bodyLifetimeExport_unsigned h1 h2 c) ?_
      simpa [Chip.exportBody_length] using hr
    · exact runCommand_err hh (bodyLifetimeSave_busy hv) (by decide)
    · subst hx
      exact runCommand_accepted_committed hh (bodyLifetimeSave_accepted hv) hr
  · refine ⟨rfl, becomes_refclkFail_again, fun h => ?_⟩
    have hrow := becomes_refclkFail h hd
    refine ⟨fun hn => ?_, fun hn => ?_, fun hn => ?_⟩
    · rwa [if_pos hn] at hrow
    · rwa [if_neg (by omega), if_pos hn] at hrow
    · rwa [if_neg (by omega), if_neg (by omega)] at hrow
  · unfold Chip.trunkNoClock
    dsimp only
    rw [hp]
    exact ⟨fun h => if_pos h, fun h => if_neg (by simp [h])⟩

end Sys2Proof.Machine
end

section
/-!
PROOFS. The commands of chapters 17 and 18 (R426, R447): channels, feeds and their status, trunk power and the cable.
-/
namespace Sys2Proof.Machine

section
variable {x : Ctx} {c : Chip}

/-! ### Channels -/

theorem bodyPwrChannelSet_of_valid {k : ChanCfg} (hk : k = chanCfgOf x.ps) (hn : fld x.ps 0 1 ≤ 13) (hf : fld x.ps 1 1 ≤ 7) (hz : rsvd x.ps 3 1 = true)
    (hr : k.ranges = true) :
    bodyPwrChannelSet x c = if !isTrunkCh (fld x.ps 0 1) && !k.limits (fld x.ps 0 1) then no c stParam 0x0C01
      else (ok, (if bitOf (fld x.ps 1 1) 2 then
        (c.applyChan (fld x.ps 0 1) k).storeConfig fun z => { z with channels := z.channels.set (fld x.ps 0 1) k }
        else c.applyChan (fld x.ps 0 1) k).powerSettle) := by
  subst hk
  unfold bodyPwrChannelSet
  dsimp only
  rw [if_neg (by simp [hz, hr]; omega)]

section
variable (hn : fld x.ps 0 1 ≤ 13) (hz : rsvd x.ps 2 2 = true)
include hn hz

theorem bodyPwrChannelCtrl_trunk (hop : fld x.ps 1 1 ≤ 1) (ht : isTrunkCh (fld x.ps 0 1) = true) : bodyPwrChannelCtrl x c = no c stState 0x0C02 := by
  unfold bodyPwrChannelCtrl
  dsimp only
  rw [if_neg (by simp [hz]; omega), if_pos (by simp [ht]; omega)]

variable {k : PowerChan} (hk : k = c.chan (fld x.ps 0 1))
include hk

/-- ON of a channel of the part's own: refused when it is DAMAGED or has no scale, and otherwise it goes on from OFF. -/
theorem bodyPwrChannelCtrl_on (hop : fld x.ps 1 1 = 1) (ht : isTrunkCh (fld x.ps 0 1) = false) :
    bodyPwrChannelCtrl x c = if k.state = .damaged then no c stState 0x0C03 else if k.conf.iFs = 0 then no c stState 0x0C08
      else (ok, (if k.state = .off then (c.setChan (fld x.ps 0 1) { k with admin := true }).proceed (fld x.ps 0 1)
        else c.setChan (fld x.ps 0 1) { k with admin := true }).powerSettle) := by
  subst hk
  unfold bodyPwrChannelCtrl
  dsimp only
  rw [if_neg (by simp [hz]; omega), if_neg (by simp [ht])]
  simp [hop]

theorem bodyPwrChannelCtrl_off (hop : fld x.ps 1 1 = 0) (ht : isTrunkCh (fld x.ps 0 1) = false) (hd : k.state ≠ .damaged) :
    bodyPwrChannelCtrl x c =
      (ok, ((c.setChan (fld x.ps 0 1) { k with admin := false }).chanDown (fld x.ps 0 1) .off).powerSettle) := by
  subst hk
  unfold bodyPwrChannelCtrl
  dsimp only
  rw [if_neg (by simp [hz]; omega), if_neg (by simp [ht])]
  simp [hop, hd]

theorem bodyPwrChannelCtrl_clear (hop : fld x.ps 1 1 = 2) :
    bodyPwrChannelCtrl x c =
      (ok, (if k.state = .latched ∨ k.state = .damaged then (c.setChan (fld x.ps 0 1) { k with faultCount := 0 }).proceed (fld x.ps 0 1)
        else c.setChan (fld x.ps 0 1) { k with faultCount := 0 }).powerSettle) := by
  subst hk
  unfold bodyPwrChannelCtrl
  dsimp only
  rw [if_neg (by simp [hz]; omega)]
  simp [hop]

end

/-! ### Feeds and the channels' status -/

/-- The priorities of PWR_FEED_SET are its first six bytes. -/
theorem prio_all_of_fld {b : Bytes} {n m : Nat} (h : ∀ i, i < n → fld b i 1 ≤ m) : ((sliceB b 0 n).map BitVec.toNat).all (fun p => decide (p ≤ m)) = true := by
  simp only [sliceB_eq_map, List.map_map, List.all_map, List.all_eq_true, List.mem_range, Function.comp_apply, Nat.zero_add, decide_eq_true_eq,
    ← fld_one]
  exact h

/-- Parameters of PWR_FEED_SET in range (Table 17.3). -/
structure FeedSetInRange (b : Bytes) : Prop where
  prio : ∀ i, i < 6 → fld b i 1 ≤ 15
  dead : 2 ≤ fld b 6 1 ∧ fld b 6 1 ≤ 50
  flags : fld b 7 1 ≤ 3
  valid : 1 ≤ fld b 8 2 ∧ fld b 8 2 ≤ 1000
  restore : 10 ≤ fld b 10 2 ∧ fld b 10 2 ≤ 60000
  stagger : fld b 12 2 ≤ 1000
  presence : 10 ≤ fld b 14 2 ∧ fld b 14 2 ≤ 1000

/-- The settings of PWR_FEED_SET's parameters. -/
def feedCfgOf (b : Bytes) : FeedCfg :=
  { prio := (sliceB b 0 6).map BitVec.toNat, deadUs := fld b 6 1, revert := bitOf (fld b 7 1) 0, validMs := fld b 8 2, restoreMs := fld b 10 2,
    staggerMs := fld b 12 2, presenceMs := fld b 14 2 }

theorem bodyPwrFeedSet_of_valid {f : FeedCfg} (h : FeedSetInRange x.ps) (hf : f = feedCfgOf x.ps) :
    bodyPwrFeedSet x c = (ok, (if bitOf (fld x.ps 7 1) 1 then (c.applyFeed f).storeConfig fun z => { z with feed := some f }
      else c.applyFeed f).powerSettle) := by
  subst hf
  obtain ⟨hprio, hdead, hflags, hvalid, hrestore, hstagger, hpresence⟩ := h
  have hall := prio_all_of_fld hprio
  unfold bodyPwrFeedSet
  dsimp only
  rw [if_neg]
  · rfl
  · rw [hall]
    simp
    omega

theorem Chip.chanRecord_length (c : Chip) (n : Nat) : (c.chanRecord n).length = 16 := by
  simp [Chip.chanRecord]

/-- PWR_STATUS before its channel records (Table 17.5). -/
def Chip.pwrStatusHead (c : Chip) : Bytes :=
  le 1 (c.pwr.selected.getD 0xFF) ++ le 1 (b2n c.pwr.pwrfail + 2 * b2n c.pwr.lost) ++ zeros 2 ++ le 4 c.pwr.feedSwitches ++ le 4 c.pwr.powerFails ++ zeros 4

theorem Chip.pwrStatusHead_length (c : Chip) : c.pwrStatusHead.length = 16 := by
  simp [Chip.pwrStatusHead]

/-- The data of PWR_STATUS. -/
def Chip.pwrStatus (c : Chip) : Bytes := c.pwrStatusHead ++ ((List.range 14).map c.chanRecord).flatten

theorem bodyPwrStatus_eq (x : Ctx) (c : Chip) : bodyPwrStatus x c = (ok c.pwrStatus, c) := rfl

theorem Chip.pwrStatus_length (c : Chip) : c.pwrStatus.length = 240 := by
  rw [Chip.pwrStatus, List.length_append, length_flatten_fields c.chanRecord_length, Chip.pwrStatusHead_length]

theorem Chip.fld_pwrStatus_head (c : Chip) {o n : Nat} (h : o + n ≤ 16) : fld c.pwrStatus o n = fld c.pwrStatusHead o n :=
  fld_append_left (by rwa [Chip.pwrStatusHead_length])

theorem Chip.sliceB_pwrStatus_record (c : Chip) {i : Nat} (hi : i < 14) : sliceB c.pwrStatus (16 + 16 * i) 16 = c.chanRecord i := by
  have hhead := c.pwrStatusHead_length
  unfold Chip.pwrStatus
  rw [sliceB_append_right (by omega), hhead, Nat.add_sub_cancel_left]
  exact sliceB_flatten_records c.chanRecord_length hi

theorem b2n_le_one (b : Bool) : b2n b ≤ 1 := by cases b <;> decide

theorem ChanState.code_lt (st : ChanState) : st.code < 256 := by cases st <;> decide

/-- The head of a channel's record: its state, its fault count and its last cause. -/
theorem Chip.fld_chanRecord (c : Chip) (n : Nat) : fld (c.chanRecord n) 0 1 = (c.chan n).state.code ∧
    fld (c.chanRecord n) 2 1 = (c.chan n).faultCount % 256 ∧ fld (c.chanRecord n) 3 1 = (c.chan n).cause % 256 := by
  have hcode := Nat.mod_eq_of_lt (c.chan n).state.code_lt
  simp [Chip.chanRecord, fld_append_left, fld_append_right, hcode]

theorem Chip.fld_pwrStatus_feed (c : Chip) : fld c.pwrStatus 0 1 = c.pwr.selected.getD 0xFF % 256 :=
  (c.fld_pwrStatus_head (by decide)).trans (by simp [Chip.pwrStatusHead, fld_append_left])

theorem Chip.fld_pwrStatus_flags (c : Chip) : fld c.pwrStatus 1 1 = b2n c.pwr.pwrfail + 2 * b2n c.pwr.lost := by
  have hfail := b2n_le_one c.pwr.pwrfail
  have hlost := b2n_le_one c.pwr.lost
  have hflags : b2n c.pwr.pwrfail + 2 * b2n c.pwr.lost < 256 := by omega
  exact (c.fld_pwrStatus_head (by decide)).trans (by simp [Chip.pwrStatusHead, fld_append_left, fld_append_right, Nat.mod_eq_of_lt hflags])

theorem Chip.pwrStatus_record (c : Chip) {i : Nat} (hi : i < 14) :
    sliceB c.pwrStatus (16 + 16 * i) 16 = c.chanRecord i ∧ fld c.pwrStatus (16 + 16 * i) 1 = (c.chan i).state.code ∧
    fld c.pwrStatus (18 + 16 * i) 1 = (c.chan i).faultCount % 256 ∧ fld c.pwrStatus (19 + 16 * i) 1 = (c.chan i).cause % 256 := by
  have hrec := c.sliceB_pwrStatus_record hi
  obtain ⟨hcode, hcount, hcause⟩ := c.fld_chanRecord i
  refine ⟨hrec, (fld_of_slice hrec (by decide : 0 + 1 ≤ 16)).trans hcode, ?_, ?_⟩
  · rw [show 18 + 16 * i = 16 + 16 * i + 2 by omega]
    exact (fld_of_slice hrec (by decide)).trans hcount
  · rw [show 19 + 16 * i = 16 + 16 * i + 3 by omega]
    exact (fld_of_slice hrec (by decide)).trans hcause

/-! ### Trunk power settings -/

/-- Parameters of TRUNK_POWER_SET in range (Table 18.7). -/
structure TPowerSetInRange (b : Bytes) : Prop where
  trunk : fld b 0 1 ≤ 3
  flags : fld b 1 1 ≤ 63
  prec : fld b 2 1 ≤ 15
  zero3 : rsvd b 3 5 = true
  offers : offersOk (sliceB b 8 24) = true
  sinkVolts : fld b 32 1 ≤ 7
  zero33 : rsvd b 33 1 = true
  sinkMa : 1 ≤ fld b 34 2 ∧ fld b 34 2 ≤ 5000
  fsMa : 1 ≤ fld b 36 2 ∧ fld b 36 2 ≤ 5000
  zero38 : rsvd b 38 2 = true

/-- The settings of TRUNK_POWER_SET's parameters. -/
def tpowerCfgOf (b : Bytes) : TPowerCfg :=
  { srcEn := bitOf (fld b 1 1) 0, sinkEn := bitOf (fld b 1 1) 1, swapAllow := bitOf (fld b 1 1) 2, fsAllow := bitOf (fld b 1 1) 3,
    noPower := bitOf (fld b 1 1) 4, prec := some (fld b 2 1), offers := offersOf (sliceB b 8 24), sinkVolts := fld b 32 1, sinkMa := fld b 34 2,
    fsMa := fld b 36 2 }

/-- An offer lies beyond what the trunk's channel can limit. -/
def offersBeyond (l : List (Nat × Nat)) (scale : Nat) : Bool := l.any fun o => o.1 != 0 && decide (o.2 > scale)

theorem offersBeyond_iff (l : List (Nat × Nat)) (scale : Nat) : offersBeyond l scale = true ↔ ∃ o ∈ l, o.1 ≠ 0 ∧ scale < o.2 := by
  simp [offersBeyond]

theorem not_offersBeyond {l : List (Nat × Nat)} {scale : Nat} (h : ∀ o ∈ l, o.1 = 0 ∨ o.2 ≤ scale) : ¬ offersBeyond l scale = true := by
  rw [offersBeyond_iff]
  rintro ⟨o, ho, hne, hlt⟩
  obtain h0 | hle := h o ho
  · exact hne h0
  · omega

/-- New settings of a trunk's power; a source whose offers changed sends CAPS (R447). -/
def Chip.applyTPower (c : Chip) (n : Nat) (k : TPowerCfg) (low : Bytes) : Chip :=
  let t := c.tpOf n
  let changed := k.offers != t.cfg.offers && t.prole == 1 && !t.deaf
  let d := c.setTp n { t with cfg := k, offersChanged := if changed then t.contractOn else t.offersChanged }
  if changed then d.sbPeer n 0x01 (d.capsBody n low) else d

theorem bodyTrunkPowerSet_of_valid {k : TPowerCfg} (h : TPowerSetInRange x.ps) (hk : k = tpowerCfgOf x.ps) :
    bodyTrunkPowerSet x c =
      if offersBeyond k.offers ((c.chan (2 + fld x.ps 0 1)).conf.iFs * 100 / (c.chan (2 + fld x.ps 0 1)).conf.severePct) then no c stParam 0x0C01
      else (ok, (if bitOf (fld x.ps 1 1) 5 then
        (c.applyTPower (fld x.ps 0 1) k x.fuses.serialLow).storeConfig fun z => { z with tpower := z.tpower.set (fld x.ps 0 1) k }
        else c.applyTPower (fld x.ps 0 1) k x.fuses.serialLow).powerSettle) := by
  subst hk
  obtain ⟨htrunk, hflags, hprec, h3, hoffers, hvolts, h33, hsink, hfs, h38⟩ := h
  unfold bodyTrunkPowerSet
  dsimp only
  rw [if_neg]
  · rfl
  · rw [h3, hoffers, h33, h38]
    simp
    omega

theorem TrunkPower.deaf_false {t : TrunkPower} (hs : t.pstate ≠ .hardReset) (hf : t.faulted = false) : t.deaf = false := by
  simp [TrunkPower.deaf, hs, hf]

section
variable {n : Nat} {k : TPowerCfg} {low : Bytes} {t : TrunkPower} (ht : t = c.tpOf n)
include ht

theorem Chip.applyTPower_quiet (h : k.offers = t.cfg.offers ∨ t.prole ≠ 1) : c.applyTPower n k low = c.setTp n { t with cfg := k } := by
  subst ht
  have hquiet : (k.offers != (c.tpOf n).cfg.offers && (c.tpOf n).prole == 1 && !(c.tpOf n).deaf) = false := by
    obtain h | h := h <;> simp [h]
  unfold Chip.applyTPower
  dsimp only
  rw [hquiet]
  rfl

theorem Chip.applyTPower_changed {d : Chip} (h : k.offers ≠ t.cfg.offers) (hp : t.prole = 1) (hs : t.pstate ≠ .hardReset) (hf : t.faulted = false)
    (hd : d = c.setTp n { t with cfg := k, offersChanged := t.contractOn }) : c.applyTPower n k low = d.sbPeer n 0x01 (d.capsBody n low) := by
  subst hd ht
  have hchanged : (k.offers != (c.tpOf n).cfg.offers && (c.tpOf n).prole == 1 && !(c.tpOf n).deaf) = true := by
    simp [h, hp, TrunkPower.deaf_false hs hf]
  unfold Chip.applyTPower
  dsimp only
  rw [hchanged]
  rfl

end

/-! ### Trunk power operations -/

/-- A change of the line is under way (R447). -/
def TrunkPower.moving (t : TrunkPower) : Bool := t.pstate == .transition || t.pstate == .swapping || t.pstate == .hardReset

theorem TrunkPower.moving_false {t : TrunkPower} (h1 : t.pstate ≠ .transition) (h2 : t.pstate ≠ .swapping) (h3 : t.pstate ≠ .hardReset) :
    t.moving = false := by
  simp [TrunkPower.moving, h1, h2, h3]

section
variable {t : TrunkPower} {n op : Nat} (ht : t = c.tpOf n) (hxn : n = fld x.ps 0 1) (hop : op = fld x.ps 1 1) (hn : n ≤ 3) (h1 : 1 ≤ op) (h7 : op ≤ 7)
  (hz : rsvd x.ps 2 6 = true)
include ht hxn hop hn h1 h7 hz

theorem bodyTrunkPowerOp_faulted (hf : t.faulted = true) (h : op ≠ 7) : bodyTrunkPowerOp x c = no c stState 0x0D0F := by
  subst ht hxn hop
  unfold bodyTrunkPowerOp
  dsimp only
  rw [if_neg (by simp [hz]; omega), if_pos (by simp [hf, h])]

/-- Without a fault: CLEAR, an operation without a peer and a sink's operation at another end are refused alike. -/
theorem bodyTrunkPowerOp_notAttached (hf : t.faulted = false)
    (h : op = 7 ∨ op ≠ 7 ∧ c.peerThere n = false ∧ t.pstate ≠ .hardReset ∨ (op = 1 ∨ op = 5) ∧ t.prole ≠ 2) :
    bodyTrunkPowerOp x c = no c stState 0x0D0D := by
  subst ht hxn hop
  unfold bodyTrunkPowerOp
  dsimp only
  rw [if_neg (by simp [hz]; omega), if_neg (by simp [hf])]
  obtain h | ⟨hne, hp, hs⟩ | ⟨hsink, hp⟩ := h
  · rw [if_pos (by simp [h, hf])]
  · rw [if_neg (by simp [hne]), if_pos (by simp [hne, hp, hs])]
  · rw [if_neg (by obtain h | h := hsink <;> simp [h])]
    split
    · rfl
    · rw [if_pos (by obtain h | h := hsink <;> simp [h, hp])]

section
variable (hf : t.faulted = false) (hp : c.peerThere n = true) (hne : op ≠ 7) (hsink : op ≠ 1 ∧ op ≠ 5 ∨ t.prole = 2)
include hf hp hne hsink

/-- Without a fault, at an end that may run it, an operation runs unless one is open or a change of the line is under way. -/
theorem bodyTrunkPowerOp_run :
    bodyTrunkPowerOp x c = t.handle.elim
      (if (op ≤ 3 || op = 5) && t.moving then no c stState 0x0D0E
        else ((c.powerOp n op x.handle).1, (c.powerOp n op x.handle).2.powerSettle))
      fun h => no c stBusy 0 h.1 := by
  subst ht hxn hop
  unfold bodyTrunkPowerOp
  dsimp only
  rw [if_neg (by simp [hz]; omega), if_neg (by simp [hf]), if_neg (by simp [hne]), if_neg (by simp [hp]),
    if_neg (by obtain h | h := hsink <;> simp [h])]
  cases (c.tpOf (fld x.ps 0 1)).handle with
  | none => rfl
  | some h => rfl

theorem bodyTrunkPowerOp_busy {h o : Nat} (hh : t.handle = some (h, o)) : bodyTrunkPowerOp x c = no c stBusy 0 h := by
  rw [bodyTrunkPowerOp_run ht hxn hop hn h1 h7 hz hf hp hne hsink, hh]
  rfl

theorem bodyTrunkPowerOp_moving (hh : t.handle = none) (hm : t.moving = true) (hgo : op ≤ 3 ∨ op = 5) :
    bodyTrunkPowerOp x c = no c stState 0x0D0E := by
  rw [bodyTrunkPowerOp_run ht hxn hop hn h1 h7 hz hf hp hne hsink, hh]
  exact if_pos (by simp [hm, hgo])

/-- HARD_RESET and DISARM start at any time, the others while the line stands still. -/
theorem bodyTrunkPowerOp_starts (hh : t.handle = none) (hgo : 3 < op ∧ op ≠ 5 ∨ t.moving = false) (r : Ans × Chip)
    (hr : c.powerOp n op x.handle = r) : bodyTrunkPowerOp x c = (r.1, r.2.powerSettle) := by
  rw [bodyTrunkPowerOp_run ht hxn hop hn h1 h7 hz hf hp hne hsink, hh, ← hr]
  refine if_neg ?_
  obtain ⟨h3, h5⟩ | hm := hgo
  · simp [h3, h5]
  · simp [hm]

end

omit h1 h7 in
theorem bodyTrunkPowerOp_clear (hf : t.faulted = true) (h : op = 7) (hh : t.handle = none) :
    bodyTrunkPowerOp x c = ((c.powerOp n 7 x.handle).1, (c.powerOp n 7 x.handle).2.powerSettle) := by
  subst ht hxn
  unfold bodyTrunkPowerOp
  dsimp only
  rw [← hop, h, if_neg (by simp [hz]; omega), if_neg (by simp), if_neg (by simp [hf]), if_neg (by simp), if_neg (by simp), hh]
  rfl

end

/-! What each operation starts (Table 18.9) -/

section
variable {n op h : Nat}

theorem Chip.powerOp_request (hop : op = 1) (hp : (c.tpOf n).peer = none) :
    c.powerOp n op h = (accepted, (c.setTp n { c.tpOf n with handle := some (h, op) }).sbAsk n 0x02 []) := by
  subst hop
  unfold Chip.powerOp
  simp [hp]

theorem Chip.powerOp_swapRole (hop : op = 2) :
    c.powerOp n op h = (accepted, (c.setTp n { c.tpOf n with handle := some (h, op) }).sbAsk n 0x08 []) := by
  subst hop
  rfl

theorem Chip.powerOp_softReset (hop : op = 3) :
    c.powerOp n op h = (accepted, (c.setTp n { c.tpOf n with handle := some (h, op) }).sbAsk n 0x0B []) := by
  subst hop
  rfl

theorem Chip.powerOp_hardReset (hop : op = 4) :
    c.powerOp n op h = ({ accepted with committed := true }, (c.setTp n { c.tpOf n with handle := some (h, op) }).hardSend n 0x0D07) := by
  subst hop
  rfl

theorem Chip.powerOp_arm (hop : op = 5) (hfs : (c.tpOf n).cfg.fsAllow = true) (hl : c.localFeedValid = true) :
    c.powerOp n op h = (accepted, (c.setTp n { c.tpOf n with handle := some (h, op) }).autoArm n) := by
  subst hop
  unfold Chip.powerOp
  simp [hfs, hl]

theorem Chip.powerOp_disarm (hop : op = 6) : c.powerOp n op h = ({ accepted with done := some (stOk, 0, 0) }, c.disarm n) := by
  subst hop
  rfl

end

/-! ### Trunk power status and the cable -/

theorem offerBytes_length (l : List (Nat × Nat)) : (offerBytes l).length = 24 :=
  length_flatten_fields (f := fun i => le 1 (nth (0, 0) l i).1 ++ zeros 1 ++ le 2 (nth (0, 0) l i).2) (m := 4) (fun _ => by simp) 6

/-- The peer's part of TRUNK_POWER_STATUS: its fast swap flag, its DEV_ROLE, its PREC and its offers, zero while it is unknown. -/
def TrunkPower.peerShown (t : TrunkPower) : Bool × Nat × Nat × List (Nat × Nat) :=
  t.peer.elim (false, 0, 0, []) fun p => (bitOf p.cflags 4, p.devRole, p.prec, p.offers)

/-- TRUNK_POWER_STATUS up to the contract's limit and current (Table 18.8). -/
def Chip.tpowerHead (c : Chip) (n : Nat) : Bytes :=
  le 1 n ++ le 1 (c.tpOf n).attach ++ le 1 (c.tpOf n).prole ++ le 1 (c.tpOf n).pstate.code ++ le 1 (c.tpOf n).volt ++
    le 1 (b2n (c.tpOf n).armed + 2 * b2n (c.tpOf n).peerShown.1) ++ le 1 (c.cableClass n) ++ le 1 (c.tpOf n).peerShown.2.1 ++
    le 2 (c.tpOf n).limit ++ le 2 (c.tpOf n).op

/-- TRUNK_POWER_STATUS up to its counts. -/
def Chip.tpowerLine (c : Chip) (n : Nat) : Bytes :=
  c.tpowerHead n ++ le 4 (c.chan (2 + n)).vMv ++ le 4 (c.chan (2 + n)).iMa ++ le 1 (c.tpOf n).peerShown.2.2.1 ++ zeros 1 ++ le 2 (c.tpOf n).lastReason ++
    offerBytes (c.tpOf n).peerShown.2.2.2

/-- The data of TRUNK_POWER_STATUS. -/
def Chip.tpowerStatus (c : Chip) (n : Nat) : Bytes :=
  c.tpowerLine n ++ le 4 (c.tpOf n).contracts ++ le 4 (c.tpOf n).hardResets ++ le 4 (c.tpOf n).fastSwaps ++ le 4 (c.tpOf n).frameErrors

theorem bodyTrunkPowerStatus_of_valid (hn : fld x.ps 0 1 ≤ 3) (hz : rsvd x.ps 1 3 = true) :
    bodyTrunkPowerStatus x c = (ok (c.tpowerStatus (fld x.ps 0 1)), c) := by
  unfold bodyTrunkPowerStatus Chip.tpowerStatus Chip.tpowerLine Chip.tpowerHead TrunkPower.peerShown
  dsimp only
  rw [if_neg (by simp [hz]; omega)]
  cases (c.tpOf (fld x.ps 0 1)).peer with
  | none => rfl
  | some p => rfl

theorem Chip.tpowerHead_length (c : Chip) (n : Nat) : (c.tpowerHead n).length = 12 := by
  simp [Chip.tpowerHead]

theorem Chip.tpowerLine_length (c : Chip) (n : Nat) : (c.tpowerLine n).length = 48 := by
  simp [Chip.tpowerLine, Chip.tpowerHead_length, offerBytes_length]

theorem Chip.tpowerStatus_length (c : Chip) (n : Nat) : (c.tpowerStatus n).length = 64 := by
  simp [Chip.tpowerStatus, Chip.tpowerLine_length]

theorem Chip.fld_tpowerStatus_head (c : Chip) (n : Nat) {o m : Nat} (h : o + m ≤ 12) : fld (c.tpowerStatus n) o m = fld (c.tpowerHead n) o m := by
  have hhead := c.tpowerHead_length n
  have hline := c.tpowerLine_length n
  have hstatus : fld (c.tpowerStatus n) o m = fld (c.tpowerLine n) o m := by
    simp only [Chip.tpowerStatus, List.append_assoc]
    exact fld_append_left (by omega)
  rw [hstatus]
  simp only [Chip.tpowerLine, List.append_assoc]
  exact fld_append_left (by omega)

/-- The counts of TRUNK_POWER_STATUS. -/
theorem Chip.fld_tpowerStatus_counts (c : Chip) (n : Nat) :
    fld (c.tpowerStatus n) 48 4 = (c.tpOf n).contracts % 2 ^ 32 ∧ fld (c.tpowerStatus n) 52 4 = (c.tpOf n).hardResets % 2 ^ 32 ∧
    fld (c.tpowerStatus n) 56 4 = (c.tpOf n).fastSwaps % 2 ^ 32 ∧ fld (c.tpowerStatus n) 60 4 = (c.tpOf n).frameErrors % 2 ^ 32 := by
  simp [Chip.tpowerStatus, fld_append_left, fld_append_right, Chip.tpowerLine_length]

theorem PState.code_lt (s : PState) : s.code < 256 := by cases s <;> decide

/-- The trunk, its role and state, and the contract in TRUNK_POWER_STATUS. -/
theorem Chip.fld_tpowerStatus_contract (c : Chip) {n : Nat} (hn : n ≤ 3) :
    fld (c.tpowerStatus n) 0 1 = n ∧ fld (c.tpowerStatus n) 2 1 = (c.tpOf n).prole % 256 ∧ fld (c.tpowerStatus n) 3 1 = (c.tpOf n).pstate.code ∧
    fld (c.tpowerStatus n) 4 1 = (c.tpOf n).volt % 256 ∧ fld (c.tpowerStatus n) 8 2 = (c.tpOf n).limit % 65536 ∧
    fld (c.tpowerStatus n) 10 2 = (c.tpOf n).op % 65536 := by
  have hn256 : n % 256 = n := Nat.mod_eq_of_lt (by omega)
  have hcode := Nat.mod_eq_of_lt (c.tpOf n).pstate.code_lt
  simp [Chip.fld_tpowerStatus_head, Chip.tpowerHead, fld_append_left, fld_append_right, hn256, hcode]

theorem Chip.cableBytes_length (c : Chip) (n : Nat) : (c.cableBytes n).length = 36 := by
  simp [Chip.cableBytes]

theorem bodyCableGet_of_valid (hn : fld x.ps 0 1 ≤ 3) (hg : fld x.ps 1 1 ≤ 1) (hz : rsvd x.ps 2 2 = true) {n : Nat} (hxn : n = fld x.ps 0 1) :
    bodyCableGet x c = if fld x.ps 1 1 = 1 && (c.tpOf n).prole != 0 && !(c.tpOf n).deaf then
        ({ hold := true }, (c.sbCableQuery n).setTp n
          { (c.sbCableQuery n).tpOf n with cableDue := ((c.sbCableQuery n).tpOf n).cableDue ++ [(x.sess, x.tag)] })
      else (ok (c.cableBytes n), c) := by
  subst hxn
  unfold bodyCableGet
  dsimp only
  rw [if_neg (by simp [hz]; omega)]

/-- The answer of the cable to the one CABLE_GET that waits for it. -/
theorem Chip.cableReply_one {n tag : Nat} {ses : Session} {y : TrunkPower} {a : Reply} (hy : y = c.tpOf n) (hdue : y.cableDue = [(ses, tag)])
    (ha : a = { sess := ses, status := stOk, tag, data := c.cableBytes n }) : c.cableReply n = (c.setTp n { y with cableDue := [] }).postReply a := by
  subst hy ha
  unfold Chip.cableReply
  dsimp only
  rw [hdue]
  rfl

end

/-- Settles O57: each command's body by what its parameters ask for, and the answer that its outcome gets. -/
theorem powerCommandsAct : Obligations.PowerCommandsAct := by
  unfold Obligations.PowerCommandsAct
  rintro s p c x b n rfl hn
  refine ⟨fun k h hk h13 h7 hz hr => ?_, fun k op h hk hop h13 hz => ?_,
    fun f h hprio h2 h50 hff hv hv' hr hr' hs hp hp' hf => ?_, fun h hroom => ?_,
    fun t k ob scale pf h ht hob hpf hscale h3 h63 h15 hz3 hoffers h32 hz33 h34 h34' h36 h36' hz38 hk => ?_,
    fun t op h hx ht hop h3 h1 h7 hz => ?_, fun t h ht h3 hz hroom => ?_, fun t d h ht h3 hz hroom hd => ?_,
    fun e y hy ses tag hdue a ha => Chip.cableReply_one hy hdue ?_⟩
  · have hbody := bodyPwrChannelSet_of_valid (x := s.ctxOf 0x0C01 p c) (c := c) hk (hn ▸ h13) h7 hz hr
    rw [State.ctxOf_ps, ← hn] at hbody
    refine ⟨fun ht hl => ?_, fun hto => ?_⟩
    · exact runCommand_err h (hbody.trans (if_pos (by simp [ht, hl]))) (by decide)
    · rw [if_neg (by obtain hto | hto := hto <;> simp [hto])] at hbody
      refine ⟨fun h2 => ?_, fun h2 => ?_⟩
      · rw [if_neg (by simp [h2])] at hbody
        exact runCommand_ok_empty h hbody
      · rw [if_pos h2] at hbody
        exact runCommand_ok_empty h hbody
  · subst hop hn
    have hon := bodyPwrChannelCtrl_on (x := s.ctxOf 0x0C02 p c) (c := c) h13 hz hk
    have hclear := bodyPwrChannelCtrl_clear (x := s.ctxOf 0x0C02 p c) (c := c) h13 hz hk
    refine ⟨fun h1 ht => ?_, fun h1 ht hs => ?_, fun h1 ht hs hi => ?_, fun h0 ht hs => ?_, fun h1 ht hs hi => ?_, fun h1 ht hs hs' hi => ?_,
      fun h2 hs => ?_, fun h2 hs hs' => ?_⟩
    · exact runCommand_err h (bodyPwrChannelCtrl_trunk h13 hz h1 ht) (by decide)
    · exact runCommand_err h ((hon h1 ht).trans (if_pos hs)) (by decide)
    · exact runCommand_err h ((hon h1 ht).trans ((if_neg hs).trans (if_pos hi))) (by decide)
    · exact runCommand_ok_empty h (bodyPwrChannelCtrl_off h13 hz hk h0 ht hs)
    · have hbody := (hon h1 ht).trans ((if_neg (by simp [hs])).trans (if_neg hi))
      rw [if_pos hs] at hbody
      exact runCommand_ok_empty h hbody
    · have hbody := (hon h1 ht).trans ((if_neg hs').trans (if_neg hi))
      rw [if_neg hs] at hbody
      exact runCommand_ok_empty h hbody
    · have hbody := hclear h2
      rw [if_pos hs] at hbody
      exact runCommand_ok_empty h hbody
    · have hbody := hclear h2
      rw [if_neg (by simp [hs, hs'])] at hbody
      exact runCommand_ok_empty h hbody
  · have hbody := bodyPwrFeedSet_of_valid (x := s.ctxOf 0x0C03 p c) (c := c) ⟨hprio, ⟨h2, h50⟩, hff, ⟨hv, hv'⟩, ⟨hr, hr'⟩, hs, ⟨hp, hp'⟩⟩ hf
    refine ⟨fun h1 => ?_, fun h1 => ?_⟩
    · rw [if_neg (by simp [h1])] at hbody
      exact runCommand_ok_empty h hbody
    · rw [if_pos (by simpa using h1)] at hbody
      exact runCommand_ok_empty h hbody
  · exact ⟨c.pwrStatus, c.pwrStatus_length, runCommand_ok h (bodyPwrStatus_eq ..) (by rwa [Chip.pwrStatus_length]),
      c.fld_pwrStatus_feed, c.fld_pwrStatus_flags, fun _ => c.pwrStatus_record⟩
  · subst hob hpf hn
    have hbody := bodyTrunkPowerSet_of_valid (x := s.ctxOf 0x0D01 p c) (c := c)
      ⟨h3, h63, h15, hz3, hoffers, h32, hz33, ⟨h34, h34'⟩, ⟨h36, h36'⟩, hz38⟩ hk
    have hko : k.offers = offersOf (sliceB p.params 8 24) := congrArg TPowerCfg.offers hk
    rw [State.ctxOf_ps, ← hscale, hko] at hbody
    rw [← hko]
    rw [← hko] at hbody
    refine ⟨fun hbeyond => ?_, fun hfit h5 hquiet => ?_, fun hfit h5 => ⟨fun hquiet => ?_, fun d hne hp hs hf hd => ?_⟩⟩
    · exact runCommand_err h (hbody.trans (if_pos ((offersBeyond_iff ..).2 hbeyond))) (by decide)
    · rw [if_neg (not_offersBeyond hfit), if_pos h5, Chip.applyTPower_quiet ht hquiet] at hbody
      exact runCommand_ok_empty h hbody
    · rw [if_neg (not_offersBeyond hfit), if_neg (by simp [h5]), Chip.applyTPower_quiet ht hquiet] at hbody
      exact runCommand_ok_empty h hbody
    · rw [if_neg (not_offersBeyond hfit), if_neg (by simp [h5]), Chip.applyTPower_changed ht hne hp hs hf hd] at hbody
      exact runCommand_ok_empty h hbody
  · subst hx
    refine ⟨fun hf hne => ?_, fun hf h7' => ?_, fun hf hne hp hs => ?_, fun hf hsink hp => ?_, fun hf hp hne hsink => ⟨fun hd o hh => ?_, fun hh hr d hd => ?_⟩,
      fun hf h7' hh hr => ?_⟩
    · exact runCommand_err h (bodyTrunkPowerOp_faulted ht hn hop h3 h1 h7 hz hf hne) (by decide)
    · exact runCommand_err h (bodyTrunkPowerOp_notAttached ht hn hop h3 h1 h7 hz hf (.inl h7')) (by decide)
    · exact runCommand_err h (bodyTrunkPowerOp_notAttached ht hn hop h3 h1 h7 hz hf (.inr (.inl ⟨hne, hp, hs⟩))) (by decide)
    · exact runCommand_err h (bodyTrunkPowerOp_notAttached ht hn hop h3 h1 h7 hz hf (.inr (.inr ⟨hsink, hp⟩))) (by decide)
    · exact runCommand_err h (bodyTrunkPowerOp_busy (x := s.ctxOf 0x0D02 p c) ht hn hop h3 h1 h7 hz hf hp hne hsink hh) (by decide)
    · have hrun := fun hgo => bodyTrunkPowerOp_starts (x := s.ctxOf 0x0D02 p c) ht hn hop h3 h1 h7 hz hf hp hne hsink hh hgo
      have hmoving := fun hm hgo => bodyTrunkPowerOp_moving (x := s.ctxOf 0x0D02 p c) ht hn hop h3 h1 h7 hz hf hp hne hsink hh hm hgo
      subst ht hd
      refine ⟨fun h4 => ?_, fun h6 => ?_, fun hs1 hs2 hs3 => ⟨fun h2 => ?_, fun h3' => ?_, fun h5 hfs hl => ?_, fun h1' hpeer => ?_⟩, fun hle hs => ?_⟩
      · exact runCommand_accepted_committed h (hrun (.inl (by omega)) _ (Chip.powerOp_hardReset h4)) hr
      · exact runCommand_done h (hrun (.inl (by omega)) _ (Chip.powerOp_disarm h6)) hr
      · exact runCommand_accepted h (hrun (.inr (TrunkPower.moving_false hs1 hs2 hs3)) _ (Chip.powerOp_swapRole h2)) hr
      · exact runCommand_accepted h (hrun (.inr (TrunkPower.moving_false hs1 hs2 hs3)) _ (Chip.powerOp_softReset h3')) hr
      · exact runCommand_accepted h (hrun (.inr (TrunkPower.moving_false hs1 hs2 hs3)) _ (Chip.powerOp_arm h5 hfs hl)) hr
      · exact runCommand_accepted h (hrun (.inr (TrunkPower.moving_false hs1 hs2 hs3)) _ (Chip.powerOp_request h1' hpeer)) hr
      · refine runCommand_err h (hmoving ?_ (.inl hle)) (by decide)
        obtain hs | hs | hs := hs <;> simp [TrunkPower.moving, hs]
    · exact runCommand_done h ((bodyTrunkPowerOp_clear ht hn hop h3 hz hf h7' hh).trans (by rw [ht]; rfl)) hr
  · subst ht hn
    obtain ⟨hcontracts, hhard, hfast, hframe⟩ := c.fld_tpowerStatus_counts (fld p.params 0 1)
    obtain ⟨htrunk, hrole, hstate, hvolt, hlimit, hop⟩ := c.fld_tpowerStatus_contract h3
    exact ⟨c.tpowerStatus (fld p.params 0 1), c.tpowerStatus_length _,
      runCommand_ok h (bodyTrunkPowerStatus_of_valid h3 hz) (by rwa [Chip.tpowerStatus_length]), htrunk, hrole, hstate, hvolt, hlimit, hop,
      hcontracts, hhard, hfast, hframe⟩
  · subst ht
    have hbody := fun hg => bodyCableGet_of_valid (x := s.ctxOf 0x0D04 p c) (c := c) (hn ▸ h3) hg hz hn
    refine ⟨fun hg => ?_, fun hg hp hs hf => ?_⟩
    · have hbytes : d = c.cableBytes n := hd
      rw [hbytes]
      refine runCommand_ok h ((hbody ?_).trans (if_neg ?_)) (by rwa [Chip.cableBytes_length])
      · obtain hg | ⟨hg, -⟩ := hg <;> simp [hg]
      · obtain hg | ⟨-, hp⟩ := hg
        · simp [hg]
        · simp [hp]
    · refine runCommand_held h ((hbody hg.le).trans (if_pos ?_))
      simp [hg, hp, TrunkPower.deaf_false hs hf]
  · subst hy
    exact ha

end Sys2Proof.Machine
end
